-- ==== Sys2Proof/Word.lean ====
section
/-! DEFINITION. Bytes, byte orders and the plain arithmetic of the manual's pseudocode (00 R3, R4, R12). -/

namespace Sys2Proof

/-- One byte of a packet, a record or a register. -/
abbrev Byte := BitVec 8
/-- A byte string. -/
abbrev Bytes := List Byte
/-- A register of the 32-bit register blocks. -/
abbrev Word32 := BitVec 32

/-- `ceil_div(a, b)` of R12. -/
def ceilDiv (a b : Nat) : Nat := (a + b - 1) / b

/-- `clamp(x, lo, hi)`. -/
def clampNat (x lo hi : Nat) : Nat := max lo (min x hi)

/-- `v` as `n` bytes, big-endian (R3: wire fields). -/
def beBytes : (n : Nat) → (v : Nat) → Bytes
  | 0, _ => []
  | n + 1, v => BitVec.ofNat 8 (v >>> (8 * n)) :: beBytes n v

/-- `v` as `n` bytes, little-endian (R3: descriptors and stored records). -/
def leBytes : (n : Nat) → (v : Nat) → Bytes
  | 0, _ => []
  | n + 1, v => BitVec.ofNat 8 v :: leBytes n (v >>> 8)

/-- The integer that big-endian bytes spell. -/
def ofBE (bs : Bytes) : Nat := bs.foldl (fun a b => a * 256 + b.toNat) 0

/-- The integer that little-endian bytes spell. -/
def ofLE (bs : Bytes) : Nat := bs.foldr (fun b a => a * 256 + b.toNat) 0

/-- `n` bytes from offset `off`. -/
def sliceBytes (bs : Bytes) (off n : Nat) : Bytes := (bs.drop off).take n

/-- The big-endian field of `n` bytes at offset `off`. -/
def beAt (bs : Bytes) (off n : Nat) : Nat := ofBE (sliceBytes bs off n)

/-- The little-endian field of `n` bytes at offset `off`. -/
def leAt (bs : Bytes) (off n : Nat) : Nat := ofLE (sliceBytes bs off n)

/-- `n` zero bytes. -/
def zeros (n : Nat) : Bytes := List.replicate n 0

/-- `bs` padded with zeros to `n` bytes, and cut there. -/
def padTo (bs : Bytes) (n : Nat) : Bytes := (bs ++ zeros (n - bs.length)).take n

/-- Bit `i` of `v`. -/
def bitAt (v i : Nat) : Bool := v.testBit i

/-- The field `[lo + w - 1 : lo]` of `v` (R4). -/
def fieldAt (v lo w : Nat) : Nat := (v >>> lo) % 2 ^ w

/-- One for true, zero for false. -/
def bit (b : Bool) : Nat := if b then 1 else 0

/-- True exactly when every byte is zero. -/
def allZero (bs : Bytes) : Bool := bs.all (· == 0)

/-- `bs` with the bytes from `off` replaced by `new`, growing with zeros where `off` lies beyond its end. -/
def overlay (bs : Bytes) (off : Nat) (new : Bytes) : Bytes :=
  padTo bs (max bs.length off) |>.take off |> (· ++ new ++ bs.drop (off + new.length))

/-- The CRC-32 of IEEE 802.3 after one more byte (reflected polynomial 0xEDB8_8320). -/
def crc32Byte (crc : Nat) (b : Byte) : Nat :=
  let step (c : Nat) : Nat := if c % 2 = 1 then (c / 2) ^^^ 0xEDB88320 else c / 2
  step (step (step (step (step (step (step (step (crc ^^^ b.toNat))))))))

/-- The CRC-32 of IEEE 802.3 (07 R197, 15 R426, R440, R443). -/
def crc32 (bs : Bytes) : Nat := (bs.foldl crc32Byte 0xFFFFFFFF) ^^^ 0xFFFFFFFF

end Sys2Proof
end

