-- ==== Sys2Proof/Types/Firmware.lean ====
section
/-! DEFINITION. Boot flash, OTP, staging, activation, Lace and life cycle: the state of 15_firmware_lifecycle.md. -/

namespace Sys2Proof.Machine

/-- A pointer record of the boot flash (R426). -/
structure PtrRec where
  slot : Nat
  seq : Nat
  version : Nat
  rollback : Nat
  length : Nat
  deriving DecidableEq, Repr

/-- The 32 bytes of a pointer record (R426). -/
def PtrRec.bytes (p : PtrRec) : Bytes :=
  let b := leBytes 1 1 ++ leBytes 1 p.slot ++ zeros 2 ++ leBytes 4 p.seq ++ leBytes 4 p.version ++ leBytes 1 p.rollback ++ zeros 3 ++
    leBytes 4 p.length ++ zeros 8
  b ++ leBytes 4 (crc32 b)

/-- The pointer record that 32 bytes hold, if their CRC holds (R426). -/
def ptrOfBytes (b : Bytes) : Option PtrRec :=
  if b.length = 32 ∧ leAt b 0 1 = 1 ∧ leAt b 28 4 = crc32 (b.take 28) then
    some { slot := leAt b 1 1 % 2, seq := leAt b 4 4, version := leAt b 8 4, rollback := leAt b 12 1, length := leAt b 16 4 }
  else none

/-- A boot horizon record (R301). -/
structure Horizon where
  cycle : Nat
  chunk : Nat
  check : Bytes
  deriving DecidableEq, Repr

/-- One OTP root seed slot (R293). -/
inductive SeedSlot where
  | unprogrammed
  | generated (seed : Bytes)
  | revoked
  deriving DecidableEq, Repr

/-- The OTP cells (R293, R299, R321, R428, R442, R443). -/
structure Otp where
  serial : Nat := 0
  macBase : Nat := 0
  noncePrefix : Nat := 0
  seeds : List SeedSlot := [.unprogrammed, .unprogrammed, .unprogrammed, .unprogrammed]
  /-- bits set in the anti-rollback thermometer, RollbackCount -/
  rollback : Nat := 0
  /-- the life-cycle thermometer, bits 0 to 4 (R442) -/
  life : Nat := 0
  /-- programmed settings generations in order; none where programming failed -/
  gens : List (Option Bytes) := []
  deriving DecidableEq, Repr

/-- The boot flash (Table 15.1). -/
structure Flash where
  /-- the pointer block's records, oldest first -/
  ptrs : List Bytes := []
  slotA : Option Bytes := none
  slotB : Option Bytes := none
  site : Option Bytes := none
  horizons : List Horizon := []
  /-- CopySeq and FormatVersion of the newest settings copy; its entries are `DictSt.stored` -/
  copySeq : Nat := 0
  format : Nat := 0
  deriving DecidableEq, Repr

/-- The staged image (R430, Table 4.28). -/
structure Staged where
  id : Nat := 0
  length : Nat := 0
  /-- ranges received so far, by offset, with their bytes -/
  parts : List (Nat × Bytes) := []
  /-- ImageState of Table 4.28, 0xFF none -/
  st : Nat := 0xFF
  version : Nat := 0
  /-- 0 NONE, 1 COPYING, 2 IN_FLASH, 3 FAILED -/
  copy : Nat := 0
  copyEndsAt : Nat := 0
  deriving DecidableEq, Repr

/-- Where a live activation stands (R433). -/
inductive ActPhase where
  | idle
  /-- step 4: committed, the new firmware prepares -/
  | preparing
  /-- step 5: execution pauses -/
  | pausing
  /-- step 7: taken over, cores 0 to 3 rejoin -/
  | rejoining
  deriving DecidableEq, Repr

/-- The handover record (Table 15.4). -/
structure Handover where
  migrated : Bool
  oldVersion : Nat
  newVersion : Nat
  format : Nat
  pauseStart : Nat
  stateTableAddr : Nat
  stateTableLength : Nat
  volBlockLength : Nat
  volBlockAddr : Nat
  eventNextSeq : Nat
  digest : Bytes
  deriving DecidableEq, Repr

/-- Its 128 bytes. -/
def Handover.bytes (h : Handover) : Bytes :=
  leBytes 1 1 ++ leBytes 1 (if h.migrated then 1 else 0) ++ zeros 2 ++ leBytes 4 h.oldVersion ++ leBytes 4 h.newVersion ++
  leBytes 2 h.format ++ zeros 2 ++ leBytes 8 h.pauseStart ++ leBytes 8 h.stateTableAddr ++ leBytes 4 h.stateTableLength ++
  leBytes 4 h.volBlockLength ++ leBytes 8 h.volBlockAddr ++ leBytes 8 h.eventNextSeq ++ zeros 24 ++ padTo h.digest 48

/-- A live activation (R433 to R436). -/
structure Activation where
  phase : ActPhase := .idle
  sid : Nat := 0
  tag : Nat := 0
  /-- t_p of R150 -/
  tp : Nat := 0
  startedAt : Nat := 0
  /-- end of step 3, from which ActivationPrepMs runs -/
  preparedFrom : Nat := 0
  pauseAt : Nat := 0
  /-- the handover record in DRAM -/
  handover : Option Bytes := none
  deriving DecidableEq, Repr

/-- LaceState (0x2A03:04). -/
inductive LaceSt where
  | idle | sending | waiting | done | stopped
  deriving DecidableEq, Repr

/-- The code of LaceState. -/
def LaceSt.code : LaceSt → Nat
  | .idle => 0 | .sending => 1 | .waiting => 2 | .done => 3 | .stopped => 4

/-- The Lace chain (R438, R439). -/
structure Lace where
  st : LaceSt := .idle
  successor : Nat := 0
  /-- successors already skipped for this image -/
  skipped : List Nat := []
  /-- when the image was first offered to the successor -/
  offeredAt : Nat := 0
  image : Bytes := []
  sentBytes : Nat := 0
  activateSent : Bool := false
  deriving DecidableEq, Repr

/-- Instructions of the test access port (16 R452): IDCODE, BYPASS, the boundary scan, and the boot ROM's image load (R451). -/
inductive TapInstr where
  | idcode | bypass | scan | load
  deriving DecidableEq, Repr

/-- Everything of 15_firmware_lifecycle.md. -/
structure Fw where
  flash : Flash := {}
  otp : Otp := {}
  running : Nat := 0
  subproc : Nat := 0
  slot : Nat := 0
  digest : Bytes := List.replicate 48 0
  siteVersion : Nat := 0
  staged : Staged := {}
  act : Activation := {}
  lace : Lace := {}
  /-- the OTP settings generation in effect since the last MUSTER -/
  genInEffect : Option Bytes := none
  /-- a wipe asked for before the next MUSTER: the life-cycle bit to program (R442, R312) -/
  wipe : Option Nat := none
  bootMode : Nat := 0
  /-- the test access port: its instruction, none while its pads have no power, and the settings generation that governs it -/
  tap : Option TapInstr := none
  tapGen : Option Bytes := none
  deriving DecidableEq, Repr

end Sys2Proof.Machine
end

