-- ==== Sys2Proof/Types/Power.lean ====
section
/-! DEFINITION. Modes, transitions, power domains, clocks, gates and the frequency counter: the state of
13_modes_power_clocks.md. -/

namespace Sys2Proof.Machine

/-- Operating modes (0x2000:01, Table 13.1). -/
inductive Mode where
  | dormant | muster | serve | lull1 | lull2 | sweep | halt
  deriving DecidableEq, Repr

/-- The code of 0x2000:01. -/
def Mode.code : Mode → Nat
  | .dormant => 0 | .muster => 1 | .serve => 2 | .lull1 => 3 | .lull2 => 4 | .sweep => 5 | .halt => 6

/-- SERVE or one of the LULL modes. -/
def Mode.serving : Mode → Bool
  | .serve => true | .lull1 => true | .lull2 => true | _ => false

/-- PD_CORE is powered (Table 13.1). -/
def Mode.powered : Mode → Bool
  | .dormant => false | _ => true

/-- The reported NMT state and heartbeat byte (Table 12.5). -/
def Mode.heartbeat : Mode → Nat
  | .dormant => 0x04 | .halt => 0x04 | .muster => 0x7F | .sweep => 0x7F
  | .serve => 0x05 | .lull1 => 0x05 | .lull2 => 0x05

/-- The power domains of Table 1.2, in the order of CPC_DOMAINS (R395). -/
inductive Dom where
  | aon | core | kv | netA | netB | dram | media | welt | sec
  deriving DecidableEq, Repr

/-- Every domain, in CPC_DOMAINS order. -/
def Dom.all : List Dom := [.aon, .core, .kv, .netA, .netB, .dram, .media, .welt, .sec]

/-- The position of a domain in CPC_DOMAINS. -/
def Dom.idx : Dom → Nat
  | .aon => 0 | .core => 1 | .kv => 2 | .netA => 3 | .netB => 4 | .dram => 5 | .media => 6 | .welt => 7 | .sec => 8

/-- The state of a domain (R369, R395). -/
inductive DomState where
  | off | retain | on | changing
  deriving DecidableEq, Repr

/-- The code of CPC_DOMAINS. -/
def DomState.code : DomState → Nat
  | .off => 0 | .retain => 1 | .on => 2 | .changing => 3

/-- The monitored clock sources, in CPC_CLOCKS order (R395). -/
inductive Source where
  | xtal25 | xtal32k | fso | wosc | recA | recB | ethRefclk
  deriving DecidableEq, Repr

/-- Every source, in CPC_CLOCKS order. -/
def Source.all : List Source := [.xtal25, .xtal32k, .fso, .wosc, .recA, .recB, .ethRefclk]

/-- The position of a source in CPC_CLOCKS. -/
def Source.idx : Source → Nat
  | .xtal25 => 0 | .xtal32k => 1 | .fso => 2 | .wosc => 3 | .recA => 4 | .recB => 5 | .ethRefclk => 6

/-- Source states of R387. -/
inductive SrcState where
  | off | starting | healthy | dead
  deriving DecidableEq, Repr

/-- The code of CPC_CLOCKS. -/
def SrcState.code : SrcState → Nat
  | .off => 0 | .starting => 1 | .healthy => 2 | .dead => 3

/-- One monitored source (R387). -/
structure Src where
  st : SrcState := .off
  /-- edges counted since the source started, toward its start count (R385) -/
  edges : Nat := 0
  /-- consecutive windows outside five percent -/
  bad : Nat := 0
  /-- consecutive windows within five percent, counted while DEAD or for a return of rank -/
  good : Nat := 0
  lastCount : Nat := 0
  deriving DecidableEq, Repr

/-- The four PLLs of Table 13.7. -/
inductive Pll where
  | cpll | npll | mpll | fpll
  deriving DecidableEq, Repr

/-- The position of a PLL. -/
def Pll.idx : Pll → Nat
  | .cpll => 0 | .npll => 1 | .mpll => 2 | .fpll => 3

/-- The state of one PLL (R388, R391). -/
structure PllSt where
  locked : Bool := false
  holdover : Bool := false
  /-- its reference; none before it is first started -/
  ref : Option Source := none
  /-- time at which a relock began (R391) -/
  relockSince : Option Nat := none
  /-- the PLL failed and the next MUSTER must lock it (R391) -/
  failed : Bool := false
  /-- consecutive entries to MUSTER at which it did not lock -/
  fails : Nat := 0
  deriving DecidableEq, Repr

/-- Why a hold-up flush runs, and so what follows its end (R371, R375, R377, R378, R379). -/
inductive FlushWhy where
  | pfail | warm | toDormant | toHalt | trip
  deriving DecidableEq, Repr

/-- Where a running transition stands (R370). -/
inductive Phase where
  /-- no transition runs -/
  | idle
  /-- leaving SERVE or LULL: admitted commands drain (R86) -/
  | draining
  /-- the hold-up flush runs (R252) -/
  | flushing (why : FlushWhy)
  /-- the flush has ended and the warm reset waits for WARM_RST_N (R378) -/
  | resetHeld
  /-- an orderly transition to DORMANT waits for DMA to quiesce (R383) -/
  | quiescing
  /-- PWR_REQ is low; main power may go (R377). With `back`, power that stays brings the drive back to MUSTER -/
  | awaitPower (back : Bool)
  deriving DecidableEq, Repr

/-- The causes that HALT is entered for, with their drain and flush columns (Table 13.3). -/
inductive HaltCause where
  | noDie | dramConfig | recovery | activation | class2 | tamper | counter | pll
  deriving DecidableEq, Repr

/-- Mode, transition, handshake pins and thermal state (13 R369 to R381). -/
structure ModeSt where
  mode : Mode := .dormant
  phase : Phase := .idle
  /-- the target of the running transition (ModeTarget) -/
  target : Option Mode := none
  /-- the code of the running transition's trigger, for event 0x0101 -/
  trig : Nat := 0
  /-- start of the running flush -/
  flushAt : Nat := 0
  /-- a request held after PWR_REQ was deasserted (R370) -/
  held : Option Mode := none
  /-- the cause of a transition to HALT, or of the HALT the drive is in -/
  halt : Option HaltCause := none
  /-- the mode whose transition began, for the mode to return to (R371, R377) -/
  leaving : Mode := .dormant
  /-- MUSTER has its dictionary ready and recovery runs -/
  recovering : Bool := false
  /-- start of the present MUSTER (PWR_GOOD_CORE or release of the warm reset), for LastWakeMs -/
  musterAt : Nat := 0
  /-- the latest time up to which draining may go on, for HALT_DRAIN_TIMEOUT -/
  drainUntil : Option Nat := none
  /-- time of the last change that ended an idle condition of R372 -/
  idleSince : Nat := 0
  lull1At : Nat := 0
  /-- an NMT command has arrived since the wake (R374) -/
  nmtSinceWake : Bool := false
  /-- the wake alarm started this powered period (R374) -/
  alarmWake : Bool := false
  /-- RTC seconds at the last entry to DORMANT (R381) -/
  dormantRtc : Nat := 0
  /-- wake-alarm intervals already used since that entry -/
  alarmsUsed : Nat := 0
  pwrReq : Bool := false
  pwrReqAt : Nat := 0
  pwrGoodCore : Bool := false
  pwrGoodIo : Bool := false
  pfailN : Bool := true
  /-- a flush has run since PFAIL_N last fell (R378) -/
  flushedSincePfail : Bool := false
  /-- a hold-up flush was cut short, for the next MUSTER to report (R286, R378) -/
  flushCut : Bool := false
  porN : Bool := true
  warmRstN : Bool := true
  holdupOk : Bool := true
  vstby : Bool := true
  tempC : Int := 0
  /-- when the temperature was last sampled -/
  sampleAt : Nat := 0
  /-- ThermalTokenCap; none while no cap applies -/
  cap : Option Nat := none
  /-- direction of the last change of the cap, for event 0x0106: true is down -/
  capDown : Bool := true
  lastThermalStep : Nat := 0
  /-- the last SMBus poll (16 R474) -/
  lastPoll : Nat := 0
  /-- since when the temperature has stayed below ThermalThrottleC - 5 -/
  coolSince : Option Nat := none
  deriving DecidableEq, Repr

/-- One block's clock gate (R393). -/
structure Gate where
  blk : Nat
  closed : Bool := false
  /-- time of a gate request the network port still defers -/
  pending : Option Nat := none
  outstanding : Nat := 0
  deriving DecidableEq, Repr

/-- The registers of counter 1 (R394, Tables 13.10 to 13.12). -/
structure Fmc where
  ctrl : Word32 := 0
  window : Word32 := 0x017D7840
  busy : Bool := false
  done : Bool := false
  err : Bool := false
  srcDead : Bool := false
  count : Nat := 0
  deriving DecidableEq, Repr

/-- Domains, clocks, gates and the controller registers (13 R382 to R395). -/
structure Clk where
  /-- the states of the nine domains, in CPC_DOMAINS order -/
  doms : Vector DomState 9 := #v[.on, .off, .off, .off, .off, .off, .off, .off, .off]
  /-- power-ups requested and waiting for a HEALTHY clock or a running power-down -/
  upWaiting : List Dom := []
  /-- domains whose quiesce waits, with the time of the request and the refusals so far -/
  quiesce : List (Dom × Nat × Nat) := []
  /-- the core cluster's and PD_KV's passed cycles of 16 (R392) -/
  coreRamp : Nat := 16
  kvRamp : Nat := 16
  /-- domains that run from FSO after a stop-switch-restart or a forced switch -/
  onFso : List Dom := []
  srcs : Vector Src 7 := Vector.replicate 7 {}
  plls : Vector PllSt 4 := Vector.replicate 4 {}
  gates : List Gate := []
  /-- domains whose every block gate is closed (Table 13.1, gated) -/
  gatedDoms : List Dom := []
  fmc : Fmc := {}
  /-- retention SRAM holds the trim of WOSC's last lock (R386); the code itself is analogue -/
  woscTrimHeld : Bool := false
  rtcInvalid : Bool := false
  /-- CPC_SITE_HOLD.LULL_HOLD -/
  lullHold : Bool := false
  irqStatus : Word32 := 0
  irqEn : Word32 := 0
  deriving DecidableEq, Repr

end Sys2Proof.Machine
end

