-- ==== Sys2Proof/Types/Ports.lean ====
section
/-! DEFINITION. Ethernet ports, diagnostic capture, PTP and the recovered clock: the state of 11_ethernet_ports.md. -/

namespace Sys2Proof.Machine

/-- The two Ethernet ports. -/
inductive PortId where
  | a | b
  deriving DecidableEq, Repr

/-- 0 for port A, 1 for port B. -/
def PortId.code : PortId → Nat
  | .a => 0 | .b => 1

/-- The other port. -/
def PortId.other : PortId → PortId
  | .a => .b | .b => .a

/-- LinkState (0x2201:14). -/
inductive LinkState where
  | disabled | down | training | hold | up
  deriving DecidableEq, Repr

/-- The code of LinkState. -/
def LinkState.code : LinkState → Nat
  | .disabled => 0 | .down => 1 | .training => 2 | .hold => 3 | .up => 4

/-- A priority (or the whole port, 8) held by received pause (R330, R332). -/
structure PauseHold where
  prio : Nat
  /-- when the pause time runs out -/
  until_ : Nat
  /-- the first pause that stopped transmission -/
  since : Nat
  deriving DecidableEq, Repr

/-- One port (R317 to R335). -/
structure Port where
  link : LinkState := .disabled
  activeMode : Nat := 0
  activeFec : Nat := 0
  preemptActive : Bool := false
  /-- three unanswered verify mPackets: every frame is express until the link next comes up -/
  verifyFailed : Bool := false
  verifySent : Nat := 0
  /-- when the link was last reported up: the verify exchange starts there -/
  upAt : Nat := 0
  /-- start of the link-up hold (R335) -/
  holdAt : Nat := 0
  paused : List PauseHold := []
  /-- received pause is ignored until then (R332) -/
  ignoreUntil : Option Nat := none
  /-- bytes of the port's share of the packet and burst buffer in use (R331) -/
  bufUsed : Nat := 0
  xoff : Bool := false
  xoffAt : Nat := 0
  /-- the recovered clock is valid (R340) -/
  recValid : Bool := false
  /-- echoes sent in the last millisecond: when, and their bytes (R328) -/
  echoes : List (Nat × Nat) := []
  deriving DecidableEq, Repr

/-- A record of the diagnostic capture ring (Table 11.5). -/
structure CapRec where
  seq : Nat
  port : PortId
  flags : Nat
  orig : Nat
  ts : Nat
  data : Bytes
  deriving DecidableEq, Repr

/-- PtpState (0x2204:06). -/
inductive PtpState where
  | listening | uncalibrated | locked | holdover
  deriving DecidableEq, Repr

/-- The code of PtpState. -/
def PtpState.code : PtpState → Nat
  | .listening => 0 | .uncalibrated => 1 | .locked => 2 | .holdover => 3

/-- The best Announce seen on a port (R336). -/
structure Announce where
  port : PortId
  gm : Bytes
  /-- the best-master comparison value, smaller is better -/
  rank : Nat
  deriving DecidableEq, Repr

/-- The PTP clock, the PPS pin and CLKOUT (R336 to R340). -/
structure Ptp where
  st : PtpState := .listening
  slave : Option PortId := none
  gm : Bytes := []
  /-- last measured offset from the master, ns -/
  offset : Int := 0
  /-- PTP time less the drive's own time, ns -/
  delta : Int := 0
  announces : List Announce := []
  lastSync : Nat := 0
  everLocked : Bool := false
  pps : Bool := false
  ppsRoseAt : Nat := 0
  /-- CLKOUT holds its last frequency -/
  clkoutHeld : Bool := false
  deriving DecidableEq, Repr

/-- Both ports, the capture ring and PTP (11). -/
structure Eth where
  portA : Port := {}
  portB : Port := {}
  capture : List CapRec := []
  nextCap : Nat := 1
  /-- DiagCaptureKiB in effect since the last entry to MUSTER -/
  capKiB : Nat := 256
  ptp : Ptp := {}
  deriving DecidableEq, Repr

end Sys2Proof.Machine
end

