-- ==== Sys2Proof/Types/Shelf.lean ====
section
/-! DEFINITION. Dictionary values, clients, and the shelf bus: the state of 12_dictionary_shelf_bus.md. -/

namespace Sys2Proof.Machine

/-- Who makes a dictionary access: an RWP session, a shelf-bus node-ID, or site firmware (R348, R404). -/
inductive Client where
  | rwp (sid : Nat)
  | shelf (node : Nat)
  | site
  deriving DecidableEq, Repr

/-- A dictionary value: a number held in its type's width, or bytes. -/
inductive DVal where
  | num (n : Nat)
  | bytes (b : Bytes)
  deriving DecidableEq, Repr

/-- The selectors of one client (R348). -/
structure Selectors where
  client : Client
  awl : Nat := 0
  ns : Nat := 0
  off : Nat := 0
  deriving DecidableEq, Repr

/-- Who waits for the settings store (R349, R350): a USDO client, a DICT_WRITE, or nobody. -/
inductive Waiter where
  | shelf (node idx sub : Nat)
  | rwp (sid tag : Nat)
  | none
  deriving DecidableEq, Repr

/-- An accepted SYS write, or a StoreAll, that ends when the settings store holds it. -/
structure StoreWait where
  who : Waiter
  /-- the value is already part of the copy now being programmed -/
  inCopy : Bool
  deriving DecidableEq, Repr

/-- An EMCY frame in the queue (Table 12.7). -/
structure Emcy where
  code : Nat
  reg : Nat
  mode : Nat
  evCode : Nat
  evSeq : Nat
  detail : Nat
  deriving DecidableEq, Repr

/-- An open segmented USDO transfer (R363). -/
structure Usdo where
  node : Nat
  upload : Bool
  idx : Nat
  sub : Nat
  /-- an upload's copied value, or a download's bytes so far -/
  data : Bytes
  /-- bytes of an upload already returned -/
  sent : Nat
  /-- total bytes announced by a download -/
  total : Nat
  lastAt : Nat
  deriving DecidableEq, Repr

/-- A dictionary access that waits for the end of an execution pause (15 R435). -/
inductive Delayed where
  | write (client : Client) (key : Nat) (bytes : Bytes)
  | otp (client : Client) (bytes : Bytes) (progOk : Bool)
  | upload (node idx sub : Nat) (segments : Bool)
  | uploadSegment (node : Nat)
  | download (node idx sub : Nat) (bytes : Bytes)
  | downloadInit (node idx sub total : Nat) (bytes : Bytes)
  | downloadSegment (node : Nat) (bytes : Bytes) (last : Bool)
  | close (node : Nat)
  deriving DecidableEq, Repr

/-- The CAN FD controller and what Heel keeps for it (12 R353 to R365). -/
structure Shelf where
  /-- WOSC and the controller run -/
  running : Bool := false
  /-- restarts of WOSC after forced switches since it was last started (13 Table 13.8) -/
  woscRestarts : Nat := 0
  /-- the applied identifier and bit rates -/
  nodeId : Nat := 127
  nominal : Nat := 500
  dataRate : Nat := 2000
  errPassive : Bool := false
  queue : List Emcy := []
  lastEmcy : Option Nat := none
  transfers : List Usdo := []
  /-- accesses that came during an execution pause, in order -/
  delayed : List Delayed := []
  /-- core firmware's dictionary answers instead of Heel -/
  coreAnswers : Bool := false
  /-- last frame addressed to this node (R364) -/
  lastTraffic : Nat := 0
  lastHeartbeat : Nat := 0
  /-- retries of EMCY 0xFF01 so far, and whether one is owed -/
  idAttempts : Nat := 0
  /-- the persistent conditions that stand (Table 12.8) -/
  conds : List Nat := []
  /-- the Heel RTC: seconds since the PTP epoch at the time `rtcAt` -/
  rtcBase : Nat := 0
  rtcAt : Nat := 0
  /-- the boot-up message owed after POR_N or VSTBY (R386) -/
  bootOwed : Bool := false
  deriving DecidableEq, Repr

/-- The dictionary: values that differ from their defaults, and how they are kept (12 R345 to R352). -/
structure DictSt where
  /-- values in effect, keys index times 256 plus subindex, strictly rising, no entry at its default -/
  vals : List (Nat × DVal) := []
  /-- the settings store's SYS values, in the same form -/
  stored : List (Nat × DVal) := []
  /-- SYS writes Heel holds while PD_CORE is off -/
  heel : List (Nat × DVal) := []
  sels : List Selectors := []
  /-- restore groups marked: 1 all, 2 communication, 3 application -/
  restore : List Nat := []
  /-- writes that end with the settings store -/
  waits : List StoreWait := []
  /-- a settings copy is being programmed, and the SYS values it holds -/
  programming : Bool := false
  copy : List (Nat × DVal) := []
  deriving DecidableEq, Repr

end Sys2Proof.Machine
end

