-- ==== Sys2Proof/Types/Kv.lean ====
section
/-! DEFINITION. Command packets, stripes, records, sessions and command contexts: the state of 02 to 05 and 07. -/

namespace Sys2Proof.Machine

/-- A write's StripeId (R206). -/
structure StripeId where
  home : Nat
  boot : Nat
  serial : Nat
  deriving DecidableEq, Repr

/-- The 16 bytes of a StripeId (R206). -/
def StripeId.bytes (i : StripeId) : Bytes := beBytes 2 i.home ++ zeros 2 ++ beBytes 4 i.boot ++ beBytes 8 i.serial

/-- Reads a StripeId from its 16 bytes (R206). -/
def StripeId.ofBytes (b : Bytes) : StripeId := { home := beAt b 0 2, boot := beAt b 4 4, serial := beAt b 8 8 }

/-- A CMD (Table 3.10): its wire fields; `pktLen` is the packet's length, tag included. -/
structure CmdPkt where
  opcode : Nat
  flags : Nat
  tag : Nat
  cls : Nat
  inc : Nat
  ns : Nat
  gen : Nat
  seq : Nat
  keyLen : Nat
  paramLen : Nat
  valueLen : Nat
  params : Bytes
  key : Bytes
  value : Bytes
  pktLen : Nat
  deriving DecidableEq, Repr

/-- How a packet came in: its session, port, host address with UDP port, path index and number, the bytes of its frame with
the FCS, and whether its record protection holds. A session that this drive opened toward a member goes by
2^32 × (member + 1) + SessionId, since that SessionId is the member's own. An address with its port is below 2^48 for IPv4
and from 2^48 on for IPv6. -/
structure Rx where
  sid : Nat
  port : PortId
  addr : Nat
  path : Nat
  pn : Nat
  ce : Bool
  /-- bytes of its frame; of an RWP v1 message, its Length field (R93) -/
  len : Nat
  /-- the GCM tag holds under the session's key and IV for the direction (R62); TLS's check for RWP v1 -/
  tagOk : Bool
  /-- its Version is not the session's generation's, or it is shorter than its type's fixed part and tag (R56) -/
  badHeader : Bool := false
  /-- its UDP or TCP destination port; none for RwpUdpPort (R55) -/
  dst : Option Nat := none
  deriving DecidableEq, Repr

/-- Array work of a command on one die: page reads and native program operations (Table 5.3). -/
structure DieWork where
  die : Nat
  reads : Nat
  programs : Nat
  deriving DecidableEq, Repr

/-- Codeword bytes of a command on one channel (Table 5.3). -/
structure ChanWork where
  chan : Nat
  readBytes : Nat
  programBytes : Nat
  deriving DecidableEq, Repr

/-- Soft errors that searches of Awl meet (R182): rows whose comparison comes out inverted, rows whose SECDED copy is
uncorrectable, and whether the shadow of a refreshed row is readable. -/
structure AwlFacts where
  flipped : List Nat := []
  /-- rows whose SECDED copy has a single-bit error -/
  copyFixed : List Nat := []
  copyBad : List Nat := []
  shadowOk : Bool := true
  deriving DecidableEq, Repr

/-- What an operation of the site partition meets that changes no staged data: the CCLK cycles that it took, and whether the write of
the row's shadow succeeded (R192). -/
structure SiteTurn where
  took : Nat := 0
  shadowOk : Bool := true
  deriving DecidableEq, Repr

/-- What the part's own blocks contribute while a command is decided: Insole's spread of its work over dies and
channels, which the manual leaves to Insole, with the SLC page read of each section of the fragment table that it must fetch
(R265), and the soft errors its searches meet. -/
structure Plan where
  dies : List DieWork
  chans : List ChanWork
  awl : AwlFacts := {}
  deriving DecidableEq, Repr

/-- A fragment header (Table 7.3), without FragState, FragFlags.COMPLETE and Version, which the holder keeps. -/
structure FragHdr where
  index : Nat
  k : Nat
  m : Nat
  ns : Nat
  gen : Nat
  epoch : Nat
  stripe : StripeId
  kind : Nat
  attrs : Nat
  durable : Bool
  segments : Nat
  expected : Nat
  valueLen : Nat
  hash : Nat
  stamp : Nat
  deadline : Nat
  lastChunk : Nat
  fragLen : Nat
  key : Bytes
  deriving DecidableEq, Repr

/-- A stripe commit record (Table 7.4). -/
structure CommitRec where
  attrs : Nat
  k : Nat
  m : Nat
  ns : Nat
  gen : Nat
  epoch : Nat
  stripe : StripeId
  version : Nat
  commitTime : Nat
  valueLen : Nat
  hash : Nat
  stamp : Nat
  holders : List Nat
  mask : Nat
  revision : Nat
  lastChunk : Nat
  tag : Bytes
  key : Bytes
  deriving DecidableEq, Repr

/-- Tombstone bit of the Attributes byte (Table 4.5). -/
def CommitRec.tombstone (r : CommitRec) : Bool := bitAt r.attrs 4
/-- Layout bit of the Attributes byte: striped. -/
def CommitRec.striped (r : CommitRec) : Bool := bitAt r.attrs 3
/-- Layout bit of the Attributes byte: striped. -/
def FragHdr.striped (h : FragHdr) : Bool := bitAt h.attrs 3

/-- What a packet of the drive carries after its header (Tables 3.6 to 3.16). -/
inductive PktBody where
  | cmd (c : CmdPkt)
  | grant (tag inc : Nat) (windows : List (Nat × Nat))
  | data (tag inc off : Nat) (last : Bool) (payload : Bytes)
  | resp (opcode status tag inc : Nat) (body : Bytes)
  | redirect (opcode tag inc udp epoch home : Nat) (addr : Bytes)
  | ack (largest delayUs credit : Nat) (ce : List Nat) (ranges releases : List (Nat × Nat))
  | nak (reason : Nat) (entries : List (Nat × Nat × Nat))
  | keepalive (echo : Bool) (stamp : Nat)
  | close (reason detail : Nat)
  deriving DecidableEq, Repr

/-- The format of a CAN frame (12 R353, R355): classical, FD, or FD with bit-rate switching. -/
inductive CanFmt where
  | classical | fd | fdBrs
  deriving DecidableEq, Repr

/-- What leaves the part. -/
inductive Out where
  /-- an ACCEPT on a port (Table 3.4) with its ECN codepoint and the frame's tag (11 R323); on RWP v1 a message after TLS (R93) -/
  | accept (port : PortId) (ecn : Nat) (tci : Option Nat) (bytes : Bytes)
  /-- a HELLO to a member's address, with its ECN codepoint -/
  | hello (member ecn : Nat) (bytes : Bytes)
  /-- a packet of a session on a path: its content, the IP packet's ECN codepoint, the frame's tag, and the payload, protected (R55, R62,
  11 R323) -/
  | pkt (sid path pn : Nat) (retx : Bool) (body : PktBody) (ecn : Nat) (tci : Option Nat) (bytes : Bytes)
  /-- a CAN frame -/
  | can (id : Nat) (fmt : CanFmt) (bytes : Bytes)
  /-- an Ethernet frame of the port's own making -/
  | frame (port : PortId) (bytes : Bytes)
  /-- an answer of a port's responder (11 R322): 1 ARP, 2 neighbour advertisement, 3 ICMP echo, 4 ICMPv6 echo; to whom, by
  which next hop, the address answered for, and the echoed payload -/
  | answer (port : PortId) (kind : Nat) (to_ hop own payload : Bytes)
  /-- a pause frame: priority (8 for the port) and quanta -/
  | pause (port : PortId) (prio quanta : Nat)
  /-- GPIO0 to 7: which pins are driven, their levels, and which have the weak pull-down (16 R449, R473) -/
  | gpio (driven levels pulls : Nat)
  /-- a PTP_PPS level, or CLKOUT held or released -/
  | pin (name : Nat) (level : Bool)
  deriving DecidableEq, Repr

/-- The state of a path (R83). -/
inductive PathSt where
  | validating | active | failed
  deriving DecidableEq, Repr

/-- One path of a session (R66 to R69, R83, R84). -/
structure NetPath where
  idx : Nat
  port : PortId
  addr : Nat
  st : PathSt
  srtt : Nat := 100000
  rttvar : Nat := 50000
  sampled : Bool := false
  /-- consecutive PTO expiries -/
  ptos : Nat := 0
  cwnd : Nat := 131072
  alpha : Rat := 1
  clean : Nat := 0
  /-- CE marks counted by the host at the last congestion update and now, packets acknowledged since -/
  ceSeen : Nat := 0
  ceNow : Nat := 0
  acked : Nat := 0
  lastCong : Nat := 0
  lastCut : Option Nat := none
  lastTx : Nat := 0
  lastRx : Nat := 0
  /-- CE marks received on the path, reported in the drive's ACKs -/
  ceRx : Nat := 0
  deriving DecidableEq, Repr

/-- A packet sent and not yet acknowledged (R67). -/
structure Unacked where
  pn : Nat
  path : Nat
  /-- the path that its content prefers (R85) -/
  pref : Nat
  at_ : Nat
  size : Nat
  body : PktBody
  deriving DecidableEq, Repr

/-- A packet number sent, of every type, for the RTT and the acknowledged packets of its path (R67, R68, R69). -/
structure Sent where
  pn : Nat
  path : Nat
  at_ : Nat
  acked : Bool := false
  deriving DecidableEq, Repr

/-- A tag of a session (R71 to R74). -/
structure TagRec where
  tag : Nat
  inc : Nat
  seq : Nat
  ended : Bool
  released : Bool
  /-- the SESSION_RESET whose release also releases this tag (R72) -/
  byReset : Option Nat
  deriving DecidableEq, Repr

/-- A CMD held for a gap in CmdSeq (R70). -/
structure HeldCmd where
  rx : Rx
  pkt : CmdPkt
  plan : Plan
  deriving DecidableEq, Repr

/-- Session states that an entry can stand in (Table 3.5). -/
inductive SessSt where
  | halfOpen | open_ | closing
  deriving DecidableEq, Repr

/-- One RWP session (R58 to R88). -/
structure Session where
  sid : Nat
  st : SessSt
  v1 : Bool
  /-- this drive took the host's role; the member it opened toward -/
  asHost : Option Nat
  identity : Bytes
  policy : Nat
  mpb : Nat
  maxOut : Nat
  hostNonce : Bytes
  hostPub : Bytes
  accept : Bytes
  h2dKey : Bytes
  h2dIv : Bytes
  d2hKey : Bytes
  d2hIv : Bytes
  openedAt : Nat
  rxHigh : Nat := 0
  rxHighAt : Nat := 0
  /-- packet numbers received in the window below the highest, with the path each came by -/
  rxSeen : List (Nat × Nat) := []
  nextPn : Nat := 1
  nextSeq : Nat := 0
  tags : List TagRec := []
  held : List HeldCmd := []
  credit : Nat := 1048576
  lastCmd : Nat
  onChip : Bool := true
  lastActive : Nat
  closeAt : Option Nat := none
  closePn : Option Nat := none
  paths : List NetPath := []
  unacked : List Unacked := []
  /-- the newest 4,096 numbers sent -/
  sent : List Sent := []
  /-- on RWP v1, DATA payload sent since the host's last ACK (R80, R94) -/
  v1Data : Nat := 0
  /-- ack-eliciting packets received and not yet acknowledged, and since when -/
  ackOwed : Nat := 0
  ackSince : Nat := 0
  /-- packet numbers already named in a NAK GAP, with the time -/
  nakked : List (Nat × Nat) := []
  /-- content that waits for an ACTIVE path or for room in its cwnd: preferred path, RETX, content -/
  txq : List (Nat × Bool × PktBody) := []
  noPathSince : Option Nat := none
  /-- tags to release in the next ACK, when this drive is the host -/
  releases : List (Nat × Nat) := []
  deriving DecidableEq, Repr

/-- A transfer window of a granted command (R77, R78). -/
structure Window where
  off : Nat
  len : Nat
  /-- byte ranges received: offset within the value, and their bytes -/
  got : List (Nat × Bytes)
  complete : Bool
  drained : Bool
  deriving DecidableEq, Repr

/-- Where a command stands. -/
inductive CmdSt where
  /-- waits for the decision of its predecessor on the key (R135) -/
  | undecided
  /-- local work booked, peers asked (R141) -/
  | phaseOne
  /-- admitted; waits for its turn: ORDERED (R39) or an earlier write (R45) -/
  | waiting
  /-- executing -/
  | running
  /-- a write past its commit point, its response still to come -/
  | committed
  /-- a write ended without commit, its response waits for release acknowledgements (R215) -/
  | releasing
  deriving DecidableEq, Repr

/-- A holder of a write in progress at the home (R213, R214). -/
structure WriteHolder where
  index : Nat
  member : Nat
  /-- none: not answered; some: reserved or refused -/
  reserved : Option Bool
  retryUs : Nat := 0
  mediaBy : Nat := 0
  failed : Bool := false
  /-- segments confirmed, and those confirmed on media -/
  confirmed : List Nat := []
  onMedia : List Nat := []
  releaseAcked : Bool := false
  deriving DecidableEq, Repr

/-- What a write in progress holds beyond its command (R141 to R143, R206). -/
structure WriteCtx where
  stripe : StripeId
  epoch : Nat
  striped : Bool
  k : Nat
  m : Nat
  quorum : Nat
  hash : Nat
  stamp : Nat
  attrs : Nat
  durable : Bool
  holders : List WriteHolder
  /-- bytes of the value received in order and drained -/
  drained : Nat := 0
  value : Bytes := []
  cipher : Bytes := []
  tag : Bytes := []
  /-- segments whose slices the home has made -/
  segmentsDone : Nat := 0
  /-- its completion is media-durable: DURABLE, or HOLDUP_OK has been deasserted since its decision (R43, R253) -/
  mediaFirst : Bool
  /-- the key had no live object when the write was admitted (R34) -/
  reservedObject : Bool := false
  /-- at its commit an index had no holder, or one that had failed (R214) -/
  degraded : Bool := false
  commit : Option CommitRec := none
  /-- the ending that waits for releases: status and event -/
  ending : Option (Nat × Nat) := none
  releaseAt : Nat := 0
  deriving DecidableEq, Repr

/-- A chunk of a read being gathered (R218). -/
structure ReadChunk where
  index : Nat
  seg : Nat
  off : Nat
  len : Nat
  askedAt : Nat
  data : Option Bytes
  missing : Bool
  deriving DecidableEq, Repr

/-- What a read in progress holds (R45, R46, R218). -/
structure ReadCtx where
  rec_ : CommitRec
  off : Nat
  len : Nat
  chunks : List ReadChunk := []
  degraded : Bool := false
  deriving DecidableEq, Repr

/-- One command from CMD to end (R70 to R82, R124 to R154). -/
structure CmdCtx where
  sid : Nat
  pkt : CmdPkt
  path : Nat
  plan : Plan
  st : CmdSt
  /-- decision time, bound and resource deadline; zero for PC3 -/
  ta : Nat
  bound : Nat
  deadline : Nat
  pos : Nat
  epoch : Nat
  size : Nat
  hot : Bool := false
  critical : Nat := 1
  arrivedAt : Nat
  ordered : Bool
  /-- its turn came during an execution pause, whose end starts it (15 R433, R435) -/
  paused : Bool := false
  suppressed : Bool := false
  withAct : Bool := false
  windows : List Window := []
  granted : Nat := 0
  lastData : Nat := 0
  /-- host-held time so far, up to when it is counted, and since when it runs (R129) -/
  hostHeld : Nat := 0
  heldUpTo : Nat := 0
  heldSince : Option Nat := none
  /-- bytes a DICT_READ, LIST or peer read sends, then its RESP body -/
  reply : Option (Bytes × Nat × Bytes) := none
  replySent : Nat := 0
  write : Option WriteCtx := none
  read : Option ReadCtx := none
  /-- of a read that still waits for its turn: the state before the first later write that has committed; its place in the key
  order fixes it (R36) -/
  fixed : Option (Option CommitRec) := none
  /-- commands a FLUSH covers, or a SESSION_RESET completes -/
  covers : List Nat := []
  /-- of a SESSION_RESET: the commands that it ended, and those that complete with their responses suppressed (R112) -/
  aborted : Nat := 0
  silenced : Nat := 0
  /-- members whose acknowledgement NS_CREATE or NS_DELETE awaits, those that have given it (for a FLUSH: positions of writes
  that ended PROMISE_BROKEN and do not hold it), and the deadline -/
  awaiting : List Nat := []
  acked : List Nat := []
  awaitUntil : Nat := 0
  undoing : Bool := false
  deriving DecidableEq, Repr

/-- Namespace attributes and state (Tables 2.2, 4.22). -/
structure Ns where
  number : Nat
  /-- current generation if live, otherwise the last one -/
  gen : Nat
  live : Bool
  k : Nat := 0
  m : Nat := 0
  retention : Nat := 4
  hold : Nat := 604800
  quotaBytes : Nat := 0
  quotaObjects : Nat := 0
  readOnly : Bool := false
  /-- its instance slot, once it has one (R164) -/
  inst : Option Nat := none
  deriving DecidableEq, Repr

end Sys2Proof.Machine
end

