-- ==== Sys2Proof/Types/Site.lean ====
section
/-! DEFINITION. DMA channels, event recorder, mailbox and timers: the state of 14_dma_events_site_firmware.md. -/

namespace Sys2Proof.Machine

/-- STATE of DMA_CH_STATUS (Table 14.6). -/
inductive DmaState where
  | idle | running | parked | disabled | error
  deriving DecidableEq, Repr

/-- The code of STATE. -/
def DmaState.code : DmaState → Nat
  | .idle => 0 | .running => 1 | .parked => 2 | .disabled => 3 | .error => 4

/-- The copy of a descriptor on which the engine acts (R407, Table 14.7). -/
structure DmaDesc where
  ctrl : Nat := 0
  lineLen : Nat := 0
  lineCount : Nat := 0
  param : Nat := 0
  src : Nat := 0
  dst : Nat := 0
  srcStride : Int := 0
  dstStride : Int := 0
  deriving DecidableEq, Repr

/-- One DMA channel (Table 14.6). -/
structure DmaCh where
  en : Bool := false
  trig : Nat := 0
  chainSrc : Nat := 0
  prio : Nat := 0
  doneIe : Bool := false
  errIe : Bool := false
  st : DmaState := .disabled
  done : Bool := false
  err : Bool := false
  pending : Bool := false
  lastErr : Nat := 0
  ring : Nat := 0
  ringSize : Nat := 0
  head : Nat := 0
  period : Nat := 0
  doneCount : Nat := 0
  errAddr : Nat := 0
  /-- the descriptor the channel works on -/
  cur : Option DmaDesc := none
  /-- when work on it began (R412) -/
  curAt : Nat := 0
  /-- descriptors taken by the current run -/
  runCount : Nat := 0
  /-- time from which timer periods count -/
  enAt : Nat := 0
  /-- timer triggers already taken since EN was set -/
  ticks : Nat := 0
  deriving DecidableEq, Repr

/-- An event record (Table 14.10); `seq` is none while the record waits unnumbered (R418). -/
structure EvRec where
  seq : Option Nat
  secs : Nat
  cycle : Nat
  code : Nat
  flags : Nat
  suppressed : Nat
  detail : Bytes
  deriving DecidableEq, Repr

/-- One code's token bucket (R420): `credit` counts tokens in units of one sixty-billionth, so that
PerMinute of them return each nanosecond. -/
structure Bucket where
  code : Nat
  credit : Nat
  at_ : Nat
  /-- records dropped since the last one recorded -/
  dropped : Nat
  deriving DecidableEq, Repr

/-- Settings of one code that EventRateLimit changed. -/
structure RateLimit where
  code : Nat
  burst : Nat
  perMinute : Nat
  deriving DecidableEq, Repr

/-- The state of a snapshot slot (R422). -/
inductive SnapState where
  | closed | open_ | expired
  deriving DecidableEq, Repr

/-- One snapshot slot (R422). -/
structure Snapshot where
  st : SnapState := .closed
  first : Nat := 0
  last : Nat := 0
  /-- records held by the snapshot -/
  count : Nat := 0
  expiresAt : Nat := 0
  deriving DecidableEq, Repr

/-- The event recorder (R417 to R423). -/
structure Recorder where
  /-- numbering has resumed in this power cycle (R418) -/
  numbered : Bool := false
  nextSeq : Nat := 0
  /-- the on-chip ring, oldest first -/
  ring : List EvRec := []
  /-- records copied into the protected write buffer and waiting for a batch -/
  staged : List EvRec := []
  /-- when the oldest staged record arrived -/
  stagedAt : Nat := 0
  /-- the log of the SYSTEM stream, oldest first -/
  log : List EvRec := []
  /-- batches of the log that a wipe has carried into the anchor area (10 R312) -/
  anchored : List (List EvRec) := []
  /-- Heel's retention SRAM -/
  heel : List EvRec := []
  /-- records lost in the ring and in Heel, to report with event 0x0B80 -/
  lostRing : Nat := 0
  lostHeel : Nat := 0
  buckets : List Bucket := []
  limits : List RateLimit := []
  snaps : Vector Snapshot 4 := Vector.replicate 4 {}
  /-- OperatingSeconds: value at the time `secsAt`, counting while PD_CORE is powered -/
  secsBase : Nat := 0
  secsAt : Nat := 0
  secsSaved : Nat := 0
  lastSave : Nat := 0
  /-- EVR registers (Table 14.12) -/
  nextHi : Word32 := 0
  fetchLo : Word32 := 0
  fetchHi : Word32 := 0
  busy : Bool := false
  done : Bool := false
  err : Bool := false
  errCode : Nat := 0
  new : Bool := false
  irqEn : Word32 := 0
  rec_ : Bytes := []
  postCode : Word32 := 0
  postDetail : Bytes := List.replicate 12 0
  deriving DecidableEq, Repr

/-- A core-to-site message that waits for a slot (R403, R404). -/
structure MbxMsg where
  type : Nat
  token : Nat
  payload : Bytes
  since : Nat
  deriving DecidableEq, Repr

/-- Mailbox and timer registers, and the site cores (R399 to R405). -/
structure Site where
  s2cProd : Nat := 0
  s2cCons : Nat := 0
  c2sProd : Nat := 0
  c2sCons : Nat := 0
  overrun : Bool := false
  c2sLost : Bool := false
  mbxIrqEn : Bool := false
  /-- core-to-site messages that found the ring full -/
  waiting : List MbxMsg := []
  nowHi : Word32 := 0
  cmp : Vector Nat 4 := #v[0, 0, 0, 0]
  cmpEn : Nat := 0
  tmrIrqEn : Nat := 0
  fired : Nat := 0
  /-- when the watchdog was last restarted -/
  wdogAt : Nat := 0
  /-- times of the expiries in the past hour -/
  expiries : List Nat := []
  /-- SiteState: 0 ABSENT, 1 RUNNING, 2 RESET, 3 HELD_FAULT -/
  st : Nat := 0
  /-- window size in MiB in effect since the last MUSTER (R402) -/
  dramMiB : Nat := 0
  /-- bytes that channels 12 to 15 moved in the current window of 1 ms, and its number (R412) -/
  dmaWindow : Nat := 0
  dmaSpent : Nat := 0
  deriving DecidableEq, Repr

/-- The W1C bits that hardware has set at one time: that time, and register address with mask (00 R7). -/
structure HwSets where
  at_ : Nat := 0
  bits : List (Nat × Nat) := []
  deriving DecidableEq, Repr

end Sys2Proof.Machine
end

