-- ==== Sys2Proof/Types/Store.lean ====
section
/-! DEFINITION. Shank, Last, Awl, Welt and Insole: the state of 05 to 09. -/

namespace Sys2Proof.Machine

/-- The resources of Table 5.3 that carry a calendar. -/
inductive Res where
  | die (n : Nat) | channel (n : Nat) | port | dram | token | peer (member : Nat)
  deriving DecidableEq, Repr

/-- The limiter code of Table 4.7. -/
def Res.limiter : Res → Nat
  | .die _ => 1 | .channel _ => 2 | .port => 3 | .dram => 4 | .token => 5 | .peer _ => 6

/-- Who owns a booking: a command, or a peer's reservation. -/
inductive Owner where
  | cmd (sid tag : Nat)
  | frag (stripe : StripeId) (index : Nat)
  deriving DecidableEq, Repr

/-- A booked demand (R134). -/
structure Booking where
  res : Res
  deadline : Nat
  work : Nat
  owner : Owner
  /-- decided while an activation was pending, so with L_act in its margin (R150) -/
  withAct : Bool := false
  deriving DecidableEq, Repr

/-- Shank (R124 to R160). -/
structure Shank where
  books : List Booking := []
  /-- the LDPC retry ratio in permille, and when it was last set from the retry reports (R133) -/
  rho : Nat := 50
  lastRho : Nat := 0
  /-- AllotmentMBps last reported by each peer (R144) -/
  allot : List (Nat × Nat) := []
  /-- fault kinds of Table 5.5 present -/
  faults : List Nat := []
  actPending : Bool := false
  /-- Insole's token limit until a lowering takes effect (R140) -/
  oldLimit : Option Nat := none
  effectiveAt : Nat := 0
  /-- commands ended and broken over the life of the part (LifetimeAvailabilityPpb) -/
  lifeEnded : Nat := 0
  lifeBroken : Nat := 0
  /-- sums of the counted efficiency windows' figures, and when the last window ended (R156) -/
  lastEff : Nat := 0
  /-- record payload bytes of data records programmed, and read and decoded, since then (R155) -/
  progBytes : Nat := 0
  readBytes : Nat := 0
  ingestSum : Nat := 0
  restoreSum : Nat := 0
  deriving DecidableEq, Repr

/-- The kind of an index entry (Table 6.2). -/
inductive IdxKind where
  | object | tombstone | link
  deriving DecidableEq, Repr

/-- An index entry (Table 6.2). -/
structure IdxEntry where
  fp : Nat
  kind : IdxKind
  inst : Nat
  hot : Bool
  loc : Nat
  len : Nat
  buf : Bool
  deriving DecidableEq, Repr

/-- The state of an instance slot (R163). -/
inductive InstSt where
  | live | purging
  deriving DecidableEq, Repr

/-- An instance slot that is not FREE. -/
structure Inst where
  slot : Nat
  st : InstSt
  ns : Nat
  gen : Nat
  deriving DecidableEq, Repr

/-- Last's index (R163 to R174, R478): cells by slot address, region * 2^31 + bucket * 4 + slot, rising. -/
structure Index where
  /-- n of Table 6.1, 0 before the first MUSTER -/
  n : Nat := 0
  cells : List (Nat × IdxEntry) := []
  /-- overflow buckets in use -/
  overflow : List Nat := []
  reserveUsed : Nat := 0
  full : Bool := false
  insts : List Inst := []
  /-- the end of the running purge pass, none while no pass runs, and the instance slots it purges -/
  passEnd : Option Nat := none
  passSet : List Nat := []
  imageEntries : Nat := 0
  deriving DecidableEq, Repr

/-- The fields of an Awl entry other than VALID (Table 6.3). -/
structure AwlEntry where
  key : Nat
  mask : Nat
  prio : Nat
  data : Nat
  deriving DecidableEq, Repr

/-- A row that has been written since the last MUSTER; rows not listed are invalid and unwritten. -/
structure AwlRow where
  addr : Nat
  valid : Bool
  entry : AwlEntry
  deriving DecidableEq, Repr

/-- Awl (R175 to R193). A row of the match array, its SECDED copy and its DRAM shadow hold the same entry; a soft error
that makes them differ comes with the command that meets it (log 22). -/
structure Awl where
  /-- rows written since the last MUSTER, by global address, rising -/
  rows : List AwlRow := []
  /-- the bank map in effect -/
  map : Nat := 0x80000015
  /-- the stored policy table (SYS): local address and entry, rising -/
  policy : List (Nat × AwlEntry) := []
  /-- local hot rows whose reference bit is set, and the clock hand -/
  refs : List Nat := []
  hand : Nat := 0
  /-- promotion counters that are not 0, by h2[15:0] -/
  promo : List (Nat × Nat) := []
  lastClear : Nat := 0
  /-- the row the scrub reads next, and when it read one last -/
  scrubAt : Nat := 0
  lastScrub : Nat := 0
  /-- single-bit errors corrected in the copies of winners (R182) -/
  copyFixed : Nat := 0
  /-- site registers (Tables 6.7 to 6.11); an operation may be running until `busyUntil` -/
  busyUntil : Nat := 0
  /-- the error code, 0 for none, with which the operation that runs, or that has run, ends -/
  pend : Option Nat := none
  done : Bool := false
  err : Bool := false
  errCode : Nat := 0
  shadowLost : Bool := false
  hit : Bool := false
  multi : Bool := false
  valid : Bool := false
  retried : Bool := false
  row : Nat := 0
  dest : Nat := 0
  result : Nat := 0
  prio : Nat := 0
  irqEn : Nat := 0
  vfail : Nat := 0
  key : Nat := 0
  mask : Nat := 0
  data : Nat := 0
  skey : Nat := 0
  rdata : Nat := 0
  deriving DecidableEq, Repr

/-- A member entry of a group map (Table 7.2). -/
structure Member where
  id : Nat
  active : Bool
  identity : Bytes
  udp : Nat
  portMap : Nat
  addrA : Bytes
  addrB : Bytes
  deriving DecidableEq, Repr

/-- A group map (Table 7.1). -/
structure GroupMap where
  epoch : Nat
  activation : Nat
  salt : Bytes
  groupId : Nat
  members : List Member
  raw : Bytes
  deriving DecidableEq, Repr

/-- A slice that a holder has (R209, R214). -/
structure Slice where
  seg : Nat
  data : Bytes
  check : Bytes
  addr : Nat
  /-- programmed on media -/
  media : Bool
  bad : Bool := false
  deriving DecidableEq, Repr

/-- A held fragment (R207, R217, R264). -/
structure Frag where
  hdr : FragHdr
  committed : Bool
  version : Nat
  slices : List Slice
  mediaBy : Nat
  hdrAddr : Nat
  dirAddr : Nat
  copy : Option CommitRec
  /-- when the next RESOLVE is due (R219) -/
  resolveAt : Nat
  /-- FRAG_PUTs that wait for media: session, tag, segment -/
  waiting : List (Nat × Nat × Nat)
  /-- header bytes 0 to 95 as the FRAG_RESERVE carried them (R212) -/
  raw : Bytes := []
  deriving DecidableEq, Repr

/-- A peer command sent and not yet answered (R214, R220, R228, R476). -/
structure PeerMsg where
  id : Nat
  member : Nat
  /-- the session and tag it travels on; none while no session is open -/
  on : Option (Nat × Nat)
  pkt : CmdPkt
  /-- the slice of a FRAG_PUT, or the segment of a forwarded image -/
  value : Bytes
  stripe : StripeId
  index : Nat
  seg : Nat
  /-- the command it belongs to, or a repair or rebalance of the stripe's index -/
  cmd : Option (Nat × Nat)
  repair : Bool
  /-- when its last byte was sent, and the repeat interval of R476 -/
  sentAt : Nat
  interval : Nat
  /-- bytes received in DATA for it -/
  got : Bytes
  /-- bytes of the value sent in DATA -/
  sent : Nat := 0
  /-- transmissions so far, and the tags of earlier ones that are still open: session, tag, incarnation -/
  tries : Nat := 0
  also : List (Nat × Nat × Nat) := []
  /-- bytes received beyond a gap, and the total once LAST has come -/
  ahead : List (Nat × Bytes) := []
  total : Option Nat := none
  deriving DecidableEq, Repr

/-- Where a repair or rebalance stands (R226). -/
inductive RepairSt where
  /-- waits in the queue -/
  | queued
  /-- REBUILD_QUERY HOLDINGS sent to the target -/
  | asking
  /-- fragment bytes are being read -/
  | reading
  /-- FRAG_RESERVE sent to the target -/
  | reserving
  /-- FRAG_PUTs sent to the target -/
  | putting
  deriving DecidableEq, Repr

/-- A stripe index in the repair or rebalance queue (R225 to R227). -/
structure Repair where
  stripe : StripeId
  inst : Nat
  hash : Nat
  index : Nat
  rebalance : Bool
  st : RepairSt := .queued
  target : Nat := 0
  /-- fragment indices read from, the bytes asked of each so far, and what has come of each: index, 0, bytes -/
  sources : List Nat := []
  off : Nat := 0
  got : List (Nat × Nat × Bytes) := []
  /-- slices to write, and those confirmed at the target -/
  slices : List Bytes := []
  confirmed : List Nat := []
  deriving DecidableEq, Repr

/-- A pending fragment header gathered from a surviving holder, and whether it is complete there (R223). -/
structure Pending where
  hdr : FragHdr
  member : Nat
  complete : Bool
  deriving DecidableEq, Repr

/-- State gathered for a key that this drive now homes (R220, R222, R223). -/
structure Gather where
  ns : Nat
  gen : Nat
  hash : Nat
  pending : List Pending
  copies : List CommitRec
  /-- members whose answer is awaited, and since when -/
  awaiting : List Nat
  since : Nat
  /-- the latest bound that an old home answered with -/
  predEnd : Nat
  deriving DecidableEq, Repr

/-- The handoff of an epoch that has not completed (R200, R220): the epoch before it, its other members, those that owe a
HANDOFF_DONE, and whether this drive has sent its own. -/
structure Handoff where
  epoch : Nat
  prev : Nat
  members : List Nat
  await : List Nat
  sent : Bool
  deriving DecidableEq, Repr

/-- A key whose HANDOFF this drive owes its new home under an epoch (R220): as its old home, or as a surviving holder. -/
structure Owed where
  epoch : Nat
  asHome : Bool
  ns : Nat
  gen : Nat
  hash : Nat
  key : Bytes
  /-- position among the surviving holders that may send; 0 is the old home or the first of them -/
  rank : Nat
  since : Nat
  sent : Bool
  deriving DecidableEq, Repr

/-- Welt (R197 to R232, R476). -/
structure Welt where
  cur : Option GroupMap := none
  pendingMap : Option GroupMap := none
  retained : List GroupMap := []
  /-- StripeSerial last given in this boot -/
  serial : Nat := 0
  /-- highest HomeBoot seen from each home -/
  boots : List (Nat × Nat) := []
  frags : List Frag := []
  released : List (StripeId × Nat) := []
  /-- released fragments whose FRAG_LOG is not known to be programmed, with its JSeq: a power failure brings them back -/
  gone : List (Nat × Frag) := []
  /-- StripeIds of this boot that ended without commit -/
  aborted : List StripeId := []
  msgs : List PeerMsg := []
  nextMsg : Nat := 0
  repairs : List Repair := []
  /-- the present window of 100 ms and the bytes read in it for repair and for rebalance (R227) -/
  rebuildWin : Nat := 0
  rebuildBytes : Nat := 0
  rebalanceBytes : Nat := 0
  /-- since when each member has had no ACTIVE path, and the members declared lost -/
  noPath : List (Nat × Nat) := []
  lost : List Nat := []
  owed : List Owed := []
  handoffs : List Handoff := []
  /-- HANDOFF_DONEs that came before their epoch: epoch and member -/
  doneFrom : List (Nat × Nat) := []
  /-- indices that were confirmed durable after their stripe's commit -/
  confirmed : List (StripeId × Nat) := []
  gathers : List Gather := []
  lastSync : Nat := 0
  /-- last WriteStamp given on a key: instance, hash, stamp -/
  stamps : List (Nat × Nat × Nat) := []
  deriving DecidableEq, Repr

/-- The state of a superblock (Table 9.1). -/
inductive SbState where
  | free | open_ | closed | victim | pendingErase | unusable
  deriving DecidableEq, Repr

/-- The State byte of SB_STATE. -/
def SbState.code : SbState → Nat
  | .free => 0 | .open_ => 1 | .closed => 2 | .victim => 3 | .pendingErase => 4 | .unusable => 5

/-- How the read of a codeword ended (R246): at a step of the ladder, by die parity, or not at all. -/
inductive ReadOutcome where
  | step (n : Nat)
  | parity
  | lost
  deriving DecidableEq, Repr

/-- The running accumulator of an open row (R242): the data slots programmed, and the XOR of their pages, plane by plane. -/
structure RowAcc where
  slots : List Nat := []
  acc : List Bytes := []
  deriving DecidableEq, Repr

/-- A superblock that has been used; one not listed is FREE with erase count 0 (R240, R263, R275 to R279). -/
structure Superblock where
  ds : Nat
  sb : Nat
  st : SbState
  slc : Bool := false
  stream : Nat := 0
  seq : Nat := 0
  /-- data slots, ascending, and the parity slot, as they stood when it was opened -/
  slots : List Nat := []
  parity : Nat := 0
  erases : Nat := 0
  closedAt : Nat := 0
  /-- effective age since it was closed, and at the last scan, in billionths of a second -/
  age : Nat := 0
  scanAge : Nat := 0
  /-- the VSTBY loss makes it due for a scan whatever its age (R278) -/
  scanDue : Bool := false
  /-- page reads of each block, by slot -/
  reads : List (Nat × Nat) := []
  /-- reason for forced reclamation: 0 none, 1 failure, 2 disturb, 3 retention, 4 static; and when it was asked for -/
  forced : Nat := 0
  forcedAt : Nat := 0
  /-- slots whose block is retired once the superblock has been relocated (R274) -/
  retireSlots : List Nat := []
  /-- JSeq of the last journal record that took a valid record from it -/
  lastMove : Nat := 0
  /-- accumulators of the rows that are not complete, by wordline, and rows whose parity page is programmed -/
  rowDone : List (Nat × RowAcc) := []
  rows : Nat := 0
  /-- the mark of the last SB_PROGRESS, and when it was appended -/
  mark : Nat := 0
  markAt : Nat := 0
  deriving DecidableEq, Repr

/-- A program unit: stream, die set, superblock, wordline, slot (R240). -/
structure UnitId where
  stream : Nat
  ds : Nat
  sb : Nat
  wl : Nat
  slot : Nat
  deriving DecidableEq, Repr

/-- Where a program unit lies: its die set, superblock, wordline and slot (R240). -/
structure UnitPlace where
  ds : Nat
  sb : Nat
  wl : Nat
  slot : Nat
  deriving DecidableEq, Repr

/-- The unit that a stream fills at a place. -/
def UnitPlace.unit (p : UnitPlace) (stream : Nat) : UnitId := { stream := stream, ds := p.ds, sb := p.sb, wl := p.wl, slot := p.slot }

/-- The place of a unit. -/
def UnitId.place (u : UnitId) : UnitPlace := { ds := u.ds, sb := u.sb, wl := u.wl, slot := u.slot }

/-- A stream's write position: its open superblocks and the unit being filled (R247). -/
structure Stream where
  id : Nat
  /-- next unit in each die set: die set, superblock, wordline, slot -/
  open_ : List UnitId
  /-- the die set whose turn it is, and the payload bytes filled in the next unit of a die set where not 0 -/
  turn : Nat
  offs : List (Nat × Nat) := []
  deriving DecidableEq, Repr

/-- What a media record holds (R245, Tables 7.3, 7.4, 8.4, 9.3). -/
inductive RecBody where
  | header (stripe : StripeId) (index : Nat)
  | slice (stripe : StripeId) (index seg : Nat)
  | dir (stripe : StripeId) (index : Nat)
  | commit (r : CommitRec)
  | copy (r : CommitRec) (index : Nat)
  | commitLog (hash version : Nat) (e : IdxEntry)
  | removeLog (hash version fp inst : Nat)
  | fragLog (stripe : StripeId) (index state : Nat) (complete : Bool) (hdr dir : Nat)
  | moveLog (ds sb : Nat) (moves : List (Nat × Nat))
  | sbOpen (ds stream sb seq : Nat) (slc : Bool)
  | sbProgress (ds stream sb q : Nat)
  | sbState (ds sb : Nat) (st : SbState) (erases : Nat)
  | retire (ds slot block scope reason : Nat)
  | flushEnd (bytes us : Nat)
  | counterReserve (chunk : Nat)
  | recoveryMark (replayed voidFrom voidTo cycle : Nat)
  | ckptEnd (cycle start : Nat)
  /-- the sections of one kind of a cycle, 0x50 to 0x53 (Table 9.4) -/
  | ckptSections (cycle kind : Nat)
  | events (recs : List EvRec)
  | settings (seq : Nat)
  deriving DecidableEq, Repr

/-- A record appended to a stream (R245, R250). Its place `addr` is the record address of R241 times 4,096 plus the payload
offset at which the record begins in that codeword: the record that the walk of R245 finds there (log 45). -/
structure MediaRec where
  addr : Nat
  len : Nat
  stream : Nat
  /-- JSeq of a journal record -/
  jseq : Option Nat
  /-- JSeq of the COMMIT_LOG or FRAG_LOG that maps it -/
  log : Option Nat
  body : RecBody
  /-- program units that hold it and are not programmed yet; none left means it is on media -/
  units : List UnitId
  /-- every program unit that holds it, in order -/
  span : List UnitId := []
  deriving DecidableEq, Repr

/-- A copy of a record on its way to a new address (R271): its victim, the old and the new address. -/
structure Move where
  ds : Nat
  sb : Nat
  old : Nat
  new : Nat
  deriving DecidableEq, Repr

/-- A value that the write buffer retains whole (R46, R250). -/
structure RawValue where
  stripe : StripeId
  value : Bytes
  /-- the read cache takes it when it leaves the buffer (R47) -/
  keep : Bool
  deriving DecidableEq, Repr

/-- A superblock's line in CKPT_TABLES: what the journal does not give again (Table 9.4, R277, R278). -/
structure SbLine where
  ds : Nat
  sb : Nat
  st : SbState
  erases : Nat
  reads : List (Nat × Nat)
  age : Nat
  scanAge : Nat
  deriving DecidableEq, Repr

/-- An entry of the fragment table on media (R264): state 0 PENDING, 1 COMMITTED, 2 released. -/
structure FragLine where
  stripe : StripeId
  index : Nat
  state : Nat
  complete : Bool
  hdr : Nat
  dir : Nat
  deriving DecidableEq, Repr

/-- The image of the maps that a checkpoint cycle writes (R283): index entries, fragments with their state, and tables. -/
structure Image where
  cells : List (Nat × IdxEntry)
  frags : List FragLine
  tables : List SbLine := []
  /-- retired blocks, dies and die sets -/
  bad : List (Nat × Nat × Nat) := []
  dies : List (Nat × Nat) := []
  sets : List Nat := []
  deriving DecidableEq, Repr

/-- A checkpoint cycle (R284). -/
structure Cycle where
  no : Nat
  start : Nat
  image : Image
  deriving DecidableEq, Repr

/-- A redundant copy of a LUN's ONFI parameter page (R233, R234): whether its CRC holds, data and spare bytes per page, planes,
and pages per plane. -/
structure ParamPage where
  crcOk : Bool := true
  data : Nat
  spare : Nat
  planes : Nat
  pages : Nat
  deriving DecidableEq, Repr

/-- A LUN on the board (R233): its channel, volume and LUN; what it answers to READ ID, nothing where it does not answer; its
parameter-page copies; and its blocks that carry the maker's bad-block mark (log 114). -/
structure Lun where
  chan : Nat
  vol : Nat
  lun : Nat
  id : Option Bytes := none
  copies : List ParamPage := []
  bad : List Nat := []
  deriving DecidableEq, Repr

/-- What the sled's media, DRAM and oscillators answer at an entry to MUSTER. -/
structure Board where
  luns : List Lun := []
  /-- the first rank found failing in training or the address test (R257) -/
  badRank : Option Nat := none
  /-- whether CPLL, NPLL, MPLL and FPLL lock -/
  locks : List Bool := [true, true, true, true]
  /-- an anchor record and a checkpoint that it names are readable (R286 step 2) -/
  anchorOk : Bool := true
  /-- TableSeqs of secret-table copies whose tag does not hold (10 R303) -/
  tableBad : List Nat := []
  /-- the image given over JTAG in factory mode (16 R455) -/
  jtag : Option Bytes := none
  /-- levels of the boot-mode pins -/
  bootMode : Nat := 0
  deriving DecidableEq, Repr

/-- An operation of the array: the program of a unit, the erase of one slot's block, or a codeword's read with its outcome and its
tag failures (R254). -/
inductive OpKind where
  | program (u : UnitId)
  | erase (ds sb slot : Nat)
  | read (addr : Nat) (outcome : ReadOutcome) (tagFails : Nat)
  deriving DecidableEq, Repr

/-- An operation that waits at its channel sequencer or runs (R139, R254, R255). -/
structure ArrayOp where
  no : Nat
  kind : OpKind
  /-- when it was given to the sequencer, and since when it waits for tokens -/
  since : Nat
  tokenWait : Option Nat := none
  /-- when it was issued; none while it waits or is suspended -/
  issuedAt : Option Nat := none
  /-- busy time that a suspended erase still needs, and how often it was suspended -/
  left : Option Nat := none
  suspends : Nat := 0
  deriving DecidableEq, Repr

/-- A program unit as it lies on media: its pages, plane by plane, and whether a hold-up flush wrote it (R240 to R244). -/
structure UnitImage where
  ds : Nat
  sb : Nat
  wl : Nat
  slot : Nat
  flush : Bool := false
  pages : List Bytes
  deriving DecidableEq, Repr

/-- Insole (R233 to R291). -/
structure Media where
  board : Board := {}
  /-- MediaProfile and WriteBufferMiB in effect since the last MUSTER -/
  profile : Bytes := []
  bufMiB : Nat := 64
  flushTokens : Nat := 128
  dramConfig : Nat := 5
  fresh : Nat := 4
  /-- LUNs present on each channel, its dies in ascending (volume, LUN), and the dies of the newest anchor's die map that are missing
  or failing now, by die set and slot (R233, R236, R237) -/
  present : List Nat := []
  dies : List (List (Nat × Nat)) := []
  missing : List (Nat × Nat) := []
  /-- the die map of the newest anchor record: bit 64 channel + 4 volume + LUN of each die in service (R236, R285, log 115) -/
  dieMap : List Nat := []
  /-- dies in service at the last discovery, and HoldupBudgetMs in effect (R251, R260) -/
  discDies : Nat := 0
  budgetMs : Nat := 16
  /-- U of R236, dies retired (die set, slot) and die sets retired whole -/
  u : Nat := 0
  retiredDies : List (Nat × Nat) := []
  deadSets : List Nat := []
  /-- retired and factory-bad blocks: die set, slot, block -/
  badBlocks : List (Nat × Nat × Nat) := []
  /-- operations in a row that a die did not end in time: die set, slot, count -/
  notReady : List (Nat × Nat × Nat) := []
  sbs : List Superblock := []
  streams : List Stream := []
  recs : List MediaRec := []
  moves : List Move := []
  raw : List RawValue := []
  /-- record addresses that neither the ladder nor parity recovers, and those whose fragments are still to enter the repair queue -/
  badAddrs : List Nat := []
  toRepair : List Nat := []
  /-- operations of the array, when the sequencers last went on, and until when a calibration holds new ones (R238, R254) -/
  ops : List ArrayOp := []
  opNo : Nat := 0
  opsAt : Nat := 0
  zqHold : Nat := 0
  /-- what is programmed in the array, parity included -/
  images : List UnitImage := []
  /-- SuperblockSeq last given, and JSeq last given -/
  sbSeq : Nat := 0
  jseq : Nat := 0
  /-- the two newest ended cycles, newest first, the running one, and when one last started -/
  cycles : List Cycle := []
  running : Option Cycle := none
  lastCycleAt : Nat := 0
  anchorSeq : Nat := 0
  anchorSb : Nat := 0
  anchorFill : Nat := 0
  anchorErases : Nat := 0
  slcBytes : Nat := 0
  /-- granted buffer space not yet drained -/
  granted : Nat := 0
  /-- the buffer space granted is lowered to this by R251; none while it is not -/
  grantCap : Option Nat := none
  wpN : Bool := false
  zqTemp : Int := 0
  zqAt : Nat := 0
  lastPatrol : Nat := 0
  /-- program units, erases and user units of the past hour of SERVE (R256), per minute, newest first -/
  hour : List (Nat × Nat × Nat) := []
  nProg : Nat := 0
  nErs : Nat := 0
  nUserBytes : Nat := 0
  /-- FRESH and SETTLED units and user bytes over the life of the part (R280) -/
  lifeProg : Nat := 0
  lifeUser : Nat := 0
  wam : Nat := 1150
  lastWam : Nat := 0
  /-- when effective age was last added (R278) -/
  ageAt : Nat := 0
  /-- erases under way: die set and superblock -/
  erasing : List (Nat × Nat) := []
  /-- page reads and those that needed a retry step in the past minute (R133) -/
  pageReads : Nat := 0
  pageRetries : Nat := 0
  lastStatic : Nat := 0
  /-- die sets short of space (R270) -/
  short : List Nat := []
  /-- until when the last retention scan takes at RetentionSweepMBps (R279) -/
  scanUntil : Nat := 0
  /-- RTC seconds at the last checkpoint (R278) -/
  ckptRtc : Nat := 0
  /-- retention scans come before other PC3 work (R279) -/
  scanFirst : Bool := false
  deriving DecidableEq, Repr

/-- A write that has committed and is not known to be media-durable: its session, position, stripe, length, and the latest
MediaBy of its quorum's peers in PTP ns, 0 without one (R40, R147). -/
structure SessWrite where
  sid : Nat
  pos : Nat
  stripe : StripeId
  len : Nat
  mediaBy : Nat
  deriving DecidableEq, Repr

/-- The key-value service: namespaces, commands in flight and the order counter (02, 04). -/
structure Kv where
  nss : List Ns := []
  cmds : List CmdCtx := []
  nextPos : Nat := 0
  /-- the read cache: stripes whose plain value is held -/
  cache : List (StripeId × Bytes) := []
  /-- superseded stripes waiting for earlier reads, with the position they wait for -/
  superseded : List (CommitRec × Nat) := []
  sessWrites : List SessWrite := []
  /-- values that stream to a host from the write buffer: session, tag, incarnation, stripe (R46) -/
  streams : List (Nat × Nat × Nat × StripeId) := []
  deriving DecidableEq, Repr

/-- A HELLO that this drive has sent to a member and that no ACCEPT has answered (R58, R60). -/
structure HelloOut where
  member : Nat
  nonce : Bytes
  priv : Bytes
  pub : Bytes
  sentAt : Nat
  deriving DecidableEq, Repr

/-- A promised command whose RESP is on its way to the MAC (R128): what PROMISE_BROKEN would say of it, and whether it counts as
broken. -/
structure DueEnd where
  sid : Nat
  tag : Nat
  due : Nat
  bound : Nat
  commit : Nat
  broken : Bool
  deriving DecidableEq, Repr

/-- Sessions (03). -/
structure Net where
  sessions : List Session := []
  hellos : List HelloOut := []
  /-- what a port holds back while received pause stops its priority (11 R330) -/
  held : List (PortId × Out) := []
  /-- RwpUdpPort in effect since the last entry to SERVE -/
  udpPort : Nat := 47714
  /-- endings whose RESP has not been handed to the MAC yet (05 R128) -/
  ends : List DueEnd := []
  deriving DecidableEq, Repr

end Sys2Proof.Machine
end

