-- ==== Sys2Proof/Types/Operands.lean ====
section
/-! DEFINITION. What the commands carry: packets from hosts and peers, received frames, and the facts that media,
pins and the network supply (the operands of Syntax.lean). -/

namespace Sys2Proof.Machine

/-- A received HELLO datagram: its port, the host's address and UDP port as one number, and its bytes (Table 3.3). -/
structure HelloPkt where
  port : PortId
  addr : Nat
  bytes : Bytes
  /-- its UDP destination port; none for RwpUdpPort (R55) -/
  dst : Option Nat := none
  deriving DecidableEq, Repr

/-- An RWP v1 TLS handshake attempt (R92); `verifies` says whether RFC 8446 lets it complete: the binder of the external PSK
and the Finished messages hold. -/
structure TlsHello where
  port : PortId
  addr : Nat
  identity : Bytes
  /-- cipher suites, groups and PSK key-exchange modes that the client offers, as RFC 8446 numbers them -/
  suites : List Nat
  groups : List Nat
  modes : List Nat
  /-- it presents a certificate -/
  certificate : Bool := false
  /-- it offers early data -/
  earlyData : Bool := false
  /-- the TCP destination port; none for RwpUdpPort -/
  dst : Option Nat := none
  verifies : Bool
  deriving DecidableEq, Repr

/-- The fields of an ACK (Table 3.6): ranges as (Gap, Length), releases as (Tag, Incarnation). -/
structure AckPkt where
  largest : Nat
  delayUs : Nat
  credit : Nat
  ce : List Nat
  ranges : List (Nat × Nat)
  releases : List (Nat × Nat)
  deriving DecidableEq, Repr

/-- The fields of a NAK (Table 3.7): gap entries, or tag entries as (Tag, Incarnation, Offset). -/
structure NakPkt where
  reason : Nat
  gaps : List (Nat × Nat)
  tags : List (Nat × Nat × Nat)
  deriving DecidableEq, Repr

/-- An ACCEPT received by this drive as host, from the member that the HELLO went to (Table 3.4). -/
structure AcceptPkt where
  member : Nat
  port : PortId
  addr : Nat
  bytes : Bytes
  deriving DecidableEq, Repr

/-- A RESP received by this drive as host on a peer session (Table 3.11). -/
structure PeerReply where
  rx : Rx
  opcode : Nat
  status : Nat
  tag : Nat
  inc : Nat
  body : Bytes
  deriving DecidableEq, Repr

/-- What lies where an uncorrectable DRAM burst falls (R258, R259); `writeWindow` and `writeFrag` are the write buffer's
contents: a granted window or immediate value of a command, and a fragment. -/
inductive DramRegion where
  | index
  | mediaTables
  | contexts
  | sessions
  | readCache (stripe : StripeId)
  | peerStaging
  | writeWindow (sid tag : Nat)
  | writeFrag (stripe : StripeId) (index : Nat)
  | siteWindow
  deriving DecidableEq, Repr

/-- How recovery ended: the step and cause of a failure, if it failed, and how long it took (R286). -/
structure RecoveryReport where
  failed : Option (Nat × Nat)
  durationMs : Nat
  deriving DecidableEq, Repr

/-- A neighbour or echo request that passed every receive check (R322): 1 ARP, 2 neighbour solicitation, 3 ICMP echo, 4 ICMPv6
echo; the address asked for, the asker's addresses, the echo payload, and the frame's bytes. -/
structure NeighbourFrame where
  kind : Nat
  target : Bytes
  source : Bytes
  payload : Bytes
  len : Nat
  deriving DecidableEq, Repr

/-- The class of a received frame (Table 11.2); CONTROL splits into pause and slow-protocol frames. -/
inductive FrameClass where
  | rwp | ptp | pause | slow | neighbour | diag | other
  deriving DecidableEq, Repr

/-- What the checks of Table 11.3 see of a frame: step 1, its bytes with the FCS, step 4, the destination address, the tag's TCI,
its EtherType with, under IP, its protocol and its UDP or TCP destination port or ICMP type, step 8 but for fragment and destination, the
IP destination (empty without IP), step 9, step 10; then FEC codewords corrected and not corrected in it, a reassembly error of
802.3br, and whether it is an IP fragment. -/
structure FrameFacts where
  pcsError : Bool
  len : Nat
  fcsOk : Bool
  dst : Bytes
  tci : Option Nat
  etherType : Nat
  l4 : Option (Nat × Nat)
  ipOk : Bool
  ipDst : Bytes
  l4Ok : Bool
  room : Bool
  fecCorrected : Nat := 0
  fecUncorrected : Nat := 0
  assemblyError : Bool := false
  fragment : Bool := false
  deriving DecidableEq, Repr

/-- A diagnostic frame (R326 to R328): its facts, whether its EtherType is the echo's, and its bytes with the FCS. -/
structure DiagFrame where
  facts : FrameFacts
  echo : Bool
  bytes : Bytes
  deriving DecidableEq, Repr

/-- A received PAUSE or PFC frame (R330): priorities, 8 for the whole port, with their times in quanta. -/
structure PauseFrame where
  pfc : Bool
  times : List (Nat × Nat)
  deriving DecidableEq, Repr

/-- What a PTP message brings (R336): an Announce with its master and comparison value, smaller being better; a Sync of a master
with the offset from it, if the delay is known; or another message. -/
inductive PtpWhat where
  | announce (gm : Bytes) (rank : Nat)
  | sync (gm : Bytes) (offset : Option Int)
  | other
  deriving DecidableEq, Repr

/-- A PTP message: domain, transport as PtpTransport codes it, frame bytes. -/
structure PtpMsg where
  domain : Nat
  transport : Nat
  len : Nat
  what : PtpWhat
  deriving DecidableEq, Repr

/-- A 1-second efficiency window (R156): for each kind, whether Insole held throughout it ready operations that dies, tokens or
channels kept it from issuing. -/
structure EffWindow where
  ingestCounted : Bool
  restoreCounted : Bool
  deriving DecidableEq, Repr

end Sys2Proof.Machine
end

