-- ==== Sys2Proof/Types/Security.lean ====
section
/-! DEFINITION. Key slots, alarms, write counter and secret table: the state of 10_keys_and_cipher.md. -/

namespace Sys2Proof.Machine

/-- The state of a key slot (Table 10.4). -/
inductive SlotState where
  | empty | deriving_ | ready | retiring
  deriving DecidableEq, Repr

/-- What a slot holds (Tables 10.1, 10.2). -/
inductive KeyName where
  | deviceRoot | mediaKey | secretTableKey | cursorKey | horizonKey
  | valueKey (ns gen member boot : Nat)
  | fragKey (ns gen : Nat)
  deriving DecidableEq, Repr

/-- One of the 256 slots; slots not listed are EMPTY. -/
structure KeySlot where
  slot : Nat
  st : SlotState
  name : KeyName
  key : Bytes
  refs : Nat
  lastUsed : Nat
  deriving DecidableEq, Repr

/-- A PSK entry (Tables 3.18, 10.3). -/
structure Psk where
  identity : Bytes
  psk : Bytes
  policy : Nat
  deriving DecidableEq, Repr

/-- A namespace's secrets (Table 10.3). -/
structure NsSecret where
  ns : Nat
  gen : Nat
  hashKey : Bytes
  secret : Bytes
  deriving DecidableEq, Repr

/-- A copy of the secret table in the anchor area (Table 10.3): TableSeq, the counter value of its nonce, and what it holds. -/
structure TableCopy where
  seq : Nat
  counter : Nat
  psks : List Psk
  secrets : List NsSecret
  deriving DecidableEq, Repr

/-- What a removal asked to erase, for event 0x0905. -/
structure ErasedSecret where
  kind : Nat
  ns : Nat
  gen : Nat
  idLen : Nat
  since : Nat
  deriving DecidableEq, Repr

/-- PD_SEC and the secret table (R292 to R316). -/
structure Sec where
  slots : List KeySlot := []
  psks : List Psk := []
  secrets : List NsSecret := []
  tableSeq : Nat := 0
  /-- the copies of the secret table in the anchor area, oldest first (R303) -/
  copies : List TableCopy := []
  /-- removals whose superblock switch runs (R304), and those carried by the following switch -/
  erasing : List ErasedSecret := []
  eraseNext : List ErasedSecret := []
  dramKey : Bool := false
  /-- the seed readable as the active one at the last MUSTER; none where no seed is active -/
  seed : Option Bytes := none
  /-- random bytes drawn so far: the argument of the free value -/
  drawn : Nat := 0
  rngFailed : Bool := false
  lastClass1 : Option Nat := none
  class2Times : List Nat := []
  glitchTimes : List Nat := []
  /-- a class-3 alarm stands until TamperClear -/
  tampered : Bool := false
  /-- a tamper seen in DORMANT, applied at wake -/
  tamperHeld : Bool := false
  /-- next media write counter value, newest reserved chunk, and the wrap flag (R300 to R302) -/
  counter : Nat := 0
  chunk : Nat := 0
  wrapped : Bool := false
  powerCycle : Nat := 0
  deriving DecidableEq, Repr

end Sys2Proof.Machine
end

