-- ==== Sys2Proof/Syntax.lean ====
section
/-! DEFINITION. The commands of the block: one constructor per row of spec/opcode_table.json, in its order. The first
operand `t` of each is the drive time in nanoseconds at which the step happens (assumption log 1). -/

namespace Sys2Proof
open Machine

/-- The commands, one per row of the table. -/
inductive Instr where
  /-- HELLO (R58). -/
  | hello (t : Nat) (h : HelloPkt)
  /-- HALF_OPEN_TIMEOUT (R61). -/
  | halfOpenTimeout (t : Nat) (sid : Nat)
  /-- SESSION_LOSS_TIMEOUT (R61). -/
  | sessionLossTimeout (t : Nat) (sid : Nat)
  /-- IDLE_TIMEOUT (R61). -/
  | idleTimeout (t : Nat) (sid : Nat)
  /-- CLOSING_TIMEOUT (R61). -/
  | closingTimeout (t : Nat) (sid : Nat)
  /-- CLOSE (R86). -/
  | close (t : Nat) (rx : Rx) (reason : Nat) (detail : Nat)
  /-- ACK (R64). -/
  | ack (t : Nat) (rx : Rx) (a : AckPkt)
  /-- ACK_DELAY_EXPIRY (R64). -/
  | ackDelayExpiry (t : Nat) (sid : Nat)
  /-- NAK (R67). -/
  | nak (t : Nat) (rx : Rx) (n : NakPkt)
  /-- PTO_EXPIRY (R68). -/
  | ptoExpiry (t : Nat) (sid : Nat) (path : Nat)
  /-- CONGESTION_UPDATE (R69). -/
  | congestionUpdate (t : Nat) (sid : Nat) (path : Nat)
  /-- CMD_SEQ_HOLD (R70). -/
  | cmdSeqHold (t : Nat) (rx : Rx) (pkt : CmdPkt) (plan : Plan)
  /-- DATA (R78). -/
  | data (t : Nat) (rx : Rx) (tag : Nat) (inc : Nat) (off : Nat) (payload : Bytes)
  /-- WINDOW_DRAIN (R44). -/
  | windowDrain (t : Nat) (sid : Nat) (tag : Nat)
  /-- DATA_IDLE_TIMEOUT (R79). -/
  | dataIdleTimeout (t : Nat) (sid : Nat) (tag : Nat)
  /-- GRANT_WINDOW (R77). -/
  | grantWindow (t : Nat) (sid : Nat) (tag : Nat) (lens : List Nat)
  /-- READ_DATA_SEND (R80). -/
  | readDataSend (t : Nat) (sid : Nat) (tag : Nat)
  /-- KEEPALIVE_PROBE (R83). -/
  | keepaliveProbe (t : Nat) (rx : Rx) (stamp : Nat)
  /-- KEEPALIVE_ECHO (R83). -/
  | keepaliveEcho (t : Nat) (rx : Rx) (stamp : Nat)
  /-- KEEPALIVE_INTERVAL (R83). -/
  | keepaliveInterval (t : Nat) (sid : Nat) (path : Nat)
  /-- PATH_DEAD_TIMEOUT (R84). -/
  | pathDeadTimeout (t : Nat) (sid : Nat) (path : Nat)
  /-- TLS_HANDSHAKE (R92). -/
  | tlsHandshake (t : Nat) (h : TlsHello)
  /-- V1_CONNECTION_CLOSE (R94). -/
  | v1ConnectionClose (t : Nat) (sid : Nat)
  /-- GET (R101). -/
  | get (t : Nat) (rx : Rx) (pkt : CmdPkt) (plan : Plan)
  /-- GET_RANGE (R102). -/
  | getRange (t : Nat) (rx : Rx) (pkt : CmdPkt) (plan : Plan)
  /-- STAT (R101). -/
  | stat (t : Nat) (rx : Rx) (pkt : CmdPkt) (plan : Plan)
  /-- LIST (R107). -/
  | list (t : Nat) (rx : Rx) (pkt : CmdPkt) (plan : Plan)
  /-- PUT (R20). -/
  | put (t : Nat) (rx : Rx) (pkt : CmdPkt) (plan : Plan)
  /-- PUT_IF (R26). -/
  | putIf (t : Nat) (rx : Rx) (pkt : CmdPkt) (plan : Plan)
  /-- DELETE (R27). -/
  | delete (t : Nat) (rx : Rx) (pkt : CmdPkt) (plan : Plan)
  /-- DELETE_IF (R105). -/
  | deleteIf (t : Nat) (rx : Rx) (pkt : CmdPkt) (plan : Plan)
  /-- FLUSH (R40). -/
  | flush (t : Nat) (rx : Rx) (pkt : CmdPkt) (plan : Plan)
  /-- FLUSH_END (R111). -/
  | flushEnd (t : Nat) (sid : Nat) (tag : Nat)
  /-- NS_CREATE (R113). -/
  | nsCreate (t : Nat) (rx : Rx) (pkt : CmdPkt) (plan : Plan)
  /-- NS_DELETE (R114). -/
  | nsDelete (t : Nat) (rx : Rx) (pkt : CmdPkt) (plan : Plan)
  /-- NS_QUERY (R115). -/
  | nsQuery (t : Nat) (rx : Rx) (pkt : CmdPkt) (plan : Plan)
  /-- DICT_READ (R116). -/
  | dictRead (t : Nat) (rx : Rx) (pkt : CmdPkt) (plan : Plan)
  /-- DICT_WRITE (R117). -/
  | dictWrite (t : Nat) (rx : Rx) (pkt : CmdPkt) (plan : Plan)
  /-- FW_SEGMENT (R119). -/
  | fwSegment (t : Nat) (rx : Rx) (pkt : CmdPkt) (plan : Plan)
  /-- FW_ACTIVATE (R433). -/
  | fwActivate (t : Nat) (rx : Rx) (pkt : CmdPkt) (plan : Plan)
  /-- SESSION_RESET (R148). -/
  | sessionReset (t : Nat) (rx : Rx) (pkt : CmdPkt) (plan : Plan)
  /-- FRAG_RESERVE (R142). -/
  | fragReserve (t : Nat) (rx : Rx) (pkt : CmdPkt) (plan : Plan)
  /-- FRAG_PUT (R214). -/
  | fragPut (t : Nat) (rx : Rx) (pkt : CmdPkt) (plan : Plan)
  /-- FRAG_GET (R218). -/
  | fragGet (t : Nat) (rx : Rx) (pkt : CmdPkt) (plan : Plan)
  /-- FRAG_RELEASE (R217). -/
  | fragRelease (t : Nat) (rx : Rx) (pkt : CmdPkt) (plan : Plan)
  /-- STRIPE_COMMIT_COMMIT (R217). -/
  | stripeCommitCommit (t : Nat) (rx : Rx) (pkt : CmdPkt) (plan : Plan)
  /-- STRIPE_COMMIT_HOLDERS (R226). -/
  | stripeCommitHolders (t : Nat) (rx : Rx) (pkt : CmdPkt) (plan : Plan)
  /-- STRIPE_COMMIT_HANDOFF (R221). -/
  | stripeCommitHandoff (t : Nat) (rx : Rx) (pkt : CmdPkt) (plan : Plan)
  /-- STRIPE_COMMIT_HANDOFF_DONE (R220). -/
  | stripeCommitHandoffDone (t : Nat) (rx : Rx) (pkt : CmdPkt) (plan : Plan)
  /-- STRIPE_COMMIT_HANDOFF_PENDING (R220). -/
  | stripeCommitHandoffPending (t : Nat) (rx : Rx) (pkt : CmdPkt) (plan : Plan)
  /-- STRIPE_COMMIT_NS_CREATE (R228). -/
  | stripeCommitNsCreate (t : Nat) (rx : Rx) (pkt : CmdPkt) (plan : Plan)
  /-- STRIPE_COMMIT_NS_DELETE (R228). -/
  | stripeCommitNsDelete (t : Nat) (rx : Rx) (pkt : CmdPkt) (plan : Plan)
  /-- REBUILD_QUERY_HOLDINGS (R210). -/
  | rebuildQueryHoldings (t : Nat) (rx : Rx) (pkt : CmdPkt) (plan : Plan)
  /-- REBUILD_QUERY_RESOLVE (R219). -/
  | rebuildQueryResolve (t : Nat) (rx : Rx) (pkt : CmdPkt) (plan : Plan)
  /-- REBUILD_QUERY_KEY_STATE (R222). -/
  | rebuildQueryKeyState (t : Nat) (rx : Rx) (pkt : CmdPkt) (plan : Plan)
  /-- REBUILD_QUERY_NAMESPACES (R229). -/
  | rebuildQueryNamespaces (t : Nat) (rx : Rx) (pkt : CmdPkt) (plan : Plan)
  /-- FRAG_RESERVE_REPLY (R141). -/
  | fragReserveReply (t : Nat) (r : PeerReply)
  /-- PHASE_ONE_TIMEOUT (R143). -/
  | phaseOneTimeout (t : Nat) (sid : Nat) (tag : Nat)
  /-- FRAG_PUT_REPLY (R214). -/
  | fragPutReply (t : Nat) (r : PeerReply)
  /-- WRITE_COMMIT (R20). -/
  | writeCommit (t : Nat) (sid : Nat) (tag : Nat)
  /-- HOLDER_FAIL_TIMEOUT (R214). -/
  | holderFailTimeout (t : Nat) (sid : Nat) (tag : Nat) (member : Nat)
  /-- RELEASE_ACK_WAIT_END (R215). -/
  | releaseAckWaitEnd (t : Nat) (sid : Nat) (tag : Nat)
  /-- MESSAGE_REPEAT (R476). -/
  | messageRepeat (t : Nat) (msg : Nat)
  /-- READ_TURN (R45). -/
  | readTurn (t : Nat) (sid : Nat) (tag : Nat)
  /-- ORDERED_START (R39). -/
  | orderedStart (t : Nat) (sid : Nat) (tag : Nat)
  /-- SUPERSEDED_RELEASE (R216). -/
  | supersededRelease (t : Nat) (stripe : StripeId)
  /-- PROMISE_BROKEN (R152). -/
  | promiseBroken (t : Nat) (sid : Nat) (tag : Nat)
  /-- ACTIVATION_PAUSE_START (R150). -/
  | activationPauseStart (t : Nat)
  /-- ACTIVATION_TAKEOVER (R433). -/
  | activationTakeover (t : Nat) (checks : Bool)
  /-- ACTIVATION_REJOIN (R433). -/
  | activationRejoin (t : Nat)
  /-- ACTIVATION_FAILURE (R436). -/
  | activationFailure (t : Nat) (step : Nat) (cause : Nat)
  /-- FW_COPY_COMPLETE (R430). -/
  | fwCopyComplete (t : Nat) (ok : Bool)
  /-- POWER_TOKEN_LIMIT_EFFECTIVE (R140). -/
  | powerTokenLimitEffective (t : Nat)
  /-- RHO_UPDATE (R133). -/
  | rhoUpdate (t : Nat)
  /-- WA_M_REPORT (R256). -/
  | waMReport (t : Nat)
  /-- HOT_WINDOW_CLEAR (R189). -/
  | hotWindowClear (t : Nat)
  /-- AWL_SCRUB_TICK (R183). -/
  | awlScrubTick (t : Nat) (found : Option (Bool × AwlEntry)) (shadowOk : Bool)
  /-- PURGE_PASS_END (R478). -/
  | purgePassEnd (t : Nat)
  /-- AWL_POLICY_WRITE (R186). -/
  | awlPolicyWrite (t : Nat) (client : Client) (value : Bytes)
  /-- AWL_POLICY_DELETE (R186). -/
  | awlPolicyDelete (t : Nat) (client : Client) (value : Bytes)
  /-- AWL_POLICY_INSERT (R186). -/
  | awlPolicyInsert (t : Nat) (client : Client) (value : Bytes)
  /-- AWL_POLICY_COMPACT (R186). -/
  | awlPolicyCompact (t : Nat) (client : Client) (value : Bytes)
  /-- AWL_BANK_MAP_WRITE (R176). -/
  | awlBankMapWrite (t : Nat) (client : Client) (value : Nat)
  /-- AWL_SITE_READ (R192). -/
  | awlSiteRead (t : Nat) (took : Nat)
  /-- AWL_SITE_WRITE (R192). -/
  | awlSiteWrite (t : Nat) (took : Nat) (shadowOk : Bool)
  /-- AWL_SITE_VALIDATE (R192). -/
  | awlSiteValidate (t : Nat) (took : Nat) (shadowOk : Bool)
  /-- AWL_SITE_INVALIDATE (R192). -/
  | awlSiteInvalidate (t : Nat) (turn : SiteTurn)
  /-- AWL_SITE_SEARCH (R192). -/
  | awlSiteSearch (t : Nat) (took : Nat) (facts : AwlFacts)
  /-- AWL_SITE_MOVE (R181). -/
  | awlSiteMove (t : Nat) (took : Nat) (shadowOk : Bool)
  /-- AWL_SITE_FIND_HOLE (R192). -/
  | awlSiteFindHole (t : Nat) (took : Nat)
  /-- AWL_SITE_VFAIL_READ (R7). -/
  | awlSiteVfailRead (t : Nat)
  /-- GROUP_MAP_WRITE (R198). -/
  | groupMapWrite (t : Nat) (client : Client) (value : Bytes)
  /-- EPOCH_ACTIVATE (R198). -/
  | epochActivate (t : Nat)
  /-- HANDOFF_SEND (R220). -/
  | handoffSend (t : Nat) (ns : Nat) (hash : Nat)
  /-- HANDOFF_RESOLVE (R223). -/
  | handoffResolve (t : Nat) (ns : Nat) (hash : Nat)
  /-- MEMBER_LOST (R225). -/
  | memberLost (t : Nat) (member : Nat)
  /-- STRIPE_REPAIR (R226). -/
  | stripeRepair (t : Nat) (stripe : StripeId) (index : Nat)
  /-- STRIPE_REBALANCE (R226). -/
  | stripeRebalance (t : Nat) (stripe : StripeId) (index : Nat)
  /-- ORPHAN_RESOLVE_TIMER (R219). -/
  | orphanResolveTimer (t : Nat) (stripe : StripeId) (index : Nat)
  /-- ORPHAN_RESOLVE_ANSWER (R219). -/
  | orphanResolveAnswer (t : Nat) (r : PeerReply)
  /-- NS_DISTRIBUTE_TIMEOUT (R228). -/
  | nsDistributeTimeout (t : Nat) (sid : Nat) (tag : Nat)
  /-- NS_SYNC (R229). -/
  | nsSync (t : Nat)
  /-- NAND_ZQ_RECAL (R238). -/
  | nandZqRecal (t : Nat) (temp : Int)
  /-- PROGRAM_COMPLETE (R250). -/
  | programComplete (t : Nat) (stream : Nat) (place : UnitPlace)
  /-- PROGRAM_FAILURE (R274). -/
  | programFailure (t : Nat) (unit : UnitId)
  /-- ERASE_COMPLETE (R271). -/
  | eraseComplete (t : Nat) (ds : Nat) (sb : Nat)
  /-- ERASE_FAILURE (R274). -/
  | eraseFailure (t : Nat) (ds : Nat) (sb : Nat) (slot : Nat)
  /-- DIE_READY_TIMEOUT (R274). -/
  | dieReadyTimeout (t : Nat) (ds : Nat) (slot : Nat)
  /-- CODEWORD_READ (R246). -/
  | codewordRead (t : Nat) (ds : Nat) (sb : Nat) (cw : Nat) (outcome : ReadOutcome) (tagFails : Nat)
  /-- SB_PROGRESS_APPEND (R282). -/
  | sbProgressAppend (t : Nat) (ds : Nat) (sb : Nat)
  /-- DRAM_ECC_CORRECTED (R258). -/
  | dramEccCorrected (t : Nat) (addr : Nat) (dev : Nat)
  /-- DRAM_ECC_UNCORRECTABLE (R258). -/
  | dramEccUncorrectable (t : Nat) (addr : Nat) (dev : Nat) (region : DramRegion)
  /-- DRAM_PATROL_SCRUB (R258). -/
  | dramPatrolScrub (t : Nat)
  /-- HOLDUP_FLUSH_END (R377). -/
  | holdupFlushEnd (t : Nat)
  /-- HOLDUP_OK_DEASSERT (R253). -/
  | holdupOkDeassert (t : Nat)
  /-- HOLDUP_OK_ASSERT (R253). -/
  | holdupOkAssert (t : Nat)
  /-- GC_VICTIM_SELECT (R266). -/
  | gcVictimSelect (t : Nat) (ds : Nat)
  /-- SUPERBLOCK_ERASE (R271). -/
  | superblockErase (t : Nat) (ds : Nat) (sb : Nat)
  /-- WEAR_STATIC_CHECK (R276). -/
  | wearStaticCheck (t : Nat)
  /-- EFFECTIVE_AGE_TICK (R278). -/
  | effectiveAgeTick (t : Nat) (temps : List Int)
  /-- RETENTION_SCAN (R279). -/
  | retentionScan (t : Nat) (ds : Nat) (sb : Nat) (worst : ReadOutcome) (retries : List (Nat × Nat))
  /-- SLC_FOLD (R269). -/
  | slcFold (t : Nat)
  /-- CHECKPOINT_START (R284). -/
  | checkpointStart (t : Nat)
  /-- CHECKPOINT_END (R284). -/
  | checkpointEnd (t : Nat)
  /-- RECOVERY_COMPLETE (R371). -/
  | recoveryComplete (t : Nat) (r : RecoveryReport)
  /-- KEY_DERIVATION_COMPLETE (R308). -/
  | keyDerivationComplete (t : Nat) (slot : Nat)
  /-- SECRET_ERASE_COMPLETE (R304). -/
  | secretEraseComplete (t : Nat)
  /-- CLASS1_ALARM (R310). -/
  | class1Alarm (t : Nat) (src : Nat) (users : List (Nat × Nat))
  /-- CLASS2_ALARM (R310). -/
  | class2Alarm (t : Nat) (src : Nat) (flushUs : Nat)
  /-- TAMPER (R310). -/
  | tamper (t : Nat) (input : Nat) (level : Bool) (cycles : Nat)
  /-- PORT_SETTING_WRITE (R320). -/
  | portSettingWrite (t : Nat) (client : Client) (port : PortId) (sub : Nat) (value : Bytes)
  /-- TRAINING_TIMEOUT (R319). -/
  | trainingTimeout (t : Nat) (port : PortId) (mode : Nat) (lane : Nat)
  /-- TRAINING_COMPLETE (R319). -/
  | trainingComplete (t : Nat) (port : PortId) (mode : Nat) (fec : Nat)
  /-- LINK_UP_HOLD_END (R335). -/
  | linkUpHoldEnd (t : Nat) (port : PortId)
  /-- LINK_DOWN (R333). -/
  | linkDown (t : Nat) (port : PortId) (cause : Nat)
  /-- NEIGHBOUR_FRAME (R322). -/
  | neighbourFrame (t : Nat) (port : PortId) (f : NeighbourFrame)
  /-- ICMP_PTB (R322). -/
  | icmpPtb (t : Nat) (port : PortId) (len : Nat)
  /-- FILTERED_FRAME (R325). -/
  | filteredFrame (t : Nat) (port : PortId) (f : FrameFacts)
  /-- DIAG_CAPTURE_FRAME (R327). -/
  | diagCaptureFrame (t : Nat) (port : PortId) (f : DiagFrame)
  /-- DIAG_ECHO_FRAME (R328). -/
  | diagEchoFrame (t : Nat) (port : PortId) (f : DiagFrame)
  /-- DIAG_CAPTURE_RELEASE (R327). -/
  | diagCaptureRelease (t : Nat) (client : Client) (seq : Nat)
  /-- PAUSE_FRAME (R330). -/
  | pauseFrame (t : Nat) (port : PortId) (f : PauseFrame)
  /-- PAUSE_TX_REPEAT (R330). -/
  | pauseTxRepeat (t : Nat) (port : PortId) (used : Nat)
  /-- PAUSE_WATCHDOG_TRIP (R332). -/
  | pauseWatchdogTrip (t : Nat) (port : PortId)
  /-- PAUSE_IGNORE_END (R332). -/
  | pauseIgnoreEnd (t : Nat) (port : PortId)
  /-- PREEMPT_VERIFY_RESPONSE (R329). -/
  | preemptVerifyResponse (t : Nat) (port : PortId)
  /-- PREEMPT_VERIFY_FAIL (R329). -/
  | preemptVerifyFail (t : Nat) (port : PortId)
  /-- PTP_MESSAGE (R336). -/
  | ptpMessage (t : Nat) (port : PortId) (m : PtpMsg)
  /-- PTP_LOSS_TIMEOUT (R338). -/
  | ptpLossTimeout (t : Nat)
  /-- USDO_EXPEDITED_UPLOAD (R363). -/
  | usdoExpeditedUpload (t : Nat) (node : Nat) (index : Nat) (sub : Nat)
  /-- USDO_EXPEDITED_DOWNLOAD (R363). -/
  | usdoExpeditedDownload (t : Nat) (node : Nat) (index : Nat) (sub : Nat) (bytes : Bytes)
  /-- USDO_SEGMENTED_UPLOAD_INIT (R363). -/
  | usdoSegmentedUploadInit (t : Nat) (node : Nat) (index : Nat) (sub : Nat)
  /-- USDO_UPLOAD_SEGMENT (R363). -/
  | usdoUploadSegment (t : Nat) (node : Nat)
  /-- USDO_SEGMENTED_DOWNLOAD_INIT (R363). -/
  | usdoSegmentedDownloadInit (t : Nat) (node : Nat) (index : Nat) (sub : Nat) (total : Nat) (bytes : Bytes)
  /-- USDO_DOWNLOAD_SEGMENT (R363). -/
  | usdoDownloadSegment (t : Nat) (node : Nat) (bytes : Bytes) (last : Bool)
  /-- USDO_ABORT (R363). -/
  | usdoAbort (t : Nat) (node : Nat)
  /-- USDO_TIMEOUT (R363). -/
  | usdoTimeout (t : Nat) (node : Nat)
  /-- NODE_ID_CLAIM (R356). -/
  | nodeIdClaim (t : Nat) (serial : Nat) (newId : Nat)
  /-- NODE_ID_EMCY_RETRY (R356). -/
  | nodeIdEmcyRetry (t : Nat)
  /-- NMT_START_REMOTE_NODE (R358). -/
  | nmtStartRemoteNode (t : Nat) (node : Nat)
  /-- NMT_STOP_REMOTE_NODE (R358). -/
  | nmtStopRemoteNode (t : Nat) (node : Nat)
  /-- NMT_ENTER_PRE_OPERATIONAL (R358). -/
  | nmtEnterPreOperational (t : Nat) (node : Nat)
  /-- NMT_RESET_NODE (R358). -/
  | nmtResetNode (t : Nat) (node : Nat)
  /-- NMT_RESET_COMMUNICATION (R358). -/
  | nmtResetCommunication (t : Nat) (node : Nat)
  /-- TIME_FRAME (R362). -/
  | timeFrame (t : Nat) (cobid : Nat) (ms : Nat) (days : Nat)
  /-- WAKE_FRAME (R365). -/
  | wakeFrame (t : Nat)
  /-- CAN_WAKE_DOMINANT (R364). -/
  | canWakeDominant (t : Nat) (durNs : Nat) (takes : Bool)
  /-- WAKE_IDLE_TIMEOUT (R364). -/
  | wakeIdleTimeout (t : Nat)
  /-- HEARTBEAT (R359). -/
  | heartbeat (t : Nat)
  /-- EMCY_SEND (R360). -/
  | emcySend (t : Nat)
  /-- CAN_BUS_OFF_RECOVERY (R355). -/
  | canBusOffRecovery (t : Nat)
  /-- CAN_ERROR_PASSIVE (R355). -/
  | canErrorPassive (t : Nat)
  /-- DICT_ENTRY_WRITE (R346). -/
  | dictEntryWrite (t : Nat) (client : Client) (index : Nat) (sub : Nat) (bytes : Bytes)
  /-- STORE_ALL (R350). -/
  | storeAll (t : Nat) (client : Client) (value : Nat)
  /-- RESTORE_GROUP (R351). -/
  | restoreGroup (t : Nat) (client : Client) (sub : Nat) (value : Nat)
  /-- PSK_ENTRY_WRITE (R89). -/
  | pskEntryWrite (t : Nat) (client : Client) (bytes : Bytes)
  /-- PSK_IDENTITY_DELETE (R89). -/
  | pskIdentityDelete (t : Nat) (client : Client) (bytes : Bytes)
  /-- POWER_TOKENS_WRITE (R140). -/
  | powerTokensWrite (t : Nat) (client : Client) (value : Nat)
  /-- POWER_TOKEN_LIMIT_WRITE (R140). -/
  | powerTokenLimitWrite (t : Nat) (client : Client) (value : Nat)
  /-- LIFE_CYCLE_PROVISION (R442). -/
  | lifeCycleProvision (t : Nat) (client : Client) (bytes : Bytes)
  /-- LIFE_CYCLE_DEPLOY (R442). -/
  | lifeCycleDeploy (t : Nat) (client : Client) (bytes : Bytes)
  /-- LIFE_CYCLE_RETURN (R442). -/
  | lifeCycleReturn (t : Nat) (client : Client) (bytes : Bytes)
  /-- LIFE_CYCLE_RETIRE (R442). -/
  | lifeCycleRetire (t : Nat) (client : Client) (bytes : Bytes)
  /-- OTP_SETTINGS_WRITE (R443). -/
  | otpSettingsWrite (t : Nat) (client : Client) (bytes : Bytes) (progOk : Bool)
  /-- TAMPER_CLEAR (R310). -/
  | tamperClear (t : Nat) (client : Client) (value : Nat)
  /-- EVENT_RATE_LIMIT_WRITE (R420). -/
  | eventRateLimitWrite (t : Nat) (client : Client) (bytes : Bytes)
  /-- EVENT_SNAPSHOT_FROM_WRITE (R422). -/
  | eventSnapshotFromWrite (t : Nat) (client : Client) (slot : Nat) (value : Nat)
  /-- SNAPSHOT_EXPIRY (R422). -/
  | snapshotExpiry (t : Nat) (slot : Nat)
  /-- SITE_MESSAGE_WRITE (R404). -/
  | siteMessageWrite (t : Nat) (client : Client) (bytes : Bytes)
  /-- PWR_GOOD_CORE_RISE (R376). -/
  | pwrGoodCoreRise (t : Nat) (b : Board)
  /-- PWR_GOOD_CORE_FALL (R378). -/
  | pwrGoodCoreFall (t : Nat)
  /-- PWR_GOOD_TIMEOUT (R376). -/
  | pwrGoodTimeout (t : Nat)
  /-- PFAIL_N_LOW (R377). -/
  | pfailNLow (t : Nat) (durNs : Nat)
  /-- POST_FLUSH_REASSERT (R377). -/
  | postFlushReassert (t : Nat)
  /-- WARM_RST_N_LOW (R378). -/
  | warmRstNLow (t : Nat) (durNs : Nat)
  /-- POR_N_LOW (R378). -/
  | porNLow (t : Nat) (durNs : Nat)
  /-- VSTBY_APPLY (R456). -/
  | vstbyApply (t : Nat)
  /-- VSTBY_LOSS (R349). -/
  | vstbyLoss (t : Nat)
  /-- LULL1_ENTRY (R372). -/
  | lull1Entry (t : Nat)
  /-- LULL2_ENTRY (R372). -/
  | lull2Entry (t : Nat)
  /-- LULL_EXIT (R373). -/
  | lullExit (t : Nat) (trigger : Nat)
  /-- SWEEP_AUTO_END (R374). -/
  | sweepAutoEnd (t : Nat)
  /-- SERVE_DRAIN_END (R86). -/
  | serveDrainEnd (t : Nat)
  /-- THERMAL_SAMPLE (R379). -/
  | thermalSample (t : Nat) (temp : Int)
  /-- THERMAL_STEP (R379). -/
  | thermalStep (t : Nat)
  /-- WAKE_ALARM (R381). -/
  | wakeAlarm (t : Nat)
  /-- DOMAIN_POWER_UP (R382). -/
  | domainPowerUp (t : Nat) (dom : Dom)
  /-- DMA_QUIESCE_TIMEOUT (R383). -/
  | dmaQuiesceTimeout (t : Nat) (ch : Nat) (dom : Dom)
  /-- DMA_QUIESCE_RETRY (R383). -/
  | dmaQuiesceRetry (t : Nat) (ch : Nat) (dom : Dom) (bytes : Nat)
  /-- CLOCK_MONITOR_WINDOW (R387). -/
  | clockMonitorWindow (t : Nat) (src : Source) (count : Nat) (gap : Bool)
  /-- PLL_LOSS_OF_LOCK (R391). -/
  | pllLossOfLock (t : Nat) (pll : Pll)
  /-- PLL_RELOCK_TIMEOUT (R391). -/
  | pllRelockTimeout (t : Nat) (pll : Pll)
  /-- CLOCK_SWITCH_TIMEOUT (R390). -/
  | clockSwitchTimeout (t : Nat) (dom : Dom) (users : List (Nat × Nat))
  /-- GATE_IDLE_CLOSE (R393). -/
  | gateIdleClose (t : Nat) (blk : Nat) (outstanding : Nat)
  /-- GATE_DEFERRAL_TIMEOUT (R393). -/
  | gateDeferralTimeout (t : Nat) (blk : Nat)
  /-- GATE_REOPEN (R393). -/
  | gateReopen (t : Nat) (blk : Nat)
  /-- FMC_START (R394). -/
  | fmcStart (t : Nat)
  /-- FMC_STOP (R394). -/
  | fmcStop (t : Nat) (count : Nat)
  /-- FMC_WINDOW_END (R394). -/
  | fmcWindowEnd (t : Nat) (count : Nat)
  /-- DMA_DOORBELL (R410). -/
  | dmaDoorbell (t : Nat) (ch : Nat)
  /-- DMA_TIMER_TRIGGER (R410). -/
  | dmaTimerTrigger (t : Nat) (ch : Nat)
  /-- DMA_ENABLE (R406). -/
  | dmaEnable (t : Nat) (ch : Nat) (value : Nat)
  /-- DMA_RING_REG_WRITE (R406). -/
  | dmaRingRegWrite (t : Nat) (ch : Nat) (reg : Nat) (value : Nat)
  /-- DMA_DISABLE (R413). -/
  | dmaDisable (t : Nat) (ch : Nat) (bytes : Nat)
  /-- DMA_DESCRIPTOR_COMPLETE (R411). -/
  | dmaDescriptorComplete (t : Nat) (ch : Nat)
  /-- DMA_BUS_ERROR (R414). -/
  | dmaBusError (t : Nat) (ch : Nat) (addr : Nat) (bytes : Nat) (fetch : Bool)
  /-- EVENT_BATCH_APPEND (R419). -/
  | eventBatchAppend (t : Nat)
  /-- OPERATING_SECONDS_SAVE (R418). -/
  | operatingSecondsSave (t : Nat)
  /-- EVR_FETCH (R423). -/
  | evrFetch (t : Nat)
  /-- EVR_POST (R423). -/
  | evrPost (t : Nat)
  /-- EVR_NEXT_SEQ_READ (R423). -/
  | evrNextSeqRead (t : Nat)
  /-- TMR_NOW_READ (R405). -/
  | tmrNowRead (t : Nat)
  /-- TMR_CMP_WRITE (R405). -/
  | tmrCmpWrite (t : Nat) (n : Nat) (hi : Bool) (value : Nat)
  /-- TIMER_COMPARATOR_FIRE (R405). -/
  | timerComparatorFire (t : Nat) (n : Nat)
  /-- TMR_WDOG_KICK (R405). -/
  | tmrWdogKick (t : Nat)
  /-- SITE_WATCHDOG_EXPIRY (R401). -/
  | siteWatchdogExpiry (t : Nat) (bytes : List Nat)
  /-- SITE_ACCESS_FAULT (R399). -/
  | siteAccessFault (t : Nat) (core : Nat) (addr : Nat) (width : Nat)
  /-- MBX_S2C_PROD_WRITE (R403). -/
  | mbxS2cProdWrite (t : Nat) (value : Nat)
  /-- MBX_C2S_CONS_WRITE (R403). -/
  | mbxC2sConsWrite (t : Nat) (value : Nat)
  /-- MBX_DICT_READ (R404). -/
  | mbxDictRead (t : Nat)
  /-- MBX_SITE_REPORT (R404). -/
  | mbxSiteReport (t : Nat)
  /-- MBX_C2S_FULL_TIMEOUT (R403). -/
  | mbxC2sFullTimeout (t : Nat)
  /-- LACE_FORWARD (R438). -/
  | laceForward (t : Nat)
  /-- LACE_SKIP_TIMEOUT (R439). -/
  | laceSkipTimeout (t : Nat)
  /-- SMBUS_POLL (R474). -/
  | smbusPoll (t : Nat) (results : List (Nat × Nat))
  /-- REGISTER_WRITE (R7). -/
  | registerWrite (t : Nat) (addr : Nat) (value : Nat)
  /-- PEER_SESSION_ACCEPT (R58). -/
  | peerSessionAccept (t : Nat) (a : AcceptPkt)
  /-- PEER_GRANT (R77). -/
  | peerGrant (t : Nat) (rx : Rx) (tag : Nat) (inc : Nat) (windows : List (Nat × Nat))
  /-- PEER_DATA (R80). -/
  | peerData (t : Nat) (rx : Rx) (tag : Nat) (inc : Nat) (off : Nat) (payload : Bytes) (last : Bool)
  /-- FRAG_GET_REPLY (R218). -/
  | fragGetReply (t : Nat) (r : PeerReply)
  /-- FRAG_RELEASE_REPLY (R215). -/
  | fragReleaseReply (t : Nat) (r : PeerReply)
  /-- STRIPE_COMMIT_REPLY (R214). -/
  | stripeCommitReply (t : Nat) (r : PeerReply)
  /-- REBUILD_QUERY_REPLY (R229). -/
  | rebuildQueryReply (t : Nat) (r : PeerReply)
  /-- LACE_REPLY (R439). -/
  | laceReply (t : Nat) (r : PeerReply)
  /-- FRAG_FETCH_TIMEOUT (R218). -/
  | fragFetchTimeout (t : Nat) (sid : Nat) (tag : Nat) (index : Nat)
  /-- HANDOFF_PULL_TIMEOUT (R222). -/
  | handoffPullTimeout (t : Nat) (sid : Nat) (tag : Nat)
  /-- HANDOFF_FALLBACK_TIMEOUT (R220). -/
  | handoffFallbackTimeout (t : Nat) (ns : Nat) (hash : Nat)
  /-- PAUSE_TIME_EXPIRY (R330). -/
  | pauseTimeExpiry (t : Nat) (port : PortId) (prio : Nat)
  /-- CAN_ERROR_PASSIVE_END (R360). -/
  | canErrorPassiveEnd (t : Nat)
  /-- POR_N_RISE (R378). -/
  | porNRise (t : Nat)
  /-- WARM_RST_N_RISE (R378). -/
  | warmRstNRise (t : Nat)
  /-- XTAL32K_STABLE (R386). -/
  | xtal32kStable (t : Nat)
  /-- PLL_LOCK (R391). -/
  | pllLock (t : Nat) (pll : Pll)
  /-- HALT_DRAIN_TIMEOUT (R375). -/
  | haltDrainTimeout (t : Nat)
  /-- SETTINGS_STORE_COMPLETE (R440). -/
  | settingsStoreComplete (t : Nat)
  /-- EFFICIENCY_WINDOW_END (R156). -/
  | efficiencyWindowEnd (t : Nat) (w : EffWindow)
  /-- PTP_PPS_EDGE (R339). -/
  | ptpPpsEdge (t : Nat) (rise : Bool)
  deriving DecidableEq, Repr

end Sys2Proof
end

