-- ==== Sys2Proof/Config.lean ====
section
/-! DEFINITION. What the manual names but does not compute (standard ciphers, hashes and curves), and the free values:
constants without a body, so that no proof can see a value of them (assumption log 2 and 3). -/

namespace Sys2Proof.Config

/-- AES-CMAC with a 128- or 256-bit key (SP 800-38B): key, message. -/
opaque aesCmac : Bytes → Bytes → Bytes
/-- AES-256-CTR keystream: key, nonce, byte offset, length. -/
opaque aesKeystream : Bytes → Bytes → Nat → Nat → Bytes
/-- The AES-256-GCM tag: key, nonce, additional data, ciphertext. -/
opaque gcmTag : Bytes → Bytes → Bytes → Bytes → Bytes
/-- The P-384 public point of a private key, uncompressed. -/
opaque ecdhPublic : Bytes → Bytes
/-- The x-coordinate of the P-384 shared point: private key, peer's point. -/
opaque ecdhShared : Bytes → Bytes → Bytes
/-- SHA-384. -/
opaque sha384 : Bytes → Bytes
/-- ECDSA P-384 verification: public key, signed bytes, signature. -/
opaque ecdsaVerify : Bytes → Bytes → Bytes → Bool
/-- The n-th random byte of the generator (R295). -/
opaque randomByte : Nat → Byte
/-- The n-th value that the manual leaves open. -/
opaque freeNat : Nat → Nat
/-- The LDPC parity of codeword data, whose code the manual does not give: data, parity bytes (08 R243). -/
opaque ldpcParity : Bytes → Nat → Bytes
/-- The soft-decode time of a codeword in ns, for which the manual gives no figure (Table 5.4). -/
opaque softDecodeNs : Nat
/-- The power domain of a system address of the core network, by its position in CPC_DOMAINS. -/
opaque coreAddrDomain : Nat → Nat
/-- Delay of a repeated EMCY 0xFF01, in ns, from serial number and attempt count (R356: 10 to 500 ms). -/
opaque emcyRetryDelay : Nat → Nat → Nat
/-- The SHA-384 digest of vendor key 0 to 3 that the boot ROM holds (R428). -/
opaque vendorDigest : Nat → Bytes
/-- The number that a detail field of an event gives to one of the names it stands for, where the manual lists the names
and numbers none: from the event's code and the model's own count of the names (log 8). -/
opaque eventCode : Nat → Nat → Nat

end Sys2Proof.Config
end

