-- ==== Sys2Proof/Machine/DictTable.lean ====
section
/-! DEFINITION. The object dictionary's table: every entry of the manual's dictionary tables with its type, access
code, default, persistence kind and range (00 R9, R16, 12 R345, R349, R367, R368, and the entry tables of the
owning chapters), and the subindex-0 entries of R345. Rows are written from those tables. -/

namespace Sys2Proof.Machine

/-- Dictionary data types (00 Table 0.3, 04 R117). -/
inductive DType where
  | bool | u8 | u16 | u32 | u64 | i16 | i32 | str | oct | dom
  deriving DecidableEq, Repr

/-- The bytes of a fixed-size type; none for strings and DOMAIN (R117). -/
def DType.size : DType → Option Nat
  | .bool => some 1 | .u8 => some 1 | .u16 => some 2 | .u32 => some 4 | .u64 => some 8
  | .i16 => some 2 | .i32 => some 4 | .str => none | .oct => none | .dom => none

/-- Data-type codes of CiA 301 (Table 4.25). -/
def DType.code : DType → Nat
  | .bool => 0x01 | .u8 => 0x05 | .u16 => 0x06 | .u32 => 0x07 | .u64 => 0x1B | .i16 => 0x03 | .i32 => 0x04 | .str => 0x09
  | .oct => 0x0A | .dom => 0x0F

/-- Access codes (Table 0.3). -/
inductive Access where
  | const | ro | rw | wo | rwr | rwp
  deriving DecidableEq, Repr

/-- Persistence kinds (Table 12.1). -/
inductive Persist where
  | none_ | otp | sys | vol
  deriving DecidableEq, Repr

/-- A row of the dictionary: key is index times 256 plus subindex; `lo` and `hi` bound a numeric value. -/
structure DictRow where
  key : Nat
  typ : DType
  access : Access
  persist : Persist
  dflt : Nat := 0
  lo : Option Nat := none
  hi : Option Nat := none
  deriving DecidableEq, Repr

namespace K
/-- 0x1000:00 DeviceType. -/
abbrev deviceType : Nat := 0x100000
/-- 0x1001:00 ErrorRegister. -/
abbrev errorRegister : Nat := 0x100100
/-- 0x1010:01 StoreAll. -/
abbrev storeAll : Nat := 0x101001
/-- 0x1011:01 RestoreAll. -/
abbrev restoreAll : Nat := 0x101101
/-- 0x1011:02 RestoreCommunication. -/
abbrev restoreCommunication : Nat := 0x101102
/-- 0x1011:03 RestoreApplication. -/
abbrev restoreApplication : Nat := 0x101103
/-- 0x1012:00 TimeCobId. -/
abbrev timeCobId : Nat := 0x101200
/-- 0x1017:00 ProducerHeartbeatTime. -/
abbrev producerHeartbeatTime : Nat := 0x101700
/-- 0x1018:00 IdentityCount. -/
abbrev identityCount : Nat := 0x101800
/-- 0x1018:01 VendorId. -/
abbrev vendorId : Nat := 0x101801
/-- 0x1018:02 ProductCode. -/
abbrev productCode : Nat := 0x101802
/-- 0x1018:03 RevisionNumber. -/
abbrev revisionNumber : Nat := 0x101803
/-- 0x1018:04 SerialNumber. -/
abbrev serialNumber : Nat := 0x101804
/-- 0x2000:01 Mode. -/
abbrev mode : Nat := 0x200001
/-- 0x2000:02 LifeCycleState. -/
abbrev lifeCycleState : Nat := 0x200002
/-- 0x2000:03 SummaryFlags. -/
abbrev summaryFlags : Nat := 0x200003
/-- 0x2000:04 RtcSeconds. -/
abbrev rtcSeconds : Nat := 0x200004
/-- 0x2000:05 TaiUtcOffset. -/
abbrev taiUtcOffset : Nat := 0x200005
/-- 0x2000:06 HaltCause. -/
abbrev haltCause : Nat := 0x200006
/-- 0x2002:01 NodeId. -/
abbrev nodeId : Nat := 0x200201
/-- 0x2002:02 NodeIdClaim. -/
abbrev nodeIdClaim : Nat := 0x200202
/-- 0x2002:03 ShelfNominalKbps. -/
abbrev shelfNominalKbps : Nat := 0x200203
/-- 0x2002:04 ShelfDataKbps. -/
abbrev shelfDataKbps : Nat := 0x200204
/-- 0x2002:05 WakeIdleMs. -/
abbrev wakeIdleMs : Nat := 0x200205
/-- 0x2002:06 UsdoTimeoutMs. -/
abbrev usdoTimeoutMs : Nat := 0x200206
/-- 0x2002:07 EmcyInhibitMs. -/
abbrev emcyInhibitMs : Nat := 0x200207
/-- 0x2002:08 ShelfReadOffset. -/
abbrev shelfReadOffset : Nat := 0x200208
/-- 0x2003:01 CanRxFrames. -/
abbrev canRxFrames : Nat := 0x200301
/-- 0x2003:02 CanTxFrames. -/
abbrev canTxFrames : Nat := 0x200302
/-- 0x2003:03 CanBusOffCount. -/
abbrev canBusOffCount : Nat := 0x200303
/-- 0x2003:04 NmtIgnored. -/
abbrev nmtIgnored : Nat := 0x200304
/-- 0x2003:05 EmcyDropped. -/
abbrev emcyDropped : Nat := 0x200305
/-- 0x2003:06 TimeFramesRx. -/
abbrev timeFramesRx : Nat := 0x200306
/-- 0x2101:01 ModeTarget. -/
abbrev modeTarget : Nat := 0x210101
/-- 0x2101:02 LullEnable. -/
abbrev lullEnable : Nat := 0x210102
/-- 0x2101:03 LullEnterMs. -/
abbrev lullEnterMs : Nat := 0x210103
/-- 0x2101:04 Lull2EnterMs. -/
abbrev lull2EnterMs : Nat := 0x210104
/-- 0x2101:05 PwrGoodTimeoutMs. -/
abbrev pwrGoodTimeoutMs : Nat := 0x210105
/-- 0x2101:06 WakeIntervalHours. -/
abbrev wakeIntervalHours : Nat := 0x210106
/-- 0x2101:07 LastWakeMs. -/
abbrev lastWakeMs : Nat := 0x210107
/-- 0x2102:01 DomainStates. -/
abbrev domainStates : Nat := 0x210201
/-- 0x2103:01 NpllRefSelect. -/
abbrev npllRefSelect : Nat := 0x210301
/-- 0x2103:02 NpllRefActive. -/
abbrev npllRefActive : Nat := 0x210302
/-- 0x2103:03 SourceStates. -/
abbrev sourceStates : Nat := 0x210303
/-- 0x2103:04 Xtal32kPpm. -/
abbrev xtal32kPpm : Nat := 0x210304
/-- 0x2103:05 FsoPpm. -/
abbrev fsoPpm : Nat := 0x210305
/-- 0x2103:06 WoscPpm. -/
abbrev woscPpm : Nat := 0x210306
/-- 0x2103:07 RecAPpm. -/
abbrev recAPpm : Nat := 0x210307
/-- 0x2103:08 RecBPpm. -/
abbrev recBPpm : Nat := 0x210308
/-- 0x2103:09 EthRefclkPpm. -/
abbrev ethRefclkPpm : Nat := 0x210309
/-- 0x2104:01 ThermalThrottleC. -/
abbrev thermalThrottleC : Nat := 0x210401
/-- 0x2104:02 ThermalTripC. -/
abbrev thermalTripC : Nat := 0x210402
/-- 0x2104:03 ThermalStepTokens. -/
abbrev thermalStepTokens : Nat := 0x210403
/-- 0x2104:04 JunctionTempC. -/
abbrev junctionTempC : Nat := 0x210404
/-- 0x2104:05 ThermalTokenCap. -/
abbrev thermalTokenCap : Nat := 0x210405
/-- 0x2110:01 ModeChanges. -/
abbrev modeChanges : Nat := 0x211001
/-- 0x2110:02 LullEntries. -/
abbrev lullEntries : Nat := 0x211002
/-- 0x2110:03 DomainPowerDownsRefused. -/
abbrev domainPowerDownsRefused : Nat := 0x211003
/-- 0x2110:04 ForcedSwitches. -/
abbrev forcedSwitches : Nat := 0x211004
/-- 0x2110:05 GateDeferralsAbandoned. -/
abbrev gateDeferralsAbandoned : Nat := 0x211005
/-- 0x2110:06 SourceDeadEvents. -/
abbrev sourceDeadEvents : Nat := 0x211006
/-- 0x2110:07 ThermalCapSeconds. -/
abbrev thermalCapSeconds : Nat := 0x211007
/-- 0x2201:01 and 0x2202:01 PortEnable; `p` is 0 for port A, 1 for port B. -/
abbrev portEnable (p : Nat) : Nat := 0x220101 + 256 * p
/-- 0x2201:02 and 0x2202:02 PortMode; `p` is 0 for port A, 1 for port B. -/
abbrev portMode (p : Nat) : Nat := 0x220102 + 256 * p
/-- 0x2201:03 and 0x2202:03 AnAdvertise; `p` is 0 for port A, 1 for port B. -/
abbrev anAdvertise (p : Nat) : Nat := 0x220103 + 256 * p
/-- 0x2201:04 and 0x2202:04 FecMode; `p` is 0 for port A, 1 for port B. -/
abbrev fecMode (p : Nat) : Nat := 0x220104 + 256 * p
/-- 0x2201:05 and 0x2202:05 TxLaneMap; `p` is 0 for port A, 1 for port B. -/
abbrev txLaneMap (p : Nat) : Nat := 0x220105 + 256 * p
/-- 0x2201:06 and 0x2202:06 RxLaneMap; `p` is 0 for port A, 1 for port B. -/
abbrev rxLaneMap (p : Nat) : Nat := 0x220106 + 256 * p
/-- 0x2201:07 and 0x2202:07 LanePolarity; `p` is 0 for port A, 1 for port B. -/
abbrev lanePolarity (p : Nat) : Nat := 0x220107 + 256 * p
/-- 0x2201:08 and 0x2202:08 IpMtu; `p` is 0 for port A, 1 for port B. -/
abbrev ipMtu (p : Nat) : Nat := 0x220108 + 256 * p
/-- 0x2201:09 and 0x2202:09 VlanTag; `p` is 0 for port A, 1 for port B. -/
abbrev vlanTag (p : Nat) : Nat := 0x220109 + 256 * p
/-- 0x2201:0A and 0x2202:0A Ipv6Address; `p` is 0 for port A, 1 for port B. -/
abbrev ipv6Address (p : Nat) : Nat := 0x22010A + 256 * p
/-- 0x2201:0B and 0x2202:0B Ipv4Address; `p` is 0 for port A, 1 for port B. -/
abbrev ipv4Address (p : Nat) : Nat := 0x22010B + 256 * p
/-- 0x2201:0C and 0x2202:0C Ipv6Gateway; `p` is 0 for port A, 1 for port B. -/
abbrev ipv6Gateway (p : Nat) : Nat := 0x22010C + 256 * p
/-- 0x2201:0D and 0x2202:0D Ipv4Gateway; `p` is 0 for port A, 1 for port B. -/
abbrev ipv4Gateway (p : Nat) : Nat := 0x22010D + 256 * p
/-- 0x2201:0E and 0x2202:0E PauseMode; `p` is 0 for port A, 1 for port B. -/
abbrev pauseMode (p : Nat) : Nat := 0x22010E + 256 * p
/-- 0x2201:0F and 0x2202:0F PauseTxEnable; `p` is 0 for port A, 1 for port B. -/
abbrev pauseTxEnable (p : Nat) : Nat := 0x22010F + 256 * p
/-- 0x2201:10 and 0x2202:10 PreemptEnable; `p` is 0 for port A, 1 for port B. -/
abbrev preemptEnable (p : Nat) : Nat := 0x220110 + 256 * p
/-- 0x2201:11 and 0x2202:11 PreemptMinFrag; `p` is 0 for port A, 1 for port B. -/
abbrev preemptMinFrag (p : Nat) : Nat := 0x220111 + 256 * p
/-- 0x2201:12 and 0x2202:12 FecUncorrectableLimit; `p` is 0 for port A, 1 for port B. -/
abbrev fecUncorrectableLimit (p : Nat) : Nat := 0x220112 + 256 * p
/-- 0x2201:13 and 0x2202:13 MacAddress; `p` is 0 for port A, 1 for port B. -/
abbrev macAddress (p : Nat) : Nat := 0x220113 + 256 * p
/-- 0x2201:14 and 0x2202:14 LinkState; `p` is 0 for port A, 1 for port B. -/
abbrev linkState (p : Nat) : Nat := 0x220114 + 256 * p
/-- 0x2201:15 and 0x2202:15 ActiveMode; `p` is 0 for port A, 1 for port B. -/
abbrev activeMode (p : Nat) : Nat := 0x220115 + 256 * p
/-- 0x2201:16 and 0x2202:16 ActiveFec; `p` is 0 for port A, 1 for port B. -/
abbrev activeFec (p : Nat) : Nat := 0x220116 + 256 * p
/-- 0x2201:17 and 0x2202:17 PreemptActive; `p` is 0 for port A, 1 for port B. -/
abbrev preemptActive (p : Nat) : Nat := 0x220117 + 256 * p
/-- 0x2203:01 PauseWatchdogMs. -/
abbrev pauseWatchdogMs : Nat := 0x220301
/-- 0x2203:02 PauseIgnoreMs. -/
abbrev pauseIgnoreMs : Nat := 0x220302
/-- 0x2203:03 LinkUpHoldMs. -/
abbrev linkUpHoldMs : Nat := 0x220303
/-- 0x2203:04 DiagControl. -/
abbrev diagControl : Nat := 0x220304
/-- 0x2203:05 DiagCaptureKiB. -/
abbrev diagCaptureKiB : Nat := 0x220305
/-- 0x2203:06 DiagCaptureRead. -/
abbrev diagCaptureRead : Nat := 0x220306
/-- 0x2203:07 DiagCaptureRelease. -/
abbrev diagCaptureRelease : Nat := 0x220307
/-- 0x2204:01 PtpDomain. -/
abbrev ptpDomain : Nat := 0x220401
/-- 0x2204:02 PtpTransport. -/
abbrev ptpTransport : Nat := 0x220402
/-- 0x2204:03 PtpDelayMechanism. -/
abbrev ptpDelayMechanism : Nat := 0x220403
/-- 0x2204:04 PtpLossTimeoutMs. -/
abbrev ptpLossTimeoutMs : Nat := 0x220404
/-- 0x2204:05 PtpStepThresholdNs. -/
abbrev ptpStepThresholdNs : Nat := 0x220405
/-- 0x2204:06 PtpState. -/
abbrev ptpState : Nat := 0x220406
/-- 0x2204:07 PtpOffsetNs. -/
abbrev ptpOffsetNs : Nat := 0x220407
/-- 0x2204:08 PtpGrandmasterId. -/
abbrev ptpGrandmasterId : Nat := 0x220408
/-- 0x2204:09 PtpSlavePort. -/
abbrev ptpSlavePort : Nat := 0x220409
/-- 0x2204:0A PpsEnable. -/
abbrev ppsEnable : Nat := 0x22040A
/-- 0x2204:0B PpsWidthUs. -/
abbrev ppsWidthUs : Nat := 0x22040B
/-- 0x2205:01 ClkoutSource. -/
abbrev clkoutSource : Nat := 0x220501
/-- 0x2205:02 ClkoutFreqKhz. -/
abbrev clkoutFreqKhz : Nat := 0x220502
/-- 0x2210:01 and 0x2211:01 RxFrames. -/
abbrev cRxFrames (p : Nat) : Nat := 0x221001 + 256 * p
/-- 0x2210:02 and 0x2211:02 RxBytes. -/
abbrev cRxBytes (p : Nat) : Nat := 0x221002 + 256 * p
/-- 0x2210:03 and 0x2211:03 TxFrames. -/
abbrev cTxFrames (p : Nat) : Nat := 0x221003 + 256 * p
/-- 0x2210:04 and 0x2211:04 TxBytes. -/
abbrev cTxBytes (p : Nat) : Nat := 0x221004 + 256 * p
/-- 0x2210:05 and 0x2211:05 RxPcsErrors. -/
abbrev cRxPcsErrors (p : Nat) : Nat := 0x221005 + 256 * p
/-- 0x2210:06 and 0x2211:06 RxRunts. -/
abbrev cRxRunts (p : Nat) : Nat := 0x221006 + 256 * p
/-- 0x2210:07 and 0x2211:07 RxOversize. -/
abbrev cRxOversize (p : Nat) : Nat := 0x221007 + 256 * p
/-- 0x2210:08 and 0x2211:08 RxFcsErrors. -/
abbrev cRxFcsErrors (p : Nat) : Nat := 0x221008 + 256 * p
/-- 0x2210:09 and 0x2211:09 RxFiltered. -/
abbrev cRxFiltered (p : Nat) : Nat := 0x221009 + 256 * p
/-- 0x2210:0A and 0x2211:0A RxIpErrors. -/
abbrev cRxIpErrors (p : Nat) : Nat := 0x22100A + 256 * p
/-- 0x2210:0B and 0x2211:0B RxL4ChecksumErrors. -/
abbrev cRxL4ChecksumErrors (p : Nat) : Nat := 0x22100B + 256 * p
/-- 0x2210:0C and 0x2211:0C RxBufferOverflow. -/
abbrev cRxBufferOverflow (p : Nat) : Nat := 0x22100C + 256 * p
/-- 0x2210:0D and 0x2211:0D RxFecCorrected. -/
abbrev cRxFecCorrected (p : Nat) : Nat := 0x22100D + 256 * p
/-- 0x2210:0E and 0x2211:0E RxFecUncorrected. -/
abbrev cRxFecUncorrected (p : Nat) : Nat := 0x22100E + 256 * p
/-- 0x2210:0F and 0x2211:0F RxPauseFrames. -/
abbrev cRxPauseFrames (p : Nat) : Nat := 0x22100F + 256 * p
/-- 0x2210:10 and 0x2211:10 TxPauseFrames. -/
abbrev cTxPauseFrames (p : Nat) : Nat := 0x221010 + 256 * p
/-- 0x2210:11 and 0x2211:11 PauseWatchdogTrips. -/
abbrev cPauseWatchdogTrips (p : Nat) : Nat := 0x221011 + 256 * p
/-- 0x2210:12 and 0x2211:12 TxPreemptedFragments. -/
abbrev cTxPreemptedFragments (p : Nat) : Nat := 0x221012 + 256 * p
/-- 0x2210:13 and 0x2211:13 RxAssemblyErrors. -/
abbrev cRxAssemblyErrors (p : Nat) : Nat := 0x221013 + 256 * p
/-- 0x2210:14 and 0x2211:14 RxIcmpPtb. -/
abbrev cRxIcmpPtb (p : Nat) : Nat := 0x221014 + 256 * p
/-- 0x2210:15 and 0x2211:15 LinkDownCount. -/
abbrev cLinkDownCount (p : Nat) : Nat := 0x221015 + 256 * p
/-- 0x2210:16 and 0x2211:16 DiagCaptured. -/
abbrev cDiagCaptured (p : Nat) : Nat := 0x221016 + 256 * p
/-- 0x2210:17 and 0x2211:17 DiagEchoed. -/
abbrev cDiagEchoed (p : Nat) : Nat := 0x221017 + 256 * p
/-- 0x2210:18 and 0x2211:18 DiagDropped. -/
abbrev cDiagDropped (p : Nat) : Nat := 0x221018 + 256 * p
/-- 0x2210:19 and 0x2211:19 PtpMessagesRx. -/
abbrev cPtpMessagesRx (p : Nat) : Nat := 0x221019 + 256 * p
/-- 0x2301:01 RwpUdpPort. -/
abbrev rwpUdpPort : Nat := 0x230101
/-- 0x2301:02 RwpV1Enable. -/
abbrev rwpV1Enable : Nat := 0x230102
/-- 0x2301:03 MaxOutstanding. -/
abbrev maxOutstanding : Nat := 0x230103
/-- 0x2301:04 IdleTimeoutSeconds. -/
abbrev idleTimeoutSeconds : Nat := 0x230104
/-- 0x2301:05 SessionLossMs. -/
abbrev sessionLossMs : Nat := 0x230105
/-- 0x2301:06 PathDeadMs. -/
abbrev pathDeadMs : Nat := 0x230106
/-- 0x2301:07 KeepaliveIntervalMs. -/
abbrev keepaliveIntervalMs : Nat := 0x230107
/-- 0x2301:08 DataIdleMs. -/
abbrev dataIdleMs : Nat := 0x230108
/-- 0x2301:09 EvictionMinIdleSeconds. -/
abbrev evictionMinIdleSeconds : Nat := 0x230109
/-- 0x2310:01 RxStaleIncarnation. -/
abbrev rxStaleIncarnation : Nat := 0x231001
/-- 0x2310:02 RxReplay. -/
abbrev rxReplay : Nat := 0x231002
/-- 0x2310:03 RxAuthFail. -/
abbrev rxAuthFail : Nat := 0x231003
/-- 0x2310:04 RxUnknownSession. -/
abbrev rxUnknownSession : Nat := 0x231004
/-- 0x2310:05 RxMalformed. -/
abbrev rxMalformed : Nat := 0x231005
/-- 0x2310:06 RxDuplicate. -/
abbrev rxDuplicate : Nat := 0x231006
/-- 0x2310:07 RxEarlyRelease. -/
abbrev rxEarlyRelease : Nat := 0x231007
/-- 0x2310:08 RxPathMismatch. -/
abbrev rxPathMismatch : Nat := 0x231008
/-- 0x2310:09 TxRetransmit. -/
abbrev txRetransmit : Nat := 0x231009
/-- 0x2310:0A NakGapSent. -/
abbrev nakGapSent : Nat := 0x23100A
/-- 0x2310:0B NakTagSent. -/
abbrev nakTagSent : Nat := 0x23100B
/-- 0x2310:0C PathFailovers. -/
abbrev pathFailovers : Nat := 0x23100C
/-- 0x2310:0D SessionsOpened. -/
abbrev sessionsOpened : Nat := 0x23100D
/-- 0x2310:0E SessionsLost. -/
abbrev sessionsLost : Nat := 0x23100E
/-- 0x2310:0F SessionsEvicted. -/
abbrev sessionsEvicted : Nat := 0x23100F
/-- 0x2310:10 HelloRefused. -/
abbrev helloRefused : Nat := 0x231010
/-- 0x2311:01 SessionsOpen. -/
abbrev sessionsOpen : Nat := 0x231101
/-- 0x2311:02 SessionsOnChip. -/
abbrev sessionsOnChip : Nat := 0x231102
/-- 0x2320:01 PskIdentityCount. -/
abbrev pskIdentityCount : Nat := 0x232001
/-- 0x2320:02 PskEntryWrite. -/
abbrev pskEntryWrite : Nat := 0x232002
/-- 0x2320:03 PskIdentityDelete. -/
abbrev pskIdentityDelete : Nat := 0x232003
/-- 0x2401:01 NsSelect. -/
abbrev nsSelect : Nat := 0x240101
/-- 0x2401:02 NsGeneration. -/
abbrev nsGeneration : Nat := 0x240102
/-- 0x2401:03 NsDefaultRetentionClass. -/
abbrev nsDefaultRetentionClass : Nat := 0x240103
/-- 0x2401:04 NsTombstoneHoldSeconds. -/
abbrev nsTombstoneHoldSeconds : Nat := 0x240104
/-- 0x2401:05 NsQuotaBytes. -/
abbrev nsQuotaBytes : Nat := 0x240105
/-- 0x2401:06 NsQuotaObjects. -/
abbrev nsQuotaObjects : Nat := 0x240106
/-- 0x2401:07 NsReadOnly. -/
abbrev nsReadOnly : Nat := 0x240107
/-- 0x2401:08 NsChargedBytes. -/
abbrev nsChargedBytes : Nat := 0x240108
/-- 0x2401:09 NsChargedObjects. -/
abbrev nsChargedObjects : Nat := 0x240109
/-- 0x2401:0A NsLiveObjects. -/
abbrev nsLiveObjects : Nat := 0x24010A
/-- 0x2402:01 NamespacesLive. -/
abbrev namespacesLive : Nat := 0x240201
/-- 0x2501:01 Pc0BaseMs. -/
abbrev pc0BaseMs : Nat := 0x250101
/-- 0x2501:02 Pc1BaseMs. -/
abbrev pc1BaseMs : Nat := 0x250102
/-- 0x2501:03 Pc2BaseMs. -/
abbrev pc2BaseMs : Nat := 0x250103
/-- 0x2501:04 Pc0RateMBps. -/
abbrev pc0RateMBps : Nat := 0x250104
/-- 0x2501:05 Pc1RateMBps. -/
abbrev pc1RateMBps : Nat := 0x250105
/-- 0x2501:06 Pc2RateMBps. -/
abbrev pc2RateMBps : Nat := 0x250106
/-- 0x2502:01 AdmitCeilingPermille. -/
abbrev admitCeilingPermille : Nat := 0x250201
/-- 0x2502:02 PeerReadSharePermille. -/
abbrev peerReadSharePermille : Nat := 0x250202
/-- 0x2502:03 LdpcRetrySteps. -/
abbrev ldpcRetrySteps : Nat := 0x250203
/-- 0x2502:04 LdpcRetryFloorPermille. -/
abbrev ldpcRetryFloorPermille : Nat := 0x250204
/-- 0x2502:05 PortFailoverAllowanceUs. -/
abbrev portFailoverAllowanceUs : Nat := 0x250205
/-- 0x2502:06 PeerReserveWaitUs. -/
abbrev peerReserveWaitUs : Nat := 0x250206
/-- 0x2502:07 PeerFragTimeoutUs. -/
abbrev peerFragTimeoutUs : Nat := 0x250207
/-- 0x2502:08 PeerSilentRetryMs. -/
abbrev peerSilentRetryMs : Nat := 0x250208
/-- 0x2503:01 PowerTokens. -/
abbrev powerTokens : Nat := 0x250301
/-- 0x2503:02 PowerTokenLimit. -/
abbrev powerTokenLimit : Nat := 0x250302
/-- 0x2503:03 TokenCostRead. -/
abbrev tokenCostRead : Nat := 0x250303
/-- 0x2503:04 TokenCostProgram. -/
abbrev tokenCostProgram : Nat := 0x250304
/-- 0x2503:05 TokenCostErase. -/
abbrev tokenCostErase : Nat := 0x250305
/-- 0x2503:06 PowerTokenEffectiveTime. -/
abbrev powerTokenEffectiveTime : Nat := 0x250306
/-- 0x2504:01 ActivationPending. -/
abbrev activationPending : Nat := 0x250401
/-- 0x2510:01 AdmittedCount. -/
abbrev admittedCount : Nat := 0x251001
/-- 0x2510:02 NotAdmitted1. -/
abbrev notAdmitted1 : Nat := 0x251002
/-- 0x2510:03 NotAdmitted2. -/
abbrev notAdmitted2 : Nat := 0x251003
/-- 0x2510:04 NotAdmitted3. -/
abbrev notAdmitted3 : Nat := 0x251004
/-- 0x2510:05 NotAdmitted4. -/
abbrev notAdmitted4 : Nat := 0x251005
/-- 0x2510:06 NotAdmitted5. -/
abbrev notAdmitted5 : Nat := 0x251006
/-- 0x2510:07 NotAdmitted6. -/
abbrev notAdmitted6 : Nat := 0x251007
/-- 0x2510:08 NotAdmitted7. -/
abbrev notAdmitted7 : Nat := 0x251008
/-- 0x2510:09 NotAdmitted8. -/
abbrev notAdmitted8 : Nat := 0x251009
/-- 0x2510:0A NotAdmitted9. -/
abbrev notAdmitted9 : Nat := 0x25100A
/-- 0x2510:0B PromiseBrokenCount. -/
abbrev promiseBrokenCount : Nat := 0x25100B
/-- 0x2510:0C PromisedEnded. -/
abbrev promisedEnded : Nat := 0x25100C
/-- 0x2510:0D AvailabilityPpb. -/
abbrev availabilityPpb : Nat := 0x25100D
/-- 0x2510:0E LifetimeAvailabilityPpb. -/
abbrev lifetimeAvailabilityPpb : Nat := 0x25100E
/-- 0x2510:0F LdpcRetryRatioPermille. -/
abbrev ldpcRetryRatioPermille : Nat := 0x25100F
/-- 0x2510:10 NotAdmittedMargin. -/
abbrev notAdmittedMargin : Nat := 0x251010
/-- 0x2520:01 IngestEfficiency. -/
abbrev ingestEfficiency : Nat := 0x252001
/-- 0x2520:02 IngestEfficiencyMean. -/
abbrev ingestEfficiencyMean : Nat := 0x252002
/-- 0x2520:03 IngestBoundBps. -/
abbrev ingestBoundBps : Nat := 0x252003
/-- 0x2520:04 IngestCountedWindows. -/
abbrev ingestCountedWindows : Nat := 0x252004
/-- 0x2520:05 RestoreEfficiency. -/
abbrev restoreEfficiency : Nat := 0x252005
/-- 0x2520:06 RestoreEfficiencyMean. -/
abbrev restoreEfficiencyMean : Nat := 0x252006
/-- 0x2520:07 RestoreBoundBps. -/
abbrev restoreBoundBps : Nat := 0x252007
/-- 0x2520:08 RestoreCountedWindows. -/
abbrev restoreCountedWindows : Nat := 0x252008
/-- 0x2601:01 AwlBankMap. -/
abbrev awlBankMap : Nat := 0x260101
/-- 0x2601:02 AwlScrubIntervalCclk. -/
abbrev awlScrubIntervalCclk : Nat := 0x260102
/-- 0x2601:03 HotPromoteHits. -/
abbrev hotPromoteHits : Nat := 0x260103
/-- 0x2601:04 HotWindowMs. -/
abbrev hotWindowMs : Nat := 0x260104
/-- 0x2601:05 PolicyHoleInterval. -/
abbrev policyHoleInterval : Nat := 0x260105
/-- 0x2602:01 AwlPolicyEntry. -/
abbrev awlPolicyEntry : Nat := 0x260201
/-- 0x2602:02 AwlPolicySelect. -/
abbrev awlPolicySelect : Nat := 0x260202
/-- 0x2602:03 AwlPolicyReadback. -/
abbrev awlPolicyReadback : Nat := 0x260203
/-- 0x2602:04 AwlPolicyCount. -/
abbrev awlPolicyCount : Nat := 0x260204
/-- 0x2603:01 IndexCapacity. -/
abbrev indexCapacity : Nat := 0x260301
/-- 0x2603:02 IndexEntries. -/
abbrev indexEntries : Nat := 0x260302
/-- 0x2603:03 IndexOverflowBuckets. -/
abbrev indexOverflowBuckets : Nat := 0x260303
/-- 0x2603:04 IndexImageBytes. -/
abbrev indexImageBytes : Nat := 0x260304
/-- 0x2603:05 InstancesFree. -/
abbrev instancesFree : Nat := 0x260305
/-- 0x2610:01 AwlSearches. -/
abbrev awlSearches : Nat := 0x261001
/-- 0x2610:02 AwlHotHits. -/
abbrev awlHotHits : Nat := 0x261002
/-- 0x2610:03 AwlHotMisses. -/
abbrev awlHotMisses : Nat := 0x261003
/-- 0x2610:04 AwlVerifyFail. -/
abbrev awlVerifyFail : Nat := 0x261004
/-- 0x2610:05 AwlScrubCorrected. -/
abbrev awlScrubCorrected : Nat := 0x261005
/-- 0x2610:06 IndexConfirmMismatch. -/
abbrev indexConfirmMismatch : Nat := 0x261006
/-- 0x2610:07 IndexDisplacements. -/
abbrev indexDisplacements : Nat := 0x261007
/-- 0x2610:08 HotEvictions. -/
abbrev hotEvictions : Nat := 0x261008
/-- 0x2610:09 IndexCapacityRefusals. -/
abbrev indexCapacityRefusals : Nat := 0x261009
/-- 0x2701:01 GroupMap. -/
abbrev groupMap : Nat := 0x270101
/-- 0x2701:02 SelfMemberId. -/
abbrev selfMemberId : Nat := 0x270102
/-- 0x2701:03 CurrentEpoch. -/
abbrev currentEpoch : Nat := 0x270103
/-- 0x2701:04 PendingMapEpoch. -/
abbrev pendingMapEpoch : Nat := 0x270104
/-- 0x2701:05 RetainedEpochs. -/
abbrev retainedEpochs : Nat := 0x270105
/-- 0x2701:06 HandoffPending. -/
abbrev handoffPending : Nat := 0x270106
/-- 0x2702:01 MirrorThreshold. -/
abbrev mirrorThreshold : Nat := 0x270201
/-- 0x2702:02 QuorumSlack. -/
abbrev quorumSlack : Nat := 0x270202
/-- 0x2702:03 RebuildRateMBps. -/
abbrev rebuildRateMBps : Nat := 0x270203
/-- 0x2702:04 RebalanceRateMBps. -/
abbrev rebalanceRateMBps : Nat := 0x270204
/-- 0x2702:05 MemberLostSeconds. -/
abbrev memberLostSeconds : Nat := 0x270205
/-- 0x2702:06 OrphanHoldSeconds. -/
abbrev orphanHoldSeconds : Nat := 0x270206
/-- 0x2702:07 NsDistributeMs. -/
abbrev nsDistributeMs : Nat := 0x270207
/-- 0x2702:08 NsSyncSeconds. -/
abbrev nsSyncSeconds : Nat := 0x270208
/-- 0x2703:01 StripesIncomplete. -/
abbrev stripesIncomplete : Nat := 0x270301
/-- 0x2703:02 RebuildBacklogBytes. -/
abbrev rebuildBacklogBytes : Nat := 0x270302
/-- 0x2710:01 WeltDegradedCommits. -/
abbrev weltDegradedCommits : Nat := 0x271001
/-- 0x2710:02 WeltPeersInsufficient. -/
abbrev weltPeersInsufficient : Nat := 0x271002
/-- 0x2710:03 WeltReconstructedReads. -/
abbrev weltReconstructedReads : Nat := 0x271003
/-- 0x2710:04 WeltStaleReservation. -/
abbrev weltStaleReservation : Nat := 0x271004
/-- 0x2710:05 WeltOrphansReleased. -/
abbrev weltOrphansReleased : Nat := 0x271005
/-- 0x2710:06 WeltRolledForward. -/
abbrev weltRolledForward : Nat := 0x271006
/-- 0x2710:07 WeltRepairedFragments. -/
abbrev weltRepairedFragments : Nat := 0x271007
/-- 0x2710:08 WeltRebuildReadBytes. -/
abbrev weltRebuildReadBytes : Nat := 0x271008
/-- 0x2710:09 WeltHandoffRecords. -/
abbrev weltHandoffRecords : Nat := 0x271009
/-- 0x2801:01 MediaProfile. -/
abbrev mediaProfile : Nat := 0x280101
/-- 0x2801:02 WriteBufferMiB. -/
abbrev writeBufferMiB : Nat := 0x280102
/-- 0x2801:03 HoldupBudgetMs. -/
abbrev holdupBudgetMs : Nat := 0x280103
/-- 0x2801:04 FreshSubstreams. -/
abbrev freshSubstreams : Nat := 0x280104
/-- 0x2801:05 SlcCachePermille. -/
abbrev slcCachePermille : Nat := 0x280105
/-- 0x2801:06 SlcCacheMaxGiB. -/
abbrev slcCacheMaxGiB : Nat := 0x280106
/-- 0x2801:07 FlushTokens. -/
abbrev flushTokens : Nat := 0x280107
/-- 0x2801:08 DramScrubHours. -/
abbrev dramScrubHours : Nat := 0x280108
/-- 0x2801:09 DramConfig. -/
abbrev dramConfig : Nat := 0x280109
/-- 0x2802:01 DiesPresent. -/
abbrev diesPresent : Nat := 0x280201
/-- 0x2802:02 DiesInService. -/
abbrev diesInService : Nat := 0x280202
/-- 0x2802:03 DieSets. -/
abbrev dieSets : Nat := 0x280203
/-- 0x2802:04 ChannelRateMTs. -/
abbrev channelRateMTs : Nat := 0x280204
/-- 0x2802:05 CodewordParityBytes. -/
abbrev codewordParityBytes : Nat := 0x280205
/-- 0x2802:06 HoldupRequiredMs. -/
abbrev holdupRequiredMs : Nat := 0x280206
/-- 0x2802:07 SlcCacheBytes. -/
abbrev slcCacheBytes : Nat := 0x280207
/-- 0x2802:08 RawCapacityBytes. -/
abbrev rawCapacityBytes : Nat := 0x280208
/-- 0x2802:09 WriteAmpPermille. -/
abbrev writeAmpPermille : Nat := 0x280209
/-- 0x2802:0A LastFlushUs. -/
abbrev lastFlushUs : Nat := 0x28020A
/-- 0x2803:01 GcStartFree. -/
abbrev gcStartFree : Nat := 0x280301
/-- 0x2803:02 GcUrgentFree. -/
abbrev gcUrgentFree : Nat := 0x280302
/-- 0x2803:03 GcAgeCapSeconds. -/
abbrev gcAgeCapSeconds : Nat := 0x280303
/-- 0x2803:04 GcMaxValidPermille. -/
abbrev gcMaxValidPermille : Nat := 0x280304
/-- 0x2803:05 SlcFoldSeconds. -/
abbrev slcFoldSeconds : Nat := 0x280305
/-- 0x2803:06 WearSpreadLimit. -/
abbrev wearSpreadLimit : Nat := 0x280306
/-- 0x2803:07 WearStaticIntervalSeconds. -/
abbrev wearStaticIntervalSeconds : Nat := 0x280307
/-- 0x2803:08 ReadDisturbLimit. -/
abbrev readDisturbLimit : Nat := 0x280308
/-- 0x2803:09 ReadDisturbLimitSlc. -/
abbrev readDisturbLimitSlc : Nat := 0x280309
/-- 0x2803:0A RetentionScanDays. -/
abbrev retentionScanDays : Nat := 0x28030A
/-- 0x2803:0B RetentionRefreshStep. -/
abbrev retentionRefreshStep : Nat := 0x28030B
/-- 0x2803:0C RetentionSweepMBps. -/
abbrev retentionSweepMBps : Nat := 0x28030C
/-- 0x2803:0D RetentionWakeHours. -/
abbrev retentionWakeHours : Nat := 0x28030D
/-- 0x2803:0E DormantAgeFactor. -/
abbrev dormantAgeFactor : Nat := 0x28030E
/-- 0x2803:0F DieRetireBlocksPermille. -/
abbrev dieRetireBlocksPermille : Nat := 0x28030F
/-- 0x2803:10 CheckpointCycleSeconds. -/
abbrev checkpointCycleSeconds : Nat := 0x280310
/-- 0x2803:11 CheckpointRateMBps. -/
abbrev checkpointRateMBps : Nat := 0x280311
/-- 0x2803:12 JournalSpanMiB. -/
abbrev journalSpanMiB : Nat := 0x280312
/-- 0x2804:01 FreeSuperblocksMin. -/
abbrev freeSuperblocksMin : Nat := 0x280401
/-- 0x2804:02 EraseCountMin. -/
abbrev eraseCountMin : Nat := 0x280402
/-- 0x2804:03 EraseCountMax. -/
abbrev eraseCountMax : Nat := 0x280403
/-- 0x2804:04 CheckpointCycleNo. -/
abbrev checkpointCycleNo : Nat := 0x280404
/-- 0x2804:05 JournalSpanBytes. -/
abbrev journalSpanBytes : Nat := 0x280405
/-- 0x2804:06 LastRecoveryMs. -/
abbrev lastRecoveryMs : Nat := 0x280406
/-- 0x2804:07 WriteAmpLifetimePermille. -/
abbrev writeAmpLifetimePermille : Nat := 0x280407
/-- 0x2804:08 RetentionDueSuperblocks. -/
abbrev retentionDueSuperblocks : Nat := 0x280408
/-- 0x2810:01 CodewordsRead. -/
abbrev codewordsRead : Nat := 0x281001
/-- 0x2810:02 PagesRetried. -/
abbrev pagesRetried : Nat := 0x281002
/-- 0x2810:03 CodewordTagFail. -/
abbrev codewordTagFail : Nat := 0x281003
/-- 0x2810:04 DieParityRebuilds. -/
abbrev dieParityRebuilds : Nat := 0x281004
/-- 0x2810:05 ProgramFailures. -/
abbrev programFailures : Nat := 0x281005
/-- 0x2810:06 EraseSuspends. -/
abbrev eraseSuspends : Nat := 0x281006
/-- 0x2810:07 TokenWaitNs. -/
abbrev tokenWaitNs : Nat := 0x281007
/-- 0x2810:08 DramCorrected. -/
abbrev dramCorrected : Nat := 0x281008
/-- 0x2810:09 DramUncorrectable. -/
abbrev dramUncorrectable : Nat := 0x281009
/-- 0x2810:0A HoldupFlushes. -/
abbrev holdupFlushes : Nat := 0x28100A
/-- 0x2811:01 GcVictims. -/
abbrev gcVictims : Nat := 0x281101
/-- 0x2811:02 GcBytesRelocated. -/
abbrev gcBytesRelocated : Nat := 0x281102
/-- 0x2811:03 GcDestinationFailures. -/
abbrev gcDestinationFailures : Nat := 0x281103
/-- 0x2811:04 StaticRelocations. -/
abbrev staticRelocations : Nat := 0x281104
/-- 0x2811:05 ReadDisturbRefreshes. -/
abbrev readDisturbRefreshes : Nat := 0x281105
/-- 0x2811:06 RetentionBytesScanned. -/
abbrev retentionBytesScanned : Nat := 0x281106
/-- 0x2811:07 RetentionRefreshes. -/
abbrev retentionRefreshes : Nat := 0x281107
/-- 0x2811:08 BlocksRetired. -/
abbrev blocksRetired : Nat := 0x281108
/-- 0x2811:09 CheckpointCycles. -/
abbrev checkpointCycles : Nat := 0x281109
/-- 0x2811:0A JournalBytes. -/
abbrev journalBytes : Nat := 0x28110A
/-- 0x2811:0B OrphanBytesReclaimed. -/
abbrev orphanBytesReclaimed : Nat := 0x28110B
/-- 0x2901:01 TamperArm. -/
abbrev tamperArm : Nat := 0x290101
/-- 0x2901:02 TamperPolicy. -/
abbrev tamperPolicy : Nat := 0x290102
/-- 0x2901:03 TamperClear. -/
abbrev tamperClear : Nat := 0x290103
/-- 0x2901:04 GlitchAlarmCount. -/
abbrev glitchAlarmCount : Nat := 0x290104
/-- 0x2902:01 ActiveSeedSlot. -/
abbrev activeSeedSlot : Nat := 0x290201
/-- 0x2902:02 SeedSlotsRevoked. -/
abbrev seedSlotsRevoked : Nat := 0x290202
/-- 0x2902:03 NoncePrefix. -/
abbrev noncePrefix : Nat := 0x290203
/-- 0x2902:04 MediaWriteCounter. -/
abbrev mediaWriteCounter : Nat := 0x290204
/-- 0x2902:05 ReservedChunk. -/
abbrev reservedChunk : Nat := 0x290205
/-- 0x2902:06 PowerCycleCount. -/
abbrev powerCycleCount : Nat := 0x290206
/-- 0x2902:07 KeySlotsReady. -/
abbrev keySlotsReady : Nat := 0x290207
/-- 0x2902:08 SecretErasePending. -/
abbrev secretErasePending : Nat := 0x290208
/-- 0x2910:01 KeyDerivations. -/
abbrev keyDerivations : Nat := 0x291001
/-- 0x2910:02 KeySlotEvictions. -/
abbrev keySlotEvictions : Nat := 0x291002
/-- 0x2910:03 KeyLostCommands. -/
abbrev keyLostCommands : Nat := 0x291003
/-- 0x2910:04 Class1Alarms. -/
abbrev class1Alarms : Nat := 0x291004
/-- 0x2910:05 Class2Alarms. -/
abbrev class2Alarms : Nat := 0x291005
/-- 0x2910:06 TamperAlarms. -/
abbrev tamperAlarms : Nat := 0x291006
/-- 0x2910:07 ValueTagFailures. -/
abbrev valueTagFailures : Nat := 0x291007
/-- 0x2A01:01 CoreFwVersion. -/
abbrev coreFwVersion : Nat := 0x2A0101
/-- 0x2A01:02 CoreFwDigest. -/
abbrev coreFwDigest : Nat := 0x2A0102
/-- 0x2A01:03 SubprocVersion. -/
abbrev subprocVersion : Nat := 0x2A0103
/-- 0x2A01:04 SiteFwVersion. -/
abbrev siteFwVersion : Nat := 0x2A0104
/-- 0x2A01:05 SettingsFormat. -/
abbrev settingsFormat : Nat := 0x2A0105
/-- 0x2A01:06 ActiveSlot. -/
abbrev activeSlot : Nat := 0x2A0106
/-- 0x2A01:07 RollbackCount. -/
abbrev rollbackCount : Nat := 0x2A0107
/-- 0x2A02:01 StagedTransferId. -/
abbrev stagedTransferId : Nat := 0x2A0201
/-- 0x2A02:02 StagedImageState. -/
abbrev stagedImageState : Nat := 0x2A0202
/-- 0x2A02:03 StagedVersion. -/
abbrev stagedVersion : Nat := 0x2A0203
/-- 0x2A02:04 StagedCopyState. -/
abbrev stagedCopyState : Nat := 0x2A0204
/-- 0x2A02:05 StagedCopyMsRemaining. -/
abbrev stagedCopyMsRemaining : Nat := 0x2A0205
/-- 0x2A03:01 LaceMode. -/
abbrev laceMode : Nat := 0x2A0301
/-- 0x2A03:02 LaceOrder. -/
abbrev laceOrder : Nat := 0x2A0302
/-- 0x2A03:03 LaceSkipSeconds. -/
abbrev laceSkipSeconds : Nat := 0x2A0303
/-- 0x2A03:04 LaceState. -/
abbrev laceState : Nat := 0x2A0304
/-- 0x2A03:05 LaceSuccessor. -/
abbrev laceSuccessor : Nat := 0x2A0305
/-- 0x2A03:06 ActivationHealthGate. -/
abbrev activationHealthGate : Nat := 0x2A0306
/-- 0x2A03:07 LastActivationPauseUs. -/
abbrev lastActivationPauseUs : Nat := 0x2A0307
/-- 0x2A03:08 ActivationCount. -/
abbrev activationCount : Nat := 0x2A0308
/-- 0x2A04:01 LifeCycleRequest. -/
abbrev lifeCycleRequest : Nat := 0x2A0401
/-- 0x2A04:02 OtpSettings. -/
abbrev otpSettings : Nat := 0x2A0402
/-- 0x2A04:03 OtpGenerationsUsed. -/
abbrev otpGenerationsUsed : Nat := 0x2A0403
/-- 0x2A04:04 ActivationFailed. -/
abbrev activationFailed : Nat := 0x2A0404
/-- 0x2B01:01 EventNextSeq. -/
abbrev eventNextSeq : Nat := 0x2B0101
/-- 0x2B01:02 EventOldestSeq. -/
abbrev eventOldestSeq : Nat := 0x2B0102
/-- 0x2B01:03 EventRateLimit. -/
abbrev eventRateLimit : Nat := 0x2B0103
/-- 0x2B01:04 EventCatalogue. -/
abbrev eventCatalogue : Nat := 0x2B0104
/-- 0x2B01:05 EventSnapshotHoldSeconds. -/
abbrev eventSnapshotHoldSeconds : Nat := 0x2B0105
/-- 0x2B02:01 EventSnapshotFrom1. -/
abbrev eventSnapshotFrom1 : Nat := 0x2B0201
/-- 0x2B02:02 EventSnapshotFrom2. -/
abbrev eventSnapshotFrom2 : Nat := 0x2B0202
/-- 0x2B02:03 EventSnapshotFrom3. -/
abbrev eventSnapshotFrom3 : Nat := 0x2B0203
/-- 0x2B02:04 EventSnapshotFrom4. -/
abbrev eventSnapshotFrom4 : Nat := 0x2B0204
/-- 0x2B03:01 EventSnapshot1. -/
abbrev eventSnapshot1 : Nat := 0x2B0301
/-- 0x2B03:02 EventSnapshot2. -/
abbrev eventSnapshot2 : Nat := 0x2B0302
/-- 0x2B03:03 EventSnapshot3. -/
abbrev eventSnapshot3 : Nat := 0x2B0303
/-- 0x2B03:04 EventSnapshot4. -/
abbrev eventSnapshot4 : Nat := 0x2B0304
/-- 0x2B04:01 EventsRecorded. -/
abbrev eventsRecorded : Nat := 0x2B0401
/-- 0x2B04:02 EventsSuppressed. -/
abbrev eventsSuppressed : Nat := 0x2B0402
/-- 0x2B04:03 EventsLost. -/
abbrev eventsLost : Nat := 0x2B0403
/-- 0x2C01:01 SiteDramMiB. -/
abbrev siteDramMiB : Nat := 0x2C0101
/-- 0x2C01:02 SiteDmaMBps. -/
abbrev siteDmaMBps : Nat := 0x2C0102
/-- 0x2C01:03 SiteWatchdogMs. -/
abbrev siteWatchdogMs : Nat := 0x2C0103
/-- 0x2C01:04 SiteState. -/
abbrev siteState : Nat := 0x2C0104
/-- 0x2C01:05 SiteMessage. -/
abbrev siteMessage : Nat := 0x2C0105
/-- 0x2C01:06 SiteReport. -/
abbrev siteReport : Nat := 0x2C0106
/-- 0x2C02:01 SiteAccessFaults. -/
abbrev siteAccessFaults : Nat := 0x2C0201
/-- 0x2C02:02 SiteWatchdogResets. -/
abbrev siteWatchdogResets : Nat := 0x2C0202
/-- 0x2C02:03 DmaDescriptorsCompleted. -/
abbrev dmaDescriptorsCompleted : Nat := 0x2C0203
/-- 0x2C02:04 DmaDescriptorErrors. -/
abbrev dmaDescriptorErrors : Nat := 0x2C0204
/-- 0x2C02:05 SiteDmaBytes. -/
abbrev siteDmaBytes : Nat := 0x2C0205
/-- 0x2D01:01 VddCoreMv. -/
abbrev vddCoreMv : Nat := 0x2D0101
/-- 0x2D01:02 VddSramMv. -/
abbrev vddSramMv : Nat := 0x2D0102
/-- 0x2D01:03 VddSerdesMv. -/
abbrev vddSerdesMv : Nat := 0x2D0103
/-- 0x2D01:04 VddhSerdesMv. -/
abbrev vddhSerdesMv : Nat := 0x2D0104
/-- 0x2D01:05 VddqDdrMv. -/
abbrev vddqDdrMv : Nat := 0x2D0105
/-- 0x2D01:06 VccqNandMv. -/
abbrev vccqNandMv : Nat := 0x2D0106
/-- 0x2D01:07 VddIoMv. -/
abbrev vddIoMv : Nat := 0x2D0107
/-- 0x2D01:08 VstbyMv. -/
abbrev vstbyMv : Nat := 0x2D0108
/-- 0x2D01:09 PartPowerMw. -/
abbrev partPowerMw : Nat := 0x2D0109
/-- 0x2D02:01 GpioDirection. -/
abbrev gpioDirection : Nat := 0x2D0201
/-- 0x2D02:02 GpioOutput. -/
abbrev gpioOutput : Nat := 0x2D0202
/-- 0x2D02:03 GpioInput. -/
abbrev gpioInput : Nat := 0x2D0203
/-- 0x2D02:04 GpioPullDown. -/
abbrev gpioPullDown : Nat := 0x2D0204
/-- 0x2D03:01 SmbusClockKhz. -/
abbrev smbusClockKhz : Nat := 0x2D0301
/-- 0x2D03:02 SmbusPollList. -/
abbrev smbusPollList : Nat := 0x2D0302
/-- 0x2D03:03 SmbusPollValues. -/
abbrev smbusPollValues : Nat := 0x2D0303
/-- 0x2D03:04 SmbusErrors. -/
abbrev smbusErrors : Nat := 0x2D0304
/-- 0x2D04:01 BootModePins. -/
abbrev bootModePins : Nat := 0x2D0401
end K

/-- Index 0x1000. -/
def dict1000 : List DictRow := [
  ⟨0x100000, .u32, .const, .none_, 65536, none, none⟩]

/-- Index 0x1001. -/
def dict1001 : List DictRow := [
  ⟨0x100100, .u8, .ro, .vol, 0, none, none⟩]

/-- Index 0x1010. -/
def dict1010 : List DictRow := [
  ⟨0x101000, .u8, .const, .none_, 0x01, none, none⟩,
  ⟨0x101001, .u32, .rw, .none_, 2, none, none⟩]

/-- Index 0x1011. -/
def dict1011 : List DictRow := [
  ⟨0x101100, .u8, .const, .none_, 0x03, none, none⟩,
  ⟨0x101101, .u32, .rw, .none_, 1, none, none⟩,
  ⟨0x101102, .u32, .rw, .none_, 1, none, none⟩,
  ⟨0x101103, .u32, .rw, .none_, 1, none, none⟩]

/-- Index 0x1012. -/
def dict1012 : List DictRow := [
  ⟨0x101200, .u32, .rwr, .sys, 0x80000100, none, none⟩]

/-- Index 0x1017. -/
def dict1017 : List DictRow := [
  ⟨0x101700, .u16, .rw, .sys, 1000, none, none⟩]

/-- Index 0x1018. -/
def dict1018 : List DictRow := [
  ⟨0x101800, .u8, .const, .none_, 4, none, none⟩,
  ⟨0x101801, .u32, .const, .none_, 937, none, none⟩,
  ⟨0x101802, .u32, .const, .none_, 18498, none, none⟩,
  ⟨0x101803, .u32, .const, .none_, 0x42010000, none, none⟩,
  ⟨0x101804, .u32, .ro, .otp, 0, none, none⟩]

/-- Index 0x2000. -/
def dict2000 : List DictRow := [
  ⟨0x200000, .u8, .const, .none_, 0x06, none, none⟩,
  ⟨0x200001, .u8, .ro, .vol, 0, none, none⟩,
  ⟨0x200002, .u8, .ro, .otp, 0, none, none⟩,
  ⟨0x200003, .u16, .ro, .vol, 0, none, none⟩,
  ⟨0x200004, .u64, .ro, .vol, 0, none, none⟩,
  ⟨0x200005, .i16, .rw, .sys, 37, some 0, some 100⟩,
  ⟨0x200006, .u16, .ro, .vol, 0, none, none⟩]

/-- Index 0x2002. -/
def dict2002 : List DictRow := [
  ⟨0x200200, .u8, .const, .none_, 0x08, none, none⟩,
  ⟨0x200201, .u8, .rwr, .sys, 127, some 1, some 127⟩,
  ⟨0x200202, .oct, .wo, .none_, 0, none, none⟩,
  ⟨0x200203, .u16, .rwr, .sys, 500, none, none⟩,
  ⟨0x200204, .u16, .rwr, .sys, 2000, none, none⟩,
  ⟨0x200205, .u16, .rwr, .sys, 2000, some 100, some 60000⟩,
  ⟨0x200206, .u16, .rw, .sys, 1000, some 100, some 10000⟩,
  ⟨0x200207, .u16, .rw, .sys, 10, some 0, some 10000⟩,
  ⟨0x200208, .u32, .rw, .vol, 0, none, none⟩]

/-- Index 0x2003. -/
def dict2003 : List DictRow := [
  ⟨0x200300, .u8, .const, .none_, 0x06, none, none⟩,
  ⟨0x200301, .u64, .ro, .vol, 0, none, none⟩,
  ⟨0x200302, .u64, .ro, .vol, 0, none, none⟩,
  ⟨0x200303, .u64, .ro, .vol, 0, none, none⟩,
  ⟨0x200304, .u64, .ro, .vol, 0, none, none⟩,
  ⟨0x200305, .u64, .ro, .vol, 0, none, none⟩,
  ⟨0x200306, .u64, .ro, .vol, 0, none, none⟩]

/-- Index 0x2101. -/
def dict2101 : List DictRow := [
  ⟨0x210100, .u8, .const, .none_, 0x07, none, none⟩,
  ⟨0x210101, .u8, .ro, .vol, 255, none, none⟩,
  ⟨0x210102, .bool, .rw, .sys, 1, some 0, some 1⟩,
  ⟨0x210103, .u32, .rw, .sys, 100, some 10, some 60000⟩,
  ⟨0x210104, .u32, .rw, .sys, 10000, some 100, some 3600000⟩,
  ⟨0x210105, .u16, .rw, .sys, 1000, some 100, some 10000⟩,
  ⟨0x210106, .u16, .rw, .sys, 0, some 0, some 8760⟩,
  ⟨0x210107, .u32, .ro, .vol, 0, none, none⟩]

/-- Index 0x2102. -/
def dict2102 : List DictRow := [
  ⟨0x210200, .u8, .const, .none_, 0x01, none, none⟩,
  ⟨0x210201, .u32, .ro, .vol, 0, none, none⟩]

/-- Index 0x2103. -/
def dict2103 : List DictRow := [
  ⟨0x210300, .u8, .const, .none_, 0x09, none, none⟩,
  ⟨0x210301, .u8, .rw, .sys, 0, some 0, some 4⟩,
  ⟨0x210302, .u8, .ro, .vol, 0, none, none⟩,
  ⟨0x210303, .u32, .ro, .vol, 0, none, none⟩,
  ⟨0x210304, .i32, .ro, .vol, 0, none, none⟩,
  ⟨0x210305, .i32, .ro, .vol, 0, none, none⟩,
  ⟨0x210306, .i32, .ro, .vol, 0, none, none⟩,
  ⟨0x210307, .i32, .ro, .vol, 0, none, none⟩,
  ⟨0x210308, .i32, .ro, .vol, 0, none, none⟩,
  ⟨0x210309, .i32, .ro, .vol, 0, none, none⟩]

/-- Index 0x2104. -/
def dict2104 : List DictRow := [
  ⟨0x210400, .u8, .const, .none_, 0x05, none, none⟩,
  ⟨0x210401, .i16, .rw, .sys, 100, some 85, some 104⟩,
  ⟨0x210402, .i16, .rw, .sys, 108, none, none⟩,
  ⟨0x210403, .u16, .rw, .sys, 8, some 1, some 256⟩,
  ⟨0x210404, .i16, .ro, .vol, 0, none, none⟩,
  ⟨0x210405, .u16, .ro, .vol, 0, none, none⟩]

/-- Index 0x2110. -/
def dict2110 : List DictRow := [
  ⟨0x211000, .u8, .const, .none_, 0x07, none, none⟩,
  ⟨0x211001, .u64, .ro, .vol, 0, none, none⟩,
  ⟨0x211002, .u64, .ro, .vol, 0, none, none⟩,
  ⟨0x211003, .u64, .ro, .vol, 0, none, none⟩,
  ⟨0x211004, .u64, .ro, .vol, 0, none, none⟩,
  ⟨0x211005, .u64, .ro, .vol, 0, none, none⟩,
  ⟨0x211006, .u64, .ro, .vol, 0, none, none⟩,
  ⟨0x211007, .u64, .ro, .vol, 0, none, none⟩]

/-- Index 0x2201. -/
def dict2201 : List DictRow := [
  ⟨0x220100, .u8, .const, .none_, 0x17, none, none⟩,
  ⟨0x220101, .bool, .rw, .sys, 1, some 0, some 1⟩,
  ⟨0x220102, .u8, .rw, .sys, 0, none, none⟩,
  ⟨0x220103, .u16, .rw, .sys, 4094, none, none⟩,
  ⟨0x220104, .u8, .rw, .sys, 0, some 0, some 4⟩,
  ⟨0x220105, .u8, .rw, .sys, 228, none, none⟩,
  ⟨0x220106, .u8, .rw, .sys, 228, none, none⟩,
  ⟨0x220107, .u8, .rw, .sys, 0, none, none⟩,
  ⟨0x220108, .u16, .rw, .sys, 9000, some 1280, some 9600⟩,
  ⟨0x220109, .u16, .rw, .sys, 24576, none, none⟩,
  ⟨0x22010A, .oct, .rw, .sys, 0, none, none⟩,
  ⟨0x22010B, .oct, .rw, .sys, 0, none, none⟩,
  ⟨0x22010C, .oct, .rw, .sys, 0, none, none⟩,
  ⟨0x22010D, .oct, .rw, .sys, 0, none, none⟩,
  ⟨0x22010E, .u8, .rw, .sys, 2, none, none⟩,
  ⟨0x22010F, .bool, .rw, .sys, 0, some 0, some 1⟩,
  ⟨0x220110, .bool, .rw, .sys, 1, some 0, some 1⟩,
  ⟨0x220111, .u8, .rw, .sys, 1, some 0, some 3⟩,
  ⟨0x220112, .u16, .rw, .sys, 16, some 1, some 65535⟩,
  ⟨0x220113, .oct, .ro, .otp, 0, none, none⟩,
  ⟨0x220114, .u8, .ro, .vol, 0, none, none⟩,
  ⟨0x220115, .u8, .ro, .vol, 0, none, none⟩,
  ⟨0x220116, .u8, .ro, .vol, 0, none, none⟩,
  ⟨0x220117, .bool, .ro, .vol, 0, some 0, some 1⟩]

/-- Index 0x2202. -/
def dict2202 : List DictRow := [
  ⟨0x220200, .u8, .const, .none_, 0x17, none, none⟩,
  ⟨0x220201, .bool, .rw, .sys, 1, some 0, some 1⟩,
  ⟨0x220202, .u8, .rw, .sys, 0, none, none⟩,
  ⟨0x220203, .u16, .rw, .sys, 4094, none, none⟩,
  ⟨0x220204, .u8, .rw, .sys, 0, some 0, some 4⟩,
  ⟨0x220205, .u8, .rw, .sys, 228, none, none⟩,
  ⟨0x220206, .u8, .rw, .sys, 228, none, none⟩,
  ⟨0x220207, .u8, .rw, .sys, 0, none, none⟩,
  ⟨0x220208, .u16, .rw, .sys, 9000, some 1280, some 9600⟩,
  ⟨0x220209, .u16, .rw, .sys, 24576, none, none⟩,
  ⟨0x22020A, .oct, .rw, .sys, 0, none, none⟩,
  ⟨0x22020B, .oct, .rw, .sys, 0, none, none⟩,
  ⟨0x22020C, .oct, .rw, .sys, 0, none, none⟩,
  ⟨0x22020D, .oct, .rw, .sys, 0, none, none⟩,
  ⟨0x22020E, .u8, .rw, .sys, 2, none, none⟩,
  ⟨0x22020F, .bool, .rw, .sys, 0, some 0, some 1⟩,
  ⟨0x220210, .bool, .rw, .sys, 1, some 0, some 1⟩,
  ⟨0x220211, .u8, .rw, .sys, 1, some 0, some 3⟩,
  ⟨0x220212, .u16, .rw, .sys, 16, some 1, some 65535⟩,
  ⟨0x220213, .oct, .ro, .otp, 0, none, none⟩,
  ⟨0x220214, .u8, .ro, .vol, 0, none, none⟩,
  ⟨0x220215, .u8, .ro, .vol, 0, none, none⟩,
  ⟨0x220216, .u8, .ro, .vol, 0, none, none⟩,
  ⟨0x220217, .bool, .ro, .vol, 0, some 0, some 1⟩]

/-- Index 0x2203. -/
def dict2203 : List DictRow := [
  ⟨0x220300, .u8, .const, .none_, 0x07, none, none⟩,
  ⟨0x220301, .u16, .rw, .sys, 20, some 1, some 1000⟩,
  ⟨0x220302, .u16, .rw, .sys, 1000, some 10, some 60000⟩,
  ⟨0x220303, .u16, .rw, .sys, 100, some 0, some 10000⟩,
  ⟨0x220304, .u8, .rw, .vol, 0, none, none⟩,
  ⟨0x220305, .u16, .rw, .sys, 256, some 16, some 1024⟩,
  ⟨0x220306, .dom, .ro, .vol, 0, none, none⟩,
  ⟨0x220307, .u32, .wo, .vol, 0, none, none⟩]

/-- Index 0x2204. -/
def dict2204 : List DictRow := [
  ⟨0x220400, .u8, .const, .none_, 0x0B, none, none⟩,
  ⟨0x220401, .u8, .rw, .sys, 0, some 0, some 127⟩,
  ⟨0x220402, .u8, .rw, .sys, 2, some 0, some 2⟩,
  ⟨0x220403, .u8, .rw, .sys, 0, some 0, some 1⟩,
  ⟨0x220404, .u16, .rw, .sys, 1000, some 100, some 60000⟩,
  ⟨0x220405, .u32, .rw, .sys, 1000, some 100, some 1000000000⟩,
  ⟨0x220406, .u8, .ro, .vol, 0, none, none⟩,
  ⟨0x220407, .i32, .ro, .vol, 0, none, none⟩,
  ⟨0x220408, .oct, .ro, .vol, 0, none, none⟩,
  ⟨0x220409, .u8, .ro, .vol, 255, none, none⟩,
  ⟨0x22040A, .bool, .rw, .sys, 0, some 0, some 1⟩,
  ⟨0x22040B, .u32, .rw, .sys, 0x186A0, some 1, some 500000⟩]

/-- Index 0x2205. -/
def dict2205 : List DictRow := [
  ⟨0x220500, .u8, .const, .none_, 0x02, none, none⟩,
  ⟨0x220501, .u8, .rw, .sys, 0, none, none⟩,
  ⟨0x220502, .u32, .rw, .sys, 25000, none, none⟩]

/-- Index 0x2210. -/
def dict2210 : List DictRow := [
  ⟨0x221000, .u8, .const, .none_, 0x19, none, none⟩,
  ⟨0x221001, .u64, .ro, .vol, 0, none, none⟩,
  ⟨0x221002, .u64, .ro, .vol, 0, none, none⟩,
  ⟨0x221003, .u64, .ro, .vol, 0, none, none⟩,
  ⟨0x221004, .u64, .ro, .vol, 0, none, none⟩,
  ⟨0x221005, .u64, .ro, .vol, 0, none, none⟩,
  ⟨0x221006, .u64, .ro, .vol, 0, none, none⟩,
  ⟨0x221007, .u64, .ro, .vol, 0, none, none⟩,
  ⟨0x221008, .u64, .ro, .vol, 0, none, none⟩,
  ⟨0x221009, .u64, .ro, .vol, 0, none, none⟩,
  ⟨0x22100A, .u64, .ro, .vol, 0, none, none⟩,
  ⟨0x22100B, .u64, .ro, .vol, 0, none, none⟩,
  ⟨0x22100C, .u64, .ro, .vol, 0, none, none⟩,
  ⟨0x22100D, .u64, .ro, .vol, 0, none, none⟩,
  ⟨0x22100E, .u64, .ro, .vol, 0, none, none⟩,
  ⟨0x22100F, .u64, .ro, .vol, 0, none, none⟩,
  ⟨0x221010, .u64, .ro, .vol, 0, none, none⟩,
  ⟨0x221011, .u64, .ro, .vol, 0, none, none⟩,
  ⟨0x221012, .u64, .ro, .vol, 0, none, none⟩,
  ⟨0x221013, .u64, .ro, .vol, 0, none, none⟩,
  ⟨0x221014, .u64, .ro, .vol, 0, none, none⟩,
  ⟨0x221015, .u64, .ro, .sys, 0, none, none⟩,
  ⟨0x221016, .u64, .ro, .vol, 0, none, none⟩,
  ⟨0x221017, .u64, .ro, .vol, 0, none, none⟩,
  ⟨0x221018, .u64, .ro, .vol, 0, none, none⟩,
  ⟨0x221019, .u64, .ro, .vol, 0, none, none⟩]

/-- Index 0x2211. -/
def dict2211 : List DictRow := [
  ⟨0x221100, .u8, .const, .none_, 0x19, none, none⟩,
  ⟨0x221101, .u64, .ro, .vol, 0, none, none⟩,
  ⟨0x221102, .u64, .ro, .vol, 0, none, none⟩,
  ⟨0x221103, .u64, .ro, .vol, 0, none, none⟩,
  ⟨0x221104, .u64, .ro, .vol, 0, none, none⟩,
  ⟨0x221105, .u64, .ro, .vol, 0, none, none⟩,
  ⟨0x221106, .u64, .ro, .vol, 0, none, none⟩,
  ⟨0x221107, .u64, .ro, .vol, 0, none, none⟩,
  ⟨0x221108, .u64, .ro, .vol, 0, none, none⟩,
  ⟨0x221109, .u64, .ro, .vol, 0, none, none⟩,
  ⟨0x22110A, .u64, .ro, .vol, 0, none, none⟩,
  ⟨0x22110B, .u64, .ro, .vol, 0, none, none⟩,
  ⟨0x22110C, .u64, .ro, .vol, 0, none, none⟩,
  ⟨0x22110D, .u64, .ro, .vol, 0, none, none⟩,
  ⟨0x22110E, .u64, .ro, .vol, 0, none, none⟩,
  ⟨0x22110F, .u64, .ro, .vol, 0, none, none⟩,
  ⟨0x221110, .u64, .ro, .vol, 0, none, none⟩,
  ⟨0x221111, .u64, .ro, .vol, 0, none, none⟩,
  ⟨0x221112, .u64, .ro, .vol, 0, none, none⟩,
  ⟨0x221113, .u64, .ro, .vol, 0, none, none⟩,
  ⟨0x221114, .u64, .ro, .vol, 0, none, none⟩,
  ⟨0x221115, .u64, .ro, .sys, 0, none, none⟩,
  ⟨0x221116, .u64, .ro, .vol, 0, none, none⟩,
  ⟨0x221117, .u64, .ro, .vol, 0, none, none⟩,
  ⟨0x221118, .u64, .ro, .vol, 0, none, none⟩,
  ⟨0x221119, .u64, .ro, .vol, 0, none, none⟩]

/-- Index 0x2301. -/
def dict2301 : List DictRow := [
  ⟨0x230100, .u8, .const, .none_, 0x09, none, none⟩,
  ⟨0x230101, .u16, .rw, .sys, 47714, none, none⟩,
  ⟨0x230102, .bool, .rw, .sys, 1, some 0, some 1⟩,
  ⟨0x230103, .u32, .rw, .sys, 4096, some 1, some 65536⟩,
  ⟨0x230104, .u32, .rw, .sys, 600, some 10, some 86400⟩,
  ⟨0x230105, .u32, .rw, .sys, 2000, some 100, some 60000⟩,
  ⟨0x230106, .u16, .rw, .sys, 30, some 5, some 1000⟩,
  ⟨0x230107, .u16, .rw, .sys, 10, some 1, some 1000⟩,
  ⟨0x230108, .u32, .rw, .sys, 5000, some 100, some 600000⟩,
  ⟨0x230109, .u32, .rw, .sys, 10, some 1, some 3600⟩]

/-- Index 0x2310. -/
def dict2310 : List DictRow := [
  ⟨0x231000, .u8, .const, .none_, 0x10, none, none⟩,
  ⟨0x231001, .u64, .ro, .vol, 0, none, none⟩,
  ⟨0x231002, .u64, .ro, .vol, 0, none, none⟩,
  ⟨0x231003, .u64, .ro, .vol, 0, none, none⟩,
  ⟨0x231004, .u64, .ro, .vol, 0, none, none⟩,
  ⟨0x231005, .u64, .ro, .vol, 0, none, none⟩,
  ⟨0x231006, .u64, .ro, .vol, 0, none, none⟩,
  ⟨0x231007, .u64, .ro, .vol, 0, none, none⟩,
  ⟨0x231008, .u64, .ro, .vol, 0, none, none⟩,
  ⟨0x231009, .u64, .ro, .vol, 0, none, none⟩,
  ⟨0x23100A, .u64, .ro, .vol, 0, none, none⟩,
  ⟨0x23100B, .u64, .ro, .vol, 0, none, none⟩,
  ⟨0x23100C, .u64, .ro, .vol, 0, none, none⟩,
  ⟨0x23100D, .u64, .ro, .vol, 0, none, none⟩,
  ⟨0x23100E, .u64, .ro, .vol, 0, none, none⟩,
  ⟨0x23100F, .u64, .ro, .vol, 0, none, none⟩,
  ⟨0x231010, .u64, .ro, .vol, 0, none, none⟩]

/-- Index 0x2311. -/
def dict2311 : List DictRow := [
  ⟨0x231100, .u8, .const, .none_, 0x02, none, none⟩,
  ⟨0x231101, .u32, .ro, .vol, 0, none, none⟩,
  ⟨0x231102, .u32, .ro, .vol, 0, none, none⟩]

/-- Index 0x2320. -/
def dict2320 : List DictRow := [
  ⟨0x232000, .u8, .const, .none_, 0x03, none, none⟩,
  ⟨0x232001, .u16, .ro, .sys, 0, none, none⟩,
  ⟨0x232002, .dom, .wo, .sys, 0, none, none⟩,
  ⟨0x232003, .str, .wo, .sys, 0, none, none⟩]

/-- Index 0x2401. -/
def dict2401 : List DictRow := [
  ⟨0x240100, .u8, .const, .none_, 0x0A, none, none⟩,
  ⟨0x240101, .u64, .rw, .vol, 0, none, none⟩,
  ⟨0x240102, .u32, .ro, .sys, 0, none, none⟩,
  ⟨0x240103, .u8, .rw, .sys, 4, none, none⟩,
  ⟨0x240104, .u32, .rw, .sys, 0x93A80, none, none⟩,
  ⟨0x240105, .u64, .rw, .sys, 0, none, none⟩,
  ⟨0x240106, .u32, .rw, .sys, 0, none, none⟩,
  ⟨0x240107, .bool, .rw, .sys, 0, some 0, some 1⟩,
  ⟨0x240108, .u64, .ro, .vol, 0, none, none⟩,
  ⟨0x240109, .u64, .ro, .vol, 0, none, none⟩,
  ⟨0x24010A, .u64, .ro, .vol, 0, none, none⟩]

/-- Index 0x2402. -/
def dict2402 : List DictRow := [
  ⟨0x240200, .u8, .const, .none_, 0x01, none, none⟩,
  ⟨0x240201, .u16, .ro, .vol, 0, none, none⟩]

/-- Index 0x2501. -/
def dict2501 : List DictRow := [
  ⟨0x250100, .u8, .const, .none_, 0x06, none, none⟩,
  ⟨0x250101, .u32, .rw, .sys, 20, none, none⟩,
  ⟨0x250102, .u32, .rw, .sys, 200, none, none⟩,
  ⟨0x250103, .u32, .rw, .sys, 5000, none, none⟩,
  ⟨0x250104, .u32, .rw, .sys, 400, none, none⟩,
  ⟨0x250105, .u32, .rw, .sys, 100, none, none⟩,
  ⟨0x250106, .u32, .rw, .sys, 25, none, none⟩]

/-- Index 0x2502. -/
def dict2502 : List DictRow := [
  ⟨0x250200, .u8, .const, .none_, 0x08, none, none⟩,
  ⟨0x250201, .u16, .rw, .sys, 900, some 500, some 950⟩,
  ⟨0x250202, .u16, .rw, .sys, 200, some 0, some 400⟩,
  ⟨0x250203, .u8, .rw, .sys, 3, some 1, some 8⟩,
  ⟨0x250204, .u16, .rw, .sys, 50, some 10, some 500⟩,
  ⟨0x250205, .u32, .rw, .sys, 1000, some 100, some 100000⟩,
  ⟨0x250206, .u32, .rw, .sys, 200, some 50, some 5000⟩,
  ⟨0x250207, .u32, .rw, .sys, 500, some 100, some 10000⟩,
  ⟨0x250208, .u32, .rw, .sys, 1000, some 10, some 60000⟩]

/-- Index 0x2503. -/
def dict2503 : List DictRow := [
  ⟨0x250300, .u8, .const, .none_, 0x06, none, none⟩,
  ⟨0x250301, .u16, .rwp, .sys, 128, some 16, some 4096⟩,
  ⟨0x250302, .u16, .rw, .vol, 128, some 16, none⟩,
  ⟨0x250303, .u8, .rwp, .sys, 1, some 1, some 16⟩,
  ⟨0x250304, .u8, .rwp, .sys, 3, some 1, some 16⟩,
  ⟨0x250305, .u8, .rwp, .sys, 2, some 1, some 16⟩,
  ⟨0x250306, .u64, .ro, .vol, 0, none, none⟩]

/-- Index 0x2504. -/
def dict2504 : List DictRow := [
  ⟨0x250400, .u8, .const, .none_, 0x01, none, none⟩,
  ⟨0x250401, .bool, .ro, .vol, 0, some 0, some 1⟩]

/-- Index 0x2510. -/
def dict2510 : List DictRow := [
  ⟨0x251000, .u8, .const, .none_, 0x10, none, none⟩,
  ⟨0x251001, .u64, .ro, .vol, 0, none, none⟩,
  ⟨0x251002, .u64, .ro, .vol, 0, none, none⟩,
  ⟨0x251003, .u64, .ro, .vol, 0, none, none⟩,
  ⟨0x251004, .u64, .ro, .vol, 0, none, none⟩,
  ⟨0x251005, .u64, .ro, .vol, 0, none, none⟩,
  ⟨0x251006, .u64, .ro, .vol, 0, none, none⟩,
  ⟨0x251007, .u64, .ro, .vol, 0, none, none⟩,
  ⟨0x251008, .u64, .ro, .vol, 0, none, none⟩,
  ⟨0x251009, .u64, .ro, .vol, 0, none, none⟩,
  ⟨0x25100A, .u64, .ro, .vol, 0, none, none⟩,
  ⟨0x25100B, .u64, .ro, .vol, 0, none, none⟩,
  ⟨0x25100C, .u64, .ro, .vol, 0, none, none⟩,
  ⟨0x25100D, .u32, .ro, .vol, 1000000000, none, none⟩,
  ⟨0x25100E, .u32, .ro, .sys, 1000000000, none, none⟩,
  ⟨0x25100F, .u16, .ro, .vol, 0, none, none⟩,
  ⟨0x251010, .u64, .ro, .vol, 0, none, none⟩]

/-- Index 0x2520. -/
def dict2520 : List DictRow := [
  ⟨0x252000, .u8, .const, .none_, 0x08, none, none⟩,
  ⟨0x252001, .u16, .ro, .vol, 0, none, none⟩,
  ⟨0x252002, .u16, .ro, .vol, 0, none, none⟩,
  ⟨0x252003, .u64, .ro, .vol, 0, none, none⟩,
  ⟨0x252004, .u32, .ro, .vol, 0, none, none⟩,
  ⟨0x252005, .u16, .ro, .vol, 0, none, none⟩,
  ⟨0x252006, .u16, .ro, .vol, 0, none, none⟩,
  ⟨0x252007, .u64, .ro, .vol, 0, none, none⟩,
  ⟨0x252008, .u32, .ro, .vol, 0, none, none⟩]

/-- Index 0x2601. -/
def dict2601 : List DictRow := [
  ⟨0x260100, .u8, .const, .none_, 0x05, none, none⟩,
  ⟨0x260101, .u32, .rw, .sys, 0x80000015, none, none⟩,
  ⟨0x260102, .u16, .rw, .sys, 1024, some 256, some 65535⟩,
  ⟨0x260103, .u8, .rw, .sys, 2, some 1, some 15⟩,
  ⟨0x260104, .u16, .rw, .sys, 1000, some 10, some 60000⟩,
  ⟨0x260105, .u8, .rw, .sys, 16, some 2, some 64⟩]

/-- Index 0x2602. -/
def dict2602 : List DictRow := [
  ⟨0x260200, .u8, .const, .none_, 0x04, none, none⟩,
  ⟨0x260201, .dom, .wo, .sys, 0, none, none⟩,
  ⟨0x260202, .u16, .rw, .vol, 0, none, none⟩,
  ⟨0x260203, .dom, .ro, .vol, 0, none, none⟩,
  ⟨0x260204, .u16, .ro, .vol, 0, none, none⟩]

/-- Index 0x2603. -/
def dict2603 : List DictRow := [
  ⟨0x260300, .u8, .const, .none_, 0x05, none, none⟩,
  ⟨0x260301, .u32, .ro, .vol, 0, none, none⟩,
  ⟨0x260302, .u32, .ro, .vol, 0, none, none⟩,
  ⟨0x260303, .u32, .ro, .vol, 0, none, none⟩,
  ⟨0x260304, .u64, .ro, .vol, 0, none, none⟩,
  ⟨0x260305, .u16, .ro, .vol, 8192, none, none⟩]

/-- Index 0x2610. -/
def dict2610 : List DictRow := [
  ⟨0x261000, .u8, .const, .none_, 0x09, none, none⟩,
  ⟨0x261001, .u64, .ro, .vol, 0, none, none⟩,
  ⟨0x261002, .u64, .ro, .vol, 0, none, none⟩,
  ⟨0x261003, .u64, .ro, .vol, 0, none, none⟩,
  ⟨0x261004, .u64, .ro, .vol, 0, none, none⟩,
  ⟨0x261005, .u64, .ro, .vol, 0, none, none⟩,
  ⟨0x261006, .u64, .ro, .vol, 0, none, none⟩,
  ⟨0x261007, .u64, .ro, .vol, 0, none, none⟩,
  ⟨0x261008, .u64, .ro, .vol, 0, none, none⟩,
  ⟨0x261009, .u64, .ro, .vol, 0, none, none⟩]

/-- Index 0x2701. -/
def dict2701 : List DictRow := [
  ⟨0x270100, .u8, .const, .none_, 0x06, none, none⟩,
  ⟨0x270101, .dom, .rwr, .sys, 0, none, none⟩,
  ⟨0x270102, .u16, .rwr, .sys, 0, some 0, some 65534⟩,
  ⟨0x270103, .u32, .ro, .sys, 0, none, none⟩,
  ⟨0x270104, .u32, .ro, .vol, 0, none, none⟩,
  ⟨0x270105, .u8, .ro, .vol, 0, none, none⟩,
  ⟨0x270106, .bool, .ro, .vol, 0, some 0, some 1⟩]

/-- Index 0x2702. -/
def dict2702 : List DictRow := [
  ⟨0x270200, .u8, .const, .none_, 0x08, none, none⟩,
  ⟨0x270201, .u32, .rw, .sys, 65536, some 0, some 1048576⟩,
  ⟨0x270202, .u8, .rw, .sys, 1, some 0, some 1⟩,
  ⟨0x270203, .u32, .rw, .sys, 1000, some 10, some 25600⟩,
  ⟨0x270204, .u32, .rw, .sys, 200, some 10, some 25600⟩,
  ⟨0x270205, .u32, .rw, .sys, 600, some 10, some 86400⟩,
  ⟨0x270206, .u32, .rw, .sys, 60, some 1, some 3600⟩,
  ⟨0x270207, .u32, .rw, .sys, 1000, some 100, some 60000⟩,
  ⟨0x270208, .u32, .rw, .sys, 300, some 10, some 86400⟩]

/-- Index 0x2703. -/
def dict2703 : List DictRow := [
  ⟨0x270300, .u8, .const, .none_, 0x02, none, none⟩,
  ⟨0x270301, .u64, .ro, .vol, 0, none, none⟩,
  ⟨0x270302, .u64, .ro, .vol, 0, none, none⟩]

/-- Index 0x2710. -/
def dict2710 : List DictRow := [
  ⟨0x271000, .u8, .const, .none_, 0x09, none, none⟩,
  ⟨0x271001, .u64, .ro, .vol, 0, none, none⟩,
  ⟨0x271002, .u64, .ro, .vol, 0, none, none⟩,
  ⟨0x271003, .u64, .ro, .vol, 0, none, none⟩,
  ⟨0x271004, .u64, .ro, .vol, 0, none, none⟩,
  ⟨0x271005, .u64, .ro, .vol, 0, none, none⟩,
  ⟨0x271006, .u64, .ro, .vol, 0, none, none⟩,
  ⟨0x271007, .u64, .ro, .vol, 0, none, none⟩,
  ⟨0x271008, .u64, .ro, .vol, 0, none, none⟩,
  ⟨0x271009, .u64, .ro, .vol, 0, none, none⟩]

/-- Index 0x2801. -/
def dict2801 : List DictRow := [
  ⟨0x280100, .u8, .const, .none_, 0x09, none, none⟩,
  ⟨0x280101, .dom, .rwp, .sys, 0, none, none⟩,
  ⟨0x280102, .u16, .rwp, .sys, 64, some 32, some 1024⟩,
  ⟨0x280103, .u16, .rwp, .sys, 16, some 8, some 10000⟩,
  ⟨0x280104, .u8, .rw, .sys, 4, some 1, some 8⟩,
  ⟨0x280105, .u16, .rw, .sys, 100, some 0, some 500⟩,
  ⟨0x280106, .u16, .rw, .sys, 512, some 1, some 32768⟩,
  ⟨0x280107, .u16, .rwp, .sys, 128, some 16, some 4096⟩,
  ⟨0x280108, .u8, .rw, .sys, 24, some 1, some 168⟩,
  ⟨0x280109, .u8, .rwp, .sys, 5, none, none⟩]

/-- Index 0x2802. -/
def dict2802 : List DictRow := [
  ⟨0x280200, .u8, .const, .none_, 0x0A, none, none⟩,
  ⟨0x280201, .u16, .ro, .vol, 0, none, none⟩,
  ⟨0x280202, .u16, .ro, .vol, 0, none, none⟩,
  ⟨0x280203, .u8, .ro, .vol, 0, none, none⟩,
  ⟨0x280204, .u16, .ro, .vol, 0, none, none⟩,
  ⟨0x280205, .u16, .ro, .vol, 0, none, none⟩,
  ⟨0x280206, .u16, .ro, .vol, 0, none, none⟩,
  ⟨0x280207, .u64, .ro, .vol, 0, none, none⟩,
  ⟨0x280208, .u64, .ro, .vol, 0, none, none⟩,
  ⟨0x280209, .u16, .ro, .vol, 1150, none, none⟩,
  ⟨0x28020A, .u32, .ro, .sys, 0, none, none⟩]

/-- Index 0x2803. -/
def dict2803 : List DictRow := [
  ⟨0x280300, .u8, .const, .none_, 0x12, none, none⟩,
  ⟨0x280301, .u8, .rw, .sys, 16, some 4, some 64⟩,
  ⟨0x280302, .u8, .rw, .sys, 6, some 2, some 32⟩,
  ⟨0x280303, .u32, .rw, .sys, 0x93A80, some 3600, some 31536000⟩,
  ⟨0x280304, .u16, .rw, .sys, 970, some 500, some 990⟩,
  ⟨0x280305, .u32, .rw, .sys, 3600, some 60, some 604800⟩,
  ⟨0x280306, .u16, .rw, .sys, 150, some 20, some 5000⟩,
  ⟨0x280307, .u32, .rw, .sys, 3600, some 60, some 604800⟩,
  ⟨0x280308, .u32, .rw, .sys, 50000, some 1000, some 10000000⟩,
  ⟨0x280309, .u32, .rw, .sys, 0x7A120, some 1000, some 10000000⟩,
  ⟨0x28030A, .u16, .rw, .sys, 30, some 1, some 365⟩,
  ⟨0x28030B, .u8, .rw, .sys, 2, some 1, some 16⟩,
  ⟨0x28030C, .u32, .rw, .sys, 200, some 10, some 9600⟩,
  ⟨0x28030D, .u32, .rw, .sys, 720, some 1, some 87600⟩,
  ⟨0x28030E, .u8, .rw, .sys, 1, some 1, some 16⟩,
  ⟨0x28030F, .u16, .rw, .sys, 20, some 5, some 200⟩,
  ⟨0x280310, .u32, .rw, .sys, 3600, some 300, some 86400⟩,
  ⟨0x280311, .u32, .rw, .sys, 256, some 32, some 4096⟩,
  ⟨0x280312, .u16, .rw, .sys, 256, some 32, some 256⟩]

/-- Index 0x2804. -/
def dict2804 : List DictRow := [
  ⟨0x280400, .u8, .const, .none_, 0x08, none, none⟩,
  ⟨0x280401, .u16, .ro, .vol, 0, none, none⟩,
  ⟨0x280402, .u32, .ro, .vol, 0, none, none⟩,
  ⟨0x280403, .u32, .ro, .vol, 0, none, none⟩,
  ⟨0x280404, .u32, .ro, .vol, 0, none, none⟩,
  ⟨0x280405, .u64, .ro, .vol, 0, none, none⟩,
  ⟨0x280406, .u32, .ro, .vol, 0, none, none⟩,
  ⟨0x280407, .u16, .ro, .sys, 1000, none, none⟩,
  ⟨0x280408, .u32, .ro, .vol, 0, none, none⟩]

/-- Index 0x2810. -/
def dict2810 : List DictRow := [
  ⟨0x281000, .u8, .const, .none_, 0x0A, none, none⟩,
  ⟨0x281001, .u64, .ro, .vol, 0, none, none⟩,
  ⟨0x281002, .u64, .ro, .vol, 0, none, none⟩,
  ⟨0x281003, .u64, .ro, .vol, 0, none, none⟩,
  ⟨0x281004, .u64, .ro, .vol, 0, none, none⟩,
  ⟨0x281005, .u64, .ro, .vol, 0, none, none⟩,
  ⟨0x281006, .u64, .ro, .vol, 0, none, none⟩,
  ⟨0x281007, .u64, .ro, .vol, 0, none, none⟩,
  ⟨0x281008, .u64, .ro, .vol, 0, none, none⟩,
  ⟨0x281009, .u64, .ro, .vol, 0, none, none⟩,
  ⟨0x28100A, .u64, .ro, .sys, 0, none, none⟩]

/-- Index 0x2811. -/
def dict2811 : List DictRow := [
  ⟨0x281100, .u8, .const, .none_, 0x0B, none, none⟩,
  ⟨0x281101, .u64, .ro, .vol, 0, none, none⟩,
  ⟨0x281102, .u64, .ro, .vol, 0, none, none⟩,
  ⟨0x281103, .u64, .ro, .vol, 0, none, none⟩,
  ⟨0x281104, .u64, .ro, .vol, 0, none, none⟩,
  ⟨0x281105, .u64, .ro, .vol, 0, none, none⟩,
  ⟨0x281106, .u64, .ro, .vol, 0, none, none⟩,
  ⟨0x281107, .u64, .ro, .vol, 0, none, none⟩,
  ⟨0x281108, .u64, .ro, .vol, 0, none, none⟩,
  ⟨0x281109, .u64, .ro, .vol, 0, none, none⟩,
  ⟨0x28110A, .u64, .ro, .vol, 0, none, none⟩,
  ⟨0x28110B, .u64, .ro, .vol, 0, none, none⟩]

/-- Index 0x2901. -/
def dict2901 : List DictRow := [
  ⟨0x290100, .u8, .const, .none_, 0x04, none, none⟩,
  ⟨0x290101, .u8, .rwr, .sys, 0, none, none⟩,
  ⟨0x290102, .u8, .rwr, .sys, 0, some 0, some 1⟩,
  ⟨0x290103, .u8, .rwr, .vol, 0, none, none⟩,
  ⟨0x290104, .u8, .rw, .sys, 4, some 2, some 64⟩]

/-- Index 0x2902. -/
def dict2902 : List DictRow := [
  ⟨0x290200, .u8, .const, .none_, 0x08, none, none⟩,
  ⟨0x290201, .u8, .ro, .otp, 0, none, none⟩,
  ⟨0x290202, .u8, .ro, .otp, 0, none, none⟩,
  ⟨0x290203, .u32, .ro, .otp, 0, none, none⟩,
  ⟨0x290204, .u64, .ro, .vol, 0, none, none⟩,
  ⟨0x290205, .u64, .ro, .vol, 0, none, none⟩,
  ⟨0x290206, .u32, .ro, .sys, 0, none, none⟩,
  ⟨0x290207, .u16, .ro, .vol, 0, none, none⟩,
  ⟨0x290208, .bool, .ro, .vol, 0, some 0, some 1⟩]

/-- Index 0x2910. -/
def dict2910 : List DictRow := [
  ⟨0x291000, .u8, .const, .none_, 0x07, none, none⟩,
  ⟨0x291001, .u64, .ro, .vol, 0, none, none⟩,
  ⟨0x291002, .u64, .ro, .vol, 0, none, none⟩,
  ⟨0x291003, .u64, .ro, .vol, 0, none, none⟩,
  ⟨0x291004, .u64, .ro, .vol, 0, none, none⟩,
  ⟨0x291005, .u64, .ro, .vol, 0, none, none⟩,
  ⟨0x291006, .u64, .ro, .sys, 0, none, none⟩,
  ⟨0x291007, .u64, .ro, .vol, 0, none, none⟩]

/-- Index 0x2A01. -/
def dict2A01 : List DictRow := [
  ⟨0x2A0100, .u8, .const, .none_, 0x07, none, none⟩,
  ⟨0x2A0101, .u32, .ro, .vol, 0, none, none⟩,
  ⟨0x2A0102, .oct, .ro, .vol, 0, none, none⟩,
  ⟨0x2A0103, .u32, .ro, .vol, 0, none, none⟩,
  ⟨0x2A0104, .u32, .ro, .vol, 0, none, none⟩,
  ⟨0x2A0105, .u16, .ro, .sys, 0, none, none⟩,
  ⟨0x2A0106, .u8, .ro, .vol, 0, none, none⟩,
  ⟨0x2A0107, .u8, .ro, .otp, 0, none, none⟩]

/-- Index 0x2A02. -/
def dict2A02 : List DictRow := [
  ⟨0x2A0200, .u8, .const, .none_, 0x05, none, none⟩,
  ⟨0x2A0201, .u32, .ro, .vol, 0, none, none⟩,
  ⟨0x2A0202, .u8, .ro, .vol, 255, none, none⟩,
  ⟨0x2A0203, .u32, .ro, .vol, 0, none, none⟩,
  ⟨0x2A0204, .u8, .ro, .vol, 0, none, none⟩,
  ⟨0x2A0205, .u32, .ro, .vol, 0, none, none⟩]

/-- Index 0x2A03. -/
def dict2A03 : List DictRow := [
  ⟨0x2A0300, .u8, .const, .none_, 0x08, none, none⟩,
  ⟨0x2A0301, .u8, .rwr, .sys, 0, none, none⟩,
  ⟨0x2A0302, .oct, .rwr, .sys, 0, none, none⟩,
  ⟨0x2A0303, .u32, .rw, .sys, 600, some 10, some 86400⟩,
  ⟨0x2A0304, .u8, .ro, .vol, 0, none, none⟩,
  ⟨0x2A0305, .u16, .ro, .vol, 0, none, none⟩,
  ⟨0x2A0306, .bool, .rw, .sys, 1, some 0, some 1⟩,
  ⟨0x2A0307, .u32, .ro, .sys, 0, none, none⟩,
  ⟨0x2A0308, .u32, .ro, .sys, 0, none, none⟩]

/-- Index 0x2A04. -/
def dict2A04 : List DictRow := [
  ⟨0x2A0400, .u8, .const, .none_, 0x04, none, none⟩,
  ⟨0x2A0401, .u32, .rwr, .vol, 0, none, none⟩,
  ⟨0x2A0402, .oct, .rwr, .otp, 0, none, none⟩,
  ⟨0x2A0403, .u8, .ro, .otp, 0, none, none⟩,
  ⟨0x2A0404, .bool, .ro, .otp, 0, some 0, some 1⟩]

/-- Index 0x2B01. -/
def dict2B01 : List DictRow := [
  ⟨0x2B0100, .u8, .const, .none_, 0x05, none, none⟩,
  ⟨0x2B0101, .u64, .ro, .vol, 0, none, none⟩,
  ⟨0x2B0102, .u64, .ro, .vol, 0, none, none⟩,
  ⟨0x2B0103, .oct, .wo, .sys, 0, none, none⟩,
  ⟨0x2B0104, .dom, .ro, .none_, 0, none, none⟩,
  ⟨0x2B0105, .u32, .rw, .sys, 600, some 10, some 86400⟩]

/-- Index 0x2B02. -/
def dict2B02 : List DictRow := [
  ⟨0x2B0200, .u8, .const, .none_, 0x04, none, none⟩,
  ⟨0x2B0201, .u64, .rw, .vol, 0, none, none⟩,
  ⟨0x2B0202, .u64, .rw, .vol, 0, none, none⟩,
  ⟨0x2B0203, .u64, .rw, .vol, 0, none, none⟩,
  ⟨0x2B0204, .u64, .rw, .vol, 0, none, none⟩]

/-- Index 0x2B03. -/
def dict2B03 : List DictRow := [
  ⟨0x2B0300, .u8, .const, .none_, 0x04, none, none⟩,
  ⟨0x2B0301, .dom, .ro, .vol, 0, none, none⟩,
  ⟨0x2B0302, .dom, .ro, .vol, 0, none, none⟩,
  ⟨0x2B0303, .dom, .ro, .vol, 0, none, none⟩,
  ⟨0x2B0304, .dom, .ro, .vol, 0, none, none⟩]

/-- Index 0x2B04. -/
def dict2B04 : List DictRow := [
  ⟨0x2B0400, .u8, .const, .none_, 0x03, none, none⟩,
  ⟨0x2B0401, .u64, .ro, .vol, 0, none, none⟩,
  ⟨0x2B0402, .u64, .ro, .vol, 0, none, none⟩,
  ⟨0x2B0403, .u64, .ro, .vol, 0, none, none⟩]

/-- Index 0x2C01. -/
def dict2C01 : List DictRow := [
  ⟨0x2C0100, .u8, .const, .none_, 0x06, none, none⟩,
  ⟨0x2C0101, .u16, .rw, .sys, 0, none, none⟩,
  ⟨0x2C0102, .u16, .rw, .sys, 2000, some 100, some 4000⟩,
  ⟨0x2C0103, .u16, .rw, .sys, 1000, some 10, some 60000⟩,
  ⟨0x2C0104, .u8, .ro, .vol, 0, none, none⟩,
  ⟨0x2C0105, .dom, .wo, .vol, 0, none, none⟩,
  ⟨0x2C0106, .dom, .ro, .vol, 0, none, none⟩]

/-- Index 0x2C02. -/
def dict2C02 : List DictRow := [
  ⟨0x2C0200, .u8, .const, .none_, 0x05, none, none⟩,
  ⟨0x2C0201, .u64, .ro, .vol, 0, none, none⟩,
  ⟨0x2C0202, .u64, .ro, .vol, 0, none, none⟩,
  ⟨0x2C0203, .u64, .ro, .vol, 0, none, none⟩,
  ⟨0x2C0204, .u64, .ro, .vol, 0, none, none⟩,
  ⟨0x2C0205, .u64, .ro, .vol, 0, none, none⟩]

/-- Index 0x2D01. -/
def dict2D01 : List DictRow := [
  ⟨0x2D0100, .u8, .const, .none_, 0x09, none, none⟩,
  ⟨0x2D0101, .u16, .ro, .vol, 0, none, none⟩,
  ⟨0x2D0102, .u16, .ro, .vol, 0, none, none⟩,
  ⟨0x2D0103, .u16, .ro, .vol, 0, none, none⟩,
  ⟨0x2D0104, .u16, .ro, .vol, 0, none, none⟩,
  ⟨0x2D0105, .u16, .ro, .vol, 0, none, none⟩,
  ⟨0x2D0106, .u16, .ro, .vol, 0, none, none⟩,
  ⟨0x2D0107, .u16, .ro, .vol, 0, none, none⟩,
  ⟨0x2D0108, .u16, .ro, .vol, 0, none, none⟩,
  ⟨0x2D0109, .u32, .ro, .vol, 0, none, none⟩]

/-- Index 0x2D02. -/
def dict2D02 : List DictRow := [
  ⟨0x2D0200, .u8, .const, .none_, 0x04, none, none⟩,
  ⟨0x2D0201, .u8, .rw, .sys, 0, none, none⟩,
  ⟨0x2D0202, .u8, .rw, .sys, 0, none, none⟩,
  ⟨0x2D0203, .u8, .ro, .vol, 0, none, none⟩,
  ⟨0x2D0204, .u8, .rw, .sys, 255, none, none⟩]

/-- Index 0x2D03. -/
def dict2D03 : List DictRow := [
  ⟨0x2D0300, .u8, .const, .none_, 0x04, none, none⟩,
  ⟨0x2D0301, .u16, .rw, .sys, 100, none, none⟩,
  ⟨0x2D0302, .oct, .rw, .sys, 0, none, none⟩,
  ⟨0x2D0303, .oct, .ro, .vol, 0, none, none⟩,
  ⟨0x2D0304, .u64, .ro, .vol, 0, none, none⟩]

/-- Index 0x2D04. -/
def dict2D04 : List DictRow := [
  ⟨0x2D0400, .u8, .const, .none_, 0x01, none, none⟩,
  ⟨0x2D0401, .u8, .ro, .vol, 0, none, none⟩]

/-- The whole dictionary, keys rising (R368). -/
def dictTable : List DictRow :=
  dict1000 ++ dict1001 ++ dict1010 ++ dict1011 ++ dict1012 ++ dict1017 ++ dict1018 ++ dict2000 ++
  dict2002 ++ dict2003 ++ dict2101 ++ dict2102 ++ dict2103 ++ dict2104 ++ dict2110 ++ dict2201 ++
  dict2202 ++ dict2203 ++ dict2204 ++ dict2205 ++ dict2210 ++ dict2211 ++ dict2301 ++ dict2310 ++
  dict2311 ++ dict2320 ++ dict2401 ++ dict2402 ++ dict2501 ++ dict2502 ++ dict2503 ++ dict2504 ++
  dict2510 ++ dict2520 ++ dict2601 ++ dict2602 ++ dict2603 ++ dict2610 ++ dict2701 ++ dict2702 ++
  dict2703 ++ dict2710 ++ dict2801 ++ dict2802 ++ dict2803 ++ dict2804 ++ dict2810 ++ dict2811 ++
  dict2901 ++ dict2902 ++ dict2910 ++ dict2A01 ++ dict2A02 ++ dict2A03 ++ dict2A04 ++ dict2B01 ++
  dict2B02 ++ dict2B03 ++ dict2B04 ++ dict2C01 ++ dict2C02 ++ dict2D01 ++ dict2D02 ++ dict2D03 ++
  dict2D04

/-- The rows of one index: a short scan instead of the whole table. -/
def dictRowsOf (index : Nat) : List DictRow :=
  match index with
  | 0x1000 => dict1000
  | 0x1001 => dict1001
  | 0x1010 => dict1010
  | 0x1011 => dict1011
  | 0x1012 => dict1012
  | 0x1017 => dict1017
  | 0x1018 => dict1018
  | 0x2000 => dict2000
  | 0x2002 => dict2002
  | 0x2003 => dict2003
  | 0x2101 => dict2101
  | 0x2102 => dict2102
  | 0x2103 => dict2103
  | 0x2104 => dict2104
  | 0x2110 => dict2110
  | 0x2201 => dict2201
  | 0x2202 => dict2202
  | 0x2203 => dict2203
  | 0x2204 => dict2204
  | 0x2205 => dict2205
  | 0x2210 => dict2210
  | 0x2211 => dict2211
  | 0x2301 => dict2301
  | 0x2310 => dict2310
  | 0x2311 => dict2311
  | 0x2320 => dict2320
  | 0x2401 => dict2401
  | 0x2402 => dict2402
  | 0x2501 => dict2501
  | 0x2502 => dict2502
  | 0x2503 => dict2503
  | 0x2504 => dict2504
  | 0x2510 => dict2510
  | 0x2520 => dict2520
  | 0x2601 => dict2601
  | 0x2602 => dict2602
  | 0x2603 => dict2603
  | 0x2610 => dict2610
  | 0x2701 => dict2701
  | 0x2702 => dict2702
  | 0x2703 => dict2703
  | 0x2710 => dict2710
  | 0x2801 => dict2801
  | 0x2802 => dict2802
  | 0x2803 => dict2803
  | 0x2804 => dict2804
  | 0x2810 => dict2810
  | 0x2811 => dict2811
  | 0x2901 => dict2901
  | 0x2902 => dict2902
  | 0x2910 => dict2910
  | 0x2A01 => dict2A01
  | 0x2A02 => dict2A02
  | 0x2A03 => dict2A03
  | 0x2A04 => dict2A04
  | 0x2B01 => dict2B01
  | 0x2B02 => dict2B02
  | 0x2B03 => dict2B03
  | 0x2B04 => dict2B04
  | 0x2C01 => dict2C01
  | 0x2C02 => dict2C02
  | 0x2D01 => dict2D01
  | 0x2D02 => dict2D02
  | 0x2D03 => dict2D03
  | 0x2D04 => dict2D04
  | _ => []

/-- The row of a key, if the dictionary has it. -/
def dictRow? (key : Nat) : Option DictRow := (dictRowsOf (key / 256)).find? (·.key = key)

/-- The numeric default of an entry. -/
def dictDefault (key : Nat) : Nat := ((dictRow? key).map (·.dflt)).getD 0

/-- The byte-string default of an entry: zero addresses, otherwise empty. -/
def dictDefaultBytes (key : Nat) : Bytes :=
  if key = K.ipv6Address 0 ∨ key = K.ipv6Address 1 then zeros 17
  else if key = K.ipv4Address 0 ∨ key = K.ipv4Address 1 then zeros 5
  else if key = K.ipv6Gateway 0 ∨ key = K.ipv6Gateway 1 then zeros 16
  else if key = K.ipv4Gateway 0 ∨ key = K.ipv4Gateway 1 then zeros 4
  else []

end Sys2Proof.Machine
end

