-- ==== Sys2Proof/Machine/Memory.lean ====
section
/-! DEFINITION. Byte memory in one canonical form: addresses strictly rising, no entry equal to what an unlisted
address reads as, which is 0 (DESIGN CHOICE, log 4). Multi-byte values in it are little-endian (00 R3). -/

namespace Sys2Proof.Machine

/-- The byte at an address; an unlisted address reads 0. -/
def memGet : List Host.Cell → Nat → Byte
  | [], _ => 0
  | (k, v) :: r, a => if a = k then v else if a < k then 0 else memGet r a

/-- Writes one byte, keeping the canonical form. -/
def memPut : List Host.Cell → Nat → Byte → List Host.Cell
  | [], a, b => if b = 0 then [] else [(a, b)]
  | (k, v) :: r, a, b =>
    if a < k then (if b = 0 then (k, v) :: r else (a, b) :: (k, v) :: r)
    else if a = k then (if b = 0 then r else (a, b) :: r)
    else (k, v) :: memPut r a b

/-- Writes bytes at consecutive addresses, the first at `a`. -/
def memWrite (m : List Host.Cell) (a : Nat) : Bytes → List Host.Cell
  | [] => m
  | b :: bs => memWrite (memPut m a b) (a + 1) bs

/-- Reads `n` bytes from consecutive addresses. -/
def memRead (m : List Host.Cell) (a : Nat) : Nat → Bytes
  | 0 => []
  | n + 1 => memGet m a :: memRead m (a + 1) n

/-- The little-endian value of `n` bytes at `a`. -/
def memLE (m : List Host.Cell) (a n : Nat) : Nat := ofLE (memRead m a n)

/-- Every address of `m` lies above `lo`, rising, and no byte is 0. -/
def memAbove (lo : Option Nat) : List Host.Cell → Bool
  | [] => true
  | (k, v) :: r => (match lo with | none => true | some l => decide (l < k)) && v != 0 && memAbove (some k) r

/-- The canonical form holds. -/
def Memory.wf (m : List Host.Cell) : Bool := memAbove none m

/-- Drops every listed byte of a range, which then reads 0. -/
def memClear (m : List Host.Cell) (lo hi : Nat) : List Host.Cell := m.filter fun c => c.1 < lo || hi ≤ c.1

/-- The value that a sparse map in canonical form holds for a key. -/
def mapGet {α : Type} : List (Nat × α) → Nat → Option α
  | [], _ => none
  | (k, v) :: r, a => if a = k then some v else if a < k then none else mapGet r a

/-- Sets or removes a key's value, keeping keys strictly rising. -/
def mapPut {α : Type} : List (Nat × α) → Nat → Option α → List (Nat × α)
  | [], a, some v => [(a, v)]
  | [], _, none => []
  | (k, w) :: r, a, x =>
    if a < k then (match x with | some v => (a, v) :: (k, w) :: r | none => (k, w) :: r)
    else if a = k then (match x with | some v => (a, v) :: r | none => r)
    else (k, w) :: mapPut r a x

end Sys2Proof.Machine
end

