-- ==== Sys2Proof/Machine/State.lean ====
section
/-! DEFINITION. The state of the block: everything the manual gives the part, the queue of waiting commands, and the
model's own fields (time, outputs, free-value counter). -/

namespace Sys2Proof.Machine

/-- Why a run stops with a fault. No command of this model faults: every access and every operand has an effect the
manual gives. -/
inductive Fault where
  /-- raised by no command; kept so that the type has a name to give (safe) -/
  | none_
  deriving DecidableEq, Repr

/-- Why a command is refused. -/
inductive Refusal where
  /-- raised by Dispatch for a command without a meaning (safe: it stops where the part goes on) -/
  | notModelled (mnemonic : String)
  deriving DecidableEq, Repr

/-- The whole machine. -/
structure State where
  /-- drive time in ns: the latest time any command carried (the model's own) -/
  now : Nat := 0
  /-- the commands that wait, first in, first out (the model's own) -/
  pending : List Instr := []
  /-- what has left the part, oldest first (the model's own) -/
  out : List Out := []
  /-- local SRAM, site DRAM window, mailbox rings and core system memory, in canonical form -/
  mem : List Host.Cell := []
  mode : ModeSt := {}
  clk : Clk := {}
  eth : Eth := {}
  shelf : Shelf := {}
  dict : DictSt := {}
  evs : Recorder := {}
  site : Site := {}
  dma : Vector DmaCh 16 := Vector.replicate 16 {}
  fw : Fw := {}
  sec : Sec := {}
  net : Net := {}
  kv : Kv := {}
  shank : Shank := {}
  idx : Index := {}
  awl : Awl := {}
  welt : Welt := {}
  media : Media := {}
  /-- W1C bits set by hardware in the present cycle (00 R7) -/
  sets : HwSets := {}
  /-- free values drawn so far (the model's own) -/
  free : Nat := 0
  deriving DecidableEq, Repr

/-- The part right after POR_N with VSTBY present: DORMANT, Heel's oscillators starting (R378, R386). -/
def State.reset : State :=
  { clk := { srcs := #v[{}, { st := .starting }, {}, { st := .starting }, {}, {}, {}], rtcInvalid := true }, shelf := { bootOwed := true } }

end Sys2Proof.Machine
end

