-- ==== Sys2Proof/Machine/Ops.lean ====
section
/-! DEFINITION. Shared operations: time, outputs, free values, dictionary values, memory, power domains. -/

namespace Sys2Proof.Machine

/-- Nanoseconds in a millisecond. -/
abbrev nsMs : Nat := 1000000
/-- Nanoseconds in a second. -/
abbrev nsSec : Nat := 1000000000

/-- The command's time passes (DESIGN CHOICE, log 1): drive time never runs back. -/
def State.advance (s : State) (t : Nat) : State := { s with now := max s.now t }

/-- Work that kept the drive from being idle has ended: the time that an idle drive spends counts from now (13 R372). -/
def State.stirred (s : State) : State := { s with mode := { s.mode with idleSince := s.now } }

/-- PTP time in ns (02 R25, 11 R336). -/
def State.ptp (s : State) : Nat := ((s.now : Int) + s.eth.ptp.delta).toNat

/-- Hardware sets bits of a W1C register (00 R7). -/
def State.hwSet (s : State) (reg mask : Nat) : State :=
  let l := if s.sets.at_ = s.now then s.sets.bits else []
  { s with sets := { at_ := s.now, bits := if l.contains (reg, mask) then l else l ++ [(reg, mask)] } }

/-- What a write of 1s to a register clears: not the bits that hardware sets in the same cycle, which commands of one time share
(00 R7; DEDUCED, log 111). -/
def State.clears (s : State) (reg v : Nat) : Nat :=
  if s.sets.at_ = s.now then s.sets.bits.foldl (fun v x => if x.1 = reg then v - (v &&& x.2) else v) v else v

/-- Something leaves the part. -/
def State.emit (s : State) (o : Out) : State := { s with out := s.out ++ [o] }

/-- `n` random bytes (10 R295): a free value. -/
def State.random (s : State) (n : Nat) : Bytes × State :=
  ((List.range n).map fun i => Config.randomByte (s.sec.drawn + i), { s with sec := { s.sec with drawn := s.sec.drawn + n } })

/-- The next free value. -/
def State.drawFree (s : State) : Nat × State := (Config.freeNat s.free, { s with free := s.free + 1 })

/-- A dictionary entry's number; its default while it has none of its own. -/
def State.num (s : State) (k : Nat) : Nat :=
  match mapGet s.dict.vals k with
  | some (.num n) => n
  | _ => dictDefault k

/-- A BOOLEAN entry. -/
def State.flag (s : State) (k : Nat) : Bool := s.num k != 0

/-- A string or DOMAIN entry's bytes. -/
def State.str (s : State) (k : Nat) : Bytes :=
  match mapGet s.dict.vals k with
  | some (.bytes b) => b
  | _ => dictDefaultBytes k

/-- A value is its entry's default, which the canonical form does not list. -/
def isDefault (k : Nat) : DVal → Bool
  | .num n => n == dictDefault k
  | .bytes b => b == dictDefaultBytes k

/-- The map entry for a value: nothing where it is the default. -/
def dictCell (k : Nat) (v : DVal) : Option DVal := if isDefault k v then none else some v

/-- Sets an entry's value. -/
def State.setVal (s : State) (k : Nat) (v : DVal) : State :=
  { s with dict := { s.dict with vals := mapPut s.dict.vals k (dictCell k v) } }

/-- Sets an entry's number. -/
def State.setNum (s : State) (k n : Nat) : State := s.setVal k (.num n)

/-- Sets an entry's bytes. -/
def State.setStr (s : State) (k : Nat) (b : Bytes) : State := s.setVal k (.bytes b)

/-- A SYS value that the part itself keeps: in effect and in the settings store together (DEDUCED, log 9). -/
def State.setSys (s : State) (k : Nat) (v : DVal) : State :=
  { s with dict := { s.dict with vals := mapPut s.dict.vals k (dictCell k v), stored := mapPut s.dict.stored k (dictCell k v),
                                 copy := mapPut s.dict.copy k (dictCell k v) } }

/-- The largest UNSIGNED64: counters stop there and do not wrap. -/
abbrev u64Max : Nat := 2 ^ 64 - 1

/-- Adds to a counter entry. -/
def State.addTo (s : State) (k n : Nat) : State := s.setNum k (min u64Max (s.num k + n))

/-- Counts one. -/
def State.bump (s : State) (k : Nat) : State := s.addTo k 1

/-- Counts in an entry of kind SYS. -/
def State.bumpSys (s : State) (k : Nat) : State := s.setSys k (.num (min u64Max (s.num k + 1)))

/-- The persistence kind of a key. -/
def persistOf (k : Nat) : Persist := ((dictRow? k).map (·.persist)).getD .vol

/-- The state of a power domain. -/
def State.dom (s : State) (d : Dom) : DomState := s.clk.doms.getD d.idx .off

/-- A domain is ON. -/
def State.domOn (s : State) (d : Dom) : Bool := s.dom d == .on

/-- Puts a domain in a state. -/
def State.setDom (s : State) (d : Dom) (x : DomState) : State :=
  { s with clk := { s.clk with doms := s.clk.doms.setIfInBounds d.idx x } }

/-- A port by its identifier. -/
def State.port (s : State) : PortId → Port
  | .a => s.eth.portA
  | .b => s.eth.portB

/-- Replaces a port. -/
def State.setPort (s : State) (p : PortId) (x : Port) : State :=
  match p with
  | .a => { s with eth := { s.eth with portA := x } }
  | .b => { s with eth := { s.eth with portB := x } }

/-- Replaces the PTP part. -/
def State.setPtp (s : State) (x : Ptp) : State := { s with eth := { s.eth with ptp := x } }

/-- The part is in SERVE or LULL. -/
def State.serving (s : State) : Bool := s.mode.mode.serving

/-- A hold-up flush runs (R252). -/
def State.inFlush (s : State) : Bool := match s.mode.phase with | .flushing _ => true | _ => false

/-- The operating mode is `m` and no transition runs. -/
def State.settled (s : State) (m : Mode) : Bool := s.mode.mode == m && s.mode.phase == .idle

/-- The execution pause of a live activation runs (15 R433, R435). -/
def State.paused (s : State) : Bool := s.fw.act.phase == .pausing

/-- Life-cycle state from the thermometer: 0 BLANK, 1 PROVISIONED, 2 DEPLOYED, 3 RETURN, 4 RETIRED (15 R442). -/
def State.life (s : State) : Nat :=
  let b := s.fw.otp.life
  if bitAt b 3 then 4 else if bitAt b 2 then 3 else if bitAt b 1 then 2 else if bitAt b 0 then 1 else 0

/-- Size of the site DRAM window in bytes (R402). -/
def State.siteDramSize (s : State) : Nat := s.site.dramMiB * 2 ^ 20

/-- Every command ends in a next state. -/
abbrev done (s : State) : Host.Outcome State Fault Refusal := .next s

end Sys2Proof.Machine
end

