-- ==== Sys2Proof/Machine/Events.lean ====
section
/-! DEFINITION. Making event records and emergencies: numbering, rate limits, ring, Heel, and the EMCY queue
(14 R417 to R421, 12 R360, R361). -/

namespace Sys2Proof.Machine

/-- The 32 bytes of an event record as stored (Table 14.10). -/
def EvRec.bytes (r : EvRec) : Bytes :=
  leBytes 8 (r.seq.getD 0) ++ leBytes 4 r.secs ++ leBytes 4 r.cycle ++ leBytes 2 r.code ++ leBytes 1 r.flags ++
    leBytes 1 r.suppressed ++ padTo r.detail 12

/-- The codes of the manual's event tables, ascending, without those that site firmware posts. -/
def partCodes : List Nat :=
  [0x0101, 0x0102, 0x0103, 0x0104, 0x0105, 0x0106, 0x0107, 0x0108, 0x0201, 0x0202, 0x0203, 0x0204, 0x0205, 0x0206,
   0x0301, 0x0302, 0x0303, 0x0304, 0x0401, 0x0402, 0x0501, 0x0502, 0x0503, 0x0504, 0x0505, 0x0601, 0x0602, 0x0603,
   0x0604, 0x0605, 0x0606, 0x0701, 0x0702, 0x0703, 0x0704, 0x0705, 0x0706, 0x0707, 0x0708, 0x0709, 0x070A, 0x070B,
   0x070C] ++
  [0x0801, 0x0802, 0x0803, 0x0804, 0x0805, 0x0806, 0x0807, 0x0808, 0x0809, 0x080A, 0x080B, 0x080C, 0x080D, 0x080E,
   0x080F, 0x0810, 0x0811, 0x0812, 0x0813, 0x0814, 0x0815, 0x0901, 0x0902, 0x0903, 0x0904, 0x0905, 0x0906, 0x0907,
   0x0A01, 0x0A02, 0x0A03, 0x0A04, 0x0A05, 0x0A06, 0x0A07, 0x0A08, 0x0A09, 0x0A0A, 0x0A0B, 0x0B01, 0x0B02, 0x0B03,
   0x0B04, 0x0B05, 0x0B80, 0x0B81, 0x0C01, 0x0C02, 0x0C03, 0x0C04, 0x0C05]

/-- Every code the part can record, ascending (R421). -/
def catalogue : List Nat := partCodes ++ (List.range 255).map (0x0D01 + ·)

/-- Burst and PerMinute of a code before EventRateLimit changes them (Table 14.11). -/
def rateDefault (code : Nat) : Nat × Nat :=
  if code ∈ [0x0101, 0x0104, 0x0107, 0x0812, 0x0813, 0x0903, 0x0904, 0x0B05, 0x0B80] then (0, 60)
  else if code ∈ [0x0301, 0x0302] then (64, 600)
  else if code ∈ [0x0601, 0x0602] then (8, 6)
  else if code ∈ [0x0B01, 0x0B03] then (4, 1)
  else (16, 60)

/-- Burst and PerMinute in effect. -/
def State.rate (s : State) (code : Nat) : Nat × Nat :=
  match s.evs.limits.find? (·.code == code) with
  | some l => (l.burst, l.perMinute)
  | none => rateDefault code

/-- One token in a bucket's units: PerMinute of these units return each nanosecond. -/
abbrev tokenUnit : Nat := 60000000000

/-- The code's bucket with the tokens returned up to now; full where none has been touched since MUSTER. -/
def State.bucket (s : State) (code : Nat) : Bucket :=
  let r := s.rate code
  match s.evs.buckets.find? (·.code == code) with
  | some b => { b with credit := min (r.1 * tokenUnit) (b.credit + r.2 * (s.now - b.at_)), at_ := s.now }
  | none => { code := code, credit := r.1 * tokenUnit, at_ := s.now, dropped := 0 }

/-- Replaces a code's bucket. -/
def State.setBucket (s : State) (b : Bucket) : State :=
  { s with evs := { s.evs with buckets := b :: s.evs.buckets.filter (·.code != b.code) } }

/-- The bucket of `code` has a token, or no limit applies (R420). -/
def State.hasToken (s : State) (code : Nat) : Bool :=
  (s.rate code).1 == 0 || decide (tokenUnit ≤ (s.bucket code).credit)

/-- Packs detail fields, each of the width given, little-endian in order (R417). -/
def packDetail : List (Nat × Nat) → Bytes
  | [] => []
  | (w, v) :: r => leBytes w v ++ packDetail r

/-- The 12-byte pieces of a detail, at most four, at least one, the last padded with zeros (R417). -/
def detailPieces (d : Bytes) : List Bytes :=
  let n := min 4 (max 1 (ceilDiv d.length 12))
  (List.range n).map fun i => padTo (sliceBytes d (12 * i) 12) 12

/-- OperatingSeconds now: it counts while PD_CORE is powered. -/
def State.operatingSeconds (s : State) : Nat :=
  if s.mode.mode.powered then s.evs.secsBase + (s.now - s.evs.secsAt) / nsSec else s.evs.secsBase

/-- Where a finished record goes: Heel while PD_CORE is off, else the ring and the places of R419. -/
def State.fileRecord (s : State) (r : EvRec) : State :=
  let e := s.evs
  if !s.mode.mode.powered then
    if e.heel.length < 64 then { s with evs := { e with heel := e.heel ++ [{ r with flags := r.flags ||| 1 }] } }
    else { s with evs := { e with lostHeel := e.lostHeel + 1 } }
  else if !e.numbered then
    if e.ring.length < 2048 then ({ s with evs := { e with ring := e.ring ++ [r], new := true } } : State).hwSet 0x40030014 0x40
    else ({ s with evs := { e with lostRing := e.lostRing + 1 } } : State).bump K.eventsLost
  else
    let seq := e.nextSeq
    let r := { r with seq := some seq }
    let ring := (if e.ring.length < 2048 then e.ring else e.ring.drop 1) ++ [r]
    let e := { e with nextSeq := seq + 1, ring := ring, new := true }
    let s := s.hwSet 0x40030014 0x40
    if s.mode.mode == .lull1 || s.mode.mode == .lull2 then
      { s with evs := { e with heel := if e.heel.length < 64 then e.heel ++ [r] else e.heel } }
    else
      { s with evs := { e with staged := e.staged ++ [r], stagedAt := if e.staged.isEmpty then s.now else e.stagedAt } }

/-- Files the pieces of one record: the first with its code, the rest as continuations. -/
def State.fileAll (s : State) (code flags supp : Nat) : List Bytes → State
  | [] => s
  | d :: rest =>
    let more := if rest.isEmpty then 0 else 4
    let r : EvRec := { seq := none, secs := s.operatingSeconds, cycle := s.sec.powerCycle, code := code,
                       flags := flags ||| more, suppressed := supp, detail := d }
    State.fileAll ((s.fileRecord r).bump K.eventsRecorded) 0 (flags &&& 3) 0 rest

/-- Makes a record under the rate limit of its code; answers its Seq, 0 where none was assigned (R417 to R420). -/
def State.eventSeq (s : State) (code : Nat) (detail : Bytes) (flags : Nat := 0) : State × Nat :=
  let b := s.bucket code
  if s.hasToken code then
    let credit := if (s.rate code).1 = 0 then b.credit else b.credit - tokenUnit
    let s := s.setBucket { b with credit := credit, dropped := 0 }
    let seq := if s.evs.numbered && s.mode.mode.powered then s.evs.nextSeq else 0
    let fl := if b.dropped = 0 then flags else flags ||| 8
    (s.fileAll code fl (min 255 b.dropped) (detailPieces detail), seq)
  else
    ((s.setBucket { b with dropped := b.dropped + 1 }).bump K.eventsSuppressed, 0)

/-- Records an event with the detail fields given as (width, value). -/
def State.event (s : State) (code : Nat) (fields : List (Nat × Nat)) : State :=
  (s.eventSeq code (packDetail fields)).1

/-- The error-register bit of a persistent EMCY condition (Table 12.8). -/
def emcyBit : Nat → Nat
  | 0x3300 => 4 | 0x4200 => 8 | 0x6100 => 128 | 0x6200 => 128 | 0x8100 => 16 | 0x8120 => 16 | 0x9000 => 128
  | 0xFF01 => 16 | 0xFF02 => 128 | _ => 0

/-- ErrorRegister (R361): the bits of every persistent condition that stands, and bit 0 with any other. -/
def State.errorRegister (s : State) : Nat :=
  let b := s.shelf.conds.foldl (fun a c => a ||| emcyBit c) 0
  if b = 0 then 0 else b ||| 1

/-- Queues an EMCY frame; the newest is dropped and counted when 16 wait (R360). -/
def State.emcy (s : State) (code ev seq detail : Nat) : State :=
  if s.shelf.queue.length < 16 then
    let e : Emcy := { code := code, reg := s.errorRegister, mode := s.mode.mode.code, evCode := ev, evSeq := seq, detail := detail }
    { s with shelf := { s.shelf with queue := s.shelf.queue ++ [e] } }
  else s.bump K.emcyDropped

/-- A persistent condition arises. -/
def State.condOn (s : State) (c : Nat) : State :=
  if c ∈ s.shelf.conds then s else { s with shelf := { s.shelf with conds := s.shelf.conds ++ [c] } }

/-- A persistent condition ends; when the register returns to 0, EMCY 0x0000 follows (R360). -/
def State.condOff (s : State) (c : Nat) : State :=
  if c ∈ s.shelf.conds then
    let s' := { s with shelf := { s.shelf with conds := s.shelf.conds.erase c } }
    if s'.errorRegister = 0 then s'.emcy 0 0 0 0 else s'
  else s

/-- An event that is also an EMCY condition: the record first, then the frame that names it. `detail` is the frame's
four bytes (DESIGN CHOICE, log 10: the record's first four detail bytes). -/
def State.eventEmcy (s : State) (code : Nat) (fields : List (Nat × Nat)) (em : Nat) (persistent : Bool) : State :=
  let d := packDetail fields
  let r := s.eventSeq code d
  let s := if persistent then r.1.condOn em else r.1
  s.emcy em code r.2 (ofLE (padTo d 4))

/-- EMCY 0x8100 stands while both links are down in SERVE or LULL (Table 12.8); `ev` and `seq` name the record with it. -/
def State.linkCond (s : State) (ev seq detail : Nat) : State :=
  if s.serving && s.eth.portA.link != .up && s.eth.portB.link != .up then
    if s.shelf.conds.contains 0x8100 then s else (s.condOn 0x8100).emcy 0x8100 ev seq detail
  else s.condOff 0x8100

end Sys2Proof.Machine
end

