-- ==== Sys2Proof/Machine/Kdf.lean ====
section
/-! DEFINITION. The counter-mode KDF of SP 800-108 over AES-CMAC (10 R292) and the RWP v2 key schedule (03 R60). -/

namespace Sys2Proof.Machine

/-- The ASCII bytes of a label. -/
def ascii (x : String) : Bytes := x.toList.map fun c => BitVec.ofNat 8 c.toNat

/-- Block `i` of the KDF (R292). -/
def kdfBlock (k label ctx : Bytes) (len i : Nat) : Bytes :=
  padTo (Config.aesCmac k (beBytes 4 i ++ label ++ [0] ++ ctx ++ beBytes 4 (len * 8))) 16

/-- The KDF (R292): `len` bytes from parent key, label and context. -/
def kdf (k : Bytes) (label : String) (ctx : Bytes) (len : Nat) : Bytes :=
  ((List.range (ceilDiv len 16)).flatMap fun i => kdfBlock k (ascii label) ctx len (i + 1)).take len

/-- XOR of equal-length byte strings, the second cut or padded to the first. -/
def xorBytes (a b : Bytes) : Bytes := List.zipWith (fun x y => x ^^^ y) a (padTo b a.length)

/-- A 16-byte AES-CMAC. -/
def cmac16 (k msg : Bytes) : Bytes := padTo (Config.aesCmac k msg) 16

/-- The context of R60. -/
def rwpCtx (identity z hostNonce driveNonce : Bytes) : Bytes := identity ++ z ++ hostNonce ++ driveNonce

end Sys2Proof.Machine
end

