-- ==== Sys2Proof/Machine/Keys.lean ====
section
/-! DEFINITION. Key slots, namespace keys, the value cipher, the secret table and key zeroisation (10 R292 to R311). -/

namespace Sys2Proof.Machine

/-- The active seed slot: lowest generated and not revoked (R293); 0xFF if none. -/
def activeSeedSlot (l : List SeedSlot) : Nat :=
  match (List.range l.length).find? fun i => match l[i]? with | some (.generated _) => true | _ => false with
  | some i => i
  | none => 255

/-- The seed of the active slot. -/
def activeSeed (l : List SeedSlot) : Option Bytes :=
  l.findSome? fun x => match x with | .generated b => some b | _ => none

/-- Revocation bits (0x2902:02). -/
def revokedBits (l : List SeedSlot) : Nat :=
  (List.range l.length).foldl (fun a i => if l[i]? = some .revoked then a + 2 ^ i else a) 0

/-- device_root (Table 10.1). -/
def State.deviceRoot (s : State) : Option Bytes :=
  s.sec.seed.map fun seed => kdf seed "GRZ device root" (beBytes 4 s.fw.otp.serial) 32

/-- The key of a device slot (Table 10.1). -/
def State.deviceKey (s : State) (label : String) : Option Bytes := s.deviceRoot.map fun r => kdf r label [] 32

/-- The device slots with their names. -/
def deviceSlots : List (Nat × KeyName) :=
  [(0, .deviceRoot), (1, .mediaKey), (2, .secretTableKey), (3, .cursorKey), (4, .horizonKey)]

/-- The secrets of a namespace generation. -/
def State.nsSecret (s : State) (ns gen : Nat) : Option NsSecret :=
  s.sec.secrets.find? fun x => x.ns == ns && x.gen == gen

/-- The context number ‖ generation (R296). -/
def nsCtx (ns gen : Nat) : Bytes := beBytes 2 ns ++ beBytes 4 gen

/-- value_key(member, boot) (Table 10.2). -/
def State.valueKey (s : State) (ns gen member boot : Nat) : Option Bytes :=
  (s.nsSecret ns gen).map fun x => kdf x.secret "GRZ value key" (nsCtx ns gen ++ beBytes 2 member ++ beBytes 4 boot) 32

/-- frag_key (Table 10.2). -/
def State.fragKey (s : State) (ns gen : Nat) : Option Bytes :=
  (s.nsSecret ns gen).map fun x => kdf x.secret "GRZ fragment check" (nsCtx ns gen) 32

/-- The bytes a slot holds, for the keys derived from the table's secrets or the seed. -/
def State.keyBytes (s : State) : KeyName → Bytes
  | .deviceRoot => (s.deviceRoot).getD []
  | .mediaKey => (s.deviceKey "GRZ media record").getD []
  | .secretTableKey => (s.deviceKey "GRZ secret table").getD []
  | .cursorKey => (s.deviceKey "GRZ list cursor").getD []
  | .horizonKey => (s.deviceKey "GRZ counter horizon").getD []
  | .valueKey ns gen m b => (s.valueKey ns gen m b).getD []
  | .fragKey ns gen => (s.fragKey ns gen).getD []

/-- The generation a slot's key belongs to. -/
def KeyName.gen? : KeyName → Option (Nat × Nat)
  | .valueKey ns gen _ _ => some (ns, gen)
  | .fragKey ns gen => some (ns, gen)
  | _ => none

/-- Device slots after a derivation request: DERIVING, or READY where it ended with the step (R294, R308). -/
def State.deviceDerive (s : State) (st : SlotState) : State :=
  let fresh := deviceSlots.map fun p =>
    ({ slot := p.1, st := st, name := p.2, key := s.keyBytes p.2, refs := 0, lastUsed := s.now } : KeySlot)
  { s with sec := { s.sec with slots := fresh ++ s.sec.slots.filter fun x => decide (8 ≤ x.slot) } }

/-- The lowest EMPTY cache slot. -/
def State.emptySlot (s : State) : Option Nat :=
  ((List.range 248).map (· + 8)).find? fun i => !(s.sec.slots.any (·.slot == i))

/-- The least recently used READY cache slot without references (R307). -/
def State.lruSlot (s : State) : Option KeySlot :=
  s.sec.slots.foldl (fun (b : Option KeySlot) x =>
    if decide (8 ≤ x.slot) && x.st == .ready && x.refs == 0 then
      match b with
      | none => some x
      | some y => if x.lastUsed < y.lastUsed then some x else some y
    else b) none

/-- An operation uses a namespace key: a hit refreshes its slot; a miss takes an EMPTY slot or the least recently used
one, and requests the derivation (R307, R308). -/
def State.useKey (s : State) (k : KeyName) : State :=
  match s.sec.slots.find? (·.name == k) with
  | some x =>
    { s with sec := { s.sec with slots := s.sec.slots.map fun y => if y.slot = x.slot then { y with lastUsed := s.now } else y } }
  | none =>
    let put (s : State) (i : Nat) : State :=
      let x : KeySlot := { slot := i, st := .deriving_, name := k, key := s.keyBytes k, refs := 0, lastUsed := s.now }
      { s with sec := { s.sec with slots := s.sec.slots.filter (·.slot != i) ++ [x] } }
    match s.emptySlot with
    | some i => put s i
    | none =>
      match s.lruSlot with
      | some y => (put s y.slot).bump K.keySlotEvictions
      | none => s

/-- Every slot of a generation is zeroised: no operation holds a reference between steps (R305, R308). -/
def State.retireGen (s : State) (ns gen : Nat) : State :=
  { s with sec := { s.sec with slots := s.sec.slots.filter fun x => x.name.gen? != some (ns, gen) } }

/-- The nonce of a value (R297). -/
def valueNonce (i : StripeId) : Bytes := zeros 4 ++ beBytes 8 i.serial

/-- The additional data of a value (R297). -/
def valueAad (i : StripeId) (ns gen len : Nat) (key : Bytes) : Bytes :=
  i.bytes ++ beBytes 2 ns ++ beBytes 4 gen ++ beBytes 8 len ++ key

/-- AES-256-CTR of GCM from a byte offset: encrypts and decrypts. -/
def valueCrypt (key : Bytes) (i : StripeId) (off : Nat) (bs : Bytes) : Bytes :=
  xorBytes bs (Config.aesKeystream key (valueNonce i) off bs.length)

/-- ValueTag of a ciphertext (R297). -/
def valueTag (key : Bytes) (i : StripeId) (ns gen : Nat) (k cipher : Bytes) : Bytes :=
  padTo (Config.gcmTag key (valueNonce i) (valueAad i ns gen cipher.length k) cipher) 16

/-- Little-endian bytes of a list of fields, width and value. -/
def leFields (l : List (Nat × Nat)) : Bytes := l.flatMap fun x => leBytes x.1 x.2

/-- A PSK entry of the secret table: Kind 0x01, Length 112 (Table 10.3). -/
def Psk.entry (x : Psk) : Bytes :=
  leFields [(1, 1), (1, 0), (2, 112), (2, x.policy), (1, x.identity.length), (1, 0)] ++ padTo x.identity 64 ++ padTo x.psk 32 ++ zeros 8

/-- A NAMESPACE entry: Kind 0x02, Length 64 (Table 10.3). -/
def NsSecret.entry (x : NsSecret) : Bytes :=
  leFields [(1, 2), (1, 0), (2, 64), (2, x.ns), (2, 0), (4, x.gen)] ++ padTo x.hashKey 16 ++ padTo x.secret 32 ++ zeros 4

/-- The bytes of a copy as programmed: bytes 0 to 31 in the clear, the entries sealed under secret_table_key, and the tag (R303). -/
def State.tableBytes (s : State) (c : TableCopy) : Bytes :=
  let body := c.psks.flatMap Psk.entry ++ c.secrets.flatMap NsSecret.entry
  let head := leFields [(1, 1), (3, 0), (4, c.psks.length + c.secrets.length), (8, c.seq), (8, c.counter), (4, body.length), (4, 0)]
  let key := s.keyBytes .secretTableKey
  let nonce := beBytes 4 s.fw.otp.noncePrefix ++ beBytes 8 c.counter
  let cipher := xorBytes body (Config.aesKeystream key nonce 0 body.length)
  head ++ cipher ++ padTo (Config.gcmTag key nonce head cipher) 16

/-- A new copy of the secret table goes to the anchor area (R303): TableSeq rises and the copy's nonce takes a counter
value. -/
def State.tableCopy (s : State) : State :=
  let c : TableCopy := { seq := s.sec.tableSeq + 1, counter := s.sec.counter, psks := s.sec.psks, secrets := s.sec.secrets }
  { s with sec := { s.sec with tableSeq := s.sec.tableSeq + 1, counter := s.sec.counter + 1, copies := s.sec.copies ++ [c] } }

/-- The copy of greatest TableSeq whose tag holds is loaded, where its key can be derived (R303). -/
def State.loadTable (s : State) : State :=
  let good := s.sec.copies.filter fun c => !s.media.board.tableBad.contains c.seq
  match (activeSeed s.fw.otp.seeds), good.getLast? with
  | some _, some c => { s with sec := { s.sec with psks := c.psks, secrets := c.secrets } }
  | _, _ => { s with sec := { s.sec with psks := [], secrets := [] } }

/-- A secret is removed or replaced: a copy without it, then the anchor switch; a removal during a switch waits for the
copy written after it (R304). -/
def State.eraseSecret (s : State) (e : ErasedSecret) : State :=
  if s.sec.erasing.isEmpty then ({ s with sec := { s.sec with erasing := [e] } } : State).tableCopy
  else { s with sec := { s.sec with eraseNext := s.sec.eraseNext ++ [e] } }

/-- A namespace generation's keys and secrets are destroyed (R305). -/
def State.cryptoErase (s : State) (ns gen : Nat) : State :=
  let s := s.retireGen ns gen
  if s.sec.secrets.any (fun x => x.ns == ns && x.gen == gen) then
    let s := { s with sec := { s.sec with secrets := s.sec.secrets.filter fun x => !(x.ns == ns && x.gen == gen) } }
    s.eraseSecret { kind := 2, ns := ns, gen := gen, idLen := 0, since := s.now }
  else s

/-- Every slot and every session key zeroised, with the ECDH state and the DRAM key (R309, R310, R311). -/
def State.zeroiseAll (s : State) : State :=
  { s with sec := { s.sec with slots := [], dramKey := false },
           net := { s.net with hellos := [], sessions := s.net.sessions.map fun x => { x with h2dKey := [], h2dIv := [], d2hKey := [], d2hIv := [] } } }

/-- The random-bit generator supplies bits (R295). -/
def State.rngOk (s : State) : Bool := !s.sec.rngFailed

/-- SipHash rotation on 64-bit words. -/
def rotl64 (x : BitVec 64) (n : Nat) : BitVec 64 := x.rotateLeft n

/-- The four words of SipHash. -/
structure Sip where
  v0 : BitVec 64
  v1 : BitVec 64
  v2 : BitVec 64
  v3 : BitVec 64

/-- One SipRound. -/
def Sip.round (v : Sip) : Sip :=
  let v0 := v.v0 + v.v1
  let v1 := rotl64 v.v1 13 ^^^ v0
  let v0 := rotl64 v0 32
  let v2 := v.v2 + v.v3
  let v3 := rotl64 v.v3 16 ^^^ v2
  let v0 := v0 + v3
  let v3 := rotl64 v3 21 ^^^ v0
  let v2 := v2 + v1
  let v1 := rotl64 v1 17 ^^^ v2
  let v2 := rotl64 v2 32
  ⟨v0, v1, v2, v3⟩

/-- Takes in one message word with two rounds. -/
def Sip.word (v : Sip) (m : BitVec 64) : Sip :=
  let w := ({ v with v3 := v.v3 ^^^ m } : Sip).round.round
  { w with v0 := w.v0 ^^^ m }

/-- The message words of SipHash: full little-endian words, then the last with the length in its top byte. -/
def sipWords (b : Bytes) : List (BitVec 64) :=
  (List.range (b.length / 8)).map (fun i => BitVec.ofNat 64 (leAt b (8 * i) 8)) ++
    [BitVec.ofNat 64 (ofLE (b.drop (b.length / 8 * 8)) + b.length % 256 * 2 ^ 56)]

/-- SipHash-2-4 with a 128-bit key (02 R30, Table 2.2). -/
def sipHash (key b : Bytes) : Nat :=
  let k0 := BitVec.ofNat 64 (leAt key 0 8)
  let k1 := BitVec.ofNat 64 (leAt key 8 8)
  let v : Sip := ⟨k0 ^^^ 0x736f6d6570736575#64, k1 ^^^ 0x646f72616e646f6d#64, k0 ^^^ 0x6c7967656e657261#64, k1 ^^^ 0x7465646279746573#64⟩
  let v := (sipWords b).foldl Sip.word v
  let v := ({ v with v2 := v.v2 ^^^ 0xFF#64 } : Sip).round.round.round.round
  (v.v0 ^^^ v.v1 ^^^ v.v2 ^^^ v.v3).toNat

/-- The key hash h of a key in a namespace generation: SipHash-2-4 under its HashKey (06 R167). -/
def State.keyHash (s : State) (ns gen : Nat) (key : Bytes) : Nat :=
  match s.nsSecret ns gen with
  | some x => sipHash x.hashKey key
  | none => 0

end Sys2Proof.Machine
end

