-- ==== Sys2Proof/Machine/Awl.lean ====
section
/-! DEFINITION. Awl: partitions, searches, verify-after-match, the policy table, and the site operations (06 R175 to R193). -/

namespace Sys2Proof.Machine

/-- A key opcode (Table 4.1). -/
def keyOp (op : Nat) : Bool := decide (op ∈ [0x01, 0x02, 0x03, 0x10, 0x11, 0x12, 0x13])

/-- The partitions of R176, by their code in the bank map. -/
abbrev partHot : Nat := 0
/-- POLICY. -/
abbrev partPolicy : Nat := 1
/-- SITE. -/
abbrev partSite : Nat := 2

/-- The banks that a map gives a partition, ascending (R176). -/
def mapBanks (map p : Nat) : List Nat := (List.range 16).filter fun b => fieldAt map (2 * b) 2 == p

/-- Rows of a partition under a map. -/
def mapRows (map p : Nat) : Nat := 4096 * (mapBanks map p).length

/-- Rows of a partition under the map in effect. -/
def State.awlRows (s : State) (p : Nat) : Nat := mapRows s.awl.map p

/-- The global address of a local one (R176). -/
def State.awlGlobal (s : State) (p a : Nat) : Nat := (mapBanks s.awl.map p).getD (a / 4096) 0 * 4096 + a % 4096

/-- The partition of a global address. -/
def State.awlPart (s : State) (g : Nat) : Nat := fieldAt s.awl.map (2 * (g / 4096)) 2

/-- The local address of a global one. -/
def State.awlLocal (s : State) (g : Nat) : Nat :=
  (mapBanks s.awl.map (s.awlPart g)).findIdx (· == g / 4096) * 4096 + g % 4096

/-- The row at a global address, if it has been written since the last MUSTER. -/
def State.awlRow? (s : State) (g : Nat) : Option AwlRow := s.awl.rows.find? (·.addr == g)

/-- The row is VALID. -/
def State.awlValid (s : State) (g : Nat) : Bool := ((s.awlRow? g).map (·.valid)).getD false

/-- Puts a row into a list kept in rising address order. -/
def putRow (r : AwlRow) : List AwlRow → List AwlRow
  | [] => [r]
  | x :: l => if r.addr < x.addr then r :: x :: l else if x.addr = r.addr then r :: l else x :: putRow r l

/-- Replaces a row. -/
def State.setRow (s : State) (r : AwlRow) : State := { s with awl := { s.awl with rows := putRow r s.awl.rows } }

/-- Clears VALID of a row. -/
def State.rowInvalidate (s : State) (g : Nat) : State :=
  match s.awlRow? g with
  | some r => s.setRow { r with valid := false }
  | none => s

/-- INVALIDATE, WRITE and VALIDATE of a row (R180). -/
def State.rowWrite (s : State) (g : Nat) (e : AwlEntry) : State := s.setRow { addr := g, valid := true, entry := e }

/-- An entry matches a search key (R177). -/
def AwlEntry.matchKey (e : AwlEntry) (key : Nat) : Bool := (key ^^^ e.key) &&& e.mask == 0

/-- A row compares as matching; a soft error inverts the comparison of the rows it names. -/
def AwlRow.compares (r : AwlRow) (f : AwlFacts) (key : Nat) : Bool := (r.valid && r.entry.matchKey key) != f.flipped.contains r.addr

/-- The winner's copy confirms the hit (R182). -/
def AwlRow.verifies (r : AwlRow) (f : AwlFacts) (key : Nat) : Bool := r.valid && r.entry.matchKey key && !f.copyBad.contains r.addr

/-- The better of two rows: lowest PRIO, then lowest address (R177). -/
def betterRow (x y : AwlRow) : AwlRow :=
  if y.entry.prio < x.entry.prio ∨ (y.entry.prio = x.entry.prio ∧ y.addr < x.addr) then y else x

/-- The rows that compare as matching in a partition, one excepted. -/
def State.awlMatches (s : State) (p : Nat) (f : AwlFacts) (key : Nat) (but : Option Nat) : List AwlRow :=
  s.awl.rows.filter fun r => s.awlPart r.addr == p && r.compares f key && but != some r.addr

/-- The winner among rows. -/
def winner : List AwlRow → Option AwlRow
  | [] => none
  | r :: l => some (l.foldl betterRow r)

/-- What a search answers. -/
structure AwlHit where
  row : Option AwlRow
  multi : Bool
  retried : Bool

/-- The index entry that a hot row caches no longer has a hot entry (Table 6.2). -/
def State.coolSlot (s : State) (g : Nat) : State :=
  match s.awlRow? g with
  | some r =>
    if r.valid then
      let cool (c : Nat × IdxEntry) : Nat × IdxEntry := if c.1 = r.entry.data / 2 ^ 32 then (c.1, { c.2 with hot := false }) else c
      { s with idx := { s.idx with cells := s.idx.cells.map cool } }
    else s
  | none => s

/-- A row whose DRAM shadow is unreadable (R183): a hot or site row is invalidated, a policy row is loaded again from
the stored table. -/
def State.shadowLost (s : State) (g : Nat) : State :=
  let p := s.awlPart g
  let l := s.awlLocal g
  if p = partPolicy then
    let s := match mapGet s.awl.policy l with
      | some e => s.rowWrite g e
      | none => s.rowInvalidate g
    s.event 0x0605 [(4, p), (2, l), (4, Config.eventCode 0x0605 2)]
  else
    let s := if p = partHot then s.coolSlot g else s
    let s := s.rowInvalidate g
    let s := if p = partSite then ({ s with awl := { s.awl with shadowLost := true } } : State).hwSet 0x40020008 0x80 else s
    s.event 0x0605 [(4, p), (2, l), (4, Config.eventCode 0x0605 1)]

/-- A winner's copy is read: a single-bit error in it is corrected and counted (R182). -/
def State.readCopy (s : State) (w : AwlRow) (f : AwlFacts) : State :=
  if f.copyFixed.contains w.addr then { s with awl := { s.awl with copyFixed := s.awl.copyFixed + 1 } } else s

/-- The repeated search reads the copy of the row that it found. -/
def State.readAgain (s : State) (o : Option AwlRow) (f : AwlFacts) : State := match o with | some x => s.readCopy x f | none => s

/-- One search of a partition with verify-after-match (R177, R178, R182). The repeated search is part of it: AwlSearches counts it
once, and a second false hit is a miss and nothing else (DESIGN CHOICE, log 108). -/
def State.awlSearch (s : State) (p key : Nat) (f : AwlFacts) : State × AwlHit :=
  let s := s.bump K.awlSearches
  let m := s.awlMatches p f key none
  match winner m with
  | none => (s, { row := none, multi := false, retried := false })
  | some w =>
    let s := s.readCopy w f
    if w.verifies f key then (s, { row := some w, multi := decide (1 < m.length), retried := false })
    else
      let m2 := s.awlMatches p f key (some w.addr)
      let again := winner m2
      let good := match again with | some x => x.verifies f key | none => true
      let s := s.readAgain again f
      let s := (s.bump K.awlVerifyFail).event 0x0601 [(4, p), (2, s.awlLocal w.addr), (4, bit (!good))]
      let s := if p = partSite then { s with awl := { s.awl with vfail := min 0xFFFF (s.awl.vfail + 1) } } else s
      let s := if f.shadowOk then s else s.shadowLost w.addr
      (s, { row := if good then again else none, multi := good && decide (1 < m2.length), retried := true })

/-- Key bytes 0 to n-1 as an integer, missing bytes zero, byte 0 most significant. -/
def keyPrefix (key : Bytes) (n : Nat) : Nat := ofBE (padTo key n)

/-- The policy search key (Table 6.4). -/
def policyKey (policyId opcode ns : Nat) (v1 : Bool) (port : PortId) (key : Bytes) : Nat :=
  policyId * 2 ^ 240 + opcode * 2 ^ 232 + ns % 4096 * 2 ^ 220 + bit v1 * 2 ^ 217 + port.code * 2 ^ 216 + keyPrefix key 24 * 2 ^ 24

/-- The hot search key (Table 6.6). -/
def hotKey (inst h h2 : Nat) (key : Bytes) : Nat :=
  inst * 2 ^ 243 + (key.length - 1) % 2048 * 2 ^ 232 + h * 2 ^ 168 + h2 * 2 ^ 104 + keyPrefix key 13

/-- An entry whose MASK is all ones. -/
abbrev maskAll : Nat := 2 ^ 256 - 1

/-- DATA of a hot entry: length, TOMBSTONE, slot address (R187). -/
def hotData (len : Nat) (tomb : Bool) (slot : Nat) : Nat := len % 2 ^ 31 + bit tomb * 2 ^ 31 + slot * 2 ^ 32

/-- The hot row that names an index slot. -/
def State.hotOfSlot (s : State) (slot : Nat) : Option AwlRow :=
  s.awl.rows.find? fun r => r.valid && s.awlPart r.addr == partHot && r.entry.data / 2 ^ 32 == slot

/-- Sets the reference bit of a hot row (R189). -/
def State.refHot (s : State) (g : Nat) : State :=
  let l := s.awlLocal g
  { s with awl := { s.awl with refs := if s.awl.refs.contains l then s.awl.refs else l :: s.awl.refs } }

/-- A hot entry follows its index entry's kind, length or slot (R190). -/
def State.hotMove (s : State) (slot newSlot len : Nat) (tomb : Bool) : State :=
  match s.hotOfSlot slot with
  | some r => s.rowWrite r.addr { r.entry with data := hotData len tomb newSlot }
  | none => s

/-- The clock hand: the first row at or after the hand whose reference bit is clear, clearing the bits it passes (R189). -/
def State.hotVictim : Nat → State → State × Nat
  | 0, s => (s, s.awl.hand)
  | fuel + 1, s =>
    let h := s.awl.hand
    let next := if h + 1 < s.awlRows partHot then h + 1 else 0
    let s' := { s with awl := { s.awl with hand := next, refs := s.awl.refs.filter (· != h) } }
    if s.awl.refs.contains h then State.hotVictim fuel s' else (s', h)

/-- The smaller of the POLICY partition in effect and the one that the accepted map will give (R176, R186). -/
def State.policyLimit (s : State) : Nat := min (s.awlRows partPolicy) (mapRows (s.num K.awlBankMap) partPolicy)

/-- Loads the stored policy table into the policy partition (R186). -/
def State.loadPolicy (s : State) : State :=
  let rest := s.awl.rows.filter fun r => s.awlPart r.addr != partPolicy
  let s := { s with awl := { s.awl with rows := rest } }
  s.awl.policy.foldl (fun s x => s.rowWrite (s.awlGlobal partPolicy x.1) x.2) s

/-- The row of an 80-byte AwlPolicyEntry (Table 6.5): operation, address and entry. -/
def policyEntry (b : Bytes) : Nat × Nat × AwlEntry :=
  (beAt b 0 1, beAt b 2 2, { key := beAt b 8 32, mask := beAt b 40 32, prio := beAt b 4 2, data := beAt b 72 8 })

/-- The reserved fields of an AwlPolicyEntry are zero (R186). -/
def policyReservedOk (b : Bytes) : Bool :=
  beAt b 1 1 == 0 && beAt b 6 2 == 0 && decide (beAt b 4 2 < 4096) && decide (beAt b 72 8 < 16)

/-- The lowest free local row at or above `a` and below `lim`. -/
def freeRow (t : List (Nat × AwlEntry)) (a lim : Nat) : Option Nat :=
  (List.range (lim - a)).findSome? fun i => if (mapGet t (a + i)).isNone then some (a + i) else none

/-- The table after an INSERT at `a` whose nearest free row is `f` (R181, R186). -/
def insertRow (t : List (Nat × AwlEntry)) (a f : Nat) (e : AwlEntry) : List (Nat × AwlEntry) :=
  mapPut (t.map fun x => if a ≤ x.1 ∧ x.1 < f then (x.1 + 1, x.2) else x) a (some e)

/-- The table after a COMPACT: groups of H - 1 entries, one free row after each (R186). -/
def compactRows (t : List (Nat × AwlEntry)) (h : Nat) : List (Nat × AwlEntry) :=
  (List.range t.length).zipWith (fun j x => (j + j / (h - 1), x.2)) t

/-- Rows that a COMPACT needs. -/
def compactNeed (n h : Nat) : Nat := n + n / (h - 1)

/-- The stored policy table after a write of AwlPolicyEntry, none where R186 refuses it. -/
def State.policyAfter (s : State) (b : Bytes) : Option (List (Nat × AwlEntry)) :=
  let (op, a, e) := policyEntry b
  let t := s.awl.policy
  let lim := s.policyLimit
  let h := s.num K.policyHoleInterval
  if !policyReservedOk b then none
  else match op with
    | 0 => if a < lim then some (mapPut t a (some e)) else none
    | 1 => if a < lim then some (mapPut t a none) else none
    | 2 => if lim ≤ a then none
      else match freeRow t a lim with
        | some f => some (insertRow t a f e)
        | none => none
    | 3 => if a = 0 ∧ allZero (b.drop 4) = true ∧ compactNeed t.length h ≤ lim then some (compactRows t h) else none
    | _ => none

/-- A policy table takes effect (R186). -/
def State.setPolicy (s : State) (t : List (Nat × AwlEntry)) : State :=
  ({ s with awl := { s.awl with policy := t } } : State).loadPolicy

/-- A value for AwlBankMap is accepted (R176). -/
def State.bankMapOk (s : State) (v : Nat) : Bool :=
  (List.range 16).all (fun b => fieldAt v (2 * b) 2 != 3) && decide (0 < mapRows v partPolicy) && decide (0 < mapRows v partHot) &&
    s.awl.policy.all fun x => decide (x.1 < mapRows v partPolicy)

/-- AwlPolicyReadback of a local row (R186). -/
def State.policyReadback (s : State) (a : Nat) : Option Bytes :=
  if a < s.awlRows partPolicy then
    match mapGet s.awl.policy a with
    | some e => some ([0, 0] ++ beBytes 2 a ++ beBytes 2 e.prio ++ [0, 0] ++ beBytes 32 e.key ++ beBytes 32 e.mask ++ beBytes 8 e.data)
    | none => some ([1, 0] ++ beBytes 2 a ++ zeros 76)
  else none

/-- What the policy check answers (R185): passes, or the deny reason of Table 4.8 with ClassCap. -/
inductive PolicyVerdict where
  | pass
  | deny (reason classCap : Nat)
  deriving DecidableEq, Repr

/-- The policy check of a command (R184, R185); deny reasons are those of Table 4.8. -/
def State.policyCheck (s : State) (policyId opcode ns cls : Nat) (v1 peer : Bool) (port : PortId) (key : Bytes)
    (f : AwlFacts) : State × PolicyVerdict :=
  let (s, hit) := s.awlSearch partPolicy (policyKey policyId opcode ns v1 port key) f
  let v : PolicyVerdict := match hit.row with
    | none => .deny 1 3
    | some r =>
      let cap := fieldAt r.entry.data 1 2
      if !bitAt r.entry.data 0 then .deny 1 cap
      else if peer && !bitAt r.entry.data 3 then .deny 4 0
      else if cls < cap then .deny 2 cap
      else .pass
  (s, v)

/-- Scrub period in ns, at 1.5 GHz (R183). -/
def State.scrubPeriod (s : State) : Nat := ceilDiv (2 * s.num K.awlScrubIntervalCclk) 3

/-- The fields in which a found row differs from its shadow: bits KEY, MASK, PRIO, DATA, VALID. -/
def rowDiff (f : Bool × AwlEntry) (r : AwlRow) : Nat :=
  bit (f.2.key != r.entry.key) + 2 * bit (f.2.mask != r.entry.mask) + 4 * bit (f.2.prio != r.entry.prio) +
    8 * bit (f.2.data != r.entry.data) + 16 * bit (f.1 != r.valid)

/-- The part's blocks of PD_KV are powered. -/
def State.kvUp (s : State) : Bool := s.domOn .kv

/-- AWL_SCRUB_TICK: scrubs one row. `found` is what the row itself holds where it differs from its shadow (R183). -/
def execAwlScrubTick (t : Nat) (found : Option (Bool × AwlEntry)) (shadowOk : Bool) (s : State) : Host.Outcome State Fault Refusal :=
  let s := s.advance t
  let g := s.awl.scrubAt
  done (if s.kvUp && decide (s.awl.lastScrub + s.scrubPeriod ≤ s.now) then
      let s := { s with awl := { s.awl with scrubAt := (g + 1) % 65536, lastScrub := s.now } }
      if !shadowOk then s.shadowLost g
      else match found with
        | none => s
        | some f =>
          let r := (s.awlRow? g).getD { addr := g, valid := false, entry := ⟨0, 0, 0, 0⟩ }
          let d := rowDiff f r
          if d = 0 then s
          else (s.bump K.awlScrubCorrected).event 0x0602 [(4, s.awlPart g), (2, s.awlLocal g), (4, d)]
    else s)

/-- The site registers at a time: an operation that has ended by then shows DONE, and ERR with its code where it failed (R191). -/
def Awl.at_ (a : Awl) (now : Nat) : Awl :=
  match a.pend with
  | some c => if a.busyUntil ≤ now then { a with pend := none, done := true, err := a.err || c != 0, errCode := if c = 0 then a.errCode else c } else a
  | none => a

/-- The operation that has ended, if one has, is taken into the registers. -/
def State.awlSettle (s : State) : State := { s with awl := s.awl.at_ s.now }

/-- Bits of AWL_SITE_STATUS that an operation ending in this very cycle sets (00 R7). -/
def State.awlEnds (s : State) : Nat :=
  match s.awl.pend with
  | some c => if s.awl.busyUntil = s.now then (if c = 0 then 2 else 6) else 0
  | none => 0

/-- STATUS.BUSY: an operation is running (Table 6.10). -/
def State.awlBusy (s : State) : Bool := s.awl.pend.isSome && decide (s.now < s.awl.busyUntil)

/-- A write of AWL_SITE_CMD is refused with a code: DONE and ERR together (R192). -/
def State.siteErr (s : State) (code : Nat) : State :=
  ({ s with awl := { s.awl with done := true, err := true, errCode := code } } : State).hwSet 0x40020008 6

/-- A site operation starts: ignored with BUSY while an earlier one runs (R192); otherwise `f` answers its effect and its error code,
0 for none, and it ends `took` CCLK cycles from now, or `cclk`, its bound, if that is sooner. How soon within its bound an operation
ends is the part's own. Its effect stands from its start (DESIGN CHOICE, log 109); DONE, ERR and their code show from its end. -/
def State.siteOp (s : State) (took : Nat) (cclk : State → Nat) (f : State → State × Nat) : State :=
  if !s.kvUp then s
  else if s.awlBusy then s.siteErr 5
  else
    let r := f s.awlSettle
    { r.1 with awl := { r.1.awl with busyUntil := s.now + ceilDiv (2 * min took (cclk r.1)) 3, pend := some r.2 } }

/-- A local site address lies in the partition. -/
def State.siteRowOk (s : State) (a : Nat) : Bool := decide (a < s.awlRows partSite)

/-- AWL_SITE_READ: loads row ROW into the staging registers (Table 6.9). -/
def execAwlSiteRead (t : Nat) (took : Nat) (s : State) : Host.Outcome State Fault Refusal :=
  let s := s.advance t
  done (s.siteOp took (fun _ => 16) fun s =>
    if !s.siteRowOk s.awl.row then (s, 2)
    else
      let r := (s.awlRow? (s.awlGlobal partSite s.awl.row)).getD { addr := 0, valid := false, entry := ⟨0, 0, 0, 0⟩ }
      ({ s with awl := { s.awl with key := r.entry.key, mask := r.entry.mask, prio := r.entry.prio, data := r.entry.data,
                                    valid := r.valid } }, 0))

/-- The entry that the staging registers hold. -/
def Awl.staged (a : Awl) : AwlEntry := { key := a.key, mask := a.mask, prio := a.prio % 4096, data := a.data }

/-- AWL_SITE_WRITE: writes the staging registers into an invalid row (Table 6.9, R192). -/
def execAwlSiteWrite (t : Nat) (took : Nat) (shadowOk : Bool) (s : State) : Host.Outcome State Fault Refusal :=
  let s := s.advance t
  done (s.siteOp took (fun _ => 24) fun s =>
    let g := s.awlGlobal partSite s.awl.row
    if !s.siteRowOk s.awl.row then (s, 2)
    else if s.awlValid g then (s, 3)
    else if !shadowOk then (s, 7)
    else (s.setRow { addr := g, valid := false, entry := s.awl.staged }, 0))

/-- AWL_SITE_VALIDATE: a row not written since the last MUSTER is ROW_INVALID, and one whose shadow write fails is left invalid
(R192). -/
def execAwlSiteValidate (t : Nat) (took : Nat) (shadowOk : Bool) (s : State) : Host.Outcome State Fault Refusal :=
  let s := s.advance t
  done (s.siteOp took (fun _ => 8) fun s =>
    if !s.siteRowOk s.awl.row then (s, 2)
    else match s.awlRow? (s.awlGlobal partSite s.awl.row) with
      | none => (s, 4)
      | some r => if shadowOk then (s.setRow { r with valid := true }, 0) else (s.rowInvalidate r.addr, 7))

/-- AWL_SITE_INVALIDATE; a failed shadow write leaves the row invalid too (R192). -/
def execAwlSiteInvalidate (t : Nat) (turn : SiteTurn) (s : State) : Host.Outcome State Fault Refusal :=
  let s := s.advance t
  done (s.siteOp turn.took (fun _ => 8) fun s =>
    if s.siteRowOk s.awl.row then (s.rowInvalidate (s.awlGlobal partSite s.awl.row), if turn.shadowOk then 0 else 7) else (s, 2))

/-- AWL_SITE_SEARCH with SKEY0 to SKEY7 (Tables 6.9, 6.10). -/
def execAwlSiteSearch (t : Nat) (took : Nat) (facts : AwlFacts) (s : State) : Host.Outcome State Fault Refusal :=
  let s := s.advance t
  done (s.siteOp took (fun s => if s.awl.retried then 120 else 60) fun s =>
    let (s, h) := s.awlSearch partSite s.awl.skey facts
    let s := { s with awl := { s.awl with hit := h.row.isSome, multi := h.multi, retried := h.retried } }
    match h.row with
    | some r => ({ s with awl := { s.awl with result := s.awlLocal r.addr, rdata := r.entry.data } }, 0)
    | none => (s, 0))

/-- AWL_SITE_MOVE from ROW to DEST (R181, R192). -/
def execAwlSiteMove (t : Nat) (took : Nat) (shadowOk : Bool) (s : State) : Host.Outcome State Fault Refusal :=
  let s := s.advance t
  done (s.siteOp took (fun _ => 48) fun s =>
    let a := s.awlGlobal partSite s.awl.row
    let b := s.awlGlobal partSite s.awl.dest
    if !s.siteRowOk s.awl.row || !s.siteRowOk s.awl.dest then (s, 2)
    else match s.awlRow? a with
      | some r =>
        if !r.valid then (s, 4)
        else if s.awlValid b then (s, 3)
        else if !shadowOk then (s, 7)
        else ((s.rowWrite b r.entry).rowInvalidate a, 0)
      | none => (s, 4))

/-- AWL_SITE_FIND_HOLE: the first invalid row at or above ROW (Table 6.9). -/
def execAwlSiteFindHole (t : Nat) (took : Nat) (s : State) : Host.Outcome State Fault Refusal :=
  let s := s.advance t
  done (s.siteOp took (fun _ => 272) fun s =>
    if !s.siteRowOk s.awl.row then (s, 2)
    else
      let n := s.awlRows partSite - s.awl.row
      match (List.range n).find? fun i => !s.awlValid (s.awlGlobal partSite (s.awl.row + i)) with
      | some i => ({ s with awl := { s.awl with result := s.awl.row + i } }, 0)
      | none => (s, 6))

/-- AWL_SITE_VFAIL_READ: the register clears when read (Table 6.7). -/
def execAwlSiteVfailRead (t : Nat) (s : State) : Host.Outcome State Fault Refusal :=
  let s := s.advance t
  done (if s.kvUp then { s with awl := { s.awl with vfail := 0 } } else s)

end Sys2Proof.Machine
end

