-- ==== Sys2Proof/Machine/Clock.lean ====
section
/-! DEFINITION. Source monitoring, PLL references, clock gates and the frequency counter (13 R385 to R388, R393, R394). -/

namespace Sys2Proof.Machine

/-- Sets bits of CPC_IRQ_STATUS: 1 MODE_CHG, 2 DOMAIN_CHG, 4 CLOCK_CHG (R395). -/
def State.cpcIrq (s : State) (bits : Word32) : State :=
  ({ s with clk := { s.clk with irqStatus := s.clk.irqStatus ||| bits } } : State).hwSet 0x40040010 bits.toNat

/-- The address of FMC_STATUS (Table 13.10). -/
abbrev fmcStatusAt : Nat := 0x4005000C

/-- Sessions are gone without a CLOSE, with everything that hangs on them (R311, R371). -/
def State.dropSessions (s : State) : State :=
  { s with net := { s.net with sessions := [], hellos := [], held := [] }, kv := { s.kv with cmds := [], cache := [], superseded := [] },
           dict := { s.dict with sels := s.dict.sels.filter fun x => match x.client with | .rwp _ => false | _ => true },
           shank := { s.shank with books := [], actPending := false } }

/-- What a domain held that Table 1.2 does not let it keep is lost when it goes off (R17). PD_CORE, PD_SEC and PD_MEDIA go off only on the way
to DORMANT, or with nothing in them (LULL-2); the ports are dropped where theirs go. -/
def State.loseDom (s : State) : Dom → State
  | .kv =>
    let s := s.dropSessions
    { s with awl := { policy := s.awl.policy }, eth := { s.eth with capture := [] },
             shank := { rho := s.num K.ldpcRetryFloorPermille, lifeEnded := s.shank.lifeEnded, lifeBroken := s.shank.lifeBroken } }
  | .dram =>
    let recs := s.media.recs.filter (·.units.isEmpty)
    { s with idx := { insts := s.idx.insts }, media := { s.media with recs := recs, moves := [], raw := [], granted := 0, grantCap := none },
             sec := { s.sec with dramKey := false }, kv := { s.kv with cache := [] }, mem := memClear s.mem 0x80000000 0xC0000000 }
  | .welt => { s with welt := { s.welt with msgs := [], repairs := [], gathers := [], rebuildWin := 0, rebuildBytes := 0, rebalanceBytes := 0 } }
  | _ => s

/-- A domain changes state; one that goes off loses what it held. -/
def State.domTo (s : State) (d : Dom) (x : DomState) : State :=
  if s.dom d = x then s
  else
    let s := (s.setDom d x).cpcIrq 2
    if x = .off then s.loseDom d else s

/-- A source's monitor state. -/
def State.src (s : State) (x : Source) : Src := s.clk.srcs.getD x.idx {}

/-- Replaces a source's monitor state. -/
def State.setSrc (s : State) (x : Source) (v : Src) : State :=
  { s with clk := { s.clk with srcs := s.clk.srcs.setIfInBounds x.idx v } }

/-- A PLL's state. -/
def State.pll (s : State) (p : Pll) : PllSt := s.clk.plls.getD p.idx {}

/-- Replaces a PLL's state. -/
def State.setPll (s : State) (p : Pll) (v : PllSt) : State :=
  { s with clk := { s.clk with plls := s.clk.plls.setIfInBounds p.idx v } }

/-- The source is HEALTHY. -/
def State.healthy (s : State) (x : Source) : Bool := (s.src x).st == .healthy

/-- The recovered clock of a port. -/
def recOf : PortId → Source
  | .a => .recA
  | .b => .recB

/-- NPLL's order (R388). Without a slave port, port A's recovered clock comes first (DEDUCED, log 20). -/
def State.npllOrder (s : State) : List Source :=
  match s.num K.npllRefSelect with
  | 0 =>
    let p := (s.eth.ptp.slave).getD .a
    [recOf p, recOf p.other, .ethRefclk, .xtal25]
  | 1 => [.ethRefclk]
  | 2 => [.xtal25]
  | 3 => [.recA]
  | _ => [.recB]

/-- A PLL's reference order (R388). -/
def State.pllOrder (s : State) : Pll → List Source
  | .npll => s.npllOrder
  | _ => [.xtal25, .fso]

/-- The code of a reference in event 0x0C02: the source's position in CPC_CLOCKS, 0xFF for none. -/
def refCode : Option Source → Nat
  | some x => x.idx
  | none => 255

/-- A PLL whose reference is DEAD or withdrawn holds over and moves to the first HEALTHY source of its order; without one
it stays in holdover (R388). -/
def State.pllSwitch (s : State) (p : Pll) : State :=
  let v := s.pll p
  match (s.pllOrder p).find? s.healthy with
  | some x =>
    if v.ref = some x ∧ v.holdover = false then s
    else (s.setPll p { v with ref := some x, holdover := false }).event 0x0C02 [(4, p.idx), (4, refCode v.ref), (4, x.idx)]
  | none =>
    if v.holdover then s
    else (s.setPll p { v with holdover := true }).event 0x0C02 [(4, p.idx), (4, refCode v.ref), (4, refCode v.ref)]

/-- Every started PLL whose reference is not HEALTHY changes its reference. -/
def State.pllsFollow (s : State) : State :=
  [Pll.cpll, .npll, .mpll, .fpll].foldl (fun s p =>
    match (s.pll p).ref with
    | some x => if s.healthy x && !(s.pll p).holdover then s else s.pllSwitch p
    | none => s) s

/-- The source that SRC of FMC_CTRL names, among the monitored ones (Table 13.11). -/
def fmcSrc : Nat → Option Source
  | 0 => some .xtal25 | 1 => some .xtal32k | 2 => some .fso | 3 => some .wosc
  | 4 => some .recA | 5 => some .recB | 6 => some .ethRefclk | _ => none

/-- The reference that REF names. -/
def fmcRef : Nat → Option Source
  | 0 => some .xtal25 | 1 => some .fso | 2 => some .xtal32k | _ => none

/-- SRC of the counter. -/
def Fmc.src (f : Fmc) : Nat := fieldAt f.ctrl.toNat 0 4
/-- REF of the counter. -/
def Fmc.ref (f : Fmc) : Nat := fieldAt f.ctrl.toNat 4 2

/-- Replaces counter 1. -/
def State.setFmc (s : State) (f : Fmc) : State := { s with clk := { s.clk with fmc := f } }

/-- A source changes state: event 0x0C01, and on entry to DEAD the count, EMCY 0x5030 and SRC_DEAD (R387, R394). -/
def State.srcTo (s : State) (x : Source) (new : SrcState) (count : Nat) : State :=
  let v := s.src x
  if v.st = new then s
  else
    let s := (s.setSrc x { v with st := new, bad := 0, good := 0, edges := 0, lastCount := count }).cpcIrq 4
    let d := [(4, x.idx), (4, v.st.code), (4, new.code), (4, count)]
    if new = .dead then
      let s := (s.bump K.sourceDeadEvents).eventEmcy 0x0C01 d 0x5030 false
      let s := if s.clk.fmc.busy && fmcSrc s.clk.fmc.src == some x then (s.setFmc { s.clk.fmc with srcDead := true }).hwSet fmcStatusAt 8 else s
      let s := if x = .xtal32k ∧ s.mode.mode = .dormant then { s with clk := { s.clk with rtcInvalid := true } } else s
      s.pllsFollow
    else (s.event 0x0C01 d).pllsFollow

/-- A thousand times the nominal edges in one window of 1,024 FSO cycles; FSO itself over 1,024 XTAL25 cycles (R387). -/
def Source.nominal : Source → Nat
  | .xtal25 => 256000 | .xtal32k => 336 | .fso => 4096000 | .wosc => 409600
  | .recA => 256000 | .recB => 256000 | .ethRefclk => 1600000

/-- A window's count lies within five percent of nominal. XTAL32K gives a third of an edge in a window, so 0 and 1 are
within (DEDUCED, log 21). -/
def Source.within (x : Source) (count : Nat) : Bool :=
  match x with
  | .xtal32k => decide (count ≤ 1)
  | _ => decide (95 * x.nominal ≤ 100000 * count ∧ 100000 * count ≤ 105 * x.nominal)

/-- Edges after which an oscillator is stable (Table 13.7). -/
def Source.startCount : Source → Nat
  | .xtal25 => 65536 | .xtal32k => 16384 | .fso => 1000 | .wosc => 1200 | _ => 1

/-- One monitor window of a source: its count, and whether 64 consecutive reference cycles gave no edge (R387). -/
def State.monitor (s : State) (x : Source) (count : Nat) (gap : Bool) : State :=
  let v := s.src x
  match v.st with
  | .off => s
  | .starting =>
    let e := v.edges + count
    if x.startCount ≤ e ∧ x.within count = true then s.srcTo x .healthy count
    else s.setSrc x { v with edges := e, lastCount := count }
  | .healthy =>
    if gap then s.srcTo x .dead count
    else if x.within count then s.setSrc x { v with bad := 0, good := v.good + 1, lastCount := count }
    else if v.bad = 1 then s.srcTo x .dead count
    else s.setSrc x { v with bad := 1, good := 0, lastCount := count }
  | .dead =>
    if gap || !x.within count then s.setSrc x { v with good := 0, lastCount := count }
    else if v.good + 1 = 16 then s.srcTo x .healthy count
    else s.setSrc x { v with good := v.good + 1, lastCount := count }

/-- Position of a source in a list, its length where absent. -/
def rankIn (l : List Source) (x : Source) : Nat := l.findIdx (· == x)

/-- NPLL goes back to a higher-ranked source that has been HEALTHY for 16 windows (R388). -/
def State.npllReturn (s : State) : State :=
  let v := s.pll .npll
  match v.ref with
  | none => s
  | some r =>
    let o := s.npllOrder
    match o.find? fun x => s.healthy x && decide (16 ≤ (s.src x).good) with
    | some x =>
      if rankIn o x < rankIn o r then
        (s.setPll .npll { v with ref := some x, holdover := false }).event 0x0C02 [(4, 1), (4, r.idx), (4, x.idx)]
      else s
    | none => s

/-- The controller's registers and blocks are reachable: PD_CORE is ON. -/
def State.coreUp (s : State) : Bool := s.domOn .core

/-- A block's gate. -/
def State.gate (s : State) (b : Nat) : Gate := (s.clk.gates.find? (·.blk == b)).getD { blk := b }

/-- Replaces a block's gate; an open gate with nothing pending is not listed. -/
def State.setGate (s : State) (g : Gate) : State :=
  let rest := s.clk.gates.filter (·.blk != g.blk)
  { s with clk := { s.clk with gates := if g.closed || g.pending.isSome then rest ++ [g] else rest } }

/-- GATE_IDLE_CLOSE: the block has been idle for 256 network cycles. The gate closes once its port has no outstanding
transaction; until then the request is deferred (R393). -/
def execGateIdleClose (t blk outstanding : Nat) (s : State) : Host.Outcome State Fault Refusal :=
  let s := s.advance t
  let g := s.gate blk
  done (if !s.coreUp || g.closed then s
    else if outstanding = 0 then s.setGate { g with closed := true, pending := none, outstanding := 0 }
    else s.setGate { g with pending := some (g.pending.getD s.now), outstanding := outstanding })

/-- 1,024 network cycles at CCLK/2, in ns. -/
abbrev gateDeferNs : Nat := 1366

/-- GATE_DEFERRAL_TIMEOUT: a request deferred for 1,024 network cycles is abandoned and the gate stays open (R393). -/
def execGateDeferralTimeout (t blk : Nat) (s : State) : Host.Outcome State Fault Refusal :=
  let s := s.advance t
  let g := s.gate blk
  done (match g.pending with
    | some since =>
      if since + gateDeferNs ≤ s.now then
        ((s.setGate { g with pending := none, outstanding := 0 }).bump K.gateDeferralsAbandoned).event 0x0C04 [(4, blk), (4, g.outstanding)]
      else s
    | none => s)

/-- GATE_REOPEN: an access to a gated block reopens its gate, and then proceeds (R393). -/
def execGateReopen (t blk : Nat) (s : State) : Host.Outcome State Fault Refusal :=
  let s := s.advance t
  done (if (s.gate blk).closed then s.setGate { s.gate blk with closed := false } else s)

/-- START is refused: WINDOW 0, a reserved SRC or REF, or a reference that is not HEALTHY (R394, Table 13.11). -/
def State.fmcRefused (s : State) : Bool :=
  let f := s.clk.fmc
  f.window == 0 || decide (12 ≤ f.src) || (match fmcRef f.ref with | some r => !s.healthy r | none => true)

/-- FMC_START: a write of START (R394). -/
def execFmcStart (t : Nat) (s : State) : Host.Outcome State Fault Refusal :=
  let s := s.advance t
  let f := s.clk.fmc
  let dead := match fmcSrc f.src with | some x => (s.src x).st == .dead | none => false
  done (if !s.coreUp || f.busy then s
    else if s.fmcRefused then (s.setFmc { f with done := true, err := true }).hwSet fmcStatusAt 6
    else
      let s := s.setFmc { f with busy := true, count := 0, srcDead := f.srcDead || dead }
      if dead then s.hwSet fmcStatusAt 8 else s)

/-- FMC_STOP: ends a measurement early with the edges counted so far (R394). -/
def execFmcStop (t count : Nat) (s : State) : Host.Outcome State Fault Refusal :=
  let s := s.advance t
  done (if s.coreUp && s.clk.fmc.busy then
      (s.setFmc { s.clk.fmc with busy := false, done := true, count := count % 2 ^ 48 }).hwSet fmcStatusAt 2
    else s)

/-- FMC_WINDOW_END: WINDOW reference cycles have passed (R394). -/
def execFmcWindowEnd (t count : Nat) (s : State) : Host.Outcome State Fault Refusal :=
  let s := s.advance t
  done (if s.coreUp && s.clk.fmc.busy then
      (s.setFmc { s.clk.fmc with busy := false, done := true, count := count % 2 ^ 48 }).hwSet fmcStatusAt 2
    else s)

end Sys2Proof.Machine
end

