-- ==== Sys2Proof/Machine/Index.lean ====
section
/-! DEFINITION. Last: hashes, instances, the DRAM index and its resolution (06 R161 to R174, R187 to R190, R478). -/

namespace Sys2Proof.Machine

/-- h of a key (R161). -/
def keyH (sec : NsSecret) (key : Bytes) : Nat := sipHash sec.hashKey key

/-- h2 of a key: every byte of the hash key XORed with 0x5C (R161). -/
def keyH2 (sec : NsSecret) (key : Bytes) : Nat := sipHash (sec.hashKey.map fun b => b ^^^ 0x5C) key

/-- Both hashes under a namespace generation. -/
def State.hashes (s : State) (ns gen : Nat) (key : Bytes) : Nat × Nat :=
  match s.nsSecret ns gen with
  | some x => (keyH x key, keyH2 x key)
  | none => (0, 0)

/-- Object capacity (Table 6.1). -/
def State.objCapacity (s : State) : Nat := if s.idx.n = 0 then 0 else 2 ^ (s.idx.n + 2)

/-- Overflow ceiling in buckets (Table 6.1). -/
def State.ovfCeiling (s : State) : Nat := 2 ^ (s.idx.n - 2)

/-- The reserve of R170. -/
abbrev ovfReserve : Nat := 4096

/-- Index bytes that a purge pass reads (R478). -/
def State.indexBytes (s : State) : Nat := 64 * 2 ^ s.idx.n + 64 * s.idx.overflow.length

/-- The instance slot of a namespace generation, while LIVE. -/
def State.instOf (s : State) (ns gen : Nat) : Option Nat :=
  (s.idx.insts.find? fun i => i.st == .live && i.ns == ns && i.gen == gen).map (·.slot)

/-- The lowest FREE instance slot (R163). -/
def State.freeInst (s : State) : Option Nat :=
  (List.range 8192).find? fun i => !(s.idx.insts.any (·.slot == i))

/-- A slot becomes LIVE for a namespace generation; without a FREE slot nothing changes (R163, R164). -/
def State.takeInst (s : State) (ns gen : Nat) : State :=
  if (s.instOf ns gen).isSome then s
  else match s.freeInst with
    | some i => { s with idx := { s.idx with insts := s.idx.insts ++ [{ slot := i, st := .live, ns := ns, gen := gen }] },
                         kv := { s.kv with nss := s.kv.nss.map fun x => if x.number = ns ∧ x.gen = gen then { x with inst := some i } else x } }
    | none => s

/-- A purge pass starts over every slot that is PURGING, if there is one and no pass runs (R478). -/
def State.startPass (s : State) : State :=
  match s.idx.passEnd with
  | some _ => s
  | none =>
    let p := (s.idx.insts.filter (·.st == .purging)).map (·.slot)
    if p.isEmpty then s
    else { s with idx := { s.idx with passEnd := some (s.now + s.indexBytes), passSet := p } }

/-- The slot of an ended generation becomes PURGING (R163). -/
def State.purgeInst (s : State) (ns gen : Nat) : State :=
  ({ s with idx := { s.idx with insts := s.idx.insts.map fun i =>
    if i.ns = ns ∧ i.gen = gen then { i with st := .purging } else i } } : State).startPass

/-- RetryAfterUs while no slot is FREE (R164): the end of the running pass if it purges a slot, else of the next one. -/
def State.instRetryUs (s : State) : Nat :=
  match s.idx.passEnd with
  | some e => ceilDiv ((if s.idx.passSet.isEmpty then e + s.indexBytes else e) - s.now) 1000
  | none => ceilDiv s.indexBytes 1000

/-- The fingerprint of a hash (Table 6.2). -/
def fingerprint (h : Nat) : Nat := if h % 2 ^ 32 = 0 then 1 else h % 2 ^ 32

/-- delta of R167. -/
def idxDelta (fp n : Nat) : Nat := let d := fp * 0x5BD1E995 % 2 ^ 32 % 2 ^ n; if d = 0 then 1 else d

/-- b1 of R167. -/
def bucket1 (h n : Nat) : Nat := h / 2 ^ (64 - n)

/-- The other candidate bucket (R167). -/
def otherBucket (b fp n : Nat) : Nat := b ^^^ idxDelta fp n

/-- The slot address of slot `i` of a bucket: region 0 the main table, 1 the overflow region (R187). -/
def slotAddr (region b i : Nat) : Nat := region * 2 ^ 31 + b * 4 + i

/-- The entry in a slot. -/
def State.cell (s : State) (a : Nat) : Option IdxEntry := mapGet s.idx.cells a

/-- Writes or empties a slot. -/
def State.setCell (s : State) (a : Nat) (e : Option IdxEntry) : State :=
  { s with idx := { s.idx with cells := mapPut s.idx.cells a e } }

/-- A LINK entry (R166). -/
def linkTo (v : Nat) : IdxEntry := { fp := 1, kind := .link, inst := 0, hot := false, loc := v, len := 0, buf := false }

/-- KIND of an entry (Table 6.2). -/
def IdxKind.code : IdxKind → Nat
  | .object => 1 | .tombstone => 2 | .link => 3

/-- Location of an entry: the record address of its commit record, or the overflow bucket it links to (Table 6.2, log 45). -/
def IdxEntry.location (e : IdxEntry) : Nat := if e.kind = .link then e.loc % 2 ^ 27 else e.loc / 4096 % 2 ^ 40

/-- The 16 bytes of an index entry in DRAM (R166). -/
def IdxEntry.bytes (e : IdxEntry) : Bytes :=
  leBytes 4 e.fp ++ leBytes 2 (e.kind.code + 4 * (e.inst % 8192) + 32768 * bit e.hot) ++ leBytes 5 e.location ++
    leBytes 4 (e.len % 2 ^ 31 + 2 ^ 31 * bit e.buf) ++ [0]

/-- The 16 bytes of a slot: zeros where it is empty (R166). -/
def State.idxSlotBytes (s : State) (a : Nat) : Bytes := match s.cell a with | some e => e.bytes | none => zeros 16

/-- The overflow bucket that slot 3 of a bucket links to. -/
def State.linkAt (s : State) (region b : Nat) : Option Nat :=
  match s.cell (slotAddr region b 3) with
  | some e => if e.kind = .link then some e.loc else none
  | none => none

/-- The overflow buckets of a bucket's chain, in order. -/
def State.chainFrom : Nat → State → Nat → Nat → List Nat
  | 0, _, _, _ => []
  | fuel + 1, s, region, b =>
    match s.linkAt region b with
    | some v => v :: State.chainFrom fuel s 1 v
    | none => []

/-- A bucket with its chain, as (region, bucket). -/
def State.chain (s : State) (b : Nat) : List (Nat × Nat) :=
  (0, b) :: (State.chainFrom (s.idx.overflow.length + 1) s 0 b).map fun v => (1, v)

/-- Slot addresses of a bucket and its chain, in order. -/
def State.chainSlots (s : State) (b : Nat) : List Nat :=
  (s.chain b).flatMap fun x => [0, 1, 2, 3].map fun i => slotAddr x.1 x.2 i

/-- The lowest empty slot of a bucket and its chain. -/
def State.emptyIn (s : State) (b : Nat) : Option Nat := (s.chainSlots b).find? fun a => (s.cell a).isNone

/-- The candidates of a key: OBJECT and TOMBSTONE entries with its fingerprint and instance, b1's chain first (R168). -/
def State.candidates (s : State) (h inst : Nat) : List (Nat × IdxEntry) :=
  let fp := fingerprint h
  let b1 := bucket1 h s.idx.n
  (s.chainSlots b1 ++ s.chainSlots (otherBucket b1 fp s.idx.n)).filterMap fun a =>
    match s.cell a with
    | some e => if e.kind != .link && e.fp == fp && e.inst == inst then some (a, e) else none
    | none => none

/-- A record by its address. -/
def State.recAt (s : State) (a : Nat) : Option MediaRec := s.media.recs.find? (·.addr == a)

/-- The commit record at an address. -/
def State.commitAt (s : State) (a : Nat) : Option CommitRec :=
  match s.recAt a with
  | some r => match r.body with | .commit c => some c | _ => none
  | none => none

/-- The commit record found at a Location: of those that begin in the codeword it names and bear the Namespace, Generation and
KeyHash sought, the one with the greatest Version (08 R245). -/
def State.findAt (s : State) (loc inst h : Nat) : Option CommitRec :=
  s.media.recs.foldl (fun (b : Option CommitRec) r =>
    match r.body with
    | .commit c =>
      if r.addr / 4096 = loc / 4096 ∧ c.hash = h ∧ s.instOf c.ns c.gen = some inst then
        match b with
        | some d => if d.version ≤ c.version then some c else some d
        | none => some c
      else b
    | _ => b) none

/-- What a key resolves to: the slot, its entry and its commit record. -/
structure Resolved where
  slot : Nat
  entry : IdxEntry
  rec_ : CommitRec
  deriving DecidableEq, Repr

/-- The first candidate whose commit record holds the key, and the candidates that failed before it (R168). -/
def State.confirm (s : State) (h : Nat) (key : Bytes) : List (Nat × IdxEntry) → Option Resolved × Nat
  | [] => (none, 0)
  | (a, e) :: l =>
    match s.findAt e.loc e.inst h with
    | some c => if c.key = key then (some ⟨a, e, c⟩, 0) else let r := s.confirm h key l; (r.1, r.2 + 1)
    | none => let r := s.confirm h key l; (r.1, r.2 + 1)

/-- An entry keeps or changes its HOT bit. -/
def State.setHot (s : State) (slot : Nat) (hot : Bool) : State :=
  match s.cell slot with
  | some e => s.setCell slot (some { e with hot := hot })
  | none => s

/-- Inserts a hot entry for a resolved key over the clock hand's victim (R189). -/
def State.promote (s : State) (r : Resolved) (h h2 : Nat) : State :=
  let n := s.awlRows partHot
  let (s, l) := State.hotVictim (2 * n + 1) s
  let g := s.awlGlobal partHot l
  let s := match s.awlRow? g with
    | some old =>
      if old.valid then ((s.rowInvalidate g).setHot (old.entry.data / 2 ^ 32) false).bump K.hotEvictions else s
    | none => s
  let e : AwlEntry := { key := hotKey r.entry.inst h h2 r.rec_.key, mask := maskAll, prio := 0,
                        data := hotData r.entry.len (r.entry.kind == .tombstone) r.slot }
  (s.rowWrite g e).setHot r.slot true

/-- A hot entry with this search key exists: no second one is inserted (R188). -/
def State.hotKeyHeld (s : State) (key : Nat) : Bool :=
  s.awl.rows.any fun r => r.valid && s.awlPart r.addr == partHot && r.entry.key == key

/-- Counts a resolution through the DRAM index and promotes the key where its counter reaches HotPromoteHits (R189). -/
def State.countResolve (s : State) (h2 h : Nat) (r : Option Resolved) : State :=
  let i := h2 % 65536
  let c := min 15 ((mapGet s.awl.promo i).getD 0 + 1)
  let s := { s with awl := { s.awl with promo := mapPut s.awl.promo i (some c) } }
  match r with
  | some r => if s.num K.hotPromoteHits ≤ c ∧ r.entry.hot = false ∧ s.hotKeyHeld (hotKey r.entry.inst h h2 r.rec_.key) = false then s.promote r h h2 else s
  | none => s

/-- The hot search that every key command makes as soon as its key is parsed (R188). -/
def State.hotSearch (s : State) (inst h h2 : Nat) (key : Bytes) (f : AwlFacts) : State × Option Nat :=
  let (s, hit) := s.awlSearch partHot (hotKey inst h h2 key) f
  match hit.row with
  | some r => ((s.refHot r.addr).bump K.awlHotHits, some (r.entry.data / 2 ^ 32))
  | none => (s.bump K.awlHotMisses, none)

/-- Resolution through the DRAM index, counted toward promotion (R168, R189). -/
def State.dramResolve (s : State) (inst h h2 : Nat) (key : Bytes) : State :=
  let r := s.confirm h key (s.candidates h inst)
  (s.addTo K.indexConfirmMismatch r.2).countResolve h2 h r.1

/-- A key whose hot search missed is resolved through the DRAM index (R188). -/
def State.resolveMiss (s : State) (p : CmdPkt) (hot : Option Nat) : State :=
  match hot, keyOp p.opcode, s.instOf p.ns p.gen with
  | none, true, some i => let h := s.hashes p.ns p.gen p.key; s.dramResolve i h.1 h.2 p.key
  | _, _, _ => s

/-- The slot that a hot hit names holds the key. -/
def State.hotHolds (s : State) (inst slot h : Nat) (key : Bytes) : Bool :=
  match s.cell slot with
  | some e => e.inst == inst && (s.findAt e.loc inst h).any (·.key == key)
  | none => false

/-- The key of a hot hit is confirmed as its record is read; one that fails is counted, recorded and resolved through the DRAM index
(R188). -/
def State.confirmHot (s : State) (p : CmdPkt) (hot : Option Nat) : State :=
  match hot, s.instOf p.ns p.gen with
  | some slot, some i =>
    let h := s.hashes p.ns p.gen p.key
    if s.hotHolds i slot h.1 p.key then s
    else
      ((s.bump K.indexConfirmMismatch).event 0x0606 [(4, i), (8, h.1)]).dramResolve i h.1 h.2 p.key
  | _, _ => s

/-- The key's entry without counting or promoting: Last's own accesses. -/
def State.lookup (s : State) (inst h : Nat) (key : Bytes) : Option Resolved := (s.confirm h key (s.candidates h inst)).1

/-- Entries of kind OBJECT and TOMBSTONE. -/
def State.idxObjects (s : State) : Nat := (s.idx.cells.filter fun c => c.2.kind != .link).length

/-- An admitted write without commit on a key that has no entry (R171). -/
def State.newKeyWrite (s : State) (c : CmdCtx) : Bool :=
  (c.st == .waiting || c.st == .running || c.st == .releasing) && (match c.write, s.instOf c.pkt.ns c.pkt.gen with
    | some w, some i => w.commit.isNone && (s.lookup i w.hash c.pkt.key).isNone
    | _, _ => false)

/-- The count of R171: entries, and admitted writes without commit on keys that have none. -/
def State.idxCount (s : State) : Nat := s.idxObjects + (s.kv.cmds.filter s.newKeyWrite).length

/-- A slot's entry moves to an empty slot, its hot entry with it (R169, R190). -/
def State.moveCell (s : State) (a b : Nat) : State :=
  match s.cell a with
  | some e =>
    let s := if e.hot then s.hotMove a b e.len (e.kind == .tombstone) else s
    (s.setCell a none).setCell b (some e)
  | none => s

/-- A hot row names the slot that its entry has moved to (R190). -/
def State.hotRowTo (s : State) (g : Option Nat) (e : IdxEntry) (slot : Nat) : State :=
  match g.bind s.awlRow? with
  | some r => s.rowWrite r.addr { r.entry with data := hotData e.len (e.kind == .tombstone) slot }
  | none => s

/-- Puts an entry and its hot row in a slot. -/
def State.placeAt (s : State) (e : IdxEntry) (g : Option Nat) (slot : Nat) : State := (s.hotRowTo g e slot).setCell slot (some e)

/-- Displacement (R169 step 2): the entry being placed, with its hot row if it has one, lies in no slot; it replaces
occupants in turn until one finds an empty slot. A LINK is passed over (DEDUCED, log 23). Answers the steps used. -/
def State.displace : Nat → Nat → State → IdxEntry → Option Nat → Nat → Option (State × Nat)
  | 0, _, _, _, _, _ => none
  | fuel + 1, i, s, e, g, b =>
    let a := slotAddr 0 b (e.fp / 2 ^ (2 * (i % 16)) % 4)
    match s.cell a with
    | none => some (s.placeAt e g a, i)
    | some old =>
      if old.kind = .link then State.displace fuel (i + 1) s e g b
      else
        let g' := (s.hotOfSlot a).map (·.addr)
        let b' := otherBucket b old.fp s.idx.n
        let s' := s.placeAt e g a
        match s'.emptyIn b' with
        | some x => some (s'.placeAt old g' x, i + 1)
        | none => State.displace fuel (i + 1) s' old g' b'

/-- The lowest overflow bucket not in use. -/
def State.freeOverflow (s : State) : Nat :=
  ((List.range (s.idx.overflow.length + 1)).find? fun v => !s.idx.overflow.contains v).getD 0

/-- DRAM of a configuration in MiB (Table 8.7). -/
def dramMiB : Nat → Nat
  | 1 => 16384 | 2 => 16384 | 3 => 32768 | 4 => 32768 | _ => 65536

/-- 64 MiB chunks of the overflow region that hold a bucket in use; the others lie in the read cache (R165, R172). -/
def State.ovfChunks (s : State) : Nat := ((s.idx.overflow.map (· / 2 ^ 20)).eraseDups).length

/-- MiB of the read cache: what the layout of R259 leaves, less the overflow region's chunks and the 12 MiB of an
image being staged (15 R430). The media tables count at their
largest size (DESIGN CHOICE, log 107). -/
def State.cacheMiB (s : State) : Nat :=
  let d := dramMiB s.media.dramConfig
  d - (64 * 2 ^ s.idx.n / 2 ^ 20 + s.media.bufMiB + 64 + 32 + s.num K.siteDramMiB + d / 32 + 4096 + 64 * s.ovfChunks +
    (if s.fw.staged.st = 0xFF then 0 else 12))

/-- Values leave the read cache, the oldest first, until the rest fits (DESIGN CHOICE, log 107). -/
def cacheFit (room : Nat) (l : List (StripeId × Bytes)) : List (StripeId × Bytes) :=
  l.foldr (fun x acc => if (acc.map (·.2.length)).sum + x.2.length ≤ room then x :: acc else acc) []

/-- The read cache keeps within its room. -/
def State.trimCache (s : State) : State := { s with kv := { s.kv with cache := cacheFit (s.cacheMiB * 2 ^ 20) s.kv.cache } }

/-- A value enters the read cache (02 R47). -/
def State.cacheValue (s : State) (i : StripeId) (v : Bytes) : State :=
  if s.kv.cache.any fun x => x.1 == i then s
  else ({ s with kv := { s.kv with cache := s.kv.cache ++ [(i, v)] } } : State).trimCache

/-- A new overflow bucket ends b1's chain: slot 3 of the last bucket links to it, and its former occupant and the new
entry take slots 0 and 1 (R169 step 3). -/
def State.extendChain (s : State) (b : Nat) (e : IdxEntry) : State :=
  let last := ((s.chain b).getLast?).getD (0, b)
  let v := s.freeOverflow
  let a := slotAddr last.1 last.2 3
  let s := ({ s with idx := { s.idx with overflow := v :: s.idx.overflow } } : State).trimCache
  let s := (s.moveCell a (slotAddr 1 v 0)).setCell a (some (linkTo v))
  s.setCell (slotAddr 1 v 1) (some e)

/-- Inserts a key's entry (R169, R170). -/
def State.insertEntry (s : State) (h : Nat) (e : IdxEntry) : State :=
  let b1 := bucket1 h s.idx.n
  match (s.emptyIn b1).orElse fun _ => s.emptyIn (otherBucket b1 e.fp s.idx.n) with
  | some a => s.setCell a (some e)
  | none =>
    match State.displace 64 0 s e none b1 with
    | some (s', n) => s'.addTo K.indexDisplacements n
    | none =>
      if (s.chain b1).length ≤ 4 ∧ s.idx.overflow.length + ovfReserve < s.ovfCeiling then s.extendChain b1 e
      else
        let s := s.extendChain b1 e
        let s := { s with idx := { s.idx with reserveUsed := s.idx.reserveUsed + 1, full := true } }
        s.event 0x0603 [(4, s.idx.overflow.length), (4, ovfReserve - s.idx.reserveUsed)]

/-- The bucket that a slot address lies in. -/
def slotBucket (a : Nat) : Nat × Nat := (a / 2 ^ 31, a % 2 ^ 31 / 4)

/-- The slot whose LINK names an overflow bucket. -/
def State.linkOf (s : State) (v : Nat) : Option Nat :=
  (s.idx.cells.find? fun c => c.2.kind == .link && c.2.loc == v).map (·.1)

/-- Overflow use below seven eighths of the ceiling ends the full state (R170). -/
def State.checkFull (s : State) : State :=
  let used := s.idx.overflow.length
  { s with idx := { s.idx with full := s.idx.full && decide (7 * s.ovfCeiling ≤ 8 * used),
                               reserveUsed := min s.idx.reserveUsed (used + ovfReserve - s.ovfCeiling) } }

/-- An overflow bucket that has become empty goes back: its LINK is replaced by the chain's last entry, or its slot
emptied if the chain has no other (R172). -/
def State.returnBucket : Nat → State → Nat → State
  | 0, s, _ => s
  | fuel + 1, s, v =>
    if [0, 1, 2, 3].any fun i => (s.cell (slotAddr 1 v i)).isSome then s
    else match s.linkOf v with
      | none => s
      | some a =>
        let s := { s with idx := { s.idx with overflow := s.idx.overflow.filter (· != v) } }
        let s := (s.setCell a none).checkFull
        let (region, b) := slotBucket a
        if region = 0 then s
        else match [2, 1, 0].find? fun i => (s.cell (slotAddr 1 b i)).isSome with
          | some i => s.moveCell (slotAddr 1 b i) a
          | none => State.returnBucket fuel s b

/-- Empties a slot (R172): the hot entry goes first (R190). -/
def State.removeEntry (s : State) (a : Nat) : State :=
  let s := match s.hotOfSlot a with
    | some r => s.rowInvalidate r.addr
    | none => s
  let s := s.setCell a none
  let (region, b) := slotBucket a
  if region = 1 then State.returnBucket (s.idx.overflow.length + 1) s b else s

/-- Rewrites a key's entry in place at a commit, its hot entry with it (R172, R190). -/
def State.rewriteEntry (s : State) (a : Nat) (kind : IdxKind) (loc len : Nat) (buf : Bool) : State :=
  match s.cell a with
  | some e =>
    let s := s.setCell a (some { e with kind := kind, loc := loc, len := len, buf := buf })
    if e.hot then s.hotMove a a len (kind == .tombstone) else s
  | none => s

/-- The entry for a commit record at a location. -/
def entryFor (h inst loc : Nat) (c : CommitRec) (buf : Bool) : IdxEntry :=
  { fp := fingerprint h, kind := if c.tombstone then .tombstone else .object, inst := inst, hot := false, loc := loc,
    len := if c.tombstone then 0 else c.valueLen, buf := buf }

/-- A key's index entry names a commit record: rewritten in place, or inserted (R169, R172). -/
def State.indexCommit (s : State) (inst loc : Nat) (c : CommitRec) (buf : Bool) : State :=
  match s.lookup inst c.hash c.key with
  | some r => s.rewriteEntry r.slot (if c.tombstone then .tombstone else .object) loc (if c.tombstone then 0 else c.valueLen) buf
  | none => s.insertEntry c.hash (entryFor c.hash inst loc c buf)

/-- Clears BUF of the entry at a location (R172). -/
def State.clearBuf (s : State) (loc : Nat) : State :=
  { s with idx := { s.idx with cells := s.idx.cells.map fun c => if c.2.kind != .link && c.2.loc == loc then (c.1, { c.2 with buf := false }) else c } }

/-- A namespace generation that still waits for an instance slot takes one (R164). -/
def State.takeWaiting (s : State) : State :=
  (s.kv.nss.filter fun x => x.live && x.inst.isNone).foldl (fun s x => s.takeInst x.number x.gen) s

/-- Removes the entries of an instance one by one; answers how many. -/
def State.purgeCells : Nat → State → Nat → State × Nat
  | 0, s, _ => (s, 0)
  | fuel + 1, s, slot =>
    match s.idx.cells.find? fun c => c.2.kind != .link && c.2.inst == slot with
    | some c => let r := State.purgeCells fuel (s.removeEntry c.1) slot; (r.1, r.2 + 1)
    | none => (s, 0)

/-- Removes every index and hot entry of an instance, frees its slot and records event 0x0604 (R163, R478). -/
def State.purgeOne (s : State) (i : Inst) : State :=
  let (s, n) := State.purgeCells (s.idx.cells.length + 1) s i.slot
  let s := { s with idx := { s.idx with insts := s.idx.insts.filter (·.slot != i.slot) } }
  s.event 0x0604 [(2, i.ns), (4, i.gen), (4, n)]

/-- PURGE_PASS_END: the running pass ends; its slots become FREE, and slots made PURGING meanwhile start the next (R478). -/
def execPurgePassEnd (t : Nat) (s : State) : Host.Outcome State Fault Refusal :=
  let s := s.advance t
  done (match s.idx.passEnd with
    | some e =>
      if s.now < e ∨ s.kvUp = false then s
      else
        let l := s.idx.insts.filter fun i => i.st == .purging && s.idx.passSet.contains i.slot
        let s := l.foldl State.purgeOne s
        let s := { s with idx := { s.idx with passEnd := none, passSet := [] } }
        s.startPass.takeWaiting.stirred
    | none => s)

/-- HOT_WINDOW_CLEAR: every HotWindowMs the promotion counters are cleared (R189). -/
def execHotWindowClear (t : Nat) (s : State) : Host.Outcome State Fault Refusal :=
  let s := s.advance t
  done (if s.kvUp && decide (s.awl.lastClear + s.num K.hotWindowMs * nsMs ≤ s.now) then
      { s with awl := { s.awl with promo := [], lastClear := s.now } }
    else s)

end Sys2Proof.Machine
end

