-- ==== Sys2Proof/Machine/Records.lean ====
section
/-! DEFINITION. The bytes of every record that lies on media (07 R207, R208; 08 R245; 09 R264, R265, R281 to R283; 14 R419; 15 R440). -/

namespace Sys2Proof.Machine

/-- A multiple of 16 (R245). -/
def pad16 (n : Nat) : Nat := (n + 15) / 16 * 16

/-- Bytes filled with zeros to a multiple of 16. -/
def padded (b : Bytes) : Bytes := padTo b (pad16 b.length)

/-- A StripeId in a byte order (R206). -/
def StripeId.fieldsIn (i : StripeId) (en : Nat → Nat → Bytes) : Bytes := en 2 i.home ++ zeros 2 ++ en 4 i.boot ++ en 8 i.serial

/-- Fragment header bytes 0 to 95 in a byte order (Table 7.3). -/
def FragHdr.fieldsIn (h : FragHdr) (en : Nat → Nat → Bytes) (state : Nat) (complete : Bool) (version : Nat) : Bytes :=
  [0x30] ++ en 1 h.index ++ en 1 h.k ++ en 1 h.m ++ en 2 h.key.length ++ en 2 h.ns ++ en 4 h.gen ++ en 4 h.epoch ++
    h.stripe.fieldsIn en ++ en 1 h.kind ++ en 1 h.attrs ++ en 1 state ++ en 1 (bit h.durable + 2 * bit complete) ++ en 4 h.segments ++
    en 8 h.expected ++ en 8 h.valueLen ++ en 8 h.hash ++ en 8 h.stamp ++ en 8 h.deadline ++ en 8 version ++ en 4 h.lastChunk ++
    en 4 h.fragLen

/-- Fragment header bytes as FRAG_RESERVE carries them, big-endian (R207). -/
def FragHdr.bytes (h : FragHdr) (state : Nat) (complete : Bool) (version : Nat) : Bytes := h.fieldsIn beBytes state complete version

/-- A commit record's bytes 0 to 143 in a byte order (Table 7.4). -/
def CommitRec.fieldsIn (r : CommitRec) (en : Nat → Nat → Bytes) : Bytes :=
  [0x31] ++ en 1 r.attrs ++ en 1 r.k ++ en 1 r.m ++ en 2 r.key.length ++ en 2 r.ns ++ en 4 r.gen ++ en 4 r.epoch ++
    r.stripe.fieldsIn en ++ en 8 r.version ++ en 8 r.commitTime ++ en 8 r.valueLen ++ en 8 r.hash ++ en 8 r.stamp ++
    padTo (r.holders.flatMap (en 2)) 48 ++ en 4 (r.mask % 2 ^ 24 + r.revision * 2 ^ 24) ++ en 4 r.lastChunk ++ padTo r.tag 16

/-- A commit record's bytes 0 to 143 as STRIPE_COMMIT carries them, big-endian (R208). -/
def CommitRec.bytes (r : CommitRec) : Bytes := r.fieldsIn beBytes

/-- The 32-byte entry of the fragment table (R264). -/
def FragLine.bytes (l : FragLine) : Bytes :=
  l.stripe.fieldsIn leBytes ++ leBytes 1 l.index ++ leBytes 1 l.state ++ leBytes 1 (bit l.complete) ++ zeros 2 ++
    leBytes 5 (l.hdr / 4096) ++ leBytes 5 (l.dir / 4096) ++ [0]

/-- A value's bytes in a settings copy: big-endian, padded to 4 (R440). -/
def settingValue (k : Nat) (v : DVal) : Bytes :=
  let b := match v with
    | .bytes b => b
    | .num n => beBytes ((((dictRow? k).bind (·.typ.size))).getD 4) n
  b ++ zeros (ceilDiv b.length 4 * 4 - b.length)

/-- A settings copy: header, entries and CRC-32 (R440). -/
def settingsCopy (format seq : Nat) (l : List (Nat × DVal)) : Bytes :=
  let body := l.flatMap fun x =>
    let v := settingValue x.1 x.2
    let n := match x.2 with | .bytes b => b.length | .num _ => (((dictRow? x.1).bind (·.typ.size))).getD 4
    leBytes 2 (x.1 / 256) ++ leBytes 1 (x.1 % 256) ++ leBytes 1 (((dictRow? x.1).map (·.typ.code)).getD 0) ++ leBytes 2 n ++ zeros 2 ++ v
  let head := [1, 0] ++ leBytes 2 format ++ leBytes 4 seq ++ leBytes 4 l.length ++ leBytes 4 (20 + body.length)
  head ++ body ++ leBytes 4 (crc32 (head ++ body))

/-- The RecordType byte of a record (R245, Tables 9.3, 9.4). -/
def RecBody.type : RecBody → Nat
  | .header .. => 0x30 | .commit _ => 0x31 | .copy .. => 0x31 | .slice .. => 0x32 | .commitLog .. => 0x40 | .removeLog .. => 0x41
  | .fragLog .. => 0x42 | .moveLog .. => 0x44 | .sbOpen .. => 0x45 | .sbProgress .. => 0x46 | .sbState .. => 0x47 | .retire .. => 0x48
  | .flushEnd .. => 0x49 | .counterReserve _ => 0x4A | .recoveryMark .. => 0x4B | .dir .. => 0x4C | .ckptSections _ kind => kind
  | .ckptEnd .. => 0x54 | .events _ => 0x60 | .settings _ => 0x61

/-- RecordType of the record at an address, for MOVE_LOG. -/
def State.typeAt (s : State) (a : Nat) : Nat := ((s.recAt a).map (·.body.type)).getD 0

/-- The body of a journal record from offset 16 on (Table 9.3). -/
def State.journalBody (s : State) : RecBody → Bytes
  | .commitLog h v e => leFields [(8, h), (8, v)] ++ ({ e with hot := false } : IdxEntry).bytes
  | .removeLog h v fp inst => leFields [(8, h), (8, v), (4, fp), (2, inst % 8192)] ++ zeros 10
  | .fragLog i n st complete hdr dir =>
    i.fieldsIn leBytes ++ leFields [(1, n), (1, st), (1, bit complete), (2, 0), (5, hdr / 4096), (5, dir / 4096), (1, 0)]
  | .moveLog ds sb l =>
    leFields [(1, ds), (1, 0), (2, sb), (2, l.length)] ++ zeros 10 ++
      l.flatMap fun m => leFields [(5, m.1 / 4096), (5, m.2 / 4096), (1, s.typeAt m.1)] ++ zeros 5
  | .sbOpen ds stream sb seq slc => leFields [(1, ds), (1, stream), (2, sb), (4, seq), (1, bit slc)] ++ zeros 7
  | .sbProgress ds stream sb q => leFields [(1, ds), (1, stream), (2, sb), (4, q)] ++ zeros 8
  | .sbState ds sb st er => leFields [(1, ds), (1, 0), (2, sb), (1, st.code), (3, 0), (4, er), (4, 0)]
  | .retire ds slot b scope reason => leFields [(1, ds), (1, slot), (2, b), (1, scope), (1, reason)] ++ zeros 10
  | .flushEnd n us => leFields [(8, n), (4, us), (4, 0)]
  | .counterReserve c => leFields [(8, c * 2 ^ 24), (8, 0)]
  | .recoveryMark r a b cyc => leFields [(8, r), (8, a), (8, b), (4, cyc), (4, 0)]
  | _ => []

/-- CKPT_INDEX: for 65,536 buckets each, a 4-bit occupancy map per bucket and the occupied entries (Table 9.4). -/
def indexSection (cells : List (Nat × IdxEntry)) (cyc jseq k : Nat) : Bytes :=
  let has (b i : Nat) : Nat := bit (cells.any fun x => x.1 == slotAddr 0 b i)
  let nibble (b : Nat) : Nat := has b 0 + 2 * has b 1 + 4 * has b 2 + 8 * has b 3
  let own := cells.filter fun x => decide (x.1 < 2 ^ 31) && x.1 / 4 / 65536 == k
  let body := ((List.range 32768).flatMap fun i => leBytes 1 (nibble (65536 * k + 2 * i) + 16 * nibble (65536 * k + 2 * i + 1))) ++
    own.flatMap fun x => ({ x.2 with hot := false } : IdxEntry).bytes
  leFields [(1, 0x50), (1, 0), (2, 0), (4, 0), (8, jseq), (4, cyc), (4, k), (4, own.length), (4, 0)] ++ body

/-- The bytes of a cycle's sections of one kind. CKPT_OVERFLOW, CKPT_FRAG and CKPT_TABLES have parts whose order or layout the manual
does not give: those bytes are free values (log 3). -/
def State.sectionsOf (s : State) (cyc kind len : Nat) : Bytes :=
  if kind = 0x50 then
    (List.range (max 1 (2 ^ s.idx.n / 65536))).flatMap (indexSection (((s.media.cycles.find? (·.no == cyc)).map (·.image.cells)).getD []) cyc s.media.jseq)
  else
    leFields [(1, kind), (1, 0), (2, 0), (4, 0), (8, s.media.jseq), (4, cyc), (12, 0)] ++
      (List.range (len - 32)).map fun i => BitVec.ofNat 8 (Config.freeNat (2 ^ 64 * (256 * cyc + kind) + i))

/-- The bytes of a record, padded to a multiple of 16 (R245, R265, R281, R419). -/
def State.recBytes (s : State) (r : MediaRec) : Bytes :=
  let frag (i : StripeId) (n : Nat) : Option Frag := s.welt.frags.find? fun f => f.hdr.stripe == i && f.hdr.index == n
  match r.body with
  | .header i n => match frag i n with
    | some f => padded (f.hdr.fieldsIn leBytes (bit f.committed) false f.version ++ f.hdr.key)
    | none => zeros r.len
  | .commit c | .copy c _ => padded (c.fieldsIn leBytes ++ c.key)
  | .slice i n seg =>
    match (frag i n).bind fun f => f.slices.find? (·.seg == seg) with
    | some x => padded (leFields [(1, 0x32), (1, n), (2, 0), (4, seg)] ++ i.fieldsIn leBytes ++ leFields [(4, x.data.length), (4, 0)] ++ padTo x.check 16 ++ x.data)
    | none => zeros r.len
  | .dir i n =>
    match frag i n with
    | some f =>
      padTo (leFields [(1, 0x4C), (1, n), (2, r.len), (4, f.hdr.segments)] ++ i.fieldsIn leBytes ++ zeros 8 ++
        f.slices.flatMap fun x => leBytes 5 (x.addr / 4096)) r.len
    | none => zeros r.len
  | .ckptSections c kind => padTo (s.sectionsOf c kind r.len) r.len
  | .ckptEnd c start =>
    let at_ := s.media.recs.filterMap fun x => match x.body with | .ckptSections n _ => if n = c then some (x.addr / 4096) else none | _ => none
    padTo (leFields [(1, 0x54), (1, 0), (2, r.len), (4, 0), (8, s.media.jseq), (4, c), (4, 0), (8, start), (4, at_.length), (4, 0)] ++
      at_.flatMap (leBytes 5)) r.len
  | .events l => leFields [(1, 0x60), (1, 0), (2, l.length), (4, 0), (8, ((l.head?.bind (·.seq)).getD 0))] ++ l.flatMap EvRec.bytes
  | .settings n => padTo ([0x61] ++ settingsCopy s.fw.flash.format n s.dict.stored) r.len
  | b => leFields [(1, b.type), (1, 0), (2, r.len), (4, 0), (8, r.jseq.getD 0)] ++ s.journalBody b

end Sys2Proof.Machine
end

