-- ==== Sys2Proof/Machine/Media.lean ====
section
/-! DEFINITION. Insole's log: geometry, streams, superblocks, the journal, appending and programming records
(08 R234 to R252, 09 R263 to R275, R281, R282). -/

namespace Sys2Proof.Machine

/-- Fields of a media profile (Table 8.1). -/
def profBpc (p : Bytes) : Nat := beAt p 1 1
/-- Planes. -/
def profPlanes (p : Bytes) : Nat := beAt p 2 1
/-- ERASE_SUSPEND supported. -/
def profSuspend (p : Bytes) : Bool := bitAt (beAt p 3 1) 0
/-- SpareBytes. -/
def profSpare (p : Bytes) : Nat := beAt p 10 2
/-- PagesPerBlock. -/
def profPages (p : Bytes) : Nat := beAt p 12 2
/-- BlocksPerPlane. -/
def profBlocks (p : Bytes) : Nat := beAt p 14 2
/-- tRMaxNs. -/
def profTR (p : Bytes) : Nat := beAt p 16 4
/-- tProgMaxNs. -/
def profTProg (p : Bytes) : Nat := beAt p 24 4
/-- tBersMaxNs. -/
def profTBers (p : Bytes) : Nat := beAt p 32 4
/-- SlcTRMaxNs. -/
def profSlcTR (p : Bytes) : Nat := beAt p 36 4
/-- SlcTProgMaxNs. -/
def profSlcTProg (p : Bytes) : Nat := beAt p 40 4
/-- tSuspendMaxNs. -/
def profTSusp (p : Bytes) : Nat := beAt p 48 4
/-- RetryCount. -/
def profRetries (p : Bytes) : Nat := beAt p 56 1
/-- Wordlines of a block, in either mode. -/
def profWordlines (p : Bytes) : Nat := if profBpc p = 0 then 0 else profPages p / profBpc p

/-- Data bits of a die (Table 8.2). -/
def profDensity (p : Bytes) : Nat := profPlanes p * profBlocks p * profPages p * 16384 * 8

/-- A profile as it is kept: reserved bits and bytes are zero (R6, Table 8.1). -/
def profNorm (p : Bytes) : Bytes := overlay (overlay p 3 (beBytes 1 (beAt p 3 1 % 2))) 57 (zeros 7)

/-- A media profile keeps the limits of Table 8.2 and the values that Table 8.1 gives its fields (R234); its reserved fields and
unused retry entries are ignored (00 R6). -/
def profileOk (p : Bytes) : Bool :=
  p.length == 128 && beAt p 0 1 == 1 && decide (profBpc p ∈ [3, 4, 5]) && decide (profPlanes p ∈ [2, 4]) &&
  decide (1536 ≤ profSpare p ∧ profSpare p ≤ 4096) &&
  decide (0 < profPages p ∧ profPages p ≤ 4096 ∧ profPages p % profBpc p = 0) && decide (0 < profBlocks p ∧ profBlocks p ≤ 8192) &&
  decide (1 ≤ profRetries p ∧ profRetries p ≤ 16) && decide (10 ^ 12 ≤ profDensity p ∧ profDensity p ≤ 8 * 10 ^ 12)

/-- P of R243. -/
def parityBytes (p : Bytes) : Nat :=
  ([512, 448, 384].find? fun x => decide (4 * (4096 + x) ≤ 16384 + profSpare p)).getD 384

/-- Die sets (R239). -/
def State.dieSets (s : State) : Nat := s.media.u / 4

/-- The die in a slot of a die set: its channel c, and its u on that channel (R239). -/
def dieAt (ds slot : Nat) : Nat × Nat := (slot / 4, 4 * ds + slot % 4)

/-- Die set and slot of the die (c, u) (R239). -/
def slotAt (c u : Nat) : Nat × Nat := (u / 4, 4 * c + u % 4)

/-- A die's number among Shank's calendars: a channel has at most 64 dies (00 R14). -/
def dieNo (ds slot : Nat) : Nat := 64 * (dieAt ds slot).1 + (dieAt ds slot).2

/-- Data bytes of a codeword payload. -/
abbrev cwPayload : Nat := 4064

/-- Codewords of a program unit in a mode. -/
def unitCws (p : Bytes) (slc : Bool) : Nat := profPlanes p * (if slc then 1 else profBpc p) * 4

/-- Record payload bytes of a program unit: B_op of R155 (R240). -/
def unitCap (p : Bytes) (slc : Bool) : Nat := unitCws p slc * cwPayload

/-- A die has been retired, or was found missing or failing at discovery and is to be retired by recovery (R236, R242). -/
def State.dieOut (s : State) (ds slot : Nat) : Bool := s.media.retiredDies.contains (ds, slot) || s.media.missing.contains (ds, slot)

/-- A die of a set is in service. -/
def State.dieIn (s : State) (ds slot : Nat) : Bool := !s.dieOut ds slot && !s.media.deadSets.contains ds

/-- Blocks with the maker's mark on the dies in use: die set, slot, block (log 114). -/
def State.makerBad (s : State) : List (Nat × Nat × Nat) :=
  s.media.board.luns.flatMap fun l =>
    if l.bad.isEmpty then []
    else
      let ds := s.media.dies.getD l.chan []
      match (List.range s.media.u).find? fun u => ds[u]? == some (l.vol, l.lun) with
      | some u => l.bad.map fun b => ((slotAt l.chan u).1, (slotAt l.chan u).2, b)
      | none => []

/-- Slots whose block takes part in a superblock (R240). -/
def State.slotsIn (s : State) (ds sb : Nat) : List Nat :=
  (List.range 32).filter fun i => s.dieIn ds i && !s.media.badBlocks.contains (ds, i, sb)

/-- The parity slot: the first usable one counting cyclically from b mod 32 (R240). -/
def parityOf (sb : Nat) (slots : List Nat) : Nat :=
  (((List.range 32).map fun i => (sb + i) % 32).find? fun i => slots.contains i).getD 0

/-- Dies in service in a set. -/
def State.diesIn (s : State) (ds : Nat) : Nat := ((List.range 32).filter fun i => s.dieIn ds i).length

/-- D_w: dies in service (R155). -/
def State.diesInService (s : State) : Nat := ((List.range s.dieSets).map s.diesIn).sum

/-- A superblock that is listed. -/
def State.sb? (s : State) (ds sb : Nat) : Option Superblock := s.media.sbs.find? fun x => x.ds == ds && x.sb == sb

/-- Replaces or adds a superblock. -/
def State.setSb (s : State) (x : Superblock) : State :=
  let l := s.media.sbs
  let l := if l.any (fun y => y.ds == x.ds && y.sb == x.sb) then l.map fun y => if y.ds = x.ds ∧ y.sb = x.sb then x else y else l ++ [x]
  { s with media := { s.media with sbs := l } }

/-- The anchor area (R285). -/
def isAnchor (ds sb : Nat) : Bool := ds == 0 && decide (sb < 2)

/-- The superblock may be opened (R240, Table 9.1). -/
def State.sbFree (s : State) (ds sb : Nat) : Bool :=
  !isAnchor ds sb && (match s.sb? ds sb with | some x => x.st == .free | none => true) && decide (24 ≤ (s.slotsIn ds sb).length)

/-- FREE superblocks of a die set. -/
def State.freeCount (s : State) (ds : Nat) : Nat :=
  if s.media.deadSets.contains ds then 0
  else profBlocks s.media.profile - (if ds = 0 then 2 else 0) - (s.media.sbs.filter fun x => x.ds == ds && x.st != .free).length

/-- Erase count of a superblock. -/
def State.erasesOf (s : State) (ds sb : Nat) : Nat := ((s.sb? ds sb).map (·.erases)).getD 0

/-- The lowest FREE superblock that has never been used. -/
def State.firstUnused (s : State) (ds : Nat) : Option Nat :=
  (List.range (profBlocks s.media.profile)).find? fun b => (s.sb? ds b).isNone && s.sbFree ds b

/-- The better of two superblocks by erase count, ties to the lower number (R275). -/
def pickErase (high : Bool) (a b : Nat × Nat) : Nat × Nat :=
  if (if high then a.1 < b.1 else b.1 < a.1) ∨ (a.1 = b.1 ∧ b.2 < a.2) then b else a

/-- The FREE superblock that a stream opens: lowest erase count, or highest for SETTLED and the upper FRESH (R275). -/
def State.chooseFree (s : State) (stream ds : Nat) : Option Nat :=
  let high := stream == 2 || (decide (0x10 ≤ stream) && decide (s.media.fresh ≤ 2 * (stream - 0x10)))
  let listed := (s.media.sbs.filter fun x => x.ds == ds && s.sbFree ds x.sb).map fun x => (x.erases, x.sb)
  let all := match s.firstUnused ds with | some b => (0, b) :: listed | none => listed
  match all with
  | [] => none
  | x :: l => some (l.foldl (pickErase high) x).2

/-- A stream in SLC mode (Table 8.5). -/
def slcStream (stream : Nat) : Bool := decide (stream ≤ 1)

/-- Record bytes of a die set's FREE superblocks in a mode: each over the data slots that it would have (R240, R249). -/
def State.freeBytes (s : State) (slc : Bool) (ds : Nat) : Nat :=
  let gone := (s.media.badBlocks.filter fun x => x.1 == ds && s.dieIn ds x.2.1 && s.sbFree ds x.2.2).length
  (s.freeCount ds * (s.diesIn ds - 1) - gone) * profWordlines s.media.profile * unitCap s.media.profile slc

/-- floor_b of R249. -/
def State.slcFloor (s : State) : Nat := 2 * s.media.bufMiB * 2 ^ 20

/-- s_slc (R249). -/
def State.slcTarget (s : State) : Nat :=
  let free := ((List.range s.dieSets).map (s.freeBytes false)).sum
  clampNat (free * s.num K.slcCachePermille / 1000 / max 1 (profBpc s.media.profile)) s.slcFloor
    (max (s.num K.slcCacheMaxGiB * 2 ^ 30) s.slcFloor)

/-- Record bytes of one SLC-mode superblock with every slot. -/
def State.slcUnit (s : State) : Nat := 31 * profWordlines s.media.profile * unitCap s.media.profile true

/-- The SLC cache as whole SLC-mode superblocks of at least s_slc (R249). -/
def State.slcResize (s : State) : State :=
  { s with media := { s.media with slcBytes := if s.slcUnit = 0 then 0 else ceilDiv s.slcTarget s.slcUnit * s.slcUnit } }

/-- A superblock was opened or freed: the cache is sized again, once recovery has sized it (R249, Table 8.8). -/
def State.slcFollow (s : State) : State := if s.media.slcBytes = 0 then s else s.slcResize

/-- With one FREE superblock less, the SLC stream's own and the FREE ones still hold floor_b (R249). -/
def State.leavesFloor (s : State) : Bool :=
  let own := (s.media.sbs.filter fun x => x.stream == 0 && (x.st == .open_ || x.st == .closed)).length
  let free := ((List.range s.dieSets).map s.freeCount).sum
  decide (s.slcFloor + s.slcUnit ≤ (own + free) * s.slcUnit)

/-- A stream's write position. -/
def State.stream (s : State) (id : Nat) : Stream :=
  (s.media.streams.find? (·.id == id)).getD { id := id, open_ := [], turn := 0 }

/-- Replaces a stream's write position. -/
def State.setStream (s : State) (x : Stream) : State :=
  let l := s.media.streams
  { s with media := { s.media with streams := if l.any (·.id == x.id) then l.map fun y => if y.id = x.id then x else y else l ++ [x] } }

/-- The 40-bit record address of a codeword (R241). -/
def cwAddr (ds sb q : Nat) : Nat := ds * 2 ^ 36 + sb * 2 ^ 23 + q * 4

/-- q of the first codeword of a program unit (R241). -/
def unitQ (p : Bytes) (slc : Bool) (u : UnitId) : Nat := (u.wl * 32 + u.slot) * unitCws p slc

/-- The place of payload offset `off` of a program unit: record address and offset in the codeword (R241, R245). -/
def unitAddr (p : Bytes) (slc : Bool) (u : UnitId) (off : Nat) : Nat :=
  cwAddr u.ds u.sb (unitQ p slc u + off / cwPayload) * 4096 + off % cwPayload

/-- The 40-bit record address of a place. -/
def recAddr (a : Nat) : Nat := a / 4096

/-- Die set, superblock and q of a place. -/
def addrParts (a : Nat) : Nat × Nat × Nat := (recAddr a / 2 ^ 36, recAddr a / 2 ^ 23 % 2 ^ 13, recAddr a / 4 % 2 ^ 21)

/-- The superblock's mode at an address. -/
def State.slcAt (s : State) (ds sb : Nat) : Bool := ((s.sb? ds sb).map (·.slc)).getD false

/-- Die set and slot of the codeword at a place (R239, R241). -/
def State.slotOf (s : State) (a : Nat) : Nat × Nat :=
  let (ds, sb, q) := addrParts a
  (ds, q / max 1 (unitCws s.media.profile (s.slcAt ds sb)) % 32)

/-- The next unit of an open superblock: the following data slot, then the next wordline; none when it is full (R241). -/
def nextUnit (p : Bytes) (x : Superblock) (u : UnitId) : Option UnitId :=
  match x.slots.find? fun i => decide (u.slot < i) && i != x.parity with
  | some i => some { u with slot := i }
  | none =>
    if u.wl + 1 < profWordlines p then
      (x.slots.find? fun i => i != x.parity).map fun i => { u with wl := u.wl + 1, slot := i }
    else none

/-- JSeq of the next journal record, and the journal's record as it is written (R281). -/
def State.journalRec (s : State) (len addr : Nat) (stream : Nat) (units : List UnitId) (b : RecBody) : State :=
  let j := s.media.jseq + 1
  let r : MediaRec := { addr := addr, len := len, stream := stream, jseq := some j, log := none, body := b, units := units, span := units }
  ({ s with media := { s.media with jseq := j, recs := s.media.recs ++ [r] } } : State).addTo K.journalBytes len

/-- Opens a superblock for a stream in a die set without its journal record; none where no FREE one is left, or where a stream in
native mode would take what floor_b holds back (R249). -/
def State.openRaw (s : State) (stream ds : Nat) : Option (State × Superblock) :=
  match (s.chooseFree stream ds).filter fun _ => slcStream stream || s.leavesFloor with
  | none => none
  | some b =>
    let slots := s.slotsIn ds b
    let old := (s.sb? ds b).getD { ds := ds, sb := b, st := .free }
    let x : Superblock := { ds := ds, sb := b, st := .open_, slc := slcStream stream, stream := stream, seq := s.media.sbSeq + 1,
                            slots := slots, parity := parityOf b slots, erases := old.erases }
    let first : UnitId := { stream := stream, ds := ds, sb := b, wl := 0,
                            slot := (slots.find? fun i => i != x.parity).getD 0 }
    let st := s.stream stream
    let s := ({ s with media := { s.media with sbSeq := s.media.sbSeq + 1 } } : State).setSb x
    some ((s.setStream { st with open_ := st.open_.filter (·.ds != ds) ++ [first] }).slcFollow, x)

/-- A unit out of the array, for records that no die set has room for; it is never programmed. -/
def nowhere : UnitId := { stream := 255, ds := 255, sb := 0, wl := 0, slot := 0 }

/-- Payload bytes filled in a stream's next unit of a die set. -/
def Stream.off (x : Stream) (ds : Nat) : Nat := (mapGet x.offs ds).getD 0

/-- Sets them. -/
def Stream.setOff (x : Stream) (ds n : Nat) : Stream := { x with offs := mapPut x.offs ds (if n = 0 then none else some n) }

/-- The die set after another. -/
def State.nextSet (s : State) (ds : Nat) : Nat := if ds + 1 < s.dieSets then ds + 1 else 0

/-- The stream's current unit is left: the next unit of its die set, and, where it was the one whose turn it is, the next die
set's turn (R247). -/
def State.leaveUnit (s : State) (stream : Nat) (u : UnitId) : State :=
  let st := s.stream stream
  let rest := st.open_.filter (·.ds != u.ds)
  let next := match s.sb? u.ds u.sb with
    | some x => match nextUnit s.media.profile x u with | some v => [v] | none => []
    | none => []
  s.setStream { st.setOff u.ds 0 with open_ := rest ++ next, turn := if st.turn = u.ds then s.nextSet u.ds else st.turn }

/-- The stream's current unit is left, and where its superblock is full the stream opens the next one in that die set (R247). -/
def State.moveOn (s : State) (stream : Nat) (u : UnitId) : State × List Superblock :=
  let s := s.leaveUnit stream u
  if (s.stream stream).open_.any (·.ds == u.ds) then (s, [])
  else match s.openRaw stream u.ds with
    | some (s, x) => (s, [x])
    | none => (s, [])

/-- A stream's place after a record's part: within the unit, or past its end. -/
def State.afterPart (s : State) (stream : Nat) (u : UnitId) (off cap : Nat) : State × List Superblock :=
  if off < cap then (s.setStream ((s.stream stream).setOff u.ds off), []) else s.moveOn stream u

/-- Lays `len` bytes into a stream, in the die set `pin` alone while it has room, else in turn: answers the address of the first
byte, the units that hold them, and the superblocks opened for it. -/
def State.fill : Nat → State → Nat → Option Nat → Nat → Option Nat → List UnitId → List Superblock →
    State × Nat × List UnitId × List Superblock
  | 0, s, _, _, _, a, us, op => (s, a.getD 0, us ++ [nowhere], op)
  | fuel + 1, s, stream, pin, len, a, us, op =>
    let st := s.stream stream
    let ds := pin.getD st.turn
    match st.open_.find? (·.ds == ds) with
    | none =>
      match s.openRaw stream ds with
      | some (s, x) => State.fill fuel s stream pin len a us (op ++ [x])
      | none =>
        if pin.isSome then State.fill fuel s stream none len a us op
        else State.fill fuel (s.setStream { st with turn := s.nextSet st.turn }) stream none len a us op
    | some u =>
      let slc := s.slcAt u.ds u.sb
      let cap := unitCap s.media.profile slc
      let off := st.off ds
      let a := a.getD (unitAddr s.media.profile slc u off)
      let take := min len (cap - off)
      let us := us ++ [u]
      let x := s.afterPart stream u (off + take) cap
      if len ≤ take then (x.1, a, us, op ++ x.2) else State.fill fuel x.1 stream pin (len - take) (some a) us (op ++ x.2)

/-- Fuel for laying out a record: units it may need, die sets to try, and openings. -/
def State.fillFuel (s : State) (len : Nat) : Nat := 2 * (len / max 1 (unitCap s.media.profile true) + 2) + 2 * s.dieSets + 4

/-- The last unit of the SYSTEM superblock that a new one follows in its die set: where its SB_OPEN lies (R282). -/
def State.sysTail (s : State) (x : Superblock) : Option MediaRec :=
  s.media.recs.foldl (fun b r =>
    let (ds, sb, _) := addrParts r.addr
    if r.stream = 1 ∧ ds = x.ds ∧ sb ≠ x.sb then some r else b) none

/-- SB_OPEN of a SYSTEM superblock, in the superblock that it follows in its die set. -/
def State.logSysOpen (s : State) (x : Superblock) : State :=
  match s.sysTail x with
  | some r => s.journalRec 32 r.addr 1 r.units (.sbOpen x.ds 1 x.sb x.seq true)
  | none => s.journalRec 32 (cwAddr x.ds x.sb 0 * 4096) 1 [] (.sbOpen x.ds 1 x.sb x.seq true)

/-- Appends a journal record to the SYSTEM stream (R281); SYSTEM superblocks opened for it are logged where they begin. -/
def State.journal (s : State) (len : Nat) (b : RecBody) : State :=
  let (s, a, us, op) := State.fill (s.fillFuel len) s 1 none len none [] []
  (op.foldl State.logSysOpen s).journalRec len a 1 us b

/-- SB_OPEN of superblocks that a fill opened. -/
def State.logOpens (s : State) (l : List Superblock) : State :=
  l.foldl (fun s x => if x.stream = 1 then s.logSysOpen x else s.journal 32 (.sbOpen x.ds x.stream x.sb x.seq x.slc)) s

/-- Every stream holds an open superblock in every die set (R247). -/
def State.openAll (s : State) : State :=
  let ids := [0, 1, 2] ++ (List.range s.media.fresh).map (0x10 + ·)
  ((List.range s.dieSets).flatMap fun ds => ids.map fun i => (i, ds)).foldl (fun s x =>
    if (s.stream x.1).open_.any (·.ds == x.2) then s
    else match s.openRaw x.1 x.2 with
      | some (s, y) => s.logOpens [y]
      | none => s) s

/-- Appends a record to a stream (R245, R250), in one die set if it names one; answers its address. -/
def State.append (s : State) (stream len : Nat) (b : RecBody) (pin : Option Nat := none) : State × Nat :=
  let (s, a, us, op) := State.fill (s.fillFuel len) s stream pin len none [] []
  let s := s.logOpens op
  let r : MediaRec := { addr := a, len := len, stream := stream, jseq := none, log := none, body := b, units := us, span := us }
  ({ s with media := { s.media with recs := s.media.recs ++ [r] } }, a)

/-- The record at an address is logged by the journal record last appended. -/
def State.logged (s : State) (a : Nat) : State :=
  { s with media := { s.media with recs := s.media.recs.map fun r => if r.addr = a ∧ r.jseq = none then { r with log := some s.media.jseq } else r } }

/-- A record that the maps, a directory or the journal still need (R264, R284). -/
def State.recValid (s : State) (r : MediaRec) : Bool :=
  match r.body with
  | .commit _ => s.idx.cells.any fun x => x.2.kind != .link && x.2.loc == r.addr
  | .header i n => s.welt.frags.any fun f => f.hdr.stripe == i && f.hdr.index == n && f.hdrAddr == r.addr
  | .dir i n => s.welt.frags.any fun f => f.hdr.stripe == i && f.hdr.index == n && f.dirAddr == r.addr
  | .slice i n _ => s.welt.frags.any fun f => f.hdr.stripe == i && f.hdr.index == n && f.slices.any (·.addr == r.addr)
  | .copy c n => s.welt.frags.any fun f => f.hdr.stripe == c.stripe && f.hdr.index == n && f.copy.isSome
  | .ckptEnd n _ => s.media.cycles.any fun c => c.no == n
  | .ckptSections n _ => s.media.cycles.any (fun c => c.no == n) || s.media.running.any (fun c => c.no == n)
  | .events l => l.all fun e => s.evs.log.contains e
  | .settings n => n == s.fw.flash.copySeq
  | _ => match r.jseq, s.media.cycles.getLast? with
    | some j, some c => decide (c.start ≤ j)
    | _, _ => r.jseq.isSome

/-- Where a record begins in its first program unit. -/
def recStart (p : Bytes) (slc : Bool) (r : MediaRec) : Nat :=
  (addrParts r.addr).2.2 % max 1 (unitCws p slc) * cwPayload + r.addr % 4096

/-- The payload bytes that a record takes of unit `k` of its span: from and to. -/
def recPart (p : Bytes) (slc : Bool) (r : MediaRec) (k : Nat) : Nat × Nat :=
  let cap := unitCap p slc
  let o := recStart p slc r
  (max o (k * cap) - k * cap, min (o + r.len) ((k + 1) * cap) - k * cap)

/-- Bytes of a record in the units that `on` picks. -/
def State.recBytesOn (s : State) (r : MediaRec) (on : UnitId → Bool) : Nat :=
  let slc := slcStream r.stream
  ((List.range r.span.length).map fun k => match r.span[k]? with
    | some u => if on u then let x := recPart s.media.profile slc r k; x.2 - x.1 else 0
    | none => 0).sum

/-- The records that have bytes in a superblock. -/
def State.recsOf (s : State) (ds sb : Nat) : List MediaRec :=
  s.media.recs.filter fun r => r.span.any fun u => u.ds == ds && u.sb == sb

/-- Valid record bytes of a superblock (R264). -/
def State.sbValid (s : State) (ds sb : Nat) : Nat :=
  (((s.recsOf ds sb).filter s.recValid).map fun r => s.recBytesOn r fun u => u.ds == ds && u.sb == sb).sum

/-- Record bytes that a superblock holds when full (R267). -/
def State.sbCap (s : State) (x : Superblock) : Nat :=
  (x.slots.length - 1) * profWordlines s.media.profile * unitCap s.media.profile x.slc

/-- A superblock changes state, journalled first (R263). -/
def State.sbTo (s : State) (ds sb : Nat) (st : SbState) : State :=
  match s.sb? ds sb with
  | some x =>
    if x.st = st then s
    else
      let s := s.journal 32 (.sbState ds sb st x.erases)
      let full := st == .closed && x.st == .open_
      s.setSb { x with st := st, closedAt := if full then s.now else x.closedAt,
                       age := if full then 0 else x.age, scanAge := if full then 0 else x.scanAge }
  | none => s

/-- A stream's unit lies in a superblock. -/
def State.inStream (s : State) (ds sb : Nat) : Bool :=
  s.media.streams.any fun t => t.open_.any fun u => u.ds == ds && u.sb == sb

/-- A program unit waits to be programmed. -/
def State.unitPending (s : State) (u : UnitId) : Bool := s.media.recs.any fun r => r.units.contains u

/-- An OPEN superblock that no stream fills and that has nothing left to program is fully written: CLOSED (Table 9.1). -/
def State.closeFull (s : State) (ds sb : Nat) : State :=
  match s.sb? ds sb with
  | some x =>
    if x.st = .open_ ∧ s.inStream ds sb = false ∧
      (s.media.recs.any fun r => r.units.any fun u => u.ds == ds && u.sb == sb) = false then s.sbTo ds sb .closed
    else s
  | none => s

/-- The superblock's SB_OPEN is on media, or lies in this very superblock (R282). -/
def State.openLogged (s : State) (u : UnitId) : Bool :=
  match s.sb? u.ds u.sb with
  | some x =>
    !(s.media.recs.any fun r => (match r.body with | .sbOpen ds _ sb seq _ => ds == u.ds && sb == u.sb && seq == x.seq | _ => false) &&
      !r.units.isEmpty && !r.units.contains u)
  | none => false

/-- The limit that commands' counter values stay below (R302). -/
abbrev counterLimit : Nat := 2 ^ 64 - 2 ^ 40

/-- COUNTER_WRAP: every namespace becomes read-only and event 0x0906 is recorded once (R302). -/
def State.checkWrap (s : State) : State :=
  if counterLimit ≤ s.sec.counter ∧ s.sec.wrapped = false then
    ({ s with sec := { s.sec with wrapped := true } } : State).event 0x0906 [(8, s.sec.counter)]
  else s

/-- Counter values are used: at the middle of a chunk COUNTER_RESERVE names the next (R300, R302). -/
def State.useCounter (s : State) (n : Nat) : State :=
  let s := ({ s with sec := { s.sec with counter := s.sec.counter + n } } : State).checkWrap
  let c := s.sec.counter / 2 ^ 24
  if 2 ^ 23 ≤ s.sec.counter % 2 ^ 24 ∧ s.sec.chunk ≤ c then
    ({ s with sec := { s.sec with chunk := c + 1 } } : State).journal 32 (.counterReserve (c + 1))
  else s

/-- The record payload of a program unit, with end marks where no record lies (R245, Table 8.3). -/
def State.unitPayload (s : State) (u : UnitId) : Bytes :=
  let p := s.media.profile
  let slc := s.slcAt u.ds u.sb
  let cap := unitCap p slc
  (s.media.recs.filter fun r => r.span.contains u).foldl (fun b r =>
    match (List.range r.span.length).find? fun k => r.span[k]? == some u with
    | some k =>
      let x := recPart p slc r k
      overlay b x.1 (sliceBytes (s.recBytes r) (k * cap + x.1 - recStart p slc r) (x.2 - x.1))
    | none => b) (zeros cap)

/-- FirstRecord of the codeword at a record address: 0xFFFF where none begins there (Table 8.3). -/
def State.firstRecord (s : State) (a : Nat) : Nat :=
  (s.media.recs.filter fun r => recAddr r.addr == a).foldl (fun b r => min b (r.addr % 4096)) 0xFFFF

/-- The 4,096 bytes of a codeword: header in the clear, sealed payload, tag (R244, 10 R299). -/
def State.codeword (s : State) (u : UnitId) (flush : Bool) (counter first : Nat) (payload : Bytes) : Bytes :=
  let key := s.keyBytes .mediaKey
  let seq := ((s.sb? u.ds u.sb).map (·.seq)).getD 0
  let head := leFields [(8, counter), (1, u.stream), (1, bit flush), (2, first), (4, seq)]
  let nonce := beBytes 4 s.fw.otp.noncePrefix ++ beBytes 8 counter
  let cipher := xorBytes payload (Config.aesKeystream key nonce 0 payload.length)
  head ++ cipher ++ padTo (Config.gcmTag key nonce head cipher) 16

/-- A page as programmed: four codewords, each followed by P parity bytes, and 0xFF to its end (R243). -/
def pageBytes (p : Bytes) (cws : List Bytes) : Bytes :=
  let n := parityBytes p
  let b := cws.flatMap fun c => c ++ padTo (Config.ldpcParity c n) n
  b ++ List.replicate (16384 + profSpare p - b.length) 0xFF

/-- The pages of a program unit, plane by plane; its codewords take the counter values from `counter` on (R240, R244). -/
def State.unitPages (s : State) (u : UnitId) (flush : Bool) (counter : Nat) : List Bytes :=
  let p := s.media.profile
  let slc := s.slcAt u.ds u.sb
  let payload := s.unitPayload u
  let cw (i : Nat) : Bytes := s.codeword u flush (counter + i) (s.firstRecord (cwAddr u.ds u.sb (unitQ p slc u + i)))
    (sliceBytes payload (i * cwPayload) cwPayload)
  (List.range (unitCws p slc / 4)).map fun g => pageBytes p ((List.range 4).map fun i => cw (4 * g + i))

/-- Pages are in the array. -/
def State.putImage (s : State) (x : UnitImage) : State := { s with media := { s.media with images := s.media.images ++ [x] } }

/-- With its last data slot programmed, a row's parity page is programmed from the accumulator (R242). -/
def State.rowCheck (s : State) (ds sb wl : Nat) : State :=
  match s.sb? ds sb with
  | none => s
  | some x =>
    match mapGet x.rowDone wl with
    | none => s
    | some a =>
      if (x.slots.filter (· != x.parity)).all fun i => a.slots.contains i then
        let s := (s.setSb { x with rowDone := mapPut x.rowDone wl none, rows := x.rows + 1 }).putImage
          { ds := ds, sb := sb, wl := wl, slot := x.parity, pages := a.acc }
        if x.slc then s else { s with media := { s.media with nProg := s.media.nProg + 1 } }
      else s

/-- A row's data unit is programmed: its pages join the row's accumulator (R242). -/
def State.rowUnit (s : State) (u : UnitId) (pages : List Bytes) : State :=
  match s.sb? u.ds u.sb with
  | none => s
  | some x =>
    let a := (mapGet x.rowDone u.wl).getD {}
    let acc := if a.slots.isEmpty then pages else List.zipWith xorBytes a.acc pages
    (s.setSb { x with rowDone := mapPut x.rowDone u.wl (some { slots := a.slots ++ [u.slot], acc := acc }) }).rowCheck u.ds u.sb u.wl

/-- Removes a unit from the records that wait for it; answers the records that are now on media. -/
def State.settleUnit (s : State) (u : UnitId) : State × List MediaRec :=
  let l := s.media.recs.map fun r => if r.units.contains u then { r with units := r.units.filter (· != u) } else r
  let fin := (s.media.recs.filter fun r => r.units.contains u && (r.units.filter (· != u)).isEmpty).map fun r => { r with units := [] }
  (({ s with media := { s.media with recs := l } } : State).stirred, fin)

/-- A data record of the efficiency figures: a slice, a fragment header or a commit record (R155). -/
def RecBody.data : RecBody → Bool
  | .header _ _ => true
  | .slice _ _ _ => true
  | .commit _ => true
  | .copy _ _ => true
  | _ => false

/-- Record payload bytes of data records in a program unit. -/
def State.dataBytes (s : State) (u : UnitId) : Nat :=
  ((s.media.recs.filter fun r => r.body.data && r.span.contains u).map fun r => s.recBytesOn r fun x => x == u).sum

/-- A unit is programmed: its codewords take counter values, the stream leaves it if it was still being filled, counts and
the row follow (R242, R250, R256, R299). -/
def State.unitDone (s : State) (u : UnitId) (flush : Bool := false) : State × List MediaRec :=
  let slc := s.slcAt u.ds u.sb
  let pages := s.unitPages u flush s.sec.counter
  let s := s.putImage { ds := u.ds, sb := u.sb, wl := u.wl, slot := u.slot, flush := flush, pages := pages }
  let s := if (s.stream u.stream).open_.contains u then let x := s.moveOn u.stream u; x.1.logOpens x.2 else s
  let (s, fin) := s.settleUnit u
  let s := { s with media := { s.media with nProg := s.media.nProg + bit (!slc),
                                            lifeProg := s.media.lifeProg + bit (!slc),
                                            notReady := s.media.notReady.filter fun x => !(x.1 == u.ds && x.2.1 == u.slot) } }
  let s := { s with shank := { s.shank with progBytes := s.shank.progBytes + s.dataBytes u } }
  let s := { s with media := { s.media with ops := s.media.ops.filter fun o => o.kind != OpKind.program u } }
  let s := (s.rowUnit u pages).useCounter (unitCws s.media.profile slc)
  (s.closeFull u.ds u.sb, fin)

/-- Buffer space of a window or a raw value: whole units of 64 KiB (R250). -/
def bufSpace (n : Nat) : Nat := 65536 * ceilDiv n 65536

/-- Bytes of the write buffer in use (R250; DESIGN CHOICE, log 27: records count by their bytes). -/
def State.bufUsed (s : State) : Nat :=
  s.media.granted + ((s.media.recs.filter fun r => !r.units.isEmpty).map (·.len)).sum + (s.media.raw.map fun v => bufSpace v.value.length).sum

/-- Bytes of the write buffer (R250), or what R251 leaves of it. -/
def State.bufSize (s : State) : Nat :=
  match s.media.grantCap with
  | some c => min c (s.media.bufMiB * 2 ^ 20)
  | none => s.media.bufMiB * 2 ^ 20

/-- COMMIT_LOG for a commit record at an address (Table 9.3). -/
def State.logCommit (s : State) (c : CommitRec) (inst loc : Nat) : State :=
  (s.journal 48 (.commitLog c.hash c.version (entryFor c.hash inst loc c false))).logged loc

/-- FRAG_LOG of a held fragment: state 0 PENDING, 1 COMMITTED, 0xFF released (Table 9.3). -/
def State.logFrag (s : State) (f : Frag) (st : Nat) (complete : Bool) : State :=
  (s.journal 48 (.fragLog f.hdr.stripe f.hdr.index st complete f.hdrAddr f.dirAddr)).logged f.hdrAddr

/-- A record stopped being valid: the checkpoint that frees its superblocks must cover this point (R271). -/
def State.sbTouched (s : State) (a : Nat) : State :=
  match s.recAt a with
  | none => s
  | some r => ((r.span.map fun u => (u.ds, u.sb)).eraseDups).foldl (fun s x => match s.sb? x.1 x.2 with
    | some y => s.setSb { y with lastMove := s.media.jseq }
    | none => s) s

/-- The maps name a record's new address where they still name the old one (R272). -/
def State.remap (s : State) (r : MediaRec) (new : Nat) : State :=
  let old := r.addr
  match r.body with
  | .commit _ => { s with idx := { s.idx with cells := s.idx.cells.map fun c => if c.2.kind != .link && c.2.loc == old then (c.1, { c.2 with loc := new }) else c } }
  | .header i n => { s with welt := { s.welt with frags := s.welt.frags.map fun f => if f.hdr.stripe = i ∧ f.hdr.index = n ∧ f.hdrAddr = old then { f with hdrAddr := new } else f } }
  | .dir i n => { s with welt := { s.welt with frags := s.welt.frags.map fun f => if f.hdr.stripe = i ∧ f.hdr.index = n ∧ f.dirAddr = old then { f with dirAddr := new } else f } }
  | .slice i n _ => { s with welt := { s.welt with frags := s.welt.frags.map fun f =>
      if f.hdr.stripe = i ∧ f.hdr.index = n then
        { f with slices := f.slices.map fun x => if x.addr = old then { x with addr := new } else x,
                 dirAddr := if f.dirAddr = old then new else f.dirAddr }
      else f } }
  | _ => s

/-- Appends a record again at the next positions of a stream, and the maps follow (R250): the old record goes. No journal record
names the new place, so that recovery finds it by its scan (R286 step 6). -/
def State.reappend (s : State) (r : MediaRec) (stream : Nat) : State :=
  let pin := if stream = 2 then some (addrParts r.addr).1 else none
  let (s, a, us, op) := State.fill (s.fillFuel r.len) s stream pin r.len none [] []
  let s := s.logOpens op
  let s := { s with media := { s.media with
    recs := s.media.recs.map fun x =>
      if x.addr = r.addr ∧ x.body = r.body then { x with addr := a, stream := stream, log := none, units := us, span := us } else x,
    moves := s.media.moves.map fun m => if m.new = r.addr then { m with new := a } else m } }
  if s.media.moves.any (·.new == a) then s else s.remap r a

/-- Rate of one channel in MT/s (R237), by the LUNs present on it, unused ones included. -/
def State.chanRate (s : State) (c : Nat) : Nat := if s.media.present.getD c 0 ≤ 16 then 2400 else 1200

/-- The slowest channel's rate in MT/s (R237). -/
def State.channelRate (s : State) : Nat := if s.media.present.any (16 < ·) then 1200 else 2400

/-- HoldupRequiredMs for given settings (R251); `p` is empty while no profile has been accepted. -/
def holdupMs (p : Bytes) (bufMiB tokens tokenCost dies rate : Nat) : Nat :=
  if p.length != 128 ∨ dies = 0 then 8 + ceilDiv bufMiB 8
  else
    let base := max 8000000 (profTProg p + profTSusp p + 2 * profSlcTProg p + 1000000)
    let nf := min dies (tokens / max 1 tokenCost)
    let rDie := nf * profPlanes p * 16384 * 31 * 1000000 / (32 * max 1 (profSlcTProg p))
    let rCh := 8 * rate * 1000 * 4096 * 31 / (32 * (4096 + parityBytes p))
    let r := min 8388608 (min rDie rCh)
    ceilDiv (base + ceilDiv (bufMiB * 1048576 * 1000000) (max 1 r)) 1000000

/-- HoldupRequiredMs with the values in effect. -/
def State.holdupNow (s : State) : Nat :=
  holdupMs s.media.profile s.media.bufMiB s.media.flushTokens (s.num K.tokenCostProgram) s.diesInService s.channelRate

/-- HoldupRequiredMs with the values last accepted, for the dies in service at the last discovery (R251). -/
def State.holdupAccepted (s : State) (p : Bytes) (bufMiB tokens : Nat) : Nat :=
  holdupMs p bufMiB tokens (s.num K.tokenCostProgram) s.media.discDies s.channelRate

/-- The largest whole number of MiB of buffer whose flush fits the budget. -/
def State.fitMiB : Nat → State → Nat → Nat
  | 0, _, _ => 0
  | n + 1, s, budget =>
    if holdupMs s.media.profile (n + 1) s.media.flushTokens (s.num K.tokenCostProgram) s.diesInService s.channelRate ≤ budget
    then n + 1 else State.fitMiB n s budget

/-- After a die retirement: where the flush no longer fits the budget, less buffer space is granted (R251). -/
def State.holdupRecheck (s : State) : State :=
  let need := s.holdupNow
  let budget := s.media.budgetMs
  if need ≤ budget then s
  else
    let c := State.fitMiB s.media.bufMiB s budget * 2 ^ 20
    if s.media.grantCap = some c then s
    else ({ s with media := { s.media with grantCap := some c } } : State).event 0x080B [(2, need), (2, budget)]

/-- A move is on its way for a record. -/
def State.moving (s : State) (a : Nat) : Bool := s.media.moves.any (·.old == a)

/-- The retention class of the write that a record belongs to, from its header or commit record (R248). -/
def State.recClass (s : State) (r : MediaRec) : Nat :=
  match r.body with
  | .commit c => c.attrs % 8
  | .copy c _ => c.attrs % 8
  | .header i n | .dir i n | .slice i n _ =>
    ((s.welt.frags.find? fun f => f.hdr.stripe == i && f.hdr.index == n).map fun f => f.hdr.attrs % 8).getD 4
  | _ => 4

/-- The FRESH sub-stream of a retention class (R248). -/
def State.freshStream (s : State) (cls : Nat) : Nat := 0x10 + cls * s.media.fresh / 8

/-- Copies one valid record of a victim to its destination; SETTLED's lies in the same die set (R268, R271 step 1). -/
def State.copyRec (s : State) (ds sb : Nat) (r : MediaRec) (stream : Nat) : State :=
  let (s, a, us, op) := State.fill (s.fillFuel r.len) s stream (if stream = 2 then some ds else none) r.len none [] []
  let s := s.logOpens op
  let new : MediaRec := { r with addr := a, stream := stream, units := us, span := us }
  ({ s with media := { s.media with recs := s.media.recs ++ [new],
                                    moves := s.media.moves ++ [{ ds := ds, sb := sb, old := r.addr, new := a }] } } : State).addTo
    K.gcBytesRelocated r.len

/-- The destination of a victim's records: SYSTEM stays, SLC folds by class, native goes to SETTLED (R268, R269). -/
def State.moveStream (s : State) (x : Superblock) (r : MediaRec) : Nat :=
  if x.stream = 1 then 1 else if x.slc then s.freshStream (s.recClass r) else 2

/-- A victim is chosen: VICTIM, and every valid record copied (R271). -/
def State.relocate (s : State) (x : Superblock) : State :=
  let s := (s.sbTo x.ds x.sb .victim).bump K.gcVictims
  let valid := (s.recsOf x.ds x.sb).filter fun r => s.recValid r && !s.moving r.addr
  let valid := valid.filter fun r => match r.body with
    | .dir i n => !(valid.any fun y => match y.body with | .slice j k _ => j == i && k == n | _ => false)
    | _ => true
  valid.foldl (fun s r => s.copyRec x.ds x.sb r (s.moveStream x r)) s

/-- An erase may be covered: a cycle whose start lies after the superblock's last map change has ended (R284). -/
def State.covered (s : State) (x : Superblock) : Bool :=
  match s.media.cycles with
  | c :: _ => decide (x.lastMove < c.start)
  | [] => x.lastMove == 0

/-- VICTIM superblocks, and CLOSED ones, without valid bytes and covered, go to PENDING_ERASE (R266, R271 step 4). -/
def State.pendErase (s : State) : State :=
  s.media.sbs.foldl (fun s x =>
    if (x.st = .victim ∨ x.st = .closed) ∧ s.covered x = true ∧ s.sbValid x.ds x.sb = 0 ∧
        (s.media.moves.any fun m => m.ds == x.ds && m.sb == x.sb) = false then
      s.sbTo x.ds x.sb .pendingErase
    else s) s

/-- The record at an address is on media. -/
def State.onMedia (s : State) (a : Nat) : Bool := ((s.recAt a).map fun r => r.units.isEmpty).getD true

/-- A move is of a slice that a directory names, and not a map. -/
def State.dirSlice (s : State) (m : Move) : Option (StripeId × Nat) :=
  match s.recAt m.old with
  | some r => match r.body with
    | .slice i n _ => if s.welt.frags.any fun f => f.hdr.stripe == i && f.hdr.index == n && decide (1 < f.hdr.segments) then some (i, n) else none
    | _ => none
  | none => none

/-- Slices of a fragment are still on their way. -/
def State.slicesMoving (s : State) (i : StripeId) (n : Nat) : Bool :=
  s.media.moves.any fun m => s.dirSlice m == some (i, n)

/-- The new directory of a fragment whose slices have moved, beside them (R268, R269, R271 step 2). -/
def State.newDir (s : State) (ds sb : Nat) (i : StripeId) (n : Nat) : State :=
  match s.welt.frags.find? fun f => f.hdr.stripe == i && f.hdr.index == n with
  | some f =>
    if s.slicesMoving i n then s
    else
      let fold := s.slcAt ds sb
      let (s, a) := s.append (if fold then s.freshStream (f.hdr.attrs % 8) else 2) (pad16 (32 + 5 * f.hdr.segments)) (.dir i n)
        (if fold then none else some ds)
      { s with media := { s.media with moves := s.media.moves ++ [{ ds := ds, sb := sb, old := f.dirAddr, new := a }] } }
  | none => s

/-- A record that a map names by its address (R264, R271 step 3). -/
def RecBody.named : RecBody → Bool
  | .commit _ => true
  | .header .. => true
  | .dir .. => true
  | .slice .. => true
  | _ => false

/-- Copies of one victim that are on media: one MOVE_LOG for those that maps name, and the maps change where they still
name the old address; fragments whose slices all moved get a new directory. -/
def State.moveBatch (s : State) (ds sb : Nat) (l : List Move) : State :=
  let dirs := (l.filterMap s.dirSlice).eraseDups
  let isNamed (m : Move) : Bool := match s.recAt m.old with | some r => r.body.named | none => false
  let direct := l.filter fun m => (s.dirSlice m).isNone && isNamed m
  let plain := l.filter fun m => !isNamed m
  let s := if direct.isEmpty then s
    else s.journal (32 + 16 * direct.length) (.moveLog ds sb (direct.map fun m => (m.old, m.new)))
  let s := l.foldl (fun s m => match s.recAt m.old with | some r => s.remap r m.new | none => s) s
  let s := { s with media := { s.media with moves := s.media.moves.filter (fun m => !l.contains m),
                                            recs := s.media.recs.filter fun r => !(plain.any fun m => m.old == r.addr) } }
  let s := (dirs.foldl (fun s d => s.newDir ds sb d.1 d.2) s).stirred
  match s.sb? ds sb with
  | some x => s.setSb { x with lastMove := s.media.jseq }
  | none => s

/-- Copies that are on media get their MOVE_LOG, at most 250 to a record (R271 step 3). -/
def State.moveLogs : Nat → State → State
  | 0, s => s
  | fuel + 1, s =>
    match s.media.moves.find? fun m => s.onMedia m.new with
    | none => s
    | some m =>
      let l := (s.media.moves.filter fun x => x.ds == m.ds && x.sb == m.sb && s.onMedia x.new).take 250
      State.moveLogs fuel (s.moveBatch m.ds m.sb l)

/-- FREE superblocks owed to admitted writes: their outstanding record bytes at this drive over the record bytes of a
superblock (R270). -/
def State.owed (s : State) : Nat :=
  let one := 31 * profWordlines s.media.profile * unitCap s.media.profile false
  let home := (s.kv.cmds.filterMap fun c => c.write.map fun w => if w.commit.isNone then ceilDiv c.pkt.valueLen (max 1 w.k) else 0).sum
  let held := (s.welt.frags.filterMap fun f =>
    if f.slices.length < f.hdr.segments then some (f.hdr.fragLen - (f.slices.map (·.data.length)).sum) else none).sum
  if one = 0 then 0 else ceilDiv (home + held) one

/-- The journal's bytes since the newest start (0x2804:05). -/
def State.journalSpan (s : State) : Nat :=
  let start := match s.media.running, s.media.cycles with | some c, _ => c.start | none, c :: _ => c.start | none, [] => 0
  ((s.media.recs.filter fun r => match r.jseq with | some j => decide (start ≤ j) | none => false).map (·.len)).sum

/-- A checkpoint cycle starts: StartJSeq is the next JSeq, and the image is taken as the maps stand (R283, R284). -/
def State.startCycle (s : State) : State :=
  match s.media.running with
  | some _ => s
  | none =>
    let no := (s.media.cycles.head?.map (·.no)).getD 0 + 1
    let im : Image := { cells := s.idx.cells.map fun c => (c.1, { c.2 with hot := false }),
                        frags := s.welt.frags.map fun f =>
                          { stripe := f.hdr.stripe, index := f.hdr.index, state := bit f.committed,
                            complete := decide (f.hdr.segments ≤ f.slices.length), hdr := f.hdrAddr, dir := f.dirAddr } }
    { s with media := { s.media with running := some { no := no, start := s.media.jseq + 1, image := im }, lastCycleAt := s.now } }

/-- A superblock is due for a retention scan (R279). -/
def State.scanIsDue (s : State) (x : Superblock) : Bool :=
  x.st == .closed && (x.scanDue || decide (x.scanAge + s.num K.retentionScanDays * 86400 * nsSec ≤ x.age))

/-- Record bytes of the SLC stream's superblocks (R269). -/
def State.slcUsed (s : State) : Nat :=
  ((s.media.sbs.filter fun x => x.stream == 0 && (x.st == .open_ || x.st == .closed)).map fun x =>
    ((s.recsOf x.ds x.sb).map fun r => s.recBytesOn r fun u => u.ds == x.ds && u.sb == x.sb).sum).sum

/-- The oldest CLOSED superblock of the SLC stream. -/
def State.oldestSlc (s : State) : Option Superblock :=
  match s.media.sbs.filter fun x => x.stream == 0 && x.st == .closed with
  | [] => none
  | a :: l => some (l.foldl (fun (b x : Superblock) => if x.seq < b.seq then x else b) a)

/-- The SLC stream is over its size, or its oldest superblock too old (R269). -/
def State.foldDue (s : State) (x : Superblock) : Bool :=
  decide (s.media.slcBytes < s.slcUsed) || decide (x.closedAt + s.num K.slcFoldSeconds * nsSec < s.now)

/-- A checkpoint cycle is due: on its period, or at the journal span (R284). -/
def State.cycleDue (s : State) : Bool :=
  decide (s.media.lastCycleAt + s.num K.checkpointCycleSeconds * nsSec ≤ s.now) || decide (s.num K.journalSpanMiB * 2 ^ 20 ≤ s.journalSpan)

/-- Die sets short of space: the event, and a checkpoint cycle at once (R270). -/
def State.checkShort (s : State) : State :=
  (List.range s.dieSets).foldl (fun s ds =>
    if s.media.deadSets.contains ds then s
    else
      let free := s.freeCount ds
      let owed := s.owed
      let short := decide (free < s.num K.gcUrgentFree + owed)
      if short && !s.media.short.contains ds then
        (({ s with media := { s.media with short := ds :: s.media.short } } : State).event 0x0815 [(4, ds), (4, free), (4, owed)]).startCycle
      else if !short && s.media.short.contains ds then
        { s with media := { s.media with short := s.media.short.filter (· != ds) } }
      else s) s

/-- A block of one slot is retired on all planes, and journalled; a superblock left with fewer than 24 slots becomes
UNUSABLE (R274). -/
def State.retireBlock (s : State) (ds slot b reason : Nat) : State :=
  if s.media.badBlocks.contains (ds, slot, b) then s
  else
    let s := { s with media := { s.media with badBlocks := s.media.badBlocks ++ [(ds, slot, b)] } }
    let s := ((s.journal 32 (.retire ds slot b 1 reason)).bump K.blocksRetired).event 0x080E [(4, ds), (4, slot), (4, b), (4, reason)]
    if 24 ≤ (s.slotsIn ds b).length then s
    else match s.sb? ds b with
      | some x => if x.st = .free then s.sbTo ds b .unusable else s
      | none => s.setSb { ds := ds, sb := b, st := .unusable }

/-- A superblock becomes a forced victim for a reason, unless an earlier request stands (R266). -/
def State.force (s : State) (ds sb reason : Nat) : State :=
  match s.sb? ds sb with
  | some x => if x.forced = 0 ∨ reason < x.forced then s.setSb { x with forced := reason, forcedAt := s.now } else s
  | none => s

/-- A superblock is closed early: no stream fills it further (R274). -/
def State.closeEarly (s : State) (ds sb : Nat) : State :=
  let l := s.media.streams.map fun t =>
    if t.open_.any (fun u => u.ds == ds && u.sb == sb) then
      { t with open_ := t.open_.filter (fun u => !(u.ds == ds && u.sb == sb)), offs := mapPut t.offs ds none }
    else t
  let s := { s with media := { s.media with streams := l } }
  s.sbTo ds sb .closed

/-- The pages of some units that a record has bytes on, by the record address of their first codeword. -/
def State.recPages (s : State) (r : MediaRec) (on : UnitId → Bool) : List Nat :=
  let slc := slcStream r.stream
  let page := 4 * cwPayload
  (List.range r.span.length).flatMap fun k => match r.span[k]? with
    | some u =>
      if on u then
        let x := recPart s.media.profile slc r k
        (List.range ((x.2 + page - 1) / page - x.1 / page)).map fun i => cwAddr u.ds u.sb (unitQ s.media.profile slc u + 4 * (x.1 / page + i))
      else []
    | none => []

/-- A unit's pages can be read, or rebuilt from its row: its die is in service, or it is the only one of its superblock's dies that
is not (R242). -/
def State.unitSound (s : State) (u : UnitId) : Bool :=
  !s.dieOut u.ds u.slot || decide (((((s.sb? u.ds u.sb).map (·.slots)).getD []).filter (s.dieOut u.ds)).length ≤ 1)

/-- Valid records on units that `on` picks are rewritten: pages of retired dies are rebuilt from parity where it allows that, each with
event 0x0804; else the record is lost here, and peers repair its fragment (R242). -/
def State.rebuildUnits (s : State) (on : UnitId → Bool) : State :=
  let l := s.media.recs.filter fun r => r.span.any on && s.recValid r && !s.moving r.addr && r.units.isEmpty
  let whole := l.filter fun r => r.span.all s.unitSound
  let lost := (l.filter fun r => !r.span.all s.unitSound).map (·.addr)
  let s := { s with media := { s.media with badAddrs := s.media.badAddrs ++ lost, toRepair := s.media.toRepair ++ lost } }
  let pages := (whole.flatMap fun r => s.recPages r fun u => on u && s.dieOut u.ds u.slot).eraseDups
  let s := pages.foldl (fun s a => (s.bump K.dieParityRebuilds).event 0x0804 [(5, a)]) s
  whole.foldl (fun s r =>
    match r.span.find? on with
    | some u => s.copyRec u.ds u.sb r (match s.sb? u.ds u.sb with | some x => s.moveStream x r | none => 2)
    | none => s) s

/-- A stream whose superblock in a die set was closed opens another one there (R247, R274). -/
def State.reopen (s : State) (stream ds : Nat) : State :=
  if (s.stream stream).open_.any (·.ds == ds) then s
  else match s.openRaw stream ds with
    | some (s, x) => s.logOpens [x]
    | none => s

/-- A superblock that is being written is closed early, its stream opens another, and what was not programmed yet is appended again
(R250, R274). -/
def State.evacuate (s : State) (ds sb : Nat) : State :=
  let streams := (s.media.streams.filter fun t => t.open_.any fun u => u.ds == ds && u.sb == sb).map (·.id)
  let s := streams.foldl (fun s i => s.reopen i ds) (s.closeEarly ds sb)
  let l := s.media.recs.filter fun r => r.units.any fun u => u.ds == ds && u.sb == sb
  l.foldl (fun s r => s.reappend r r.stream) s

/-- An open superblock goes on without a slot whose die was retired: the following units skip it, its units are appended again, and
rows that waited only for it are complete (R242, R247). -/
def State.skipSlot (s : State) (x : Superblock) (slot : Nat) : State :=
  let s := s.setSb { x with slots := x.slots.filter (· != slot) }
  let here (u : UnitId) : Bool := u.ds == x.ds && u.sb == x.sb && u.slot == slot
  let s := ((s.media.streams.flatMap (·.open_)).filter here).foldl (fun s u => let y := s.moveOn u.stream u; y.1.logOpens y.2) s
  let s := (s.media.recs.filter fun r => r.units.any here).foldl (fun s r => s.reappend r r.stream) s
  (x.rowDone.map (·.1)).foldl (fun s wl => s.rowCheck x.ds x.sb wl) s

/-- The OPEN superblocks of a die set leave a slot out; one whose parity slot it was is closed early (DESIGN CHOICE, log 46). -/
def State.evacuateSlot (s : State) (ds slot : Nat) : State :=
  (s.media.sbs.filter fun x => x.ds == ds && x.st == .open_ && x.slots.contains slot).foldl (fun s x =>
    if x.parity = slot then s.evacuate x.ds x.sb else s.skipSlot x slot) s

/-- A die is retired: event and EMCY, RETIRE, its slot excluded, its pages rebuilt; a set with fewer than 24 dies is
retired whole (R242, R274). -/
def State.retireDie (s : State) (ds slot reason : Nat) : State :=
  if s.media.retiredDies.contains (ds, slot) || s.media.deadSets.contains ds then s
  else
    let s := { s with media := { s.media with retiredDies := s.media.retiredDies ++ [(ds, slot)] } }
    let left := s.diesIn ds
    let s := (s.eventEmcy 0x0803 [(4, ds), (4, slot), (4, left)] 0x5010 false).journal 32 (.retire ds slot 0 2 reason)
    let s := (s.evacuateSlot ds slot).rebuildUnits fun u => u.ds == ds && u.slot == slot
    let s := if left < 24 then
        let s := { s with media := { s.media with deadSets := s.media.deadSets ++ [ds] } }
        let s := (s.media.sbs.filter fun x => x.ds == ds && x.st == .open_).foldl (fun s x => s.evacuate x.ds x.sb) s
        (s.journal 32 (.retire ds 0 0 3 reason)).rebuildUnits fun u => u.ds == ds
      else s
    s.holdupRecheck

/-- A die whose retired blocks exceed DieRetireBlocksPermille of its blocks is retired (R274). -/
def State.checkDieBlocks (s : State) (ds slot : Nat) : State :=
  let own := s.makerBad
  let bad := (s.media.badBlocks.filter fun x => x.1 == ds && x.2.1 == slot && !own.contains x).length
  if profBlocks s.media.profile * s.num K.dieRetireBlocksPermille < bad * 1000 then s.retireDie ds slot 5 else s

/-- Blocks that were to be retired once their superblock has been relocated (R274). -/
def State.retireCondemned (s : State) : State :=
  (s.media.sbs.filter fun x => x.st == .pendingErase && !x.retireSlots.isEmpty).foldl (fun s x =>
    let s := match s.sb? x.ds x.sb with | some y => s.setSb { y with retireSlots := [] } | none => s
    x.retireSlots.foldl (fun s i => (s.retireBlock x.ds i x.sb 3).checkDieBlocks x.ds i) s) s

/-- The stripe that a record belongs to. -/
def RecBody.stripe? : RecBody → Option StripeId
  | .header i _ => some i
  | .slice i _ _ => some i
  | .dir i _ => some i
  | .commit c => some c.stripe
  | .copy c _ => some c.stripe
  | _ => none

/-- Some command has relied on a record as durable: the write that it belongs to has ended (R252, R253). -/
def State.relied (s : State) (r : MediaRec) : Bool :=
  match r.body.stripe? with
  | some i => !(s.kv.cmds.any fun c => c.write.any (·.stripe == i))
  | none => true

/-- The longest an operation keeps its die busy: every retry reads the page again (R139, R246). -/
def OpKind.busy (p : Bytes) (slc : Bool) : OpKind → Nat
  | .program _ => if slc then profSlcTProg p else profTProg p
  | .erase .. => profTBers p
  | .read _ o _ => (match o with | .step n => n + 1 | _ => profRetries p + 1) * (if slc then profSlcTR p else profTR p)

/-- Die set, superblock and slot of an operation. -/
def State.opPlace (s : State) : OpKind → Nat × Nat × Nat
  | .program u => (u.ds, u.sb, u.slot)
  | .erase ds sb slot => (ds, sb, slot)
  | .read a _ _ => let x := s.slotOf (a * 4096); (x.1, (addrParts (a * 4096)).2.1, x.2)

/-- Busy time that an operation needs once it is issued. -/
def State.opBusy (s : State) (o : ArrayOp) : Nat :=
  let x := s.opPlace o.kind
  o.left.getD (o.kind.busy s.media.profile (s.slcAt x.1 x.2.1))

/-- Tokens that an operation holds from issue to ready (R139). -/
def State.opCost (s : State) : OpKind → Nat
  | .program _ => s.num K.tokenCostProgram
  | .erase .. => s.num K.tokenCostErase
  | .read .. => s.num K.tokenCostRead

/-- An erase is suspended: its tokens return, and what it still needs is kept (R255). -/
def State.suspendOp (s : State) (o : ArrayOp) (at_ : Nat) : State :=
  let left := s.opBusy o - (at_ - o.issuedAt.getD at_)
  ({ s with media := { s.media with ops := s.media.ops.map fun x =>
      if x.no = o.no then { x with issuedAt := none, tokenWait := none, left := some left, suspends := x.suspends + 1 } else x } } : State).bump
    K.eraseSuspends

/-- The copies that became ready are mapped, emptied victims wait for erase, and their condemned blocks are retired. -/
def State.settleMoves (s : State) : State := (State.moveLogs (s.media.moves.length + 1) s).pendErase.retireCondemned

end Sys2Proof.Machine
end

