-- ==== Sys2Proof/Machine/Wire.lean ====
section
/-! DEFINITION. The bytes of the packets that the part sends, and their protection (03 R56, R62, R64, R65, R75, R77, R80, R93,
Tables 3.1, 3.2, 3.6, 3.7, 3.10 to 3.17). -/

namespace Sys2Proof.Machine

/-- The ECN codepoint of every packet sent: ECT(0) (R55; RFC 3168 for RWP v1, R92). -/
abbrev ect0 : Nat := 2

/-- The 16-byte common header (Table 3.1). -/
def rwpHeader (type flags sid pn : Nat) : Bytes := [2, BitVec.ofNat 8 type, BitVec.ofNat 8 flags, 0] ++ beBytes 4 sid ++ beBytes 8 pn

/-- The packet type (Table 3.2). -/
def PktBody.type : PktBody → Nat
  | .cmd _ => 0x10
  | .grant .. => 0x11
  | .data .. => 0x12
  | .resp .. => 0x13
  | .ack .. => 0x20
  | .nak .. => 0x21
  | .keepalive .. => 0x30
  | .close .. => 0x31
  | .redirect .. => 0x40

/-- Bytes 16 onward of a CMD (Table 3.10). -/
def CmdPkt.wire (c : CmdPkt) : Bytes :=
  beBytes 1 c.opcode ++ beBytes 1 c.flags ++ beBytes 2 c.tag ++ beBytes 1 (16 * c.cls + c.inc) ++ [0] ++ beBytes 2 c.ns ++ beBytes 4 c.gen ++
    beBytes 4 c.seq ++ beBytes 2 c.keyLen ++ beBytes 2 c.paramLen ++ beBytes 8 c.valueLen ++ c.params ++ c.key ++ c.value

/-- Bytes 16 onward of a packet (Tables 3.6, 3.7, 3.10 to 3.14, 3.16, 3.17). -/
def PktBody.wire : PktBody → Bytes
  | .cmd c => c.wire
  | .grant tag inc w =>
    beBytes 2 tag ++ beBytes 1 inc ++ beBytes 1 w.length ++ zeros 4 ++ w.flatMap fun x => beBytes 4 x.1 ++ beBytes 4 x.2
  | .data tag inc off last b => beBytes 2 tag ++ beBytes 1 inc ++ beBytes 1 (128 * bit last) ++ beBytes 4 off ++ zeros 4 ++ b
  | .resp op st tag inc b => beBytes 1 op ++ beBytes 1 st ++ beBytes 2 tag ++ beBytes 1 inc ++ [0] ++ beBytes 2 b.length ++ b
  | .redirect op tag inc udp epoch home addr =>
    beBytes 1 op ++ [8] ++ beBytes 2 tag ++ beBytes 1 inc ++ beBytes 1 (if addr.length = 4 then 4 else 6) ++ beBytes 2 udp ++
      beBytes 4 epoch ++ beBytes 2 home ++ [0, 0] ++ padTo addr 16
  | .ack largest delay credit ce ranges rel =>
    beBytes 8 largest ++ beBytes 4 delay ++ beBytes 4 credit ++ ((List.range 4).flatMap fun i => beBytes 4 (ce.getD i 0)) ++
      beBytes 1 ranges.length ++ beBytes 1 rel.length ++ [0, 0] ++ (ranges.flatMap fun r => beBytes 4 r.1 ++ beBytes 4 r.2) ++
      rel.flatMap fun r => beBytes 2 r.1 ++ beBytes 1 r.2 ++ [0]
  | .nak reason l =>
    beBytes 1 reason ++ beBytes 1 l.length ++ [0, 0] ++
      l.flatMap fun e => if reason = 1 then beBytes 8 e.1 ++ beBytes 8 e.2.1 else beBytes 2 e.1 ++ beBytes 1 e.2.1 ++ [0] ++ beBytes 4 e.2.2
  | .keepalive echo stamp => beBytes 1 (bit echo) ++ zeros 7 ++ beBytes 8 stamp
  | .close reason detail => beBytes 1 reason ++ zeros 3 ++ beBytes 4 detail

/-- A packet's length with its tag (Tables 3.6 to 3.17). -/
def PktBody.size : PktBody → Nat
  | .cmd c => c.pktLen
  | .grant _ _ w => 24 + 8 * w.length + 16
  | .data _ _ _ _ b => 28 + b.length + 16
  | .resp _ _ _ _ b => 24 + b.length + 16
  | .redirect .. => 64
  | .ack _ _ _ _ r l => 52 + 8 * r.length + 4 * l.length + 16
  | .nak r e => 20 + (if r = 1 then 16 else 8) * e.length + 16
  | .keepalive .. => 48
  | .close .. => 40

/-- The nonce of a packet (R62): the IV XOR the packet number, in 12 bytes. -/
def packetNonce (iv : Bytes) (pn : Nat) : Bytes := xorBytes (padTo iv 12) (zeros 4 ++ beBytes 8 pn)

/-- AES-256-GCM over bytes 16 onward, with the header as additional data: ciphertext and tag (R62). -/
def sealBytes (key iv header plain : Bytes) (pn : Nat) : Bytes :=
  let n := packetNonce iv pn
  let c := xorBytes plain (Config.aesKeystream key n 0 plain.length)
  c ++ padTo (Config.gcmTag key n header c) 16

/-- An RWP v2 packet as it leaves: header, ciphertext, tag (R56, R62). -/
def PktBody.packet (b : PktBody) (key iv : Bytes) (sid path pn : Nat) (retx : Bool) : Bytes :=
  let h := rwpHeader b.type (128 * bit retx + path) sid pn
  h ++ sealBytes key iv h b.wire pn

/-- An RWP v1 message: its 8-byte header and body, which TLS protects (R93). -/
def v1Message (type : Nat) (body : Bytes) : Bytes := beBytes 4 body.length ++ [1] ++ beBytes 1 type ++ [0, 0] ++ body

end Sys2Proof.Machine
end

