-- ==== Sys2Proof/Machine/Net.lean ====
section
/-! DEFINITION. Sessions, paths and packets: lookup, sending, acknowledging, loss, receipt (03 R61 to R69, R83 to R85). -/

namespace Sys2Proof.Machine

/-- The session of a SessionId. -/
def State.session? (s : State) (sid : Nat) : Option Session := s.net.sessions.find? (·.sid == sid)

/-- Replaces a session. -/
def State.setSession (s : State) (x : Session) : State :=
  { s with net := { s.net with sessions := s.net.sessions.map fun y => if y.sid = x.sid then x else y } }

/-- Changes a session if it is there. -/
def State.onSession (s : State) (sid : Nat) (f : Session → Session) : State :=
  { s with net := { s.net with sessions := s.net.sessions.map fun y => if y.sid = sid then f y else y } }

/-- A session's entry goes: keys zeroised, SessionId free, its selectors gone (R61, R348). -/
def State.dropSession (s : State) (sid : Nat) : State :=
  { s with net := { s.net with sessions := s.net.sessions.filter (·.sid != sid), ends := s.net.ends.filter (·.sid != sid) },
           dict := { s.dict with sels := s.dict.sels.filter (·.client != .rwp sid) } }

/-- A path of a session. -/
def Session.path? (x : Session) (p : Nat) : Option NetPath := x.paths.find? (·.idx == p)

/-- Changes one path. -/
def Session.onPath (x : Session) (p : Nat) (f : NetPath → NetPath) : Session :=
  { x with paths := x.paths.map fun q => if q.idx = p then f q else q }

/-- The path is ACTIVE. -/
def NetPath.active (q : NetPath) : Bool := q.st == .active

/-- The lowest-numbered ACTIVE path. -/
def Session.lowestActive (x : Session) : Option NetPath :=
  [0, 1, 2, 3].findSome? fun i => x.paths.find? fun q => q.idx == i && q.active

/-- The path to send on: the preferred one while ACTIVE, else the lowest-numbered ACTIVE path (R85). -/
def Session.choosePath (x : Session) (p : Nat) : Option NetPath :=
  match x.path? p with
  | some q => if q.active then some q else x.lowestActive
  | none => x.lowestActive

/-- Commands of a session that are not released. -/
def Session.unreleased (x : Session) : Nat := (x.tags.filter fun g => !g.released).length

/-- Ack-eliciting types (Table 3.2). -/
def PktBody.eliciting : PktBody → Bool
  | .ack _ _ _ _ _ l => !l.isEmpty
  | .nak .. => false
  | .keepalive .. => false
  | _ => true

/-- DATA payload of a packet, for RecvCredit (R80). -/
def PktBody.payload : PktBody → Nat
  | .data _ _ _ _ b => b.length
  | _ => 0

/-- Bytes in flight on a path (R69). -/
def Session.inFlight (x : Session) (p : Nat) : Nat := ((x.unacked.filter (·.path == p)).map (·.size)).sum

/-- DATA payload sent and not acknowledged (R80); on RWP v1 an ACK acknowledges what was sent before it (DESIGN CHOICE,
log 103). -/
def Session.dataSent (x : Session) : Nat := if x.v1 then x.v1Data else (x.unacked.map (·.body.payload)).sum

/-- DATA payload sent or waiting to be sent, and not acknowledged (R80). -/
def Session.dataInFlight (x : Session) : Nat := x.dataSent + (x.txq.map (·.2.2.payload)).sum

/-- The frame that carries an RWP v2 packet: Ethernet header with its tag, IP and UDP headers, payload, FCS, padded to 64
bytes (11 R322, R323). -/
def State.frameBytes (s : State) (p : PortId) (addr size : Nat) : Nat :=
  max 64 (14 + (if s.num (K.vlanTag p.code) % 4096 = 0 then 0 else 4) + (if addr < 2 ^ 48 then 20 else 40) + 8 + size + 4)

/-- A frame has left a port (Table 11.9). -/
def State.txFrame (s : State) (p : PortId) (bytes : Nat) : State :=
  if s.inFlush then s else (s.bump (K.cTxFrames p.code)).addTo (K.cTxBytes p.code) bytes

/-- A frame has passed the receive checks of a port (Table 11.9). -/
def State.rxFrame (s : State) (p : PortId) (bytes : Nat) : State := (s.bump (K.cRxFrames p.code)).addTo (K.cRxBytes p.code) bytes

/-- The TCI of the RWP and diagnostic frames that a port sends: VlanTag's VID and PCP, or no tag while the VID is 0 (11 R323). -/
def State.portTci (s : State) (p : PortId) : Option Nat :=
  let v := s.num (K.vlanTag p.code)
  if v % 4096 = 0 then none else some (v / 2 ^ 13 * 2 ^ 13 + v % 4096)

/-- The priority at which RWP and diagnostic frames of a port travel (11 R323, R330). -/
def State.rwpPrio (s : State) (p : PortId) : Nat := s.num (K.vlanTag p.code) / 2 ^ 13 % 8

/-- Received pause stops the port, or under PFC the RWP priority (11 R330). -/
def State.txHeld (s : State) (p : PortId) : Bool := (s.port p).paused.any fun h => h.prio == 8 || h.prio == s.rwpPrio p

/-- Something leaves a port, or waits behind received pause. No frame is sent after a hold-up flush starts (R341). -/
def State.emitOn (s : State) (p : PortId) (o : Out) : State :=
  if s.inFlush then s
  else if s.txHeld p then { s with net := { s.net with held := s.net.held ++ [(p, o)] } } else s.emit o

/-- What a port held back leaves once nothing stops it. -/
def State.resumeTx (s : State) (p : PortId) : State :=
  if s.txHeld p then s
  else
    let l := (s.net.held.filter (·.1 == p)).map (·.2)
    { s with out := s.out ++ l, net := { s.net with held := s.net.held.filter (·.1 != p) } }

/-- The last usable packet number (R63). -/
abbrev lastPn : Nat := 2 ^ 62 - 1

/-- An ended promised command counts toward availability (05 R154). -/
def State.countPromised (s : State) (broken : Bool) : State :=
  let s := (s.addTo K.promisedEnded 1).addTo K.promiseBrokenCount (bit broken)
  let s := { s with shank := { s.shank with lifeEnded := s.shank.lifeEnded + 1, lifeBroken := s.shank.lifeBroken + bit broken } }
  let ppb (e b : Nat) : Nat := if e = 0 then 1000000000 else 1000000000 * (e - b) / e
  (s.setNum K.availabilityPpb (ppb (s.num K.promisedEnded) (s.num K.promiseBrokenCount))).setSys K.lifetimeAvailabilityPpb
    (.num (ppb s.shank.lifeEnded s.shank.lifeBroken))

/-- A RESP is handed to the MAC: the promised command that it ends has ended, and counts (05 R128, R154). -/
def State.endSent (s : State) (sid : Nat) : PktBody → State
  | .resp _ _ tag _ _ =>
    match s.net.ends.find? fun e => e.sid == sid && e.tag == tag with
    | some e => ({ s with net := { s.net with ends := s.net.ends.filter fun e => !(e.sid == sid && e.tag == tag) } } : State).countPromised e.broken
    | none => s
  | _ => s

/-- The keys of the direction in which this drive sends (R62). -/
def Session.txKeys (x : Session) : Bytes × Bytes := if x.asHost.isSome then (x.h2dKey, x.h2dIv) else (x.d2hKey, x.d2hIv)

/-- Puts one packet on a path: it takes the next packet number, is protected, and stays unacknowledged if it elicits an ACK; `pref` is
the path that its content prefers. RWP v1 carries it over its connection without a number (R94). -/
def State.txOn (s : State) (x : Session) (q : NetPath) (pref : Nat) (retx : Bool) (b : PktBody) : State :=
  if x.v1 then
    let x := { x with v1Data := x.v1Data + b.payload }
    let s := s.setSession (x.onPath q.idx fun q => { q with lastTx := s.now })
    (s.emitOn q.port (.pkt x.sid q.idx 0 retx b ect0 (s.portTci q.port) (v1Message b.type b.wire))).endSent x.sid b
  else
    let u : Unacked := { pn := x.nextPn, path := q.idx, pref := pref, at_ := s.now, size := b.size, body := b }
    let x := { x with nextPn := x.nextPn + 1, unacked := if b.eliciting then x.unacked ++ [u] else x.unacked,
                      sent := x.sent.filter (fun (y : Sent) => decide (u.pn < y.pn + 4096)) ++ [Sent.mk u.pn q.idx s.now false] }
    let s := s.txFrame q.port (s.frameBytes q.port q.addr b.size)
    let s := s.setSession (x.onPath q.idx fun q => { q with lastTx := s.now })
    let bytes := b.packet x.txKeys.1 x.txKeys.2 (x.sid % 2 ^ 32) q.idx u.pn retx
    (s.emitOn q.port (.pkt x.sid q.idx u.pn retx b ect0 (s.portTci q.port) bytes)).endSent x.sid b

/-- A packet may leave on a path now: its size fits the congestion window (R69); packets that elicit no ACK always do.
An empty flight lets any packet leave, since cwnd is never below two packets. -/
def Session.room (x : Session) (q : NetPath) (b : PktBody) : Bool :=
  x.v1 || !b.eliciting || decide (x.inFlight q.idx + b.size ≤ q.cwnd) || decide (x.inFlight q.idx = 0)

/-- The first waiting content that RecvCredit lets go: DATA beyond `room` waits, and with it what its command sends after it (R80). -/
def takeFree (room : Nat) : List Nat → List (Nat × Bool × PktBody) → Option ((Nat × Bool × PktBody) × List (Nat × Bool × PktBody))
  | _, [] => none
  | stuck, e :: r =>
    let held := match e.2.2 with
      | .data tag _ _ _ b => if room < b.length ∨ tag ∈ stuck then some tag else none
      | .resp _ _ tag _ _ => if tag ∈ stuck then some tag else none
      | _ => none
    match held with
    | some tag => (takeFree room (tag :: stuck) r).map fun y => (y.1, e :: y.2)
    | none => some (e, r)

/-- DATA payload that may be sent now (R80): the far end's RecvCredit bounds what a drive sends its host. -/
def Session.creditLeft (x : Session) : Nat := if x.asHost.isSome then 2 ^ 64 else x.credit - x.dataSent

/-- Sends waiting content in order while a path is ACTIVE, its window and RecvCredit have room and packet numbers last. -/
def State.pump : Nat → State → Nat → State
  | 0, s, _ => s
  | fuel + 1, s, sid =>
    match s.session? sid with
    | none => s
    | some x =>
      match takeFree x.creditLeft [] x.txq with
      | none => s
      | some ((p, retx, b), rest) =>
        match x.choosePath p with
        | none => s
        | some q =>
          if x.room q b && decide (x.nextPn < lastPn) then
            State.pump fuel (s.txOn { x with txq := rest } q p retx b) sid
          else s

/-- Sends content of a session: it joins the queue, which then moves as far as it can. -/
def State.send (s : State) (sid path : Nat) (retx : Bool) (b : PktBody) : State :=
  let s := s.onSession sid fun x => { x with txq := x.txq ++ [(path, retx, b)] }
  State.pump (((s.session? sid).map (·.txq.length)).getD 0) s sid

/-- Sends a packet that elicits no ACK at once on a given path, ACTIVE or not (KEEPALIVE, NAK, ACK). -/
def State.sendNow (s : State) (sid path : Nat) (b : PktBody) : State :=
  match s.session? sid with
  | none => s
  | some x =>
    match x.path? path with
    | some q => if decide (x.nextPn < lastPn) then s.txOn x q q.idx false b else s
    | none => s

/-- Runs of consecutive numbers in a descending list, as (high, low). -/
def runsDown : List Nat → List (Nat × Nat)
  | [] => []
  | a :: r =>
    match runsDown r with
    | (h, l) :: rest => if h + 1 = a then (a, l) :: rest else (a, a) :: (h, l) :: rest
    | [] => [(a, a)]

/-- The ranges of an ACK from runs: Gap and Length (R64). -/
def ackRanges : Nat → List (Nat × Nat) → List (Nat × Nat)
  | _, [] => []
  | prev, (h, l) :: r => (prev - h - 2, h - l) :: ackRanges l r

/-- Inserts in descending order. -/
def insertDown (a : Nat) : List Nat → List Nat
  | [] => [a]
  | b :: r => if b ≤ a then a :: b :: r else b :: insertDown a r

/-- The numbers received, descending. -/
def Session.seenDown (x : Session) : List Nat := x.rxSeen.foldl (fun acc p => insertDown p.1 acc) []

/-- CE-marked packets received on paths 0 to 3 (Table 3.6). -/
def Session.ceCounts (x : Session) : List Nat := [0, 1, 2, 3].map fun i => ((x.path? i).map (·.ceRx)).getD 0

/-- The ACK that the drive sends: RecvCredit 0, or 1,048,576 where this drive is the host (DESIGN CHOICE, log 12); release
entries only as host. RWP v1 leaves ranges and counts empty (R94). -/
def Session.ackBody (x : Session) (now : Nat) (rel : List (Nat × Nat)) : PktBody :=
  let credit := if x.asHost.isSome then 1048576 else 0
  match runsDown x.seenDown with
  | (h, l) :: r => .ack h ((now - x.rxHighAt) / 1000) credit x.ceCounts ((0, h - l) :: ackRanges l (r.take 31)) rel
  | [] => .ack 0 0 credit [0, 0, 0, 0] [] rel

/-- A tag's release entry goes out with an ACK: the tag may be taken again (R72). -/
def Session.releaseSent (x : Session) (rel : List (Nat × Nat)) : Session :=
  { x with tags := x.tags.map fun g => if g.ended && rel.contains (g.tag, g.inc) then { g with released := true } else g,
           releases := x.releases.drop rel.length }

/-- Sends the ACK owed on a path (R64), with the release entries that wait; they make it ack-eliciting, so they wait while the window
has no room (R69). `retx`: entries among them were in a lost ACK (R67). -/
def State.sendAckAs (s : State) (sid path : Nat) (retx : Bool) : State :=
  match s.session? sid with
  | none => s
  | some x =>
    match (x.choosePath path).orElse fun _ => x.path? path with
    | none => s
    | some q =>
      if decide (x.nextPn < lastPn) && !x.rxSeen.isEmpty then
        let rel := x.releases.take 64
        let full := x.ackBody s.now rel
        if x.room q full then s.txOn { x.releaseSent rel with ackOwed := 0 } q q.idx (retx && !rel.isEmpty) full
        else s.txOn { x with ackOwed := 0 } q q.idx false (x.ackBody s.now [])
      else s

/-- Sends the ACK owed on a path (R64). -/
def State.sendAck (s : State) (sid path : Nat) : State := s.sendAckAs sid path false

/-- Release entries that waited for room go (R69, R72). -/
def State.sendReleases (s : State) (sid : Nat) : State :=
  match s.session? sid with
  | some x => if x.releases.isEmpty then s else s.sendAck sid 0
  | none => s

/-- The probe timeout's formula (R68), in ns. -/
def NetPath.ptoBase (q : NetPath) : Nat := max 50000 (q.srtt + max (4 * q.rttvar) 10000 + 25000)

/-- The probe timeout: the formula, doubled at each consecutive expiry up to 64 ms (R68). -/
def NetPath.pto (q : NetPath) : Nat := max q.ptoBase (min 64000000 (q.ptoBase * 2 ^ q.ptos))

/-- An RTT sample (RFC 6298 with gains 1/8 and 1/4). -/
def NetPath.sample (q : NetPath) (r : Nat) : NetPath :=
  if q.sampled then
    { q with rttvar := (3 * q.rttvar + (max q.srtt r - min q.srtt r)) / 4, srtt := (7 * q.srtt + r) / 8 }
  else { q with srtt := r, rttvar := r / 2, sampled := true }

/-- cwnd held between 2 MaxPacketBytes and 16 MiB (R69). -/
def boundCwnd (mpb c : Nat) : Nat := min 16777216 (max (2 * mpb) c)

/-- Content is lost: while the session is OPEN it is sent again with RETX and counted; cwnd is halved at most once per SRTT (R67,
R69). Of an ACK only the release entries go again. -/
def State.lose (s : State) (sid : Nat) (l : List Unacked) : State :=
  let paths := (l.map (·.path)).eraseDups
  let s := s.onSession sid fun x =>
    let x := { x with unacked := x.unacked.filter fun u => !(l.any (·.pn == u.pn)) }
    paths.foldl (fun x p => x.onPath p fun q =>
      match q.lastCut with
      | some c => if s.now < c + q.srtt then q else { q with cwnd := boundCwnd x.mpb (q.cwnd / 2), lastCut := some s.now }
      | none => { q with cwnd := boundCwnd x.mpb (q.cwnd / 2), lastCut := some s.now }) x
  if (s.session? sid).any (·.st == .open_) then
    l.foldl (fun s u =>
      let s := s.bump K.txRetransmit
      match u.body with
      | .ack _ _ _ _ _ rel => (s.onSession sid fun x => { x with releases := rel ++ x.releases }).sendAckAs sid u.pref true
      | b => s.send sid u.pref true b) s
  else s

/-- The retained epochs, the current one first (R200). -/
def State.maps (s : State) : List GroupMap := s.welt.cur.toList ++ s.welt.retained

/-- The member of a retained epoch that a session's far end is (R199, R211). -/
def State.memberOf (s : State) (x : Session) : Option Nat :=
  match x.asHost with
  | some m => some m
  | none => s.maps.findSome? fun g => (g.members.find? fun m => m.identity == x.identity && m.id != s.num K.selfMemberId).map (·.id)

/-- Any session to the member has an ACTIVE path. -/
def State.memberReachable (s : State) (m : Nat) : Bool :=
  s.net.sessions.any fun x => x.st == .open_ && s.memberOf x == some m && x.paths.any NetPath.active

/-- Notes when a member's last ACTIVE path has gone or one has come (R225): event 0x0703 for a lost member's return (direction 2,
DESIGN CHOICE, log 39). -/
def State.noteMember (s : State) (x : Session) : State :=
  match s.memberOf x with
  | none => s
  | some m =>
    if s.memberReachable m then
      let was := s.welt.lost.contains m
      let s := { s with welt := { s.welt with noPath := s.welt.noPath.filter (·.1 != m), lost := s.welt.lost.filter (· != m) } }
      if was then
        let s := s.event 0x0703 [(2, m), (4, Config.eventCode 0x0703 2)]
        if s.welt.lost.isEmpty then s.condOff 0xFF02 else s
      else s
    else if s.welt.noPath.any (·.1 == m) then s
    else { s with welt := { s.welt with noPath := s.welt.noPath ++ [(m, s.now)] } }

/-- A path becomes FAILED (R84): event, count, and its unacknowledged packets are repeated elsewhere. -/
def State.pathFail (s : State) (sid p cause : Nat) : State :=
  match s.session? sid with
  | none => s
  | some x =>
    match x.path? p with
    | none => s
    | some q =>
      if q.st == .failed then s
      else
        let x := x.onPath p fun q => { q with st := .failed }
        let x := { x with noPathSince := if x.paths.any NetPath.active then none else some (x.noPathSince.getD s.now) }
        let s := ((s.setSession x).bump K.pathFailovers).event 0x0302 [(4, sid), (4, p), (4, cause)]
        let s := s.lose sid (x.unacked.filter (·.path == p))
        s.noteMember x

/-- A path becomes ACTIVE (R83): waiting content moves. -/
def State.pathUp (s : State) (sid p : Nat) : State :=
  let s := s.onSession sid fun x =>
    { x.onPath p (fun q => { q with st := .active, ptos := 0, lastRx := s.now }) with noPathSince := none }
  match s.session? sid with
  | none => s
  | some x => State.pump x.txq.length (s.noteMember x) sid

/-- Moves a session on chip; to make room, the on-chip session longest inactive goes to DRAM, preferring those with no
unreleased command (R87). -/
def State.touch (s : State) (sid : Nat) : State :=
  let s := s.onSession sid fun x => { x with onChip := true, lastActive := s.now }
  let chip := s.net.sessions.filter fun x => x.onChip && x.sid != sid
  if chip.length < 4096 then s
  else
    let idle := chip.filter fun x => x.unreleased == 0
    let pool := if idle.isEmpty then chip else idle
    match pool.foldl (fun (b : Option Session) x => match b with
        | none => some x
        | some y => if x.lastActive < y.lastActive then some x else some y) none with
    | some y => s.onSession y.sid fun x => { x with onChip := false }
    | none => s

/-- Packet numbers below a received one that are missing and that 3 later packets on the same path reveal, and that no
NAK named within one SRTT (R66). -/
def Session.gapsFor (x : Session) (p : Nat) (now : Nat) : List Nat :=
  let later := (x.rxSeen.filter (·.2 == p)).map (·.1)
  let srtt := ((x.path? p).map (·.srtt)).getD 100000
  (List.range (min x.rxHigh 4095)).filterMap fun i =>
    let m := x.rxHigh - 1 - i
    if m = 0 ∨ x.rxSeen.any (·.1 == m) then none
    else if (later.filter (m < ·)).length < 3 then none
    else if x.nakked.any fun k => k.1 == m && decide (now < k.2 + srtt) then none
    else some m

/-- Sends NAK GAP for the missing numbers of a path, if there are any (R66). -/
def State.nakGaps (s : State) (sid p : Nat) : State :=
  match s.session? sid with
  | none => s
  | some x =>
    let g := x.gapsFor p s.now
    if x.v1 || g.isEmpty then s
    else
      let runs := ((runsDown g).take 32).map fun r => (r.2, r.1, 0)
      let named := g.filter fun m => runs.any fun r => decide (r.1 ≤ m ∧ m ≤ r.2.1)
      let s := s.onSession sid fun x =>
        { x with nakked := named.map (fun m => (m, s.now)) ++ x.nakked.filter fun k => !(named.contains k.1) && decide (x.rxHigh < k.1 + 4096) }
      (s.sendNow sid p (.nak 1 runs)).bump K.nakGapSent

/-- What the receipt of a protected packet answers: dropped, or taken. -/
inductive Taken where
  | dropped
  | taken
  deriving DecidableEq, Repr

/-- The packet came to a UDP or TCP port other than RwpUdpPort: no RWP frame (R55, 11 Table 11.2). -/
def State.otherPort (s : State) (dst : Option Nat) : Bool := dst.any (· != s.net.udpPort)

/-- Receipt of a protected packet (R55, R56, R62, R63, R83): port, header, session, authentication, path and replay. `kind` is 0 for
ACK and CLOSE, 1 for a PROBE, 2 for every other type; `elicits` says whether it elicits an ACK. -/
def State.receive (s : State) (rx : Rx) (kind : Nat) (elicits : Bool) : State × Taken :=
  if s.otherPort rx.dst then (s.bump (K.cRxFiltered rx.port.code), .dropped)
  else if rx.badHeader then ((s.rxFrame rx.port rx.len).bump K.rxMalformed, .dropped)
  else
  match s.session? rx.sid with
  | none => ((s.rxFrame rx.port rx.len).bump K.rxUnknownSession, .dropped)
  | some x =>
    let s := if x.v1 then s else s.rxFrame rx.port rx.len
    if !rx.tagOk then (s.bump K.rxAuthFail, .dropped)
    else if x.st == .closing && kind != 0 then (s.bump K.rxUnknownSession, .dropped)
    else if !x.v1 && (decide (rx.pn + 4096 ≤ x.rxHigh) || x.rxSeen.any (·.1 == rx.pn)) then (s.bump K.rxReplay, .dropped)
    else
      let known := x.path? rx.path
      let mismatch := match known with
        | some q => !(q.port == rx.port && q.addr == rx.addr)
        | none => kind != 1 || !decide (rx.path < 4)
      if !x.v1 && mismatch then (s.bump K.rxPathMismatch, .dropped)
      else
        let high := max x.rxHigh rx.pn
        let opens := x.st == .halfOpen
        let x := { x with rxHigh := high, rxHighAt := if x.rxHigh < rx.pn then s.now else x.rxHighAt,
                          rxSeen := if x.v1 then [] else ((rx.pn, rx.path) :: x.rxSeen).filter fun k => decide (high < k.1 + 4096),
                          st := if opens then .open_ else x.st, lastCmd := if opens then s.now else x.lastCmd,
                          noPathSince := if opens then none else x.noPathSince,
                          ackSince := if elicits && x.ackOwed == 0 then s.now else x.ackSince,
                          ackOwed := if elicits then x.ackOwed + 1 else x.ackOwed }
        let x := if opens then x.onPath 0 fun q => { q with st := .active } else x
        let x := x.onPath rx.path fun q => { q with lastRx := s.now, ceRx := q.ceRx + bit rx.ce }
        let s := s.setSession x
        let s := if elicits && kind != 0 then { s with mode := { s.mode with idleSince := s.now } } else s
        let s := if opens then s.bump K.sessionsOpened else s
        let s := (s.touch rx.sid).nakGaps rx.sid rx.path
        (s, .taken)

/-- After a packet is handled: two ack-eliciting packets owe an ACK at once (R64). -/
def State.ackIfDue (s : State) (rx : Rx) : State :=
  match s.session? rx.sid with
  | some x => if !x.v1 && decide (2 ≤ x.ackOwed) then s.sendAck rx.sid rx.path else s
  | none => s

/-- The SERVE drive's agreed packet size for a HELLO on a port (R59). -/
def State.portMpb (s : State) (p : PortId) : Nat := s.num (K.ipMtu p.code) - 48

end Sys2Proof.Machine
end

