-- ==== Sys2Proof/Machine/Peer.lean ====
section
/-! DEFINITION. This drive as host of its peer sessions: group members, HELLO, peer commands and their repeats
(03 R57 to R60, 07 R197 to R200, R210, R214, R476). -/

namespace Sys2Proof.Machine

/-- SelfMemberId. -/
def State.selfId (s : State) : Nat := s.num K.selfMemberId

/-- The current epoch number; 0 before the first activation. -/
def State.epoch (s : State) : Nat := (s.welt.cur.map (·.epoch)).getD 0

/-- A retained epoch by number. -/
def State.mapOf (s : State) (e : Nat) : Option GroupMap := s.maps.find? (·.epoch == e)

/-- A member's entry in a map. -/
def GroupMap.member? (g : GroupMap) (id : Nat) : Option Member := g.members.find? (·.id == id)

/-- A member's entry, in the newest retained epoch that lists it. -/
def State.member? (s : State) (id : Nat) : Option Member := s.maps.findSome? fun g => g.member? id

/-- The pre-shared key of an identity. -/
def State.psk? (s : State) (identity : Bytes) : Option Psk := s.sec.psks.find? (·.identity == identity)

/-- A HELLO's bytes (Table 3.3), signed under hello_key. -/
def helloBytes (psk identity nonce pub : Bytes) (mpb : Nat) : Bytes :=
  let b := rwpHeader 1 0 0 0 ++ padTo nonce 32 ++ padTo pub 97 ++ [0] ++ beBytes 2 mpb ++ beBytes 1 identity.length ++ zeros 3 ++
    padTo identity 64
  b ++ cmac16 (kdf psk "RWP2 hello" identity 32) b

/-- Sends HELLO to a member, unless one has gone in the past second: the host role of a peer session (R58; when the drive
opens one, and by which port, the manual does not say: DESIGN CHOICE, log 24). Without random bits none goes (R295). -/
def State.helloTo (s : State) (m : Nat) : State :=
  if s.net.hellos.any (fun h => h.member == m && decide (s.now < h.sentAt + nsSec)) then s
  else
    match s.welt.cur.bind fun g => g.member? s.selfId with
    | none => s
    | some me =>
      match s.psk? me.identity with
      | none => s
      | some k =>
        if s.sec.rngFailed then s
        else
        let r1 := s.random 32
        let r2 := r1.2.random 48
        let nonce := r1.1
        let priv := r2.1
        let s := r2.2
        let pub := padTo (Config.ecdhPublic priv) 97
        let h : HelloOut := { member := m, nonce := nonce, priv := priv, pub := pub, sentAt := s.now }
        let s := { s with net := { s.net with hellos := (s.net.hellos.filter fun (y : HelloOut) => y.member != m) ++ [h] } }
        let p := if s.eth.portA.link == .up then PortId.a else PortId.b
        let v4 := match s.member? m with
          | some x => x.addrA.take 12 == zeros 10 ++ [0xFF, 0xFF]
          | none => false
        let s := s.txFrame p (s.frameBytes p (if v4 then 0 else 2 ^ 48) 232)
        s.emitOn p (.hello m ect0 (helloBytes k.psk me.identity nonce pub (s.portMpb p)))

/-- The open session on which this drive is host toward a member. -/
def State.peerSession (s : State) (m : Nat) : Option Session :=
  s.net.sessions.find? fun x => x.asHost == some m && x.st == .open_

/-- The tag that the next command of a host-role session takes, with its incarnation (R71, R72). -/
def Session.nextTag (x : Session) : Option (Nat × Nat) :=
  if x.maxOut ≤ x.unreleased then none
  else (List.range (x.tags.length + 1)).findSome? fun i =>
    match x.tags.find? (·.tag == i) with
    | none => some (i, 0)
    | some g => if g.released then some (i, (g.inc + 1) % 16) else none

/-- A FRAG_PUT as it goes out: with its slice as immediate data where that has at most 8,192 bytes and the CMD fits the session's
MaxPacketBytes (R59, R81). -/
def CmdPkt.immediateWithin (p : CmdPkt) (value : Bytes) (mpb : Nat) : CmdPkt :=
  if p.opcode ≠ 0x71 then p
  else
    let n := 60 + p.params.length + p.key.length
    if value.length ≤ 8192 ∧ n + value.length ≤ mpb then { p with flags := 0x20, value := value, pktLen := n + value.length }
    else { p with flags := 0, value := [], pktLen := n }

/-- Puts a message on the session toward its member, if one is open with a free tag. -/
def State.dispatch (s : State) (id : Nat) : State :=
  match s.welt.msgs.find? (·.id == id) with
  | none => s
  | some m =>
    match s.peerSession m.member with
    | none => s.helloTo m.member
    | some x =>
      match x.nextTag with
      | none => s
      | some (tag, inc) =>
        let pkt := { m.pkt.immediateWithin m.value x.mpb with tag := tag, inc := inc, seq := x.nextSeq }
        let g : TagRec := { tag := tag, inc := inc, seq := x.nextSeq, ended := false, released := false, byReset := none }
        let s := s.setSession { x with tags := x.tags.filter (·.tag != tag) ++ [g], nextSeq := (x.nextSeq + 1) % 2 ^ 32, lastCmd := s.now }
        let m' := { m with on := some (x.sid, tag), pkt := pkt, sentAt := s.now, tries := m.tries + 1 }
        let s := { s with welt := { s.welt with msgs := s.welt.msgs.map fun (y : PeerMsg) => if y.id = id then m' else y } }
        s.send x.sid 0 false (.cmd pkt)

/-- First repeat after PeerFragTimeoutUs (R476). -/
def State.fragTimeout (s : State) : Nat := s.num K.peerFragTimeoutUs * 1000

/-- Sends a peer command to a member (R210). -/
def State.peerCmd (s : State) (member opcode ns gen cls : Nat) (params key value : Bytes) (f : PeerMsg → PeerMsg) : State :=
  let pkt : CmdPkt := { opcode := opcode, flags := 0, tag := 0, cls := cls, inc := 0, ns := ns, gen := gen, seq := 0,
                        keyLen := key.length, paramLen := params.length, valueLen := value.length, params := params, key := key,
                        value := [], pktLen := 60 + params.length + key.length }
  let id := s.welt.nextMsg
  let m : PeerMsg := { id := id, member := member, on := none, pkt := pkt, value := value, stripe := ⟨0, 0, 0⟩, index := 0, seg := 0,
                       cmd := none, repair := false, sentAt := s.now, interval := s.fragTimeout, got := [] }
  let s := { s with welt := { s.welt with msgs := s.welt.msgs ++ [f m], nextMsg := id + 1 } }
  s.dispatch id

/-- The message that a tag of a session carries. -/
def State.msgOn (s : State) (sid tag : Nat) : Option PeerMsg := s.welt.msgs.find? (·.on == some (sid, tag))

/-- A message needs no answer any more. -/
def State.dropMsg (s : State) (id : Nat) : State := ({ s with welt := { s.welt with msgs := s.welt.msgs.filter (·.id != id) } } : State).stirred

/-- Changes a message. -/
def State.onMsg (s : State) (id : Nat) (f : PeerMsg → PeerMsg) : State :=
  { s with welt := { s.welt with msgs := s.welt.msgs.map fun m => if m.id = id then f m else m } }

/-- A response has come on a tag of a host-role session: the tag ends and its release entry waits for the next ACK (R72). -/
def State.tagAnswered (s : State) (sid tag inc : Nat) : State :=
  s.onSession sid fun x =>
    { x with tags := x.tags.map fun g => if g.tag = tag ∧ g.inc = inc then { g with ended := true } else g,
             releases := x.releases ++ [(tag, inc)] }

/-- The home repeats the message until it is answered, at its own intervals (R476). -/
def PeerMsg.repeats (m : PeerMsg) : Bool := m.pkt.opcode == 0x73 || m.pkt.opcode == 0x74

/-- Messages that wait for a session toward a member, sent in order; one that has been sent before and is repeated waits for its
interval (R476). -/
def State.dispatchAll (s : State) (m : Nat) : State :=
  ((s.welt.msgs.filter fun x => x.member == m && x.on.isNone && !(x.repeats && decide (0 < x.tries))).map (·.id)).foldl State.dispatch s

/-- A tag of a host-role session waits for its RESP. -/
def State.tagOpen (s : State) (sid tag inc : Nat) : Bool :=
  (s.session? sid).any fun x => x.tags.any fun g => g.tag == tag && g.inc == inc && !g.ended

/-- The message of which a tag's command is a transmission, the newest or an earlier one (R476). -/
def State.msgFor (s : State) (sid tag inc : Nat) : Option PeerMsg :=
  s.welt.msgs.find? fun m => (m.on == some (sid, tag) && m.pkt.inc == inc) || m.also.contains (sid, tag, inc)

/-- A RESP of OK whose DATA has not all come (R80): the host waits for it. -/
def PeerMsg.short (m : PeerMsg) (r : PeerReply) : Bool :=
  r.status == 0 && m.pkt.inc == r.inc && m.pkt.opcode == r.opcode &&
    (!m.ahead.isEmpty || m.total.any (fun n => decide (m.got.length < n)) ||
      (r.opcode == 0x72 && decide (m.got.length < beAt m.pkt.params 24 4)) ||
      (r.opcode == 0x75 && m.total.isNone && decide (0 < beAt r.body 0 4)))

/-- Receipt of a RESP on a host-role session: answers the message that it ends, if no other transmission's RESP has (R57, R73, R476). One whose DATA is still missing is taken
when that has come (DESIGN CHOICE, log 44). -/
def State.peerReply (s : State) (r : PeerReply) : State × Option PeerMsg :=
  if (s.msgOn r.rx.sid r.tag).any (·.short r) then (s, none)
  else
  match s.receive r.rx 2 true with
  | (s, .dropped) => (s, none)
  | (s, .taken) =>
    if !s.tagOpen r.rx.sid r.tag r.inc then ((s.bump K.rxStaleIncarnation).ackIfDue r.rx, none)
    else
      let m := s.msgFor r.rx.sid r.tag r.inc
      if m.any (·.pkt.opcode != r.opcode) then ((s.bump K.rxStaleIncarnation).ackIfDue r.rx, none)
      else
        let s := s.tagAnswered r.rx.sid r.tag r.inc
        let s := match m with | some m => s.dropMsg m.id | none => s
        let s := s.sendAck r.rx.sid r.rx.path
        match (s.session? r.rx.sid).bind (·.asHost) with
        | some x => (s.dispatchAll x, m)
        | none => (s, m)

/-- Bytes of one DATA packet (Table 3.14). -/
def Session.dataMax (x : Session) : Nat := x.mpb - 44

/-- Sends bytes as DATA from an offset; LAST only for drive-to-host values (Table 3.14). -/
def State.sendData : Nat → State → Nat → Nat → Nat → Nat → Nat → Bytes → Bool → State
  | 0, s, _, _, _, _, _, _, _ => s
  | fuel + 1, s, sid, path, tag, inc, off, b, last =>
    match s.session? sid with
    | none => s
    | some x =>
      let n := max 1 x.dataMax
      let fin := decide (b.length ≤ n)
      let s := s.send sid path false (.data tag inc off (last && fin) (b.take n))
      if fin then s else State.sendData fuel s sid path tag inc (off + n) (b.drop n) last

end Sys2Proof.Machine
end

