-- ==== Sys2Proof/Machine/Welt.lean ====
section
/-! DEFINITION. Welt: placement, layouts, the Reed-Solomon code, fragments held, records on the wire, and messages to
holders (07 R197 to R217). -/

namespace Sys2Proof.Machine

/-- Placement score (R201). -/
def score (salt : Bytes) (h id : Nat) : Nat := sipHash salt (beBytes 8 h ++ beBytes 2 id)

/-- Puts a scored member in order: score descending, then MemberId ascending. -/
def insertScore (x : Nat × Nat) : List (Nat × Nat) → List (Nat × Nat)
  | [] => [x]
  | y :: l => if y.1 < x.1 ∨ (x.1 = y.1 ∧ x.2 < y.2) then x :: y :: l else y :: insertScore x l

/-- The placeable members of an epoch in rank order for a key hash (R199, R201). -/
def GroupMap.ranked (g : GroupMap) (h : Nat) : List Nat :=
  (((g.members.filter (·.active)).map fun m => (score g.salt h m.id, m.id)).foldr insertScore []).map (·.2)

/-- The home of a key hash in an epoch (R201). -/
def GroupMap.home (g : GroupMap) (h : Nat) : Option Nat := (g.ranked h).head?

/-- The home of a key hash under the current epoch. -/
def State.homeOf (s : State) (h : Nat) : Option Nat := s.welt.cur.bind fun g => g.home h

/-- This drive is the key's home. -/
def State.isHome (s : State) (h : Nat) : Bool := s.homeOf h == some s.selfId

/-- Members of a layout: k + m striped, 1 + m mirrored (R202). -/
def layoutWidth (striped : Bool) (k m : Nat) : Nat := if striped then k + m else 1 + m

/-- The write quorum (R213). -/
def quorum (striped : Bool) (k m slack : Nat) : Nat :=
  if striped then max (k + m - slack) (k + 1) else max (1 + m - slack) 2

/-- The chunk size C of every segment but the last (R203). -/
abbrev chunkC : Nat := 131072

/-- s_count of a striped value (R203). -/
def segCount (len k : Nat) : Nat := ceilDiv len (k * chunkC)

/-- c_last of a striped value (R203). -/
def lastChunk (len k : Nat) : Nat := 16 * ceilDiv (ceilDiv (len - (segCount len k - 1) * k * chunkC) k) 16

/-- Chunk size of a segment. -/
def chunkOf (len k seg : Nat) : Nat := if seg + 1 < segCount len k then chunkC else lastChunk len k

/-- Fragment length F (R203), or the whole value of a mirrored copy. -/
def fragLen (striped : Bool) (len k : Nat) : Nat :=
  if striped then (segCount len k - 1) * chunkC + lastChunk len k else len

/-- SegmentCount of a header (Table 7.3). -/
def segmentsOf (striped : Bool) (len k : Nat) : Nat := if striped then segCount len k else if len = 0 then 0 else 1

/-- Data fragment `i`'s chunk in a segment; bytes beyond the value are zero (R203). -/
def dataChunk (v : Bytes) (len k seg i : Nat) : Bytes :=
  let c := chunkOf len k seg
  padTo (sliceBytes v (seg * k * chunkC + i * c) c) c

/-- Multiplication in GF(2^8) with polynomial 0x11D (R204). -/
def gfMul (a b : Nat) : Nat :=
  ((List.range 8).foldl (fun (p : Nat × Nat) i =>
    let acc := if b.testBit i then p.1 ^^^ p.2 else p.1
    let x := 2 * p.2
    (acc, if 256 ≤ x then x ^^^ 0x11D else x)) (0, a)).1

/-- The inverse of a nonzero element. -/
def gfInv (a : Nat) : Nat := ((List.range 256).find? fun x => gfMul a x == 1).getD 0

/-- The Cauchy coefficient a[j][i] (R204). -/
def cauchy (m j i : Nat) : Nat := gfInv (j ^^^ (m + i))

/-- XOR of two chunks of one length. -/
def xorChunk (a b : Bytes) : Bytes := List.zipWith (fun x y => x ^^^ y) a b

/-- A chunk times a constant. -/
def scaleChunk (c : Nat) (b : Bytes) : Bytes := b.map fun x => BitVec.ofNat 8 (gfMul c x.toNat)

/-- A row of coefficients applied to chunks. -/
def rowTimes : List Nat → List Bytes → Bytes
  | c :: cs, b :: bs => if cs.isEmpty then scaleChunk c b else xorChunk (scaleChunk c b) (rowTimes cs bs)
  | _, _ => []

/-- Parity fragment `j`'s chunk from the k data chunks of a segment (R204). -/
def parityChunk (k m j : Nat) (data : List Bytes) : Bytes := rowTimes ((List.range k).map (cauchy m j)) data

/-- The generator row of a fragment index (R205). -/
def genRow (k m idx : Nat) : List Nat :=
  if idx < k then (List.range k).map fun i => if i = idx then 1 else 0 else (List.range k).map (cauchy m (idx - k))

/-- One step of Gauss-Jordan elimination over rows of matrix and right side: column `c`. -/
def gaussStep (c : Nat) (rows : List (List Nat × Bytes)) : List (List Nat × Bytes) :=
  match rows.find? fun r => r.1.getD c 0 != 0 && (r.1.take c).all (· == 0) with
  | none => rows
  | some p =>
    let f := gfInv (p.1.getD c 1)
    let p' := (p.1.map (gfMul f), scaleChunk f p.2)
    rows.map fun r =>
      if r.1 == p.1 then p'
      else
        let x := r.1.getD c 0
        if x = 0 then r else (List.zipWith (fun a b => a ^^^ gfMul x b) r.1 p'.1, xorChunk r.2 (scaleChunk x p'.2))

/-- The k data chunks of a segment from k intact chunks with their indices (R205). -/
def rsDecode (k m : Nat) (l : List (Nat × Bytes)) : List Bytes :=
  let rows := (List.range k).foldl (fun r c => gaussStep c r) ((l.take k).map fun x => (genRow k m x.1, x.2))
  (List.range k).map fun i => ((rows.find? fun r => r.1 == (List.range k).map fun c => if c = i then 1 else 0).map (·.2)).getD []

/-- Any fragment's chunk in a segment, from the data chunks. -/
def fragChunk (k m idx : Nat) (data : List Bytes) : Bytes := if idx < k then data.getD idx [] else parityChunk k m (idx - k) data

/-- A slice of a stored value: fragment index and segment (R203, R204). -/
def valueSlice (striped : Bool) (v : Bytes) (len k m idx seg : Nat) : Bytes :=
  if striped then fragChunk k m idx ((List.range k).map fun i => dataChunk v len k seg i) else v

/-- SliceCheck (R209). -/
def sliceCheck (fragKey : Bytes) (i : StripeId) (idx seg : Nat) (b : Bytes) : Bytes :=
  cmac16 fragKey (i.bytes ++ beBytes 1 idx ++ beBytes 4 seg ++ b)

/-- Reads a fragment header from its big-endian bytes and its key (Table 7.3). -/
def FragHdr.ofBytes (b key : Bytes) : FragHdr :=
  { index := beAt b 1 1, k := beAt b 2 1, m := beAt b 3 1, ns := beAt b 6 2 % 4096, gen := beAt b 8 4 % 2 ^ 24, epoch := beAt b 12 4,
    stripe := StripeId.ofBytes (sliceBytes b 16 16), kind := beAt b 32 1, attrs := beAt b 33 1 % 32, durable := bitAt (beAt b 35 1) 0,
    segments := beAt b 36 4, expected := beAt b 40 8, valueLen := beAt b 48 8, hash := beAt b 56 8, stamp := beAt b 64 8,
    deadline := beAt b 72 8, lastChunk := beAt b 88 4, fragLen := beAt b 92 4, key := key }

/-- Reads a commit record from its big-endian bytes and its key; reserved bits are ignored (Table 7.4, 00 R6). -/
def CommitRec.ofBytes (b key : Bytes) : CommitRec :=
  let attrs := beAt b 1 1 % 32
  let k := beAt b 2 1
  let m := beAt b 3 1
  { attrs := attrs, k := k, m := m, ns := beAt b 6 2 % 4096, gen := beAt b 8 4 % 2 ^ 24, epoch := beAt b 12 4,
    stripe := StripeId.ofBytes (sliceBytes b 16 16), version := beAt b 32 8, commitTime := beAt b 40 8, valueLen := beAt b 48 8,
    hash := beAt b 56 8, stamp := beAt b 64 8,
    holders := (List.range (layoutWidth (bitAt attrs 3) k m)).map fun i => beAt b (72 + 2 * i) 2,
    mask := beAt b 120 4 % 2 ^ 24, revision := beAt b 120 4 / 2 ^ 24, lastChunk := beAt b 124 4, tag := sliceBytes b 128 16, key := key }

/-- A namespace record (Table 7.7). -/
structure NsRec where
  gen : Nat
  k : Nat
  m : Nat
  retention : Nat
  readOnly : Bool
  live : Bool
  hold : Nat
  quotaObjects : Nat
  quotaBytes : Nat
  hashKey : Bytes
  secret : Bytes
  deriving DecidableEq, Repr

/-- The record's 72 bytes. -/
def NsRec.bytes (r : NsRec) : Bytes :=
  beBytes 4 r.gen ++ beBytes 1 r.k ++ beBytes 1 r.m ++ beBytes 1 r.retention ++ beBytes 1 (bit r.readOnly + 2 * bit r.live) ++
    beBytes 4 r.hold ++ beBytes 4 r.quotaObjects ++ beBytes 8 r.quotaBytes ++ padTo r.hashKey 16 ++ padTo r.secret 32

/-- Reads the record. -/
def NsRec.ofBytes (b : Bytes) : NsRec :=
  { gen := beAt b 0 4 % 2 ^ 24, k := beAt b 4 1, m := beAt b 5 1, retention := beAt b 6 1, readOnly := bitAt (beAt b 7 1) 0,
    live := bitAt (beAt b 7 1) 1, hold := beAt b 8 4, quotaObjects := beAt b 12 4, quotaBytes := beAt b 16 8,
    hashKey := sliceBytes b 24 16, secret := sliceBytes b 40 32 }

/-- A namespace's record as this drive holds it. -/
def State.nsRec (s : State) (x : Ns) : NsRec :=
  let sec := s.nsSecret x.number x.gen
  { gen := x.gen, k := x.k, m := x.m, retention := x.retention, readOnly := x.readOnly, live := x.live, hold := x.hold,
    quotaObjects := x.quotaObjects, quotaBytes := x.quotaBytes, hashKey := ((sec.map (·.hashKey)).getD (zeros 16)),
    secret := ((sec.map (·.secret)).getD (zeros 32)) }

/-- A held fragment. -/
def State.frag? (s : State) (i : StripeId) (n : Nat) : Option Frag :=
  s.welt.frags.find? fun f => f.hdr.stripe == i && f.hdr.index == n

/-- Replaces a held fragment. -/
def State.setFrag (s : State) (f : Frag) : State :=
  { s with welt := { s.welt with frags := s.welt.frags.map fun x => if x.hdr.stripe = f.hdr.stripe ∧ x.hdr.index = f.hdr.index then f else x } }

/-- Every slice is held: the fragment is COMPLETE (R265). -/
def Frag.complete (f : Frag) : Bool := decide (f.hdr.segments ≤ f.slices.length)

/-- Every record of the fragment is on media. -/
def State.fragOnMedia (s : State) (f : Frag) : Bool :=
  f.complete && s.onMedia f.hdrAddr && f.slices.all (fun x => s.onMedia x.addr) && (decide (f.hdr.segments ≤ 1) || s.onMedia f.dirAddr)

/-- HOLDUP_OK is asserted. -/
def State.holdup (s : State) : Bool := s.mode.holdupOk

/-- The stream of a write's record: SLC for DURABLE or without hold-up, else FRESH by retention class (R247, R248). -/
def State.writeStream (s : State) (durable : Bool) (cls : Nat) : Nat := if durable || !s.holdup then 0 else s.freshStream cls

/-- The header's RetentionClass (Table 4.5). -/
def FragHdr.cls (h : FragHdr) : Nat := h.attrs % 8

/-- Records of commands, for WA_m and the life-time figure (R256, R280). -/
def State.userBytes (s : State) (n : Nat) : State :=
  { s with media := { s.media with nUserBytes := s.media.nUserBytes + n, lifeUser := s.media.lifeUser + n } }

/-- A fragment begins: its header record, and FRAG_LOG PENDING (R207, R264). -/
def State.addFrag (s : State) (h : FragHdr) (mediaBy : Nat) (raw : Bytes := []) : State :=
  let len := pad16 (96 + h.key.length)
  let (s, a) := s.append (s.writeStream h.durable h.cls) len (.header h.stripe h.index)
  let f : Frag := { hdr := h, committed := false, version := 0, slices := [], mediaBy := mediaBy, hdrAddr := a, dirAddr := 0, copy := none,
                    resolveAt := h.deadline + s.num K.orphanHoldSeconds * nsSec, waiting := [],
                    raw := if raw.isEmpty then h.bytes 0 false 0 else raw }
  let s := ({ s with welt := { s.welt with frags := s.welt.frags ++ [f] } } : State).userBytes len
  s.logFrag f 0 (h.segments == 0)

/-- A slice enters the write buffer; with a multi-segment fragment's last one goes its directory (R265). -/
def State.addSlice (s : State) (f : Frag) (seg : Nat) (b check : Bytes) : State :=
  let len := pad16 (48 + b.length)
  let st := s.writeStream f.hdr.durable f.hdr.cls
  let (s, a) := s.append st len (.slice f.hdr.stripe f.hdr.index seg)
  let f := { f with slices := f.slices ++ [{ seg := seg, data := b, check := check, addr := a, media := false }] }
  let s := s.userBytes len
  if !f.complete then s.setFrag f
  else if f.hdr.segments ≤ 1 then
    let f := { f with dirAddr := a }
    (s.setFrag f).logFrag f (bit f.committed) true
  else
    let (s, d) := s.append st (pad16 (32 + 5 * f.hdr.segments)) (.dir f.hdr.stripe f.hdr.index)
    let f := { f with dirAddr := d }
    (s.setFrag f).logFrag f (bit f.committed) true

/-- A fragment becomes COMMITTED with its commit copy (R208, R217). -/
def State.commitFrag (s : State) (f : Frag) (c : CommitRec) : State :=
  let (s, _) := s.append (s.writeStream f.hdr.durable f.hdr.cls) (pad16 (144 + c.key.length)) (.copy c f.hdr.index)
  let f := { f with committed := true, version := c.version, copy := some c }
  (s.setFrag f).logFrag f 1 f.complete

/-- A command in flight. -/
def State.cmd? (s : State) (sid tag : Nat) : Option CmdCtx := s.kv.cmds.find? fun c => c.sid == sid && c.pkt.tag == tag

/-- DATA of a command's reply waits for an ACTIVE path or for room. -/
def Session.dataQueued (x : Session) (tag inc : Nat) : Bool :=
  x.txq.any fun q => match q.2.2 with | .data t i _ _ _ => t == tag && i == inc | _ => false

/-- The last byte of a value that streams from the write buffer has not been sent (02 R46). -/
def State.streamOpen (s : State) (x : Nat × Nat × Nat × StripeId) : Bool :=
  (s.cmd? x.1 x.2.1).any (fun c => c.pkt.inc == x.2.2.1 && c.reply.isSome && !c.suppressed) ||
    (s.session? x.1).any fun y => y.dataQueued x.2.1 x.2.2.1

/-- A value's buffer space is kept for a reply (02 R46). -/
def State.streaming (s : State) (i : StripeId) : Bool := s.kv.streams.any fun x => x.2.2.2 == i && s.streamOpen x

/-- A fragment is released: its records are no longer valid (R217, R264). -/
def State.releaseFrag (s : State) (i : StripeId) (n : Nat) : State :=
  match s.frag? i n with
  | none => s
  | some f =>
    let s := s.logFrag f 0xFF f.complete
    let open_ := s.welt.gone.filter fun x => s.media.recs.any fun r => r.jseq == some x.1 && !r.units.isEmpty
    let s := { s with welt := { s.welt with gone := open_ ++ [(s.media.jseq, f)] } }
    let s := (f.hdrAddr :: f.dirAddr :: f.slices.map (·.addr)).foldl State.sbTouched s
    { s with welt := { s.welt with frags := s.welt.frags.filter fun x => !(x.hdr.stripe == i && x.hdr.index == n),
                                   released := (i, n) :: s.welt.released },
             media := { s.media with raw := s.media.raw.filter fun v => v.stripe != i || s.streaming i } }

/-- Every slice of a held fragment is durable here (R20, R43). -/
def State.fragDurable (s : State) (f : Frag) : Bool := s.fragOnMedia f || (f.complete && s.holdup)

/-- FRAG_RELEASE to a member (R210): reasons 1 ABORTED, 2 SUPERSEDED, 3 REPLACED, 4 DISCARDED. -/
def State.sendRelease (s : State) (member : Nat) (i : StripeId) (idx reason : Nat) (cmd : Option (Nat × Nat)) : State :=
  s.peerCmd member 0x73 0 0 3 (i.bytes ++ beBytes 1 idx ++ beBytes 1 reason ++ zeros 6) [] [] fun m =>
    { m with stripe := i, index := idx, cmd := cmd }

/-- STRIPE_COMMIT with a commit record: kinds 1 COMMIT, 2 HOLDERS, 3 HANDOFF (R210). -/
def State.sendCommit (s : State) (member kind idx : Nat) (r : CommitRec) : State :=
  s.peerCmd member 0x74 r.ns r.gen 3 (beBytes 1 kind ++ zeros 7 ++ r.bytes) r.key [] fun m => { m with stripe := r.stripe, index := idx }

/-- STRIPE_COMMIT HANDOFF_DONE for an epoch (R210, R220). -/
def State.sendDone (s : State) (member epoch : Nat) : State :=
  s.peerCmd member 0x74 0 0 3 ([4] ++ zeros 7 ++ zeros 12 ++ beBytes 4 epoch ++ zeros 128) [] [] id

/-- STRIPE_COMMIT HANDOFF_PENDING with a PENDING fragment's header (R210, R220). -/
def State.sendPending (s : State) (member : Nat) (f : Frag) : State :=
  s.peerCmd member 0x74 f.hdr.ns f.hdr.gen 3 ([5] ++ zeros 7 ++ f.hdr.bytes 0 (s.fragDurable f) 0 ++ zeros 48) f.hdr.key [] fun m =>
    { m with stripe := f.hdr.stripe, index := f.hdr.index }

/-- STRIPE_COMMIT NS_CREATE or NS_DELETE of a namespace number (R210, R228). -/
def State.sendNs (s : State) (member kind number : Nat) (r : NsRec) (cmd : Option (Nat × Nat)) : State :=
  s.peerCmd member 0x74 0 0 3 (beBytes 1 kind ++ [0] ++ beBytes 2 number ++ zeros 4 ++ r.bytes) [] [] fun m => { m with cmd := cmd }

/-- REBUILD_QUERY (Table 7.6): kinds 1 HOLDINGS, 2 RESOLVE, 3 KEY_STATE, 4 NAMESPACES. -/
def State.sendQuery (s : State) (member kind : Nat) (subject : Bytes) (low high : Nat) (f : PeerMsg → PeerMsg) : State :=
  s.peerCmd member 0x75 0 0 3 (beBytes 1 kind ++ zeros 3 ++ beBytes 4 65536 ++ beBytes 4 s.epoch ++ zeros 4 ++ padTo subject 16 ++
    beBytes 8 low ++ beBytes 8 high) [] [] f

/-- REBUILD_QUERY NAMESPACES to a member (R229). -/
def State.askNamespaces (s : State) (m : Nat) : State := s.sendQuery m 4 (zeros 16) 0 0 id

/-- FRAG_PUT of a slice (R210, R214). -/
def State.sendPut (s : State) (member ns gen cls : Nat) (i : StripeId) (idx seg : Nat) (b check : Bytes) (f : PeerMsg → PeerMsg) : State :=
  s.peerCmd member 0x71 ns gen cls (i.bytes ++ beBytes 1 idx ++ zeros 3 ++ beBytes 4 seg ++ padTo check 16) [] b fun m =>
    f { m with stripe := i, index := idx, seg := seg }

/-- FRAG_GET of bytes of a fragment (R210, R218). -/
def State.sendGet (s : State) (member ns gen cls : Nat) (i : StripeId) (idx off len deadline : Nat) (f : PeerMsg → PeerMsg) : State :=
  s.peerCmd member 0x72 ns gen cls (i.bytes ++ beBytes 1 idx ++ zeros 3 ++ beBytes 4 off ++ beBytes 4 len ++ beBytes 8 deadline ++ zeros 4)
    [] [] fun m => f { m with stripe := i, index := idx }

/-- FRAG_RESERVE with a header (R207, R210). -/
def State.sendReserve (s : State) (member cls : Nat) (h : FragHdr) (f : PeerMsg → PeerMsg) : State :=
  s.peerCmd member 0x70 h.ns h.gen cls (h.bytes 0 false 0) h.key [] fun m => f { m with stripe := h.stripe, index := h.index }

/-- Holders of a committed state other than this drive, as (index, member) (R208). -/
def State.otherHolders (s : State) (r : CommitRec) : List (Nat × Nat) :=
  ((List.range r.holders.length).map fun i => (i, r.holders.getD i 0xFFFF)).filter fun x => x.2 != 0xFFFF && x.2 != s.selfId

/-- The indices that this drive holds of a committed state. -/
def State.ownIndices (s : State) (r : CommitRec) : List Nat :=
  (List.range r.holders.length).filter fun i => r.holders.getD i 0xFFFF == s.selfId

/-- A committed state's stripe is released everywhere (R216): reason 2 SUPERSEDED or 4 DISCARDED. -/
def State.releaseStripe (s : State) (r : CommitRec) (reason : Nat) : State :=
  let s := (s.otherHolders r).foldl (fun s x => s.sendRelease x.2 r.stripe x.1 reason none) s
  let s := (s.ownIndices r).foldl (fun s i => s.releaseFrag r.stripe i) s
  { s with kv := { s.kv with cache := s.kv.cache.filter fun c => c.1 != r.stripe },
           welt := { s.welt with repairs := s.welt.repairs.filter (fun q => q.stripe != r.stripe),
                                 confirmed := s.welt.confirmed.filter fun x => x.1 != r.stripe } }

/-- A stripe index enters the repair or rebalance queue, once (R225); a rebalance whose holder can no longer give the fragment
becomes a repair and starts again. -/
def State.queueRepair (s : State) (r : CommitRec) (idx : Nat) (rebalance : Bool) : State :=
  let same (q : Repair) : Bool := q.stripe == r.stripe && q.index == idx
  match s.instOf r.ns r.gen with
  | none => s
  | some inst =>
    if s.welt.repairs.any fun q => same q && (rebalance || !q.rebalance) then s
    else if s.welt.repairs.any same then
      let msgs := s.welt.msgs.filter fun m => !(m.repair && m.stripe == r.stripe && m.index == idx)
      let turn (q : Repair) : Repair := if same q then { stripe := q.stripe, inst := q.inst, hash := q.hash, index := q.index, rebalance := false } else q
      { s with welt := { s.welt with msgs := msgs, repairs := s.welt.repairs.map turn } }
    else
      let q : Repair := { stripe := r.stripe, inst := inst, hash := r.hash, index := idx, rebalance := rebalance }
      { s with welt := { s.welt with repairs := s.welt.repairs ++ [q] } }

/-- StripesIncomplete: stripes in the repair queue (Table 7.10). -/
def State.stripesIncomplete (s : State) : Nat :=
  (((s.welt.repairs.filter fun q => !q.rebalance).map (·.stripe)).eraseDups).length

/-- HandoffPending: the handoff of the current epoch is not complete here (R220). -/
def State.handoffPending (s : State) : Bool := !s.welt.retained.isEmpty

/-- A slice held here is intact: its check holds and its page can be read (R209, R246). -/
def State.sliceIntact (s : State) (f : Frag) (x : Slice) : Bool :=
  !x.bad && !s.media.badAddrs.contains x.addr &&
    (match s.fragKey f.hdr.ns f.hdr.gen with
     | some k => sliceCheck k f.hdr.stripe f.hdr.index x.seg x.data == x.check
     | none => true)

/-- The slice of a segment that this drive holds intact. -/
def State.ownSlice (s : State) (i : StripeId) (idx seg : Nat) : Option Bytes :=
  (s.frag? i idx).bind fun f => (f.slices.find? fun x => x.seg == seg && s.sliceIntact f x).map (·.data)

/-- The committed record of a key here: the state that its index entry names. -/
def State.current (s : State) (ns gen hash : Nat) (key : Bytes) : Option (Resolved × Nat) :=
  match s.instOf ns gen with
  | some inst => (s.lookup inst hash key).map fun r => (r, inst)
  | none => none

/-- A namespace by number. -/
def State.ns? (s : State) (n : Nat) : Option Ns := s.kv.nss.find? (·.number == n)

/-- A live namespace generation. -/
def State.nsLive (s : State) (n gen : Nat) : Option Ns := s.kv.nss.find? fun x => x.number == n && x.gen == gen && x.live

/-- Writes a commit record at the home: record, COMMIT_LOG, index entry (R208, R264, R282); answers its address. -/
def State.writeCommit (s : State) (r : CommitRec) (inst : Nat) (durable buf : Bool) : State :=
  let len := pad16 (144 + r.key.length)
  let old := s.lookup inst r.hash r.key
  let (s, a) := s.append (s.writeStream durable (r.attrs % 8)) len (.commit r)
  let s := (s.userBytes len).logCommit r inst a
  let s := match old with | some o => s.sbTouched o.entry.loc | none => s
  s.indexCommit inst a r buf

end Sys2Proof.Machine
end

