-- ==== Sys2Proof/Machine/Shank.lean ====
section
/-! DEFINITION. Shank: resources and calendars, the earliest-deadline-first test, retry-after, margins, demands, faults,
allotments and the efficiency bounds (05 R124 to R160, R477). Calendars run on the drive's own timebase (R138); a bound on
the wire is PTP time. -/

namespace Sys2Proof.Machine

/-- Line rate of an ActiveMode in Gb/s (Table 11.1). -/
def modeGbps : Nat → Nat
  | 1 => 10 | 2 => 25 | 3 => 25 | 4 => 50 | 5 => 50 | 6 => 100 | 7 => 100 | 8 => 100 | 9 => 100 | 10 => 200 | 11 => 200
  | _ => 0

/-- Line rates of the ports that are up. -/
def State.upRates (s : State) : List Nat :=
  [s.eth.portA, s.eth.portB].filterMap fun p => if p.link = .up then some (modeGbps p.activeMode) else none

/-- Line rate of the slower port that is up, in Gb/s; 0 while none is up. -/
def State.portGbps (s : State) : Nat :=
  match s.upRates with
  | [] => 0
  | x :: l => l.foldl min x

/-- Nanoseconds that `n` bytes take at the slower port's line rate. -/
def State.lineNs (s : State) (n : Nat) : Nat := ceilDiv (8 * n) (max 1 s.portGbps)

/-- The token limit for new decisions: PowerTokenLimit, or the thermal cap below it (R140). -/
def State.tokenLimit (s : State) : Nat :=
  match s.mode.cap with
  | some c => min c (s.num K.powerTokenLimit)
  | none => s.num K.powerTokenLimit

/-- f of R134 for dies, channels, ports and tokens, in permille. -/
def State.share (s : State) : Nat := s.num K.admitCeilingPermille - s.num K.peerReadSharePermille

/-- AllotmentMBps last reported by a peer; 0 until one is (R144). -/
def State.allotOf (s : State) (m : Nat) : Nat := (mapGet s.shank.allot m).getD 0

/-- Capacity of a resource for promised work, f included, as a fraction of units per ns (Table 5.3, R134). -/
def State.cap (s : State) : Res → Nat × Nat
  | .die _ => (s.share, 1000)
  | .channel _ => (s.share, 1000)
  | .port => (s.portGbps * s.share, 8000)
  | .dram => (2048, 100)
  | .token => (s.tokenLimit * s.share, 1000)
  | .peer m => (s.allotOf m * s.num K.admitCeilingPermille, 1000000)

/-- Work booked on a resource with deadlines up to `e`. -/
def owedBy (l : List Booking) (r : Res) (e : Nat) : Nat :=
  ((l.filter fun b => b.res == r && decide (b.deadline ≤ e)).map (·.work)).sum

/-- Deadlines booked on a resource at or after `d`. -/
def laterThan (l : List Booking) (r : Res) (d : Nat) : List Nat :=
  (l.filter fun b => b.res == r && decide (d ≤ b.deadline)).map (·.deadline)

/-- edf_ok of R134. -/
def State.edfOk (s : State) (r : Res) (start d w : Nat) : Bool :=
  let c := s.cap r
  decide (w * c.2 ≤ c.1 * (d - start)) &&
    (d :: laterThan s.shank.books r d).all fun e => decide ((owedBy s.shank.books r e + w) * c.2 ≤ c.1 * (e - s.now))

/-- Spare capacity of a passed test, as time on the resource, at its tightest point (R134; DEDUCED, log 25: resources of
different units are compared by time). -/
def State.slack (s : State) (r : Res) (d w : Nat) : Nat :=
  let c := s.cap r
  let at_ (e : Nat) : Nat := (c.1 * (e - s.now) - (owedBy s.shank.books r e + w) * c.2) / max 1 c.1
  (laterThan s.shank.books r d).foldl (fun b e => min b (at_ e)) (at_ d)

/-- The least deadline from `d` on at which a demand fits a resource with nothing further admitted: past every booked
point that it would overfill, and late enough for its own point (R146). -/
def State.leastDeadline (s : State) (r : Res) (w : Nat) : Nat → Nat → Nat
  | 0, d => d
  | fuel + 1, d =>
    let c := s.cap r
    let bad := (laterThan s.shank.books r d).filter fun e => decide (c.1 * (e - s.now) < (owedBy s.shank.books r e + w) * c.2)
    let d1 := bad.foldl (fun b e => max b (e + 1)) d
    let d2 := max d1 (s.now + ceilDiv ((owedBy s.shank.books r d1 + w) * c.2) (max 1 c.1))
    if d2 = d then d else s.leastDeadline r w fuel d2

/-- t_r of R146, less now: none where no time helps. -/
def State.retryOn (s : State) (r : Res) (span w : Nat) : Option Nat :=
  let c := s.cap r
  if c.1 = 0 ∨ c.1 * span < w * c.2 then none
  else some (s.leastDeadline r w (s.shank.books.length + 2) (s.now + span) - span - s.now)

/-- The largest RetryAfterUs. -/
abbrev retryMax : Nat := 0xFFFFFFFF

/-- RetryAfterUs and Limiter of a refusal by failed resources (R146): the resource whose wait is longest, one that no wait helps
before all others, and of equal ones the lowest Limiter code. -/
def State.retryAfter (s : State) (span : Nat) (failed : List (Res × Nat)) : Nat × Nat :=
  let w := failed.foldl (fun (b : Nat × Nat) x =>
    let t := (s.retryOn x.1 span x.2).getD (2 ^ 80)
    if b.1 < t ∨ (b.1 = t ∧ x.1.limiter < b.2) then (t, x.1.limiter) else b) (0, 255)
  (clampNat (ceilDiv w.1 1000) 1 retryMax, w.2)

/-- Demands on one resource added up. -/
def addWork (r : Res) (w : Nat) : List (Res × Nat) → List (Res × Nat)
  | [] => [(r, w)]
  | x :: l => if x.1 = r then (r, x.2 + w) :: l else x :: addWork r w l

/-- A demand list with one entry for each resource and none of 0. -/
def mergeWork (l : List (Res × Nat)) : List (Res × Nat) :=
  (l.foldl (fun acc x => addWork x.1 x.2 acc) []).filter fun x => decide (0 < x.2)

/-- On each resource the greater of two demands (R135). -/
def maxWork (a b : List (Res × Nat)) : List (Res × Nat) :=
  a.map (fun x => (x.1, max x.2 (((b.find? fun y => y.1 == x.1).map (·.2)).getD 0))) ++
    b.filter fun y => !(a.any fun x => x.1 == y.1)

/-- What R134 answers. -/
inductive Verdict where
  /-- passes: the resource deadline d and the critical resource's code -/
  | pass (d critical : Nat)
  | refuse (retryUs limiter : Nat)
  deriving DecidableEq, Repr

/-- Class base in ns (Table 5.1). -/
def State.classBase (s : State) : Nat → Nat
  | 0 => s.num K.pc0BaseMs * nsMs
  | 1 => s.num K.pc1BaseMs * nsMs
  | _ => s.num K.pc2BaseMs * nsMs

/-- Class rate in MB/s. -/
def State.classRate (s : State) : Nat → Nat
  | 0 => s.num K.pc0RateMBps
  | 1 => s.num K.pc1RateMBps
  | _ => s.num K.pc2RateMBps

/-- T less t_a of R124. -/
def State.boundNs (s : State) (cls size : Nat) : Nat := s.classBase cls + ceilDiv (size * 1000) (max 1 (s.classRate cls))

/-- The decision of R134 from the time `tEnd` of the bound on. -/
def State.judge (s : State) (tEnd margin : Nat) (work : List (Res × Nat)) (predEnd predCritical : Nat) : Verdict :=
  let start := max s.now predEnd
  if tEnd ≤ start + margin then
    if s.now < predEnd then .refuse (clampNat (ceilDiv (predEnd - s.now) 1000) 1 retryMax) predCritical
    else .refuse retryMax 10
  else
    let d := tEnd - margin
    let failed := work.filter fun x => !s.edfOk x.1 start d x.2
    if failed.isEmpty then
      let best := work.foldl (fun (b : Option (Nat × Nat)) x =>
        let k := s.slack x.1 d x.2
        match b with
        | some y => if k < y.1 then some (k, x.1.limiter) else some y
        | none => some (k, x.1.limiter)) none
      .pass d ((best.map (·.2)).getD 1)
    else
      let r := s.retryAfter (d - start) failed
      .refuse r.1 r.2

/-- Books a demand (R134). -/
def State.book (s : State) (o : Owner) (d : Nat) (work : List (Res × Nat)) : State :=
  let l := work.map fun x => ({ res := x.1, deadline := d, work := x.2, owner := o, withAct := s.shank.actPending } : Booking)
  { s with shank := { s.shank with books := s.shank.books ++ l } }

/-- Releases an owner's bookings. -/
def State.unbook (s : State) (o : Owner) : State :=
  { s with shank := { s.shank with books := s.shank.books.filter fun b => b.owner != o } }

/-- Counts a refusal by its Limiter (Table 5.7). -/
def State.countRefusal (s : State) (limiter : Nat) : State :=
  if limiter = 10 then s.bump K.notAdmittedMargin
  else if 1 ≤ limiter ∧ limiter ≤ 9 then s.bump (K.notAdmitted1 + (limiter - 1))
  else s

/-- Codeword transfer and soft-decode time in ns: the transfer at the channel rate; the manual gives no figure for the
soft decode, which is a free value (log 3). -/
def State.cwRead (s : State) : Nat :=
  ceilDiv ((4096 + parityBytes s.media.profile) * 1000) s.channelRate + Config.softDecodeNs

/-- L_ldpc (Table 5.4). -/
def State.lLdpc (s : State) : Nat := s.num K.ldpcRetrySteps * (profTR s.media.profile + s.cwRead)

/-- SRTT + 4 RTTVAR over the paths of the sessions to a member, the largest; 0 without one. -/
def State.peerRtt (s : State) (m : Nat) : Nat :=
  (s.net.sessions.filter fun x => x.st == .open_ && s.memberOf x == some m).foldl (fun b x =>
    x.paths.foldl (fun b q => if q.active then max b (q.srtt + 4 * q.rttvar) else b) b) 0

/-- L_peer over the members that a command uses (Table 5.4). -/
def State.lPeer (s : State) (ms : List Nat) : Nat :=
  if ms.isEmpty then 0 else ms.foldl (fun b m => max b (s.peerRtt m)) 0 + 10000

/-- What the margin and the demand of a command depend on beyond its packet. -/
structure Facts where
  /-- the key missed Awl's hot partition -/
  miss : Bool := false
  media : Bool := false
  durable : Bool := false
  /-- a granted write's ValueLength; 0 otherwise -/
  fill : Nat := 0
  peers : List Nat := []
  /-- a read that peers may serve: the peer-drive fault touches it -/
  peerFault : Bool := false

/-- The latency margin m (Table 5.4). -/
def State.margin (s : State) (f : Facts) : Nat :=
  let lp := s.lPeer f.peers
  (if f.miss then 4000 else 2000) +
    (match s.mode.mode with | .lull1 => 20000 | .lull2 => 3000000 | _ => 0) +
    (if f.media then s.lLdpc else 0) + lp +
    (if 0 < f.fill then s.lineNs (min f.fill 1048576) + 5000 else 0) +
    max (max (s.num K.portFailoverAllowanceUs * 1000) 10000) (if f.peerFault then s.fragTimeout + lp else 0) +
    (if s.shank.actPending then 2 * nsMs else 0) + 20000 +
    (if f.durable then profSlcTProg s.media.profile else 0)

/-- Demand of the array work that Insole plans for a command, with rho and WA_m (Table 5.3). -/
def State.planWork (s : State) (p : Plan) : List (Res × Nat) :=
  let pr := s.media.profile
  let rd (n : Nat) : Nat := ceilDiv (n * profTR pr * (1000 + s.shank.rho)) 1000
  let pg (n : Nat) : Nat := ceilDiv (n * profTProg pr * max 1000 s.media.wam) 1000
  p.dies.flatMap (fun x => [(Res.die x.die, rd x.reads + pg x.programs),
      (.token, s.num K.tokenCostRead * rd x.reads + s.num K.tokenCostProgram * pg x.programs)]) ++
    p.chans.map fun x => (Res.channel x.chan,
      ceilDiv (x.readBytes * (1000 + s.shank.rho)) (s.chanRate x.chan) + ceilDiv (x.programBytes * max 1000 s.media.wam) (s.chanRate x.chan))

/-- Demand on the ports: packets, value bytes and 72 bytes for each DATA packet (Table 5.3). -/
def portWork (cmdLen respLen value mpb : Nat) : List (Res × Nat) :=
  [(.port, cmdLen + respLen + value + 72 * ceilDiv value (max 1 (mpb - 44)))]

/-- A piece of a data fragment that a read returns: index, segment, offset within the chunk, bytes (R218). -/
structure Piece where
  index : Nat
  seg : Nat
  off : Nat
  len : Nat
  deriving DecidableEq, Repr

/-- The pieces of a striped value that bytes `off` to `off + n` touch, in value order (R203, R218). -/
def pieces (len k off n : Nat) : List Piece :=
  if n = 0 then []
  else
    let w := k * chunkC
    (List.range ((off + n - 1) / w - off / w + 1)).flatMap fun j =>
      let seg := off / w + j
      let c := chunkOf len k seg
      (List.range k).filterMap fun i =>
        let lo := max off (seg * w + i * c)
        let hi := min (off + n) (seg * w + (i + 1) * c)
        if lo < hi then some { index := i, seg := seg, off := lo - (seg * w + i * c), len := hi - lo } else none

/-- Positions of a segment that pieces touch, as a range of the chunk. -/
def touched (l : List Piece) (seg : Nat) : Nat × Nat :=
  (l.filter (·.seg == seg)).foldl (fun (b : Nat × Nat) p => (min b.1 p.off, max b.2 (p.off + p.len))) (chunkC, 0)

/-- Bytes of the positions touched, over all segments. -/
def touchedBytes (l : List Piece) : Nat :=
  (((l.map (·.seg)).eraseDups).map fun g => (touched l g).2 - (touched l g).1).sum

/-- The holder of an index, none where it has none. -/
def CommitRec.holder? (r : CommitRec) (i : Nat) : Option Nat :=
  let m := r.holders.getD i 0xFFFF
  if m = 0xFFFF ∨ m = 0 then none else some m

/-- A member can serve a fetch. -/
def State.canServe (s : State) (m : Nat) : Bool := m == s.selfId || s.memberReachable m

/-- Bytes that a read of a committed state fetches from each member, the spare allowance of R138 included, and bytes to
reconstruct (R135, R138, R144, R218). -/
def State.fetches (s : State) (r : CommitRec) (off n : Nat) : List (Nat × Nat) × Nat :=
  if r.valueLen = 0 ∨ n = 0 then ([], 0)
  else if r.striped then
    let ps := pieces r.valueLen r.k off n
    let span := touchedBytes ps
    let own (i : Nat) : Nat := ((ps.filter (·.index == i)).map (·.len)).sum
    let data := (List.range r.k).map fun i => (i, max (own i) span)
    let spare := ((List.range r.m).map (r.k + ·)).find? fun i => (r.holder? i).isSome
    let all := data ++ (match spare with | some i => [(i, span)] | none => [])
    let lost := ((List.range r.k).filter fun i => decide (0 < own i) && !(match r.holder? i with | some m => s.canServe m | none => false)).length
    (all.filterMap fun x => match r.holder? x.1 with
      | some m => if m = s.selfId then none else some (m, x.2)
      | none => none, lost * span)
  else
    let ms := (List.range r.holders.length).filterMap fun i => r.holder? i
    let own := ms.contains s.selfId
    ((ms.filter (· != s.selfId)).take (if own then 1 else 2) |>.map fun m => (m, n), 0)

/-- The faults of Table 5.5 that are present, by their row: 1 port, 2 die, 4 peer, 5 activation, 6 clock reference. -/
def State.presentFaults (s : State) : List Nat :=
  let down (p : PortId) : Bool := s.flag (K.portEnable p.code) && (s.port p).link != .up
  (if down .a || down .b then [1] else []) ++
    (if s.media.retiredDies.isEmpty then [] else [2]) ++
    (if s.welt.noPath.isEmpty && s.welt.lost.isEmpty then [] else [4]) ++
    (if s.shank.actPending then [5] else []) ++
    (if s.clk.srcs.any (·.st == .dead) || s.eth.ptp.st == .holdover then [6] else [])

/-- Records faults that have entered or left the model, with the new capacities (R138, event 0x0504): port rate in Gb/s,
dies in service and token limit (DESIGN CHOICE, log 26). -/
def State.noteFaults (s : State) : State :=
  let new := s.presentFaults
  let old := s.shank.faults
  if new = old ∨ s.serving = false then s
  else
    let changed := (new.filter fun k => !old.contains k) ++ old.filter fun k => !new.contains k
    let s := { s with shank := { s.shank with faults := new } }
    changed.foldl (fun s k => s.event 0x0504 [(4, Config.eventCode 0x0504 k), (4, s.portGbps), (4, s.diesInService), (4, s.tokenLimit)]) s

/-- n_p and P_bound of R155, in bytes per second. -/
def State.ingestBound (s : State) : Nat :=
  let p := s.media.profile
  let n := min s.diesInService (s.num K.powerTokenLimit / max 1 (s.num K.tokenCostProgram))
  n * unitCap p false * nsSec * 31 / (32 * max 1 (beAt p 28 4))

/-- R_bound of R155, in bytes per second. -/
def State.restoreBound (s : State) : Nat :=
  let p := s.media.profile
  let n := min s.diesInService (s.num K.powerTokenLimit / max 1 (s.num K.tokenCostRead))
  let rate := ((List.range s.media.present.length).map fun c =>
    if s.media.present.getD c 0 = 0 then 0 else s.chanRate c).sum
  min (n * (profPlanes p * 4 * cwPayload) * nsSec / max 1 (beAt p 20 4))
    (rate * 1000000 * cwPayload / (4096 + parityBytes p))

/-- AllotmentMBps that this drive reports (R144). -/
def State.allotment (s : State) : Nat :=
  let n := (s.welt.cur.map fun g => g.members.length).getD 0
  if n ≤ 1 then 0
  else min 65535 (s.num K.peerReadSharePermille * min (s.portGbps * 125000000) s.restoreBound / 1000 / (n - 1) / 1000000)

/-- The work booked for commands decided without L_act fits with every deadline 2 ms earlier, from `t` on (R150). -/
def State.pauseFits (s : State) (t : Nat) (keep : Booking → Bool) : Bool :=
  let l := s.shank.books.filter fun b => keep b && !b.withAct
  l.all fun b => let c := s.cap b.res; decide (owedBy l b.res b.deadline * c.2 ≤ c.1 * (b.deadline - 2 * nsMs - t))

/-- Worst case of t_p: admitted commands end at their deadlines (R151). -/
def State.worstPause (s : State) : Nat :=
  let ts := s.now :: (s.shank.books.map (·.deadline)).filter (s.now < ·)
  let ok := ts.filter fun t => s.pauseFits t fun b => decide (t < b.deadline)
  match ok with
  | [] => s.now
  | x :: l => l.foldl min x

end Sys2Proof.Machine
end

