-- ==== Sys2Proof/Machine/Cmd.lean ====
section
/-! DEFINITION. Commands in flight: bodies, endings, host-held time, quotas, and the end of sessions (02 R34 to R53,
03 R61, R72, R86, 04 R99, R100, 05 R128 to R130, R152, 07 R215). -/

namespace Sys2Proof.Machine

/-- OK, OK_DEGRADED and the other status codes used below (Table 4.4). -/
abbrev stOk : Nat := 0x00
/-- OK_DEGRADED. -/
abbrev stDegraded : Nat := 0x01
/-- NOT_ADMITTED. -/
abbrev stNotAdmitted : Nat := 0x10
/-- PROMISE_BROKEN. -/
abbrev stBroken : Nat := 0x11
/-- NOT_FOUND. -/
abbrev stNotFound : Nat := 0x20
/-- VERSION_MISMATCH. -/
abbrev stMismatch : Nat := 0x21
/-- ALREADY_EXISTS. -/
abbrev stExists : Nat := 0x22
/-- INVALID_OPCODE. -/
abbrev stOpcode : Nat := 0x30
/-- INVALID_FIELD. -/
abbrev stField : Nat := 0x31
/-- LENGTH_ERROR. -/
abbrev stLength : Nat := 0x32
/-- ACCESS_DENIED. -/
abbrev stDenied : Nat := 0x40
/-- NAMESPACE_ABSENT. -/
abbrev stAbsent : Nat := 0x41
/-- ABORTED_RESET. -/
abbrev stReset : Nat := 0x50
/-- ABORTED_SESSION_LOST. -/
abbrev stLost : Nat := 0x51
/-- KEY_LOST. -/
abbrev stKeyLost : Nat := 0x52
/-- MEDIA_UNRECOVERABLE. -/
abbrev stMedia : Nat := 0x60
/-- PEERS_INSUFFICIENT. -/
abbrev stPeers : Nat := 0x61

/-- Metadata body (Table 4.5); none for a key without object or retained tombstone. -/
def metaBody : Option CommitRec → Bytes
  | some r => beBytes 8 r.version ++ beBytes 8 r.commitTime ++ beBytes 8 (if r.tombstone then 0 else r.valueLen) ++ beBytes 1 (r.attrs % 32) ++ zeros 7
  | none => zeros 32

/-- Outcome body (Table 4.6). -/
def outcomeBody (commit ev bound endTime : Nat) : Bytes :=
  beBytes 1 commit ++ [0] ++ beBytes 2 ev ++ zeros 4 ++ beBytes 8 bound ++ beBytes 8 endTime

/-- Refusal body (Table 4.7). -/
def refusalBody (retryUs limiter : Nat) : Bytes := beBytes 4 retryUs ++ beBytes 1 limiter ++ zeros 3

/-- Denial body (Table 4.8). -/
def denialBody (reason cap abort : Nat) : Bytes := beBytes 1 reason ++ beBytes 1 cap ++ zeros 2 ++ beBytes 4 abort

/-- Error detail body (Table 4.9). -/
def errorBody (off abort : Nat) : Bytes := beBytes 2 off ++ zeros 2 ++ beBytes 4 abort

/-- Quota body (Table 4.10). -/
def quotaBody (kind charged : Nat) : Bytes := beBytes 1 kind ++ zeros 7 ++ beBytes 8 charged

/-- PUT, PUT_IF, DELETE or DELETE_IF. -/
def writeOp (op : Nat) : Bool := decide (op ∈ [0x10, 0x11, 0x12, 0x13])

/-- GET, GET_RANGE or STAT. -/
def readOp (op : Nat) : Bool := decide (op ∈ [0x01, 0x02, 0x03])

/-- PUT or PUT_IF. -/
def putOp (op : Nat) : Bool := op == 0x10 || op == 0x11

/-- A peer opcode. -/
def peerOp (op : Nat) : Bool := decide (0x70 ≤ op ∧ op ≤ 0x75)

/-- DURABLE flag (Table 3.10). -/
def CmdPkt.durable (p : CmdPkt) : Bool := bitAt p.flags 7
/-- ORDERED flag. -/
def CmdPkt.ordered (p : CmdPkt) : Bool := bitAt p.flags 6
/-- IMMEDIATE_DATA flag. -/
def CmdPkt.immediate (p : CmdPkt) : Bool := bitAt p.flags 5
/-- NO_CACHE flag. -/
def CmdPkt.noCache (p : CmdPkt) : Bool := bitAt p.flags 4
/-- A big-endian parameter. -/
def CmdPkt.param (p : CmdPkt) (off n : Nat) : Nat := beAt p.params off n

/-- Replaces a command in flight. -/
def State.setCmd (s : State) (c : CmdCtx) : State :=
  { s with kv := { s.kv with cmds := s.kv.cmds.map fun x => if x.sid = c.sid ∧ x.pkt.tag = c.pkt.tag then c else x } }

/-- Changes a command in flight. -/
def State.onCmd (s : State) (sid tag : Nat) (f : CmdCtx → CmdCtx) : State :=
  { s with kv := { s.kv with cmds := s.kv.cmds.map fun x => if x.sid = sid ∧ x.pkt.tag = tag then f x else x } }

/-- The time at which a promised command's bound passes, on the drive's timebase (R124, R138). -/
def CmdCtx.due (c : CmdCtx) : Nat := c.arrivedAt + (c.bound - c.ta)

/-- A promised command: SESSION_RESET has its bound whatever its PromiseClass (R148). -/
def CmdCtx.promised (c : CmdCtx) : Bool := (decide (c.pkt.cls < 3) || c.pkt.opcode == 0x60) && !peerOp c.pkt.opcode

/-- Two commands on one key (R36). -/
def CmdCtx.sameKey (a b : CmdCtx) : Bool :=
  keyOp a.pkt.opcode && keyOp b.pkt.opcode && a.pkt.ns == b.pkt.ns && a.pkt.gen == b.pkt.gen && a.pkt.key == b.pkt.key

/-- The command holds a position in its key order. -/
def CmdCtx.admitted (c : CmdCtx) : Bool := c.st == .waiting || c.st == .running || c.st == .committed

/-- A write that is admitted and has neither committed nor ended. -/
def CmdCtx.openWrite (c : CmdCtx) : Bool := writeOp c.pkt.opcode && (c.st == .waiting || c.st == .running)

/-- The command is a write that PROMISE_BROKEN ends: what follows it on its key proceeds at once (R152). -/
def CmdCtx.endsBroken (c : CmdCtx) : Bool :=
  match c.write with
  | some w => w.ending.any (·.1 == stBroken)
  | none => false

/-- Writes before a command in its key order that have neither committed nor ended (R36, R38, R45). A write that ends without
committing ends with its response, after the releases of R215. -/
def State.writesBefore (s : State) (c : CmdCtx) : List CmdCtx :=
  s.kv.cmds.filter fun x => (x.openWrite || (writeOp x.pkt.opcode && x.st == .releasing && !x.endsBroken)) && x.sameKey c && (decide (x.pos < c.pos) || !c.admitted)

/-- Commands of the session that arrived earlier and have not ended (R39). -/
def State.earlierInSession (s : State) (c : CmdCtx) : List CmdCtx :=
  (s.kv.cmds.takeWhile fun x => !(x.sid == c.sid && x.pkt.tag == c.pkt.tag)).filter fun x => x.sid == c.sid

/-- Commands of the session that a FLUSH covers: those admitted before it that have not ended (R40). -/
def State.flushCovers (s : State) (c : CmdCtx) : List CmdCtx := (s.earlierInSession c).filter fun x => x.admitted || x.st == .releasing

/-- A write has all of its value: from then on it waits for its commit turn and its holders, no longer for its host. -/
def CmdCtx.valueHere (c : CmdCtx) : Bool :=
  writeOp c.pkt.opcode && c.st == .running &&
    (c.pkt.immediate || c.pkt.valueLen == 0 || (decide (c.pkt.valueLen ≤ c.granted) && c.windows.all (·.complete)))

/-- When a command began to wait: a write with the last of its value. -/
def CmdCtx.waitsFrom (c : CmdCtx) : Nat := if writeOp c.pkt.opcode then max c.arrivedAt c.lastData else c.arrivedAt

/-- A command waits for another: a write before it on its key, an earlier one behind ORDERED, one that a FLUSH covers
(R130). -/
def State.waitsOn (s : State) (c p : CmdCtx) : Bool :=
  (((readOp c.pkt.opcode && c.st == .waiting) || c.valueHere) && p.openWrite && p.sameKey c && decide (p.pos < c.pos)) ||
    (c.ordered && c.st == .waiting && p.sid == c.sid && (s.earlierInSession c).any fun x => x.pkt.tag == p.pkt.tag) ||
    (c.pkt.opcode == 0x20 && p.sid == c.sid && c.covers.contains p.pkt.tag)

/-- A command waits for another, itself or through one that it waits for: it is charged what that one is charged (R130). -/
def State.waitsReach (s : State) : Nat → CmdCtx → CmdCtx → Bool
  | 0, _, _ => false
  | fuel + 1, c, p => s.waitsOn c p || s.kv.cmds.any fun q => s.waitsOn c q && s.waitsReach fuel q p

/-- A command is charged the host-held time of another: its own, or that of one it waits for (R129, R130). -/
def State.charged (s : State) (c p : CmdCtx) : Bool :=
  (c.sid == p.sid && c.pkt.tag == p.pkt.tag) || s.waitsReach s.kv.cmds.length c p

/-- Host-held time of a command that is not counted yet: from the earliest start, after what is counted, of the intervals that run
now for it or for those it waits for (R129, R130). -/
def State.heldRun (s : State) (c : CmdCtx) : Nat :=
  (s.kv.cmds.map fun p => match p.heldSince with
    | some h =>
      if c.sid = p.sid ∧ c.pkt.tag = p.pkt.tag then s.now - max h c.heldUpTo
      else if s.charged c p then s.now - max (max h c.waitsFrom) c.heldUpTo
      else 0
    | none => 0).foldl max 0

/-- An interval of host-held time of a command ends: it counts for it and for those that wait on it (R129, R130). -/
def State.closeHeld (s : State) (p : CmdCtx) : State :=
  match p.heldSince with
  | none => s
  | some _ =>
    let l := s.kv.cmds.map fun (c : CmdCtx) =>
      let x := if s.charged c p then { c with hostHeld := c.hostHeld + s.heldRun c, heldUpTo := s.now } else c
      if c.sid = p.sid ∧ c.pkt.tag = p.pkt.tag then { x with heldSince := none } else x
    { s with kv := { s.kv with cmds := l } }

/-- Host-held time begins. -/
def State.openHeld (s : State) (sid tag : Nat) : State :=
  s.onCmd sid tag fun c => { c with heldSince := some (c.heldSince.getD s.now) }

/-- Host-held time of a command up to now (R129, R130). -/
def State.heldOf (s : State) (c : CmdCtx) : Nat := c.hostHeld + s.heldRun c

/-- Sends a RESP for a packet. -/
def State.sendResp (s : State) (sid path : Nat) (p : CmdPkt) (status : Nat) (body : Bytes) : State :=
  s.send sid path false (.resp p.opcode status p.tag p.inc body)

/-- A tag's command ends (R72). -/
def State.endTag (s : State) (sid tag : Nat) : State :=
  s.onSession sid fun x => { x with tags := x.tags.map fun g => if g.tag = tag then { g with ended := true } else g }

/-- A command that was not admitted ends with its response (R72, R98). -/
def State.answer (s : State) (sid path : Nat) (p : CmdPkt) (status : Nat) (body : Bytes) : State :=
  (s.endTag sid p.tag).sendResp sid path p status body

/-- A command is refused at admission (R99, R146). -/
def State.refuse (s : State) (sid path : Nat) (p : CmdPkt) (retryUs limiter : Nat) : State :=
  (s.countRefusal limiter).answer sid path p stNotAdmitted (refusalBody retryUs limiter)

/-- A command leaves the list, its bookings with it. -/
def State.dropCmd (s : State) (c : CmdCtx) : State :=
  let s := s.closeHeld c
  let s := { s with kv := { s.kv with cmds := s.kv.cmds.filter fun x => !(x.sid == c.sid && x.pkt.tag == c.pkt.tag) } }
  (s.unbook (.cmd c.sid c.pkt.tag)).stirred

/-- Whether an ending counts toward availability: not under R50, R51 or R53 (R154). -/
def countsEnding (status : Nat) : Bool := !(status == stReset || status == stLost || status == stAbsent)

/-- CommitState of a command that PROMISE_BROKEN ends while its response waits to leave (R152): what that response says. -/
def endedCommit (op status : Nat) (body : Bytes) : Nat :=
  let changes := writeOp op || op == 0x30 || op == 0x31
  if status = stOk ∨ status = stDegraded then (if changes then 1 else 2)
  else if body.length = 24 then beAt body 0 1
  else if changes then 0 else 2

/-- An admitted command ends with its response, or without one where it is suppressed (R72, R128, R154). It counts toward
availability once the response is handed to the MAC. -/
def State.finish (s : State) (c : CmdCtx) (status : Nat) (body : Bytes) : State :=
  let e : DueEnd := { sid := c.sid, tag := c.pkt.tag, due := c.due + s.heldOf c, bound := c.bound, commit := endedCommit c.pkt.opcode status body,
                      broken := status == stBroken }
  let s := s.dropCmd c
  if c.suppressed then s.endTag c.sid c.pkt.tag
  else
    let s := if c.promised && countsEnding status then { s with net := { s.net with ends := s.net.ends ++ [e] } } else s
    s.answer c.sid c.path c.pkt status body

/-- Buffer space of windows that have not drained is free again. -/
def State.freeWindows (s : State) (c : CmdCtx) : State :=
  let n := ((c.windows.filter fun w => !w.drained).map fun w => bufSpace w.len).sum
  { s with media := { s.media with granted := s.media.granted - n } }

/-- Peers that reserved and have not acknowledged a release; the home has reclaimed its own fragment (R215). -/
def WriteCtx.unreleased (w : WriteCtx) (self : Nat) : Nat :=
  (w.holders.filter fun h => h.member != self && h.reserved == some true && !h.releaseAcked).length

/-- The Outcome, or the Error detail of R79, of an ending without commit; `commit` is the CommitState. A command that was not admitted
has no bound, and NAMESPACE_ABSENT then no body (R100). -/
def State.endBody (s : State) (c : CmdCtx) (status ev commit : Nat) : Bytes :=
  let early := c.st == .undecided || c.st == .phaseOne
  if status = stLength then errorBody 36 0
  else if early && status == stAbsent then []
  else outcomeBody commit ev (if early then 0 else c.bound) s.ptp

/-- A write that has not passed its commit point leaves no trace: releases go to every holder that reserved, the home's
own fragment is reclaimed, bookings and windows are freed (R35, R215). -/
def State.undoWrite (s : State) (c : CmdCtx) (w : WriteCtx) : State :=
  let s := (s.freeWindows c).unbook (.cmd c.sid c.pkt.tag)
  let s := { s with welt := { s.welt with aborted := w.stripe :: s.welt.aborted,
                                          msgs := s.welt.msgs.filter fun m => !(m.on.isNone && m.stripe == w.stripe && (m.pkt.opcode == 0x70 || m.pkt.opcode == 0x71)) } }
  let s := w.holders.foldl (fun s h =>
    if h.reserved = some true ∧ h.member ≠ s.selfId then s.sendRelease h.member w.stripe h.index 1 (some (c.sid, c.pkt.tag)) else s) s
  s.releaseFrag w.stripe 0

/-- An admitted or undecided command ends without commit (R50 to R53, R79, R152, R215): with a response, which for a
write waits for the releases; or without one. -/
def State.abort (s : State) (c : CmdCtx) (status ev : Nat) (answer : Bool) : State :=
  match c.write with
  | some w =>
    let s := s.undoWrite c w
    if !answer then (s.dropCmd c).endTag c.sid c.pkt.tag
    else if w.unreleased s.selfId ≤ w.quorum - 2 ∨ c.st = .phaseOne then s.finish c status (s.endBody c status ev 0)
    else
      let s := s.closeHeld c
      let w := { w with ending := some (status, ev), releaseAt := s.now + s.fragTimeout }
      s.onCmd c.sid c.pkt.tag fun c => { c with st := .releasing, windows := [], write := some w }
  | none =>
    let s := s.freeWindows c
    if !answer then (s.dropCmd c).endTag c.sid c.pkt.tag
    else s.finish c status (s.endBody c status ev (if writeOp c.pkt.opcode then 0 else 2))

/-- The commit record of a stripe that the index names. -/
def State.recOfStripe (s : State) (i : StripeId) : Option CommitRec :=
  s.media.recs.findSome? fun r => match r.body with
    | .commit c => if c.stripe = i ∧ s.recValid r = true then some c else none
    | _ => none

/-- The index of a committed stripe whose holder failed enters the repair queue (R214, R225). -/
def State.failRepair (s : State) (m : PeerMsg) : State :=
  match s.recOfStripe m.stripe with
  | some r => if r.holder? m.index = some m.member then s.queueRepair r m.index false else s
  | none => s

/-- A member fails as a holder of every write that has not reached its commit point: in phase one that counts as its refusal
(R145, R214). -/
def State.memberFails (s : State) (m : Nat) : State :=
  let mark (h : WriteHolder) : WriteHolder := if h.member = m then { h with failed := true, reserved := some (h.reserved.getD false) } else h
  let one (c : CmdCtx) : CmdCtx :=
    if c.st = .committed ∨ c.st = .releasing then c else { c with write := c.write.map fun w => { w with holders := w.holders.map mark } }
  { s with kv := { s.kv with cmds := s.kv.cmds.map one } }

/-- A host-role session has ended: its member fails as a holder; of a stripe that has committed, an index with slices still
unanswered enters the repair queue; every other message waits for a new session (R145, R214, R476). -/
def State.peerGone (s : State) (sid : Nat) : State :=
  match (s.session? sid).bind (·.asHost) with
  | none => s
  | some m =>
    let on (x : PeerMsg) : Bool := match x.on with | some o => o.1 == sid | none => false
    let ends (x : PeerMsg) : Bool := on x && x.cmd.isSome && (x.pkt.opcode == 0x70 || x.pkt.opcode == 0x71)
    let cut := s.welt.msgs.filter fun x => ends x && x.pkt.opcode == 0x71
    let msgs := (s.welt.msgs.filter fun x => !ends x).map fun (x : PeerMsg) =>
      { x with on := if on x then none else x.on, also := x.also.filter fun a => a.1 != sid }
    let s := ({ s with welt := { s.welt with msgs := msgs } } : State).memberFails m
    cut.foldl State.failRepair s

/-- The commands of a session end under R51: those past their commit point complete without a response. -/
def State.endSessionCmds (s : State) (sid : Nat) : State :=
  let l := s.kv.cmds.filter fun c => c.sid == sid
  let s := l.foldl (fun s c =>
    if c.st = .committed then s.onCmd sid c.pkt.tag fun c => { c with suppressed := true }
    else s.abort c stLost 0 false) s
  s.peerGone sid

/-- CLOSE is sent and the session is CLOSING (R61, R86). A HALF_OPEN session has no CLOSE to get: it is discarded. -/
def State.closeSession (s : State) (sid reason detail : Nat) : State :=
  match s.session? sid with
  | none => s
  | some x =>
    if x.st = .closing then s
    else if x.st = .halfOpen then s.dropSession sid
    else
      let s := s.endSessionCmds sid
      let s := { s with net := { s.net with ends := s.net.ends.filter (·.sid != sid) } }
      let s := s.onSession sid fun x => { x with st := .closing, unacked := [], txq := [], held := [], closePn := some x.nextPn,
                                                 closeAt := some (s.now + 3 * ((x.path? 0).map (·.pto)).getD 150000) }
      match s.session? sid with
      | none => s
      | some x =>
        let s := match x.paths.find? (·.active) <|> x.path? 0 with
          | some q => s.txOn x q q.idx false (.close reason detail)
          | none => s
        s.noteMember x

/-- A session is LOST: event 0x0301, its commands end, and its entry goes (R51, R61). -/
def State.loseSession (s : State) (sid : Nat) : State :=
  match s.session? sid with
  | none => s
  | some x => ((((s.endSessionCmds sid).bump K.sessionsLost).event 0x0301 [(4, sid), (4, x.unreleased)]).dropSession sid).noteMember x

/-- The direction of a session's packets for event 0x0304 (Table 3.21): 0 host to drive, 1 drive to host. -/
def Session.direction (x : Session) (own : Bool) : Nat := if x.asHost.isSome = own then 0 else 1

/-- A session whose next packet number would pass the last one closes (R63). -/
def State.checkPn (s : State) (x : Session) : State :=
  if x.st = .open_ ∧ lastPn ≤ x.nextPn + 1 then (s.closeSession x.sid 5 0).event 0x0304 [(4, x.sid), (4, x.direction true)] else s

/-- Every session whose packet numbers run out closes (R63). -/
def State.checkPns (s : State) : State := s.net.sessions.foldl State.checkPn s

/-- The sessions that are OPEN. -/
def State.openSessions (s : State) : List Session := s.net.sessions.filter (·.st == .open_)

/-- The session that a HELLO to a full table evicts (R88): the one longest without a CMD. Sessions in which this drive takes the
host's role are the far end's to evict. -/
def State.victim (s : State) : Option Session :=
  let l := s.openSessions.filter fun x => x.asHost.isNone && x.unreleased == 0 && decide (x.lastCmd + s.num K.evictionMinIdleSeconds * nsSec ≤ s.now)
  l.foldl (fun (b : Option Session) x => match b with
    | some y => if x.lastCmd < y.lastCmd then some x else some y
    | none => some x) none

/-- Evicts a session (R88). -/
def State.evict (s : State) (x : Session) : State :=
  ((s.closeSession x.sid 3 0).bump K.sessionsEvicted).event 0x0303 [(4, x.sid), (4, (s.now - x.lastCmd) / nsSec)]

/-- Room is made for a session in a full table, or there is none (R88). -/
def State.makeRoom (s : State) : Option State :=
  if s.openSessions.length < 65536 then some s
  else (s.victim).map s.evict

/-- A session's first packet opens it only while fewer than 65,536 are OPEN (R87): another is evicted for it as for a HELLO, or the
entry is discarded and the packet names no session (DESIGN CHOICE, log 104). -/
def State.openRoom (s : State) (rx : Rx) : State :=
  match s.session? rx.sid with
  | some x =>
    if x.st == .halfOpen && rx.tagOk then
      match s.makeRoom with
      | some u => u
      | none => s.dropSession rx.sid
    else s
  | none => s

/-- Receipt of a protected packet, and what follows when it opens the session (R61): with a member at the far end, its return
and a query of its namespaces (R225, R229). An RWP v1 message of a Length above 9,536 closes its session (R93). -/
def State.rxPacket (s : State) (rx : Rx) (kind : Nat) (elicits : Bool) : State × Taken :=
  if (s.session? rx.sid).any (fun x => x.v1 && decide (9536 < rx.len)) && !s.otherPort rx.dst && rx.tagOk then (s.closeSession rx.sid 2 0, .dropped) else
  let opens := match s.session? rx.sid with
    | some x => x.st == .halfOpen
    | none => false
  match (s.openRoom rx).receive rx kind elicits with
  | (s, .dropped) => (s, .dropped)
  | (s, .taken) =>
    if !opens then (s, .taken)
    else match s.session? rx.sid with
      | none => (s, .taken)
      | some x => match s.memberOf x with
        | none => (s, .taken)
        | some m => ((s.noteMember x).askNamespaces m, .taken)


/-- Live objects that this drive homes in a namespace under the current epoch, by their index entries. -/
def State.liveRecs (s : State) (x : Ns) : List CommitRec :=
  match s.instOf x.number x.gen with
  | none => []
  | some i => s.idx.cells.filterMap fun c =>
      if c.2.kind = .object ∧ c.2.inst = i then (s.commitAt c.2.loc).filter fun r => s.isHome r.hash else none

/-- Admitted writes of values in a namespace that have neither committed nor ended; one that ends without commit has ended once its
response goes. -/
def State.openPuts (s : State) (x : Ns) : List CmdCtx :=
  s.kv.cmds.filter fun c => putOp c.pkt.opcode && c.pkt.ns == x.number && c.pkt.gen == x.gen && (c.openWrite || c.st == .releasing)

/-- charged_bytes (R34). -/
def State.chargedBytes (s : State) (x : Ns) : Nat :=
  ((s.liveRecs x).map (·.valueLen)).sum + ((s.openPuts x).map (·.pkt.valueLen)).sum

/-- charged_objects (R34). -/
def State.chargedObjects (s : State) (x : Ns) : Nat :=
  (s.liveRecs x).length + ((s.openPuts x).filter fun c => match c.write with | some w => w.reservedObject | none => false).length

/-- Namespace body (Table 4.21). -/
def State.nsBody (s : State) (x : Ns) : Bytes :=
  beBytes 4 x.gen ++ beBytes 1 x.k ++ beBytes 1 x.m ++ beBytes 1 x.retention ++ beBytes 1 (bit x.readOnly + 2 * bit s.sec.wrapped) ++
    beBytes 4 x.hold ++ beBytes 4 x.quotaObjects ++ beBytes 8 x.quotaBytes ++ beBytes 8 (s.chargedBytes x) ++
    beBytes 8 (s.chargedObjects x) ++ beBytes 8 (s.liveRecs x).length

end Sys2Proof.Machine
end

