-- ==== Sys2Proof/Machine/Read.lean ====
section
/-! DEFINITION. Reads: DATA and RESP of a reply, the read turn, gathering fragments, LIST and its cursor (02 R45 to R48,
03 R80, 04 R101, R102, R106 to R110, 07 R218, 10 R298). -/

namespace Sys2Proof.Machine

/-- StripeId as detail fields of an event. -/
def StripeId.fields (i : StripeId) : List (Nat × Nat) := [(2, i.home), (2, 0), (4, i.boot), (8, i.serial)]

/-- Sends the DATA of a command's reply as far as RecvCredit allows, and its RESP after the last byte (R80). While credit
forbids the next packet the command is host-held (R129). -/
def State.sendReply : Nat → State → Nat → Nat → State
  | 0, s, _, _ => s
  | fuel + 1, s, sid, tag =>
    match s.cmd? sid tag, s.session? sid with
    | some c, some x =>
      match c.reply with
      | none => s
      | some (b, status, body) =>
        let rest := b.drop c.replySent
        if rest.isEmpty then s.finish c status body
        else
          let n := min (min (max 1 x.dataMax) rest.length) (x.credit - x.dataInFlight)
          if n = 0 ∧ c.suppressed = false then s.openHeld sid tag
          else
            let n := if c.suppressed then rest.length else n
            let s := (s.closeHeld c).onCmd sid tag fun c => { c with replySent := c.replySent + n }
            let s := if c.suppressed then s
              else s.send sid c.path false (.data tag c.pkt.inc c.replySent (n == rest.length) (rest.take n))
            State.sendReply fuel s sid tag
    | _, _ => s

/-- A command's reply is ready: bytes, then status and body. -/
def State.reply (s : State) (c : CmdCtx) (bytes : Bytes) (status : Nat) (body : Bytes) : State :=
  let s := s.onCmd c.sid c.pkt.tag fun c => { c with reply := some (bytes, status, body), replySent := 0 }
  State.sendReply (bytes.length + 2) s c.sid c.pkt.tag

/-- The body of a read that returns `n` bytes (R101, R102). -/
def readBody (op : Nat) (r : CommitRec) (n : Nat) : Bytes :=
  if op = 0x02 then metaBody (some r) ++ beBytes 4 n ++ zeros 4 else metaBody (some r)

/-- The deadline that a command's fetches carry: PTP, 100 us before its resource deadline; 0 for PC3 (R144). -/
def CmdCtx.fetchBy (c : CmdCtx) : Nat := if c.pkt.cls = 3 then 0 else c.ta + (c.deadline - c.arrivedAt) - 100000

/-- Asks a holder for a piece of a fragment, or takes it from this drive's own one (R218). -/
def State.fetchPiece (s : State) (c : CmdCtx) (r : CommitRec) (p : Piece) : State × ReadChunk :=
  let e : ReadChunk := { index := p.index, seg := p.seg, off := p.off, len := p.len, askedAt := s.now, data := none, missing := false }
  match r.holder? p.index with
  | none => (s, { e with missing := true })
  | some m =>
    if m = s.selfId then
      match s.ownSlice r.stripe p.index p.seg with
      | some b => (s, { e with data := some (sliceBytes b p.off p.len) })
      | none => (s.queueRepair r p.index false, { e with missing := true })
    else
      let off := if r.striped then p.seg * chunkC + p.off else p.off
      (s.sendGet m r.ns r.gen c.pkt.cls r.stripe p.index off p.len c.fetchBy fun x => { x with cmd := some (c.sid, c.pkt.tag), seg := p.seg },
        e)

/-- Fetches several pieces. -/
def State.fetchAll (s : State) (c : CmdCtx) (r : CommitRec) (l : List Piece) : State × List ReadChunk :=
  l.foldl (fun a p => let x := a.1.fetchPiece c r p; (x.1, a.2 ++ [x.2])) (s, [])

/-- Where a segment of a striped read stands: all pieces there, k chunks to decode from, more to ask for, or lost. -/
inductive SegSt where
  | ready (bytes : Bytes)
  | waits
  | ask (l : List Piece)
  | lost
  deriving DecidableEq, Repr

/-- The state of one segment from the chunks gathered so far (R205, R218). -/
def segState (r : CommitRec) (ps : List Piece) (l : List ReadChunk) (seg : Nat) : SegSt :=
  let ps := ps.filter (·.seg == seg)
  let l := l.filter (·.seg == seg)
  let bad (i : Nat) : Bool := l.any fun e => e.index == i && e.missing
  if !(l.any (·.missing)) then
    let bytes := ps.map fun p => (l.find? fun e => e.index == p.index && e.off == p.off && e.len == p.len).bind (·.data)
    if bytes.all Option.isSome then .ready (bytes.flatMap fun b => b.getD []) else .waits
  else
    let (lo, hi) := touched ps seg
    let full (i : Nat) : Option ReadChunk := l.find? fun e => e.index == i && e.off == lo && e.len == hi - lo
    let chosen := ((List.range (r.k + r.m)).filter fun i => (r.holder? i).isSome && !bad i).take r.k
    if chosen.length < r.k then .lost
    else
      let need := chosen.filter fun i => (full i).isNone
      if !need.isEmpty then .ask (need.map fun i => { index := i, seg := seg, off := lo, len := hi - lo })
      else
        let got := chosen.filterMap fun i => ((full i).bind (·.data)).map fun b => (i, b)
        if got.length < r.k then .waits
        else
          let d := rsDecode r.k r.m got
          .ready (ps.flatMap fun p => sliceBytes (d.getD p.index []) (p.off - lo) p.len)

/-- A mirrored read: the copy that has come, or the next copy in rank order to ask for (R218). -/
def mirrorState (r : CommitRec) (off n : Nat) (l : List ReadChunk) : SegSt :=
  match l.findSome? (·.data) with
  | some b => .ready b
  | none =>
    if l.any fun e => !e.missing then .waits
    else match (List.range r.holders.length).find? fun i => (r.holder? i).isSome && !(l.any (·.index == i)) with
      | some i => .ask [{ index := i, seg := 0, off := off, len := n }]
      | none => .lost

/-- What the whole read still lacks. -/
def gatherState (r : CommitRec) (off n : Nat) (l : List ReadChunk) : SegSt :=
  if r.striped then
    let ps := pieces r.valueLen r.k off n
    let segs := ((ps.map (·.seg)).eraseDups).map (segState r ps l)
    if segs.any (· == .lost) then .lost
    else
      let asks := segs.flatMap fun x => match x with | .ask a => a | _ => []
      if !asks.isEmpty then .ask asks
      else if segs.any (· == .waits) then .waits
      else .ready (segs.flatMap fun x => match x with | .ready b => b | _ => [])
  else mirrorState r off n l

/-- Indices that a read replaced, as a mask. -/
def replacedMask (l : List ReadChunk) : Nat := (((l.filter (·.missing)).map (·.index)).eraseDups.map fun i => 2 ^ i).sum

/-- A read ends with an Outcome body. -/
def State.failRead (s : State) (c : CmdCtx) (status ev : Nat) : State := s.finish c status (outcomeBody 2 ev c.bound s.ptp)

/-- The stored bytes of a read are complete: ValueTag of a whole GET, decryption, cache, DATA (R47, R218, R298). -/
def State.deliver (s : State) (c : CmdCtx) (d : ReadCtx) (cipher : Bytes) : State :=
  let r := d.rec_
  match s.valueKey r.ns r.gen r.stripe.home r.stripe.boot with
  | none => s.failRead c 0xFF 0
  | some k =>
    let s := (s.useKey (.valueKey r.ns r.gen r.stripe.home r.stripe.boot)).useKey (.fragKey r.ns r.gen)
    let whole := c.pkt.opcode == 0x01
    if whole && valueTag k r.stripe r.ns r.gen r.key cipher != r.tag then
      let s := (s.bump K.valueTagFailures).event 0x0907 (r.stripe.fields ++ [(2, r.ns), (4, r.gen)])
      let s := ((d.chunks.map (·.index)).eraseDups).foldl (fun s i => s.queueRepair r i false) s
      s.failRead c 0xFF 0x0907
    else
      let plain := valueCrypt k r.stripe d.off cipher
      let degraded := d.chunks.any (·.missing)
      let s := if degraded then
          (s.bump K.weltReconstructedReads).event 0x0705 (r.stripe.fields ++ [(4, replacedMask d.chunks)])
        else s
      let s := if whole && !c.pkt.noCache then s.cacheValue r.stripe plain else s
      s.reply c plain (if degraded then stDegraded else stOk) (readBody c.pkt.opcode r d.len)

/-- Takes a read as far as the chunks that it has allow (R218). -/
def State.gather : Nat → State → Nat → Nat → State
  | 0, s, _, _ => s
  | fuel + 1, s, sid, tag =>
    match s.cmd? sid tag with
    | none => s
    | some c =>
      match c.read with
      | none => s
      | some d =>
        match gatherState d.rec_ d.off d.len d.chunks with
        | .waits => s
        | .lost => s.failRead c stMedia 0
        | .ready b => s.deliver c d b
        | .ask l =>
          let a := s.fetchAll c d.rec_ l
          let d := { d with chunks := d.chunks ++ a.2 }
          State.gather fuel (a.1.onCmd sid tag fun c => { c with read := some d }) sid tag

/-- Fuel for a gather: each round asks for at least one further index. -/
abbrev gatherFuel : Nat := 64

/-- The state that a read returns, and whether its commit record cannot be read: the state that its place fixes where a later
write has committed already, otherwise the key's state now (R36). -/
def State.readState (s : State) (c : CmdCtx) : Option (CommitRec × Bool) :=
  match c.fixed with
  | some cur => cur.map fun r => (r, s.media.recs.any fun x => x.body == .commit r && s.media.badAddrs.contains x.addr)
  | none => (s.current c.pkt.ns c.pkt.gen (s.hashes c.pkt.ns c.pkt.gen c.pkt.key).1 c.pkt.key).map fun a =>
      (a.1.rec_, s.media.badAddrs.contains a.1.entry.loc)

/-- A read's turn has come (R36, R45, R46, R101, R102). -/
def State.readTurn (s : State) (c : CmdCtx) : State :=
  let p := c.pkt
  match s.readState c with
  | none => s.finish c stNotFound (metaBody none)
  | some (rec_, bad) =>
    if bad then s.failRead c stMedia 0
    else if rec_.tombstone then s.finish c stNotFound (metaBody (some rec_))
    else if p.opcode = 0x03 then s.finish c stOk (metaBody (some rec_))
    else
      let off := if p.opcode = 0x02 then p.param 0 4 else 0
      if rec_.valueLen < off then s.finish c stField (errorBody 44 0)
      else
        let n := if p.opcode = 0x02 then min (p.param 4 4) (rec_.valueLen - off) else rec_.valueLen
        let raw := (s.media.raw.find? fun v => v.stripe == rec_.stripe).map (·.value)
        if n = 0 then s.finish c stOk (readBody p.opcode rec_ 0)
        else match raw <|> ((s.kv.cache.find? fun v => v.1 == rec_.stripe).map (·.2)) with
          | some v =>
            let s := if raw.isSome then { s with kv := { s.kv with streams := s.kv.streams ++ [(c.sid, p.tag, p.inc, rec_.stripe)] } } else s
            (s.onCmd c.sid p.tag fun c => { c with st := .running }).reply c (sliceBytes v off n) stOk (readBody p.opcode rec_ n)
          | none =>
            let first : List Piece :=
              if rec_.striped then pieces rec_.valueLen rec_.k off n
              else
                let ms := (List.range rec_.holders.length).filter fun i => (rec_.holder? i).isSome
                ((ms.find? fun i => rec_.holder? i == some s.selfId) <|> ms.head?).toList.map fun i =>
                  { index := i, seg := 0, off := off, len := n }
            let a := s.fetchAll c rec_ first
            let d : ReadCtx := { rec_ := rec_, off := off, len := n, chunks := a.2 }
            State.gather gatherFuel (a.1.onCmd c.sid p.tag fun c => { c with st := .running, read := some d }) c.sid p.tag

/-- A read starts: at once, or at its turn (R45). -/
def State.startRead (s : State) (c : CmdCtx) : State :=
  if (s.writesBefore c).isEmpty then s.readTurn c
  else s.onCmd c.sid c.pkt.tag fun c => { c with st := .waiting, ordered := false }

/-- The answer, or the failure, of a piece that a read asked a holder for. -/
def State.pieceCame (s : State) (sid tag : Nat) (index seg off len : Nat) (data : Option Bytes) : State :=
  match s.cmd? sid tag with
  | none => s
  | some c =>
    match c.read with
    | none => s
    | some d =>
      let put (e : ReadChunk) : ReadChunk :=
        if e.index = index ∧ e.seg = seg ∧ e.off = off ∧ e.len = len ∧ e.data.isNone = true ∧ e.missing = false then
          match data with | some b => { e with data := some b } | none => { e with missing := true }
        else e
      let d := { d with chunks := d.chunks.map put }
      State.gather gatherFuel (s.onCmd sid tag fun c => { c with read := some d }) sid tag

/-- A cursor's bytes 0 to 31 (Table 4.17). -/
def cursorHead (fin : Bool) (epoch gen resume at_ : Nat) : Bytes :=
  [1] ++ beBytes 1 (bit fin) ++ zeros 2 ++ beBytes 4 epoch ++ beBytes 4 gen ++ zeros 4 ++ beBytes 8 resume ++ beBytes 8 at_

/-- The cursor's Check (Table 4.17). -/
def State.cursorCheck (s : State) (head : Bytes) : Bytes := (cmac16 ((s.deviceKey "GRZ list cursor").getD []) head).take 8

/-- An issued cursor. -/
def State.cursor (s : State) (fin : Bool) (gen resume : Nat) : Bytes :=
  let h := cursorHead fin s.epoch gen resume s.ptp
  h ++ s.cursorCheck h

/-- A cursor given to LIST is accepted (R106). -/
def State.cursorOk (s : State) (cur : Bytes) (gen : Nat) : Bool :=
  if beAt cur 0 1 = 0 then allZero cur
  else beAt cur 0 1 == 1 && s.cursorCheck (cur.take 32) == sliceBytes cur 32 8 && beAt cur 8 4 % 2 ^ 24 == gen

/-- Puts a record in ascending order of its key hash. -/
def insertHash (r : CommitRec) : List CommitRec → List CommitRec
  | [] => [r]
  | x :: l => if r.hash < x.hash then r :: x :: l else x :: insertHash r l

/-- A LIST entry (R108). -/
def listEntry (withMeta : Bool) (r : CommitRec) : Bytes :=
  beBytes 2 r.key.length ++ beBytes 1 (bit withMeta) ++ [0] ++ (if withMeta then metaBody (some r) else []) ++ r.key

/-- The entries of a page: whole groups of equal hashes until a limit is reached (R107). -/
def listPage (withMeta : Bool) (max_ : Nat) : List CommitRec → List CommitRec → Nat → List CommitRec
  | acc, [], _ => acc
  | acc, r :: l, size =>
    let same := match acc.getLast? with | some x => x.hash == r.hash | none => false
    if !same && (decide (max_ ≤ acc.length) || decide (16777216 ≤ size)) then acc
    else listPage withMeta max_ (acc ++ [r]) l (size + (listEntry withMeta r).length)

/-- LIST executes (R48, R107 to R110). -/
def State.runList (s : State) (c : CmdCtx) : State :=
  let p := c.pkt
  match s.nsLive p.ns p.gen with
  | none => s.finish c stAbsent (outcomeBody 2 0 c.bound s.ptp)
  | some x =>
    let max_ := p.param 0 4
    let withMeta := bitAt (p.param 4 1) 0
    let cur := sliceBytes p.params 8 40
    let start := beAt cur 0 1 == 0
    let resume := beAt cur 16 8
    let ended := !start && bitAt (beAt cur 1 1) 0
    let changed := !start && beAt cur 4 4 != s.epoch
    let body (n fin bytes : Nat) (next : Bytes) : Bytes :=
      beBytes 4 n ++ beBytes 1 (fin + 2 * bit changed) ++ zeros 3 ++ beBytes 4 bytes ++ zeros 4 ++ next
    if max_ = 0 then
      s.finish c stOk (body 0 (bit ended) 0 (if start then zeros 40 else s.cursor ended p.gen resume))
    else if ended then s.finish c stOk (body 0 1 0 (s.cursor true p.gen resume))
    else
      let pre := p.params.drop 48
      let recs := ((s.liveRecs x).filter fun r => r.key.take pre.length == pre &&
        (start || decide (resume < r.hash))).foldr insertHash []
      let page := listPage withMeta max_ [] recs 0
      let bytes := page.flatMap (listEntry withMeta)
      let fin := decide (recs.length ≤ page.length)
      let last := (page.getLast?.map (·.hash)).getD resume
      let lost := (s.idx.cells.filter fun e => e.2.kind == .object).any fun e =>
        s.media.badAddrs.contains e.2.loc && page.any fun r => s.commitAt e.2.loc == some r
      if lost then s.failRead c stMedia 0
      else s.reply c bytes stOk (body page.length (bit fin) bytes.length (s.cursor fin p.gen last))

end Sys2Proof.Machine
end

