-- ==== Sys2Proof/Machine/Write.lean ====
section
/-! DEFINITION. Writes at the home: phase one, admission, windows, encoding, confirmations, commit turn and commit
(02 R25 to R27, R36 to R44, 05 R141 to R143, 07 R202, R206, R213 to R216, 10 R297). -/

namespace Sys2Proof.Machine

/-- ExpectedVersion of PUT_IF and DELETE_IF (Table 4.14). -/
def CmdPkt.expected (p : CmdPkt) : Nat := if p.opcode = 0x11 ∨ p.opcode = 0x13 then p.param 0 8 else 0

/-- The RetentionClass that a write names, or its namespace's default (Tables 4.13, 4.14). -/
def CmdPkt.retention (p : CmdPkt) (dflt : Nat) : Nat :=
  let c := if p.opcode = 0x10 then p.param 0 1 else if p.opcode = 0x11 then p.param 8 1 else 0xFF
  if c = 0xFF then dflt else c

/-- The write is a tombstone. -/
def delOp (op : Nat) : Bool := op == 0x12 || op == 0x13

/-- The WriteStamp of a write: PTP time, strictly rising on its key (R207, R224). -/
def State.stampFor (s : State) (inst hash : Nat) (cur : Option CommitRec) : Nat :=
  let last := ((s.welt.stamps.find? fun x => x.1 == inst && x.2.1 == hash).map (·.2.2)).getD 0
  max s.ptp (max last ((cur.map (·.stamp)).getD 0) + 1)

/-- The holders that placement chooses for a write (R201, R202, R213). -/
def State.placeWrite (s : State) (hash : Nat) (striped : Bool) (k m : Nat) : List WriteHolder :=
  let l := ((s.welt.cur.map fun g => g.ranked hash).getD []).take (layoutWidth striped k m)
  (List.range l.length).map fun i =>
    let id := l.getD i 0
    { index := i, member := id, reserved := if id = s.selfId then some true else none }

/-- What a write holds from its decision on (R141, R202, R206, R213); a tombstone has the RetentionClass of what it removes (08 R248). -/
def State.newWrite (s : State) (p : CmdPkt) (x : Ns) (inst hash : Nat) (cur : Option CommitRec) : WriteCtx :=
  let striped := putOp p.opcode && decide (s.num K.mirrorThreshold < p.valueLen)
  let cls := match delOp p.opcode, cur with
    | true, some r => r.attrs % 8
    | _, _ => p.retention x.retention
  { stripe := { home := s.selfId, boot := s.sec.powerCycle, serial := s.welt.serial + 1 }, epoch := s.epoch, striped := striped,
    k := x.k, m := x.m, quorum := quorum striped x.k x.m (s.num K.quorumSlack), hash := hash, stamp := s.stampFor inst hash cur,
    attrs := cls + 8 * bit striped + 16 * bit (delOp p.opcode), durable := p.durable || !s.holdup, mediaFirst := p.durable || !s.holdup,
    holders := s.placeWrite hash striped x.k x.m }

/-- The fragment header of an index of a write (R207). -/
def writeHdr (c : CmdCtx) (w : WriteCtx) (index : Nat) : FragHdr :=
  let len := c.pkt.valueLen
  { index := index, k := w.k, m := w.m, ns := c.pkt.ns, gen := c.pkt.gen, epoch := w.epoch, stripe := w.stripe, kind := c.pkt.opcode,
    attrs := w.attrs, durable := w.durable, segments := segmentsOf w.striped len w.k, expected := c.pkt.expected, valueLen := len,
    hash := w.hash, stamp := w.stamp, deadline := if c.pkt.cls = 3 then 0 else c.bound,
    lastChunk := if w.striped then lastChunk len w.k else 0, fragLen := fragLen w.striped len w.k, key := c.pkt.key }

/-- The stripe commit record of a write (R208, R214): Holders names every member that reserved, HolderMask the durable
ones. -/
def writeRec (c : CmdCtx) (w : WriteCtx) (version commitTime : Nat) (durable : List Nat) : CommitRec :=
  let width := layoutWidth w.striped w.k w.m
  { attrs := w.attrs, k := w.k, m := w.m, ns := c.pkt.ns, gen := c.pkt.gen, epoch := w.epoch, stripe := w.stripe, version := version,
    commitTime := commitTime, valueLen := c.pkt.valueLen, hash := w.hash, stamp := w.stamp,
    holders := (List.range width).map fun i =>
      match w.holders.find? fun h => h.index == i with
      | some h => if h.reserved = some true then h.member else 0xFFFF
      | none => 0xFFFF
    mask := (durable.map fun i => 2 ^ i).sum, revision := 0, lastChunk := if w.striped then lastChunk c.pkt.valueLen w.k else 0,
    tag := w.tag, key := c.pkt.key }

/-- Sends the slices of a holder's index for a range of segments (R214 step 2). -/
def State.sendSlices (s : State) (c : CmdCtx) (w : WriteCtx) (h : WriteHolder) (segs : List Nat) : State :=
  match s.fragKey c.pkt.ns c.pkt.gen with
  | none => s
  | some fk =>
    segs.foldl (fun s seg =>
      let b := valueSlice w.striped w.cipher c.pkt.valueLen w.k w.m h.index seg
      s.sendPut h.member c.pkt.ns c.pkt.gen c.pkt.cls w.stripe h.index seg b (sliceCheck fk w.stripe h.index seg b) fun m =>
        { m with cmd := some (c.sid, c.pkt.tag) }) s

/-- Segments of a write whose bytes have all drained. -/
def segsReady (striped : Bool) (len k drained : Nat) : Nat :=
  if striped then (if len ≤ drained then segCount len k else drained / (k * chunkC))
  else if len ≤ drained ∧ 0 < len then 1 else 0

/-- Segments newly complete are encoded: the home keeps its own slice, and every reserved holder is sent its own (R203,
R204, R214). -/
def State.encode (s : State) (sid tag : Nat) : State :=
  match s.cmd? sid tag with
  | none => s
  | some c => match c.write with
    | none => s
    | some w =>
      let n := segsReady w.striped c.pkt.valueLen w.k w.drained
      let segs := (List.range (n - w.segmentsDone)).map (w.segmentsDone + ·)
      let s := s.onCmd sid tag fun c => { c with write := some { w with segmentsDone := n } }
      let s := match s.fragKey c.pkt.ns c.pkt.gen with
        | none => s
        | some fk => segs.foldl (fun s seg =>
            match s.frag? w.stripe 0 with
            | some f =>
              let b := valueSlice w.striped w.cipher c.pkt.valueLen w.k w.m 0 seg
              s.addSlice f seg b (sliceCheck fk w.stripe 0 seg b)
            | none => s) s
      w.holders.foldl (fun s h =>
        if h.member ≠ s.selfId ∧ h.reserved = some true ∧ h.failed = false then s.sendSlices c w h segs else s) s

/-- A value that the write buffer retains whole: at most a quarter of the buffer, while space allows (R46, R250). -/
def State.retains (s : State) (len : Nat) : Bool :=
  decide (0 < len ∧ 4 * len ≤ s.media.bufMiB * 1048576) && decide (s.bufUsed + bufSpace len ≤ s.bufSize)

/-- A raw value leaves the write buffer: BUF is cleared, and the read cache may take it (R47, R172, R250). -/
def State.dropRaw (s : State) (v : RawValue) : State :=
  let s := { s with media := { s.media with raw := s.media.raw.filter fun x => x.stripe != v.stripe } }
  let s := match s.media.recs.find? (fun r => match r.body with | .commit c => c.stripe == v.stripe | _ => false) with
    | some r => s.clearBuf r.addr
    | none => s
  if v.keep then s.cacheValue v.stripe v.value else s

/-- Raw values that do not stream leave, the oldest first, until `n` bytes are free (R46; "while space allows", R250; DESIGN CHOICE,
log 27). -/
def State.rawRoom (s : State) (n : Nat) : State :=
  (s.media.raw.filter fun v => !s.streaming v.stripe).foldl (fun s v => if s.bufSize < s.bufUsed + n then s.dropRaw v else s) s

/-- Raw values whose home fragment is on media, or gone without a command that still writes it, leave the write buffer unless they
stream to a host (R46, R47, R250). -/
def State.rawLeave (s : State) : State :=
  let s := { s with kv := { s.kv with streams := s.kv.streams.filter s.streamOpen } }
  let l := s.media.raw.filter fun v => !s.streaming v.stripe
  let gone (v : RawValue) : Bool := (s.frag? v.stripe 0).isNone && !(s.kv.cmds.any fun c => c.write.any fun w => w.stripe == v.stripe)
  let s := (l.filter fun v => (s.frag? v.stripe 0).any s.fragOnMedia).foldl State.dropRaw s
  { s with media := { s.media with raw := s.media.raw.filter fun v => !(l.contains v && gone v) } }

/-- Bytes of a write's value drain in order: encrypted, then encoded (R44, R297). -/
def State.feed (s : State) (c : CmdCtx) (b : Bytes) : State :=
  match c.write with
  | none => s
  | some w =>
    match s.valueKey c.pkt.ns c.pkt.gen w.stripe.home w.stripe.boot with
    | none => s
    | some k =>
      let s := (s.useKey (.valueKey c.pkt.ns c.pkt.gen w.stripe.home w.stripe.boot)).useKey (.fragKey c.pkt.ns c.pkt.gen)
      let cipher := w.cipher ++ valueCrypt k w.stripe w.drained b
      let w := { w with drained := w.drained + b.length, value := w.value ++ b, cipher := cipher }
      let done_ := decide (c.pkt.valueLen ≤ w.drained)
      let w := if done_ then { w with tag := valueTag k w.stripe c.pkt.ns c.pkt.gen c.pkt.key cipher } else w
      let s := (s.onCmd c.sid c.pkt.tag fun c => { c with write := some w }).encode c.sid c.pkt.tag
      if done_ && s.retains c.pkt.valueLen then
        { s with media := { s.media with raw := s.media.raw ++ [{ stripe := w.stripe, value := w.value, keep := !c.pkt.noCache }] } }
      else s

/-- An admitted write starts: its own header is placed; an immediate value drains at once (R81, R213). -/
def State.startWrite (s : State) (c : CmdCtx) : State :=
  match c.write with
  | none => s
  | some w =>
    let s := s.onCmd c.sid c.pkt.tag fun c => { c with st := .running, ordered := false }
    let s := s.addFrag (writeHdr c w 0) 0
    if c.pkt.valueLen = 0 then
      match s.valueKey c.pkt.ns c.pkt.gen w.stripe.home w.stripe.boot with
      | none => s
      | some k =>
        let tag := valueTag k w.stripe c.pkt.ns c.pkt.gen c.pkt.key []
        let s := s.useKey (.valueKey c.pkt.ns c.pkt.gen w.stripe.home w.stripe.boot)
        s.onCmd c.sid c.pkt.tag fun c => { c with write := some { w with tag := tag } }
    else if c.pkt.immediate then
      match s.cmd? c.sid c.pkt.tag with
      | some c => s.feed c (padTo c.pkt.value c.pkt.valueLen)
      | none => s
    else s

/-- The key of a write has a live object now. -/
def State.liveNow (s : State) (c : CmdCtx) (w : WriteCtx) : Bool :=
  (s.instOf c.pkt.ns c.pkt.gen).any fun i => (s.lookup i w.hash c.pkt.key).any fun r => !r.rec_.tombstone

/-- A command is admitted: it takes its position and starts, unless ORDERED holds it (R36, R39). -/
def State.takePosition (s : State) (c : CmdCtx) (start : State → CmdCtx → State) : State :=
  let hold := c.ordered && !(s.earlierInSession c).isEmpty
  let w := c.write.map fun w => { w with reservedObject := putOp c.pkt.opcode && !s.liveNow c w }
  let c := { c with st := .waiting, pos := s.kv.nextPos, ordered := hold, paused := s.paused, write := w }
  let s := ({ s with kv := { s.kv with nextPos := s.kv.nextPos + 1 } } : State).setCmd c
  let s := s.bump K.admittedCount
  if hold || s.paused then s else start s c

/-- Reserved, and refusing or failed, peers of a write in phase one. -/
def WriteCtx.peers (w : WriteCtx) (self : Nat) : List WriteHolder := w.holders.filter fun h => h.member != self

/-- RetryAfterUs of R143. -/
def State.reserveRetry (s : State) (w : WriteCtx) : Nat :=
  let l := ((w.peers s.selfId).filter fun h => h.reserved.isSome && !h.failed).map fun h => if h.reserved = some true then 0 else h.retryUs
  if l.length < w.quorum - 1 then s.num K.peerSilentRetryMs * 1000
  else
    let sorted := l.foldr (fun a acc => (acc.filter (· < a)) ++ [a] ++ acc.filter fun b => decide (a ≤ b)) []
    max 1 (sorted.getD (w.quorum - 2) 1)

/-- A write is refused in phase one with Limiter PEER_RESERVATION (R143). -/
def State.refusePhaseOne (s : State) (c : CmdCtx) (w : WriteCtx) : State :=
  let us := s.reserveRetry w
  ((s.undoWrite c w).dropCmd c).refuse c.sid c.path c.pkt us 6

/-- Phase one ends when enough peers have reserved, or too many have refused (R141, R143). -/
def State.phaseOne (s : State) (c : CmdCtx) : State :=
  match c.write with
  | none => s
  | some w =>
    if c.st ≠ .phaseOne then s
    else
      let ps := w.peers s.selfId
      let yes := (ps.filter fun h => h.reserved == some true && !h.failed).length
      let no := (ps.filter fun h => h.reserved == some false || h.failed).length
      if w.quorum ≤ yes + 1 then s.takePosition c State.startWrite
      else if ps.length + 1 < w.quorum ∨ ps.length - (w.quorum - 1) < no then s.refusePhaseOne c w
      else s

/-- A write enters phase one: FRAG_RESERVE to the peers that placement chose (R141, R143, R206). -/
def State.beginPhaseOne (s : State) (c : CmdCtx) (w : WriteCtx) (inst : Nat) : State :=
  let stamps := (inst, w.hash, w.stamp) :: s.welt.stamps.filter fun x => !(x.1 == inst && x.2.1 == w.hash)
  let s := { s with welt := { s.welt with serial := w.stripe.serial, stamps := stamps } }
  let c := { c with st := .phaseOne, write := some w }
  let s := s.setCmd c
  let s := (w.peers s.selfId).foldl (fun s h =>
    s.sendReserve h.member c.pkt.cls (writeHdr c w h.index) fun m => { m with cmd := some (c.sid, c.pkt.tag) }) s
  match s.cmd? c.sid c.pkt.tag with
  | some c => s.phaseOne c
  | none => s

/-- Changes one holder of a write in progress. -/
def State.onHolder (s : State) (sid tag index : Nat) (f : WriteHolder → WriteHolder) : State :=
  s.onCmd sid tag fun c => { c with write := c.write.map fun w =>
    { w with holders := w.holders.map fun h => if h.index = index then f h else h } }

/-- A holder has confirmed every segment of its fragment. -/
def holderDurable (segs : Nat) (h : WriteHolder) : Bool :=
  h.reserved == some true && !h.failed && (List.range segs).all fun i => h.confirmed.contains i

/-- The home's own fragment is durable (R20, R43, R213). -/
def State.ownDurable (s : State) (w : WriteCtx) : Bool :=
  match s.frag? w.stripe 0 with
  | some f => if w.mediaFirst || !s.holdup then s.fragOnMedia f else f.complete
  | none => false

/-- Indices of a write whose fragments are durable. -/
def State.durableIndices (s : State) (c : CmdCtx) (w : WriteCtx) : List Nat :=
  let segs := segmentsOf w.striped c.pkt.valueLen w.k
  (w.holders.filter fun h => if h.member = s.selfId then s.ownDurable w else holderDurable segs h).map (·.index)

/-- Holders that are or may yet become durable are fewer than q (R215). -/
def State.quorumLost (s : State) (w : WriteCtx) : Bool :=
  decide ((w.holders.filter fun h => h.member == s.selfId || (!h.failed && h.reserved != some false)).length < w.quorum)

/-- The condition of a write at its commit turn: none where it holds, else its status (R26, R27, R105). -/
def commitCondition (op expected : Nat) (cur : Option CommitRec) : Option Nat :=
  let live := cur.filter fun r => !r.tombstone
  match live with
  | none =>
    if delOp op then some stNotFound
    else if op = 0x11 ∧ expected ≠ 0 then some stMismatch
    else none
  | some r =>
    if op = 0x11 ∨ op = 0x13 then
      if expected = 0 then some stExists
      else if r.version = expected then none else some stMismatch
    else none

/-- A repair or rebalance of the key is running in its key order (R226). -/
def State.repairRuns (s : State) (inst hash : Nat) : Bool :=
  s.welt.repairs.any fun q => q.inst == inst && q.hash == hash && q.st != .queued

/-- Peers whose durable fragment of a write is not known to be on media. -/
def WriteCtx.buffered (w : WriteCtx) (self segs : Nat) : List WriteHolder :=
  w.holders.filter fun h => h.member != self && holderDurable segs h && !((List.range segs).all fun i => h.onMedia.contains i)

/-- The latest MediaBy of those peers, 0 where there is none. One whose MediaBy promises nothing (all ones: the write had no deadline,
R142) has programmed its fragment by a time that the manual leaves open: a free value (log 36). -/
def State.latestMedia (s : State) (w : WriteCtx) (segs : Nat) : State × Nat :=
  let l := w.buffered s.selfId segs
  let known := (l.filter (·.mediaBy != 0xFFFFFFFFFFFFFFFF)).foldl (fun b h => max b h.mediaBy) 0
  if l.any (·.mediaBy == 0xFFFFFFFFFFFFFFFF) then
    let (d, s) := s.drawFree
    (s, max known (s.ptp + d))
  else (s, known)

/-- A committed write's own record and fragment are on media; a state that has been superseded has nothing left to wait for. -/
def State.ownOnMedia (s : State) (i : StripeId) : Bool :=
  !(s.media.recs.any fun x => !x.units.isEmpty && (match x.body with
    | .commit y => y.stripe == i
    | .header y _ => y == i
    | .slice y _ _ => y == i
    | .dir y _ => y == i
    | _ => false))

/-- The write is media-durable as far as this drive can tell (Table 2.3, R147). -/
def State.writeOnMedia (s : State) (w : SessWrite) : Bool := s.ownOnMedia w.stripe && decide (w.mediaBy ≤ s.ptp)

/-- A committed write enters its session's list (R40); those that are media-durable leave it. -/
def State.noteSessWrite (s : State) (c : CmdCtx) (w : WriteCtx) : State :=
  let (s, by_) := s.latestMedia w (segmentsOf w.striped c.pkt.valueLen w.k)
  let x : SessWrite := { sid := c.sid, pos := c.pos, stripe := w.stripe, len := c.pkt.valueLen, mediaBy := by_ }
  { s with kv := { s.kv with sessWrites := (s.kv.sessWrites.filter fun y => !s.writeOnMedia y) ++ [x] } }

/-- The reads on a write's key whose place is before it and whose turn has not come keep the state that the write replaces
(R36, R45). -/
def State.fixReads (s : State) (c : CmdCtx) (cur : Option CommitRec) : State :=
  let keep (x : CmdCtx) : CmdCtx :=
    if readOp x.pkt.opcode && x.st == .waiting && x.sameKey c && decide (x.pos < c.pos) && x.fixed.isNone then { x with fixed := some cur } else x
  { s with kv := { s.kv with cmds := s.kv.cmds.map keep } }

/-- The write reaches its commit point (R25, R42, R208, R214 to R216): record, index, commit copies, superseded state,
response. -/
def State.commitWrite (s : State) (c : CmdCtx) (w : WriteCtx) (inst : Nat) (cur : Option CommitRec) : State :=
  let version := max ((cur.map (·.version)).getD 0 + 1) s.ptp
  let r := writeRec c w version s.ptp (s.durableIndices c w)
  let s := s.writeCommit r inst w.mediaFirst (s.media.raw.any fun v => v.stripe == w.stripe)
  let s := match s.frag? w.stripe 0 with | some f => s.commitFrag f r | none => s
  let s := match cur with
    | some o => { s with kv := { s.kv with superseded := s.kv.superseded ++ [(o, c.pos)] } }
    | none => s
  let s := (s.otherHolders r).foldl (fun s x => s.sendCommit x.2 1 x.1 r) s
  let missing := (List.range (layoutWidth w.striped w.k w.m)).filter fun i =>
    !(w.holders.any fun h => h.index == i && h.reserved == some true && !h.failed)
  let s := if missing.isEmpty then s
    else missing.foldl (fun s i => s.queueRepair r i false)
      ((s.bump K.weltDegradedCommits).event 0x0704 (w.stripe.fields ++ [(4, (missing.map fun i => 2 ^ i).sum)]))
  let c := { c with st := .committed, write := some { w with commit := some r, value := [], cipher := [], degraded := !missing.isEmpty } }
  let s := ((s.fixReads c cur).noteSessWrite c w).setCmd c
  if w.mediaFirst then s else s.finish c (if missing.isEmpty then stOk else stDegraded) (metaBody (some r))

/-- The commit turn of a write (R26, R38, R214): its condition, then its commit once q fragments are durable. -/
def State.tryCommit (s : State) (c : CmdCtx) : State :=
  match c.write with
  | none => s
  | some w =>
    match s.instOf c.pkt.ns c.pkt.gen with
    | none => s
    | some inst =>
      if c.st ≠ .running ∨ !(s.writesBefore c).isEmpty ∨ s.repairRuns inst w.hash = true then s
      else
        let cur := (s.lookup inst w.hash c.pkt.key).map (·.rec_)
        match commitCondition c.pkt.opcode c.pkt.expected cur with
        | some st => (s.undoWrite c w).finish c st (metaBody cur)
        | none =>
          let segs := segmentsOf w.striped c.pkt.valueLen w.k
          if w.segmentsDone < segs ∨ (s.durableIndices c w).length < w.quorum then s
          else s.commitWrite c w inst cur

/-- A DURABLE write answers once its commit record is on media (Table 2.3). -/
def State.mediaDurable (s : State) (c : CmdCtx) : State :=
  match c.write.bind (·.commit) with
  | none => s
  | some r =>
    if c.st ≠ .committed then s
    else
      let pending := s.media.recs.any fun x => match x.body with | .commit y => y.stripe == r.stripe && !x.units.isEmpty | _ => false
      if pending then s
      else s.finish c (if c.write.any (·.degraded) then stDegraded else stOk) (metaBody (some r))

/-- A write that can no longer reach its quorum ends PEERS_INSUFFICIENT (R215). -/
def State.checkQuorum (s : State) (c : CmdCtx) : State :=
  match c.write with
  | some w =>
    if c.openWrite && s.quorumLost w then
      let s := (s.bump K.weltPeersInsufficient).event 0x070C (w.stripe.fields ++ [(4, (w.holders.filter (·.failed)).length)])
      s.abort c stPeers 0x070C true
    else s
  | none => s

/-- A write whose holders have acknowledged enough releases, or whose wait is over, gives its response (R215). -/
def State.releaseDone (s : State) (c : CmdCtx) (timeout : Bool) : State :=
  match c.write with
  | some w =>
    match w.ending with
    | some (st, ev) =>
      if c.st ≠ .releasing then s
      else if w.unreleased s.selfId ≤ w.quorum - 2 then s.finish c st (s.endBody c st ev 0)
      else if timeout then s.finish c st (s.endBody c st ev 3)
      else s
    | none => s
  | none => s

end Sys2Proof.Machine
end

