-- ==== Sys2Proof/Machine/Holder.lean ====
section
/-! DEFINITION. This drive as member: namespace records, fragments held for other homes, handoff received, and the
answers of REBUILD_QUERY (07 R206, R207, R210 to R212, R217, R219 to R223, R228, R229; 02 R53; 10 R305). -/

namespace Sys2Proof.Machine

/-- A namespace's entry is replaced, or added. -/
def State.setNs (s : State) (x : Ns) : State :=
  let l := s.kv.nss
  { s with kv := { s.kv with nss := if l.any (·.number == x.number) then l.map fun y => if y.number = x.number then x else y else l ++ [x] } }

/-- A command that a generation's end ends (R53, Table 7.8): bears the generation and has not passed its commit point. -/
def CmdCtx.endsWith (c : CmdCtx) (ns gen : Nat) : Bool :=
  c.pkt.ns == ns && c.pkt.gen == gen && c.st != .committed && c.st != .releasing &&
    (keyOp c.pkt.opcode || c.pkt.opcode == 0x04 || c.pkt.opcode == 0x70 || c.pkt.opcode == 0x71 || c.pkt.opcode == 0x72)

/-- A generation ends on this drive (R53, R114, R305): its commands end NAMESPACE_ABSENT, its keys are destroyed, its
index slot purges, its fragments are reclaimed, and event 0x0402 says why: 1 NS_DELETE, 2 a newer generation. -/
def State.endGen (s : State) (ns gen cause : Nat) : State :=
  let l := s.kv.cmds.filter fun c => c.endsWith ns gen
  let s := l.foldl (fun s c => s.abort c stAbsent 0 true) s
  let s := (s.cryptoErase ns gen).purgeInst ns gen
  let fr := s.welt.frags.filter fun f => f.hdr.ns == ns && f.hdr.gen == gen
  let s := fr.foldl (fun s f => s.releaseFrag f.hdr.stripe f.hdr.index) s
  let sup := s.kv.superseded.filter fun x => !(x.1.ns == ns && x.1.gen == gen)
  let s := { s with kv := { s.kv with superseded := sup },
                    welt := { s.welt with gathers := s.welt.gathers.filter fun g => !(g.ns == ns && g.gen == gen),
                                          owed := s.welt.owed.filter fun o => !(o.ns == ns && o.gen == gen) } }
  let x : Ns := { number := ns, gen := gen, live := false }
  let s := s.setNs x
  let s := s.event 0x0402 [(2, ns), (4, gen), (4, cause)]
  if gen = 0xFFFFFF then s.event 0x0401 [(2, ns), (4, gen)] else s

/-- A live record takes effect: attributes, secrets and an instance slot (R228, R164). -/
def State.beginGen (s : State) (ns : Nat) (r : NsRec) : State :=
  let s := s.setNs { number := ns, gen := r.gen, live := true, k := r.k, m := r.m, retention := r.retention, hold := r.hold,
                     quotaBytes := r.quotaBytes, quotaObjects := r.quotaObjects, readOnly := r.readOnly }
  let sec : NsSecret := { ns := ns, gen := r.gen, hashKey := r.hashKey, secret := r.secret }
  let s := { s with sec := { s.sec with secrets := s.sec.secrets ++ [sec] } }
  s.tableCopy.takeInst ns r.gen

/-- A record is newer than the state held of its number: by generation, and the ended state after the live one (R228). -/
def State.nsNewer (s : State) (ns : Nat) (r : NsRec) : Bool :=
  match s.ns? ns with
  | none => true
  | some x => decide (x.gen < r.gen) || (x.gen == r.gen && x.live && !r.live)

/-- A number is retired (R31). -/
def State.nsRetired (s : State) (n : Nat) : Bool := (s.ns? n).any fun x => !x.live && x.gen == 0xFFFFFF

/-- Event 0x0401 of a number that has become retired (R31). -/
def State.retiredEvent (s : State) (known : Bool) (ns : Nat) : State :=
  if s.nsRetired ns && !known then s.event 0x0401 [(2, ns), (4, 0xFFFFFF)] else s

/-- A namespace record is applied where it is newer (R228, R229). -/
def State.applyNs (s : State) (ns : Nat) (r : NsRec) (cause : Nat) : State :=
  if !s.nsNewer ns r then s
  else
    let known := s.nsRetired ns
    let s := match s.ns? ns with
      | some x => if x.live then s.endGen ns x.gen (if x.gen = r.gen then cause else 2) else s
      | none => s
    if r.live then s.beginGen ns r
    else
      match s.ns? ns with
      | some x => if x.gen = r.gen then s else (s.setNs { number := ns, gen := r.gen, live := false }).retiredEvent known ns
      | none => (s.setNs { number := ns, gen := r.gen, live := false }).retiredEvent known ns

/-- MediaBy on the wire: PTP ns; all ones without a promise (R142). -/
def mediaByOf (deadline : Nat) : Nat := if deadline = 0 then 0xFFFFFFFFFFFFFFFF else deadline - 100000

/-- The highest HomeBoot seen from a home (R206). -/
def State.bootSeen (s : State) (home : Nat) : Nat := (mapGet s.welt.boots home).getD 0

/-- A HomeBoot is seen. -/
def State.seeBoot (s : State) (i : StripeId) : State :=
  { s with welt := { s.welt with boots := mapPut s.welt.boots i.home (some (max (s.bootSeen i.home) i.boot)) } }

/-- Answers that wait for media are due where the slice, or the header of an empty fragment, is on media (R214). -/
def State.slicePlaced (s : State) (f : Frag) (seg : Nat) : Bool :=
  if f.hdr.segments = 0 then s.onMedia f.hdrAddr
  else match f.slices.find? (·.seg == seg) with
    | some x => s.onMedia x.addr
    | none => false

/-- The OK of a FRAG_RESERVE or FRAG_PUT (Table 7.8). -/
def State.fragOk (s : State) (c : CmdCtx) (f : Frag) (seg : Nat) : State :=
  if c.pkt.opcode = 0x70 then s.finish c stOk (beBytes 8 f.mediaBy)
  else s.finish c stOk (beBytes 1 (if s.slicePlaced f seg then 2 else 1) ++ zeros 7 ++ beBytes 8 f.mediaBy)

/-- Answers a FRAG_RESERVE of an empty fragment or a FRAG_PUT now, or once it is on media (R43, R214). -/
def State.confirmFrag (s : State) (c : CmdCtx) (f : Frag) (seg : Nat) : State :=
  if (f.hdr.durable || !s.holdup) && !s.slicePlaced f seg then
    s.setFrag { f with waiting := f.waiting ++ [(c.sid, c.pkt.tag, seg)] }
  else s.fragOk c f seg

/-- FRAG_RESERVE, decided (R207, R212, R217). -/
def State.runReserve (s : State) (c : CmdCtx) : State :=
  let h := FragHdr.ofBytes c.pkt.params c.pkt.key
  let s := s.seeBoot h.stripe
  match s.frag? h.stripe h.index with
  | some f => if h.segments = 0 then s.confirmFrag c f 0 else s.finish c stOk (beBytes 8 f.mediaBy)
  | none =>
    let s := s.addFrag h (mediaByOf h.deadline) (c.pkt.params.take 96)
    match s.frag? h.stripe h.index with
    | some f => if h.segments = 0 then s.confirmFrag c f 0 else s.finish c stOk (beBytes 8 f.mediaBy)
    | none => s

/-- The StripeId and FragIndex that a FRAG_PUT, FRAG_GET or FRAG_RELEASE names. -/
def CmdPkt.fragRef (p : CmdPkt) : StripeId × Nat := (StripeId.ofBytes (p.params.take 16), p.param 16 1)

/-- The slice of a FRAG_PUT has come whole (R212, R214). -/
def State.putSlice (s : State) (c : CmdCtx) (b : Bytes) : State :=
  let (i, idx) := c.pkt.fragRef
  let seg := c.pkt.param 20 4
  match s.frag? i idx with
  | none => s.finish c stNotFound []
  | some f =>
    if f.slices.any (·.seg == seg) then s.confirmFrag c f seg
    else
      let s := s.addSlice f seg b (sliceBytes c.pkt.params 24 16)
      match s.frag? i idx with
      | some f =>
        let s := if f.complete then s.unbook (.frag i idx) else s
        s.confirmFrag c f seg
      | none => s

/-- FRAG_PUT starts: its slice is here, or windows will be granted for it (R77, R81, R212). -/
def State.runPut (s : State) (c : CmdCtx) : State :=
  let (i, idx) := c.pkt.fragRef
  let s := s.seeBoot i
  match s.frag? i idx with
  | none => s.finish c stNotFound []
  | some f =>
    if f.slices.any (·.seg == c.pkt.param 20 4) then s.confirmFrag c f (c.pkt.param 20 4)
    else if c.pkt.immediate then s.putSlice c (padTo c.pkt.value c.pkt.valueLen)
    else s.onCmd c.sid c.pkt.tag fun c => { c with st := .running }

/-- Offset of a segment within a fragment. -/
def FragHdr.segOff (h : FragHdr) (seg : Nat) : Nat := if h.striped then seg * chunkC else 0

/-- FRAG_GET (R212, R218): every slice of the range is verified before any of it is sent. -/
def State.runGet (s : State) (c : CmdCtx) : State :=
  let (i, idx) := c.pkt.fragRef
  let off := c.pkt.param 20 4
  match s.frag? i idx with
  | none => s.finish c stNotFound []
  | some f =>
    let n := min (c.pkt.param 24 4) (f.hdr.fragLen - off)
    if n = 0 then s.finish c stOk []
    else
      let segs := if f.hdr.striped then (List.range ((off + n - 1) / chunkC - off / chunkC + 1)).map (off / chunkC + ·) else [0]
      match segs.find? fun g => (s.ownSlice i idx g).isNone with
      | some g => s.finish c stMedia (errorBody 0 g)
      | none =>
        let all := segs.flatMap fun g => (s.ownSlice i idx g).getD []
        s.reply c (sliceBytes all (off - f.hdr.segOff (segs.headD 0)) n) stOk []

/-- A release of one held fragment (R217): ABORTED does not release a COMMITTED one. -/
def State.releaseOne (s : State) (f : Frag) (reason : Nat) : State :=
  if f.committed && reason == 1 then s.event 0x070A (f.hdr.stripe.fields ++ [(4, Config.eventCode 0x070A 1)])
  else
    let l := f.waiting
    let s := (s.releaseFrag f.hdr.stripe f.hdr.index).unbook (.frag f.hdr.stripe f.hdr.index)
    l.foldl (fun s w => match s.cmd? w.1 w.2.1 with | some c => s.finish c stNotFound [] | none => s) s

/-- FRAG_RELEASE (R210, R217). -/
def State.runRelease (s : State) (c : CmdCtx) : State :=
  let (i, idx) := c.pkt.fragRef
  let reason := c.pkt.param 17 1
  let l := s.welt.frags.filter fun f => f.hdr.stripe == i && (idx == 0xFF || f.hdr.index == idx)
  (l.foldl (fun s f => s.releaseOne f reason) s).finish c stOk []

/-- Held fragments of a stripe. -/
def State.fragsOf (s : State) (i : StripeId) : List Frag := s.welt.frags.filter fun f => f.hdr.stripe == i

/-- STRIPE_COMMIT COMMIT and HOLDERS (R217, R226): held fragments become, or stay, COMMITTED with the record's copy. -/
def State.runCommit (s : State) (c : CmdCtx) : State :=
  let r := CommitRec.ofBytes (c.pkt.params.drop 8) c.pkt.key
  let l := s.fragsOf r.stripe
  if l.isEmpty then
    if s.welt.released.any (·.1 == r.stripe) then
      (s.event 0x070A (r.stripe.fields ++ [(4, Config.eventCode 0x070A 2)])).finish c stMedia []
    else s.finish c stNotFound []
  else
    (l.foldl (fun s f =>
      if f.copy = some r then s else s.commitFrag { f with copy := f.copy } r) s).finish c stOk []

/-- The gathering of a key, if one runs. -/
def State.gather? (s : State) (ns gen hash : Nat) : Option Gather :=
  s.welt.gathers.find? fun g => g.ns == ns && g.gen == gen && g.hash == hash

/-- Replaces or adds a gathering. -/
def State.setGather (s : State) (g : Gather) : State :=
  let rest := s.welt.gathers.filter fun x => !(x.ns == g.ns && x.gen == g.gen && x.hash == g.hash)
  { s with welt := { s.welt with gathers := rest ++ [g] } }

/-- The index takes a key's committed state from a record that a handoff carries (R221). -/
def State.adopt (s : State) (r : CommitRec) : State :=
  match s.instOf r.ns r.gen with
  | none => s
  | some inst =>
    match s.lookup inst r.hash r.key with
    | some x => if x.rec_.stamp < r.stamp then s.writeCommit r inst false true else s
    | none => s.writeCommit r inst false true

/-- A key handed to this drive whose home is another member by now goes on to that one (R220; DEDUCED, log 112). -/
def State.passOn (s : State) (r : CommitRec) : State :=
  if s.isHome r.hash || (s.homeOf r.hash).isNone then s
  else
    let o : Owed := { epoch := s.epoch, asHome := true, ns := r.ns, gen := r.gen, hash := r.hash, key := r.key, rank := 0, since := s.now, sent := false }
    { s with welt := { s.welt with owed := s.welt.owed ++ [o] } }

/-- STRIPE_COMMIT HANDOFF (R220, R221). -/
def State.runHandoff (s : State) (c : CmdCtx) : State :=
  let r := CommitRec.ofBytes (c.pkt.params.drop 8) c.pkt.key
  let s := s.bump K.weltHandoffRecords
  let s := if (s.recOfStripe r.stripe).isSome then s else (s.adopt r).passOn r
  let s := match s.gather? r.ns r.gen r.hash with
    | some g => s.setGather { g with copies := g.copies ++ [r] }
    | none => s
  s.finish c stOk []

/-- The handoff of an epoch has completed here: every awaited HANDOFF_DONE has come, and this drive's own has gone (R220). -/
def Handoff.complete (h : Handoff) : Bool := h.sent && h.await.isEmpty

/-- Earlier epochs whose handoff has completed go; with the last of them, gatherings that wait for nothing (R200, R220). -/
def State.handoffCheck (s : State) : State :=
  let fin := s.welt.handoffs.filter Handoff.complete
  let kept := s.welt.retained.filter fun g => !(fin.any (·.prev == g.epoch))
  let idle (g : Gather) : Bool := g.awaiting.isEmpty && g.pending.isEmpty
  { s with welt := { s.welt with handoffs := s.welt.handoffs.filter (fun h => !h.complete), retained := kept,
                                 gathers := if kept.isEmpty then s.welt.gathers.filter (fun g => !idle g) else s.welt.gathers } }

/-- STRIPE_COMMIT HANDOFF_DONE: of an epoch whose handoff runs, or of one that is not current here yet (R220). -/
def State.runDone (s : State) (c : CmdCtx) : State :=
  let e := c.pkt.param 20 4
  let s := match (s.session? c.sid).bind s.memberOf with
    | some m =>
      if s.epoch < e then { s with welt := { s.welt with doneFrom := (e, m) :: s.welt.doneFrom } }
      else
        let hs := s.welt.handoffs.map fun (h : Handoff) => if h.epoch = e then { h with await := h.await.filter (· != m) } else h
        ({ s with welt := { s.welt with handoffs := hs } } : State).handoffCheck
    | none => s
  s.finish c stOk []

/-- The key's home under an earlier retained epoch is no member now, so that R223 resolves its PENDING stripes here. -/
def State.oldHomeGone (s : State) (h : Nat) : Bool :=
  s.welt.retained.any fun g => match g.home h with
    | some m => !(s.welt.cur.any fun c => (c.member? m).isSome)
    | none => false

/-- This drive's own PENDING fragments of a key, a survivor's like any other (R223). -/
def State.ownPending (s : State) (ns gen hash : Nat) : List Pending :=
  (s.welt.frags.filter fun f => f.hdr.hash == hash && f.hdr.ns == ns && f.hdr.gen == gen && !f.committed).map fun f =>
    { hdr := f.hdr, member := s.selfId, complete := s.fragDurable f }

/-- The commit copies that this drive holds of a key. -/
def State.ownCopies (s : State) (ns gen hash : Nat) : List CommitRec :=
  (s.welt.frags.filterMap fun f => if f.hdr.hash = hash ∧ f.hdr.ns = ns ∧ f.hdr.gen = gen then f.copy else none).eraseDups

/-- Other holders of a pending write, by placement under its header's epoch, that are members now (R220). -/
def State.pendingHolders (s : State) (h : FragHdr) : List Nat :=
  match s.mapOf h.epoch, s.welt.cur with
  | some e, some g => ((e.ranked h.hash).take (layoutWidth h.striped h.k h.m)).filter fun m => m != s.selfId && (g.member? m).isSome
  | _, _ => []

/-- KEY_STATE of a key hash is asked of members (R220, R222). -/
def State.askKeyState (s : State) (ns gen hash : Nat) (ms : List Nat) (predEnd : Nat) : State :=
  let gone := s.oldHomeGone hash
  let g := (s.gather? ns gen hash).getD { ns := ns, gen := gen, hash := hash, pending := if gone then s.ownPending ns gen hash else [],
                                          copies := if gone then s.ownCopies ns gen hash else [], awaiting := [], since := s.now, predEnd := predEnd }
  let new := ms.filter fun m => !g.awaiting.contains m
  let s := s.setGather { g with awaiting := g.awaiting ++ new }
  new.foldl (fun s m => s.sendQuery m 3 (beBytes 8 hash) 0 0 fun x => { x with stripe := ⟨ns, gen, hash⟩ }) s

/-- STRIPE_COMMIT HANDOFF_PENDING (R220, R223). -/
def State.runPending (s : State) (c : CmdCtx) : State :=
  let h := FragHdr.ofBytes (c.pkt.params.drop 8) c.pkt.key
  let complete := bitAt (beAt c.pkt.params 43 1) 1
  let s := match (s.session? c.sid).bind s.memberOf with
    | none => s
    | some m =>
      let s := s.askKeyState h.ns h.gen h.hash ((s.pendingHolders h).filter (· != m)) 0
      match s.gather? h.ns h.gen h.hash with
      | some g => s.setGather { g with pending := g.pending ++ [(⟨h, m, complete⟩ : Pending)] }
      | none => s
  s.finish c stOk []

/-- STRIPE_COMMIT NS_CREATE and NS_DELETE (R228). -/
def State.runNs (s : State) (c : CmdCtx) : State :=
  let n := c.pkt.param 2 2 % 4096
  let r := NsRec.ofBytes (c.pkt.params.drop 8)
  (s.applyNs n { r with live := c.pkt.param 0 1 == 0x10 } 1).finish c stOk []

/-- STRIPE_COMMIT by its kind. -/
def State.runStripeCommit (s : State) (c : CmdCtx) : State :=
  match c.pkt.param 0 1 with
  | 1 => s.runCommit c
  | 2 => s.runCommit c
  | 3 => s.runHandoff c
  | 4 => s.runDone c
  | 5 => s.runPending c
  | _ => s.runNs c

/-- A StripeId as one number, for the order of HOLDINGS. -/
def StripeId.num (i : StripeId) : Nat := ofBE i.bytes

/-- Puts a fragment in ascending StripeId order. -/
def insertFrag (f : Frag) : List Frag → List Frag
  | [] => [f]
  | x :: l => if f.hdr.stripe.num ≤ x.hdr.stripe.num then f :: x :: l else x :: insertFrag f l

/-- The entries of a REBUILD_QUERY answer, its Resolution, whether more remain, and NextSubject (R210, R219). -/
def State.queryAnswer (s : State) (p : CmdPkt) : List Bytes × Nat × Bytes :=
  let subject := sliceBytes p.params 16 16
  let max_ := p.param 4 4
  match p.param 0 1 with
  | 1 =>
    let lo := p.param 32 8
    let hi := p.param 40 8
    let l := (s.welt.frags.filter fun f => decide (lo ≤ f.hdr.hash ∧ f.hdr.hash ≤ hi) &&
      (allZero subject || decide (ofBE subject < f.hdr.stripe.num))).foldr insertFrag []
    let l' := l.take max_
    (l.map fun f => f.hdr.stripe.bytes ++ beBytes 8 f.hdr.hash ++ beBytes 8 f.version ++ beBytes 1 f.hdr.index ++ beBytes 1 (bit f.committed) ++ zeros 6,
      0, match l'.getLast? with | some f => f.hdr.stripe.bytes | none => zeros 16)
  | 2 =>
    let i := StripeId.ofBytes subject
    match s.recOfStripe i with
    | some r => ([r.bytes ++ r.key], 1, zeros 16)
    | none =>
      if i.home ≠ s.selfId then ([], 0, zeros 16)
      else if i.boot ≠ s.sec.powerCycle ∨ s.welt.aborted.contains i = true then ([], 2, zeros 16)
      else if s.kv.cmds.any fun c => match c.write with | some w => w.stripe == i | none => false then ([], 3, zeros 16)
      else ([], 0, zeros 16)
  | 3 =>
    let h := beAt subject 0 8
    let copies := s.welt.frags.filterMap fun f => if f.hdr.hash = h then f.copy else none
    let own := s.media.recs.filterMap fun r => match r.body with
      | .commit c => if c.hash = h ∧ s.recValid r = true then some c else none
      | _ => none
    let recs := (own ++ copies).eraseDups
    let pend := s.welt.frags.filter fun f => f.hdr.hash == h && !f.committed
    (recs.map (fun r => r.bytes ++ r.key) ++ pend.map fun f => f.hdr.bytes 0 (s.fragDurable f) 0 ++ f.hdr.key,
      0, zeros 16)
  | _ => (s.kv.nss.map fun x => beBytes 2 x.number ++ zeros 2 ++ (s.nsRec x).bytes, 0, zeros 16)

/-- A KEY_STATE answer waits until the epoch that it is asked under is current here, and every command on the key decided under an
earlier one has ended (R222). -/
def State.keyStateWaits (s : State) (p : CmdPkt) : Bool :=
  let e := p.param 8 4
  let runs (c : CmdCtx) : Bool := keyOp c.pkt.opcode && c.st != .undecided && decide (c.epoch < e) &&
    (s.hashes c.pkt.ns c.pkt.gen c.pkt.key).1 == beAt p.params 16 8
  p.param 0 1 == 3 && (decide (s.epoch < e) || s.kv.cmds.any runs)

/-- REBUILD_QUERY (R210, R219, R222, R229). -/
def State.runQuery (s : State) (c : CmdCtx) : State :=
  if s.keyStateWaits c.pkt then s
  else
    let (l, res, next) := s.queryAnswer c.pkt
    let max_ := c.pkt.param 4 4
    let page := l.take max_
    let body := beBytes 4 page.length ++ beBytes 1 (bit (decide (l.length ≤ max_))) ++ beBytes 1 res ++ beBytes 2 s.allotment ++ next
    s.reply c page.flatten stOk body

/-- A peer command starts. -/
def State.startPeer (s : State) (c : CmdCtx) : State :=
  match c.pkt.opcode with
  | 0x70 => s.runReserve c
  | 0x71 => s.runPut c
  | 0x72 => s.runGet c
  | 0x73 => s.runRelease c
  | 0x74 => s.runStripeCommit c
  | _ => s.runQuery c

/-- Answers of held fragments that waited for media (R214). -/
def State.answerWaiting (s : State) : State :=
  s.welt.frags.foldl (fun s f =>
    let due := f.waiting.filter fun w => s.slicePlaced f w.2.2
    if due.isEmpty then s
    else
      let s := s.setFrag { f with waiting := f.waiting.filter fun w => !due.contains w }
      due.foldl (fun s w => match s.cmd? w.1 w.2.1 with | some c => s.fragOk c f w.2.2 | none => s) s) s

/-- Applies the namespace entries of a NAMESPACES answer (R229). -/
def State.applyNsEntries : Nat → State → Bytes → State
  | 0, s, _ => s
  | fuel + 1, s, b =>
    if b.length < 76 then s
    else
      let s := s.applyNs (beAt b 0 2 % 4096) (NsRec.ofBytes (sliceBytes b 4 72)) 2
      State.applyNsEntries fuel s (b.drop 76)

end Sys2Proof.Machine
end

