-- ==== Sys2Proof/Machine/Group.lean ====
section
/-! DEFINITION. Group maps: layout, acceptance, activation, and the handoff that an activation starts (07 R197 to R200, R220). -/

namespace Sys2Proof.Machine

/-- A member entry of a group map (Table 7.2). -/
def memberOfBytes (b : Bytes) : Member :=
  { id := beAt b 0 2, active := beAt b 2 1 == 1, identity := sliceBytes b 40 (min 64 (beAt b 3 1)), udp := beAt b 4 2, portMap := beAt b 6 1,
    addrA := sliceBytes b 8 16, addrB := sliceBytes b 24 16 }

/-- The member entries as bytes. -/
def memberEntries (b : Bytes) : List Bytes := (List.range (beAt b 2 2)).map fun i => sliceBytes b (48 + 112 * i) 112

/-- A group map from its bytes (Table 7.1). -/
def mapOfBytes (b : Bytes) : GroupMap :=
  { epoch := beAt b 4 4, activation := beAt b 8 8, salt := sliceBytes b 16 16, groupId := beAt b 32 4,
    members := (memberEntries b).map memberOfBytes, raw := b }

/-- A length of the form 48 + 112 n, n from 1 to 64 (R198). -/
def mapLengthOk (n : Nat) : Bool := decide (160 ≤ n ∧ n ≤ 7216 ∧ (n - 48) % 112 = 0)

/-- The header checks of R198. -/
def mapHeaderOk (b : Bytes) : Bool :=
  beAt b 0 1 == 1 && decide (1 ≤ beAt b 2 2 ∧ beAt b 2 2 ≤ 64) && decide (1 ≤ beAt b 4 4) && b.length == 48 + 112 * beAt b 2 2 &&
    crc32 (b.take 44 ++ zeros 4 ++ b.drop 48) == beAt b 44 4 && beAt b 1 1 == 0 && beAt b 36 8 == 0

/-- The checks of one member entry (R198). -/
def memberOk (e : Bytes) : Bool :=
  (beAt e 2 1 == 1 || beAt e 2 1 == 2) && decide (1 ≤ beAt e 3 1 ∧ beAt e 3 1 ≤ 64) && allZero (sliceBytes e (40 + beAt e 3 1) (64 - beAt e 3 1)) &&
    decide (beAt e 6 1 < 4) && beAt e 7 1 == 0 && allZero (sliceBytes e 104 8)

/-- The members are distinct and in range, and one is ACTIVE; the group is the current one (R198). -/
def State.groupOk (s : State) (g : GroupMap) : Bool :=
  let ids := g.members.map (·.id)
  ids.eraseDups.length == ids.length && ids.all (fun i => decide (1 ≤ i ∧ i ≤ 0xFFFE)) && g.members.any (·.active) &&
    (match s.welt.cur with | some c => c.groupId == g.groupId | none => true)

/-- The map is byte for byte the current or the pending one (R198). -/
def State.mapHeld (s : State) (b : Bytes) : Bool :=
  (s.welt.cur.any fun g => g.raw == b) || (s.welt.pendingMap.any fun g => g.raw == b)

/-- Members that some retained, pending or offered epoch lists: the peer table. -/
def State.peerTable (s : State) (g : GroupMap) : Nat :=
  (((s.maps ++ s.welt.pendingMap.toList ++ [g]).flatMap fun m => m.members.map (·.id)).eraseDups).length

/-- The epoch of a map may follow (R198). -/
def State.epochOk (s : State) (g : GroupMap) : Bool :=
  decide (s.epoch < g.epoch) && (match s.welt.pendingMap with | some p => decide (p.epoch < g.epoch) | none => true) &&
    decide (s.maps.length < 4) && decide (s.peerTable g ≤ 1024)

/-- The abort code that refuses a group map, 0 where it is accepted (R198). -/
def State.mapAbort (s : State) (b : Bytes) : Nat :=
  let g := mapOfBytes b
  if !mapLengthOk b.length then 0x06070010
  else if !mapHeaderOk b || !(memberEntries b).all memberOk || !s.groupOk g then 0x06090030
  else if s.mapHeld b then 0
  else if g.activation ≠ 0 ∧ s.ptp + 60 * nsSec < g.activation then 0x06090030
  else if !s.epochOk g then 0x08000022
  else 0

/-- The home of a key hash moves from one map to another, and where to. -/
def movesTo (old new : GroupMap) (h : Nat) : Option Nat := if old.home h = new.home h then none else new.home h

/-- Keys that this drive homed and must hand on, itself a member of the new epoch (R220 step 1). -/
def State.owedAsHome (s : State) (old new : GroupMap) : List Owed :=
  let recs := s.idx.cells.filterMap fun c => if c.2.kind = .link then none else s.commitAt c.2.loc
  (recs.filter fun r => old.home r.hash == some s.selfId && (movesTo old new r.hash).isSome).map fun r =>
    { epoch := new.epoch, asHome := true, ns := r.ns, gen := r.gen, hash := r.hash, key := r.key, rank := 0, since := s.now, sent := false }

/-- Members of an epoch among a list, in order. -/
def survivors (new : GroupMap) (l : List Nat) : List Nat := l.filter fun m => (new.member? m).isSome

/-- Keys whose old home has gone and of which this drive is a surviving holder, with its rank among them (R220 step 2). -/
def State.owedAsHolder (s : State) (old new : GroupMap) : List Owed :=
  let gone (h : Nat) : Bool := (match old.home h with | some m => (new.member? m).isNone | none => false) && (movesTo old new h).isSome
  let fr := s.welt.frags.filter fun f => gone f.hdr.hash
  let committed := fr.filterMap fun f => f.copy.map fun r =>
    ({ epoch := new.epoch, asHome := false, ns := r.ns, gen := r.gen, hash := r.hash, key := r.key, rank := (survivors new r.holders).findIdx (· == s.selfId), since := s.now, sent := false } : Owed)
  let open_ := (fr.filter fun f => !f.committed && !(committed.any fun o => o.hash == f.hdr.hash && o.ns == f.hdr.ns)).map fun f =>
    let hs := match s.mapOf f.hdr.epoch with | some e => (e.ranked f.hdr.hash).take (layoutWidth f.hdr.striped f.hdr.k f.hdr.m) | none => []
    ({ epoch := new.epoch, asHome := false, ns := f.hdr.ns, gen := f.hdr.gen, hash := f.hdr.hash, key := f.hdr.key, rank := (survivors new hs).findIdx (· == s.selfId), since := s.now,
       sent := false } : Owed)
  (committed ++ open_).foldl (fun l o => if l.any fun x => x.ns == o.ns && x.gen == o.gen && x.hash == o.hash then l else l ++ [o]) []

/-- HANDOFF_DONE of an epoch goes to its every other member once all this drive's handoff records for it have been sent (R220 step 3). -/
def State.handoffDone (s : State) : State :=
  let due (h : Handoff) : Bool := !h.sent && s.welt.owed.all fun o => o.sent || o.epoch != h.epoch
  let l := s.welt.handoffs.filter due
  let s := l.foldl (fun s h => h.members.foldl (fun s m => s.sendDone m h.epoch) s) s
  let mark (h : Handoff) : Handoff := if l.any (·.epoch == h.epoch) then { h with sent := true } else h
  ({ s with welt := { s.welt with handoffs := s.welt.handoffs.map mark } } : State).handoffCheck

/-- A stripe index was confirmed durable after the commit, or its reservation and slices are still on their way. -/
def State.lateDurable (s : State) (i : StripeId) (n : Nat) : Bool :=
  s.welt.confirmed.contains (i, n) ||
    s.welt.msgs.any fun m => m.stripe == i && m.index == n && !m.repair && (m.pkt.opcode == 0x70 || m.pkt.opcode == 0x71)

/-- What a committed state's index needs: none, or whether it is a rebalance (R225). -/
def State.indexNeeds (s : State) (r : CommitRec) (i : Nat) : Option Bool :=
  match r.holder? i with
  | none => some false
  | some m =>
    if m = s.selfId then none
    else if s.welt.lost.contains m || (!bitAt r.mask i && !s.lateDurable r.stripe i) then some false
    else match s.welt.cur.bind fun g => g.member? m with
      | none => some (s.memberReachable m)
      | some x => if x.active then none else some true

/-- Committed states of keys that this drive homes. -/
def State.homedRecs (s : State) : List CommitRec :=
  s.media.recs.filterMap fun x => match x.body with
    | .commit r => if s.recValid x && s.isHome r.hash then some r else none
    | _ => none

/-- Every index that needs repair or rebalance enters the queue (R225): seen anew after every command, for a holder may have become
unreachable, or been lost, since. -/
def State.queueMoves (s : State) : State :=
  s.homedRecs.foldl (fun s r => (List.range (layoutWidth r.striped r.k r.m)).foldl (fun s i =>
    match s.indexNeeds r i with
    | some b => s.queueRepair r i b
    | none => s) s) s

/-- The home's continuous watch over its stripes (R225), while it serves. -/
def State.review (s : State) : State := if s.serving && s.domOn .welt && (s.welt.cur).isSome then s.queueMoves else s

/-- Other members of the current epoch. -/
def State.otherMembers (s : State) : List Nat := ((s.welt.cur.map fun g => g.members.map (·.id)).getD []).filter (· != s.selfId)

/-- Members of the current epoch to which no path is ACTIVE, from now on where none was noted (R225). -/
def State.noteMembers (s : State) : State :=
  let l := s.otherMembers.filter fun m => !(s.memberReachable m) && !(s.welt.noPath.any (·.1 == m))
  { s with welt := { s.welt with noPath := s.welt.noPath ++ l.map fun m => (m, s.now) } }

/-- The chosen peers of a write in phase one that the new epoch does not name count as refusals (05 R145). -/
def State.peersLeft (s : State) (g : GroupMap) (c : CmdCtx) : State :=
  match c.write with
  | none => s
  | some w =>
    let gone (h : WriteHolder) : Bool := h.member != s.selfId && (g.member? h.member).isNone
    if c.st ≠ .phaseOne ∨ w.holders.any gone = false then s
    else
      let c := { c with write := some { w with holders := w.holders.map fun h => if gone h then { h with failed := true } else h } }
      (s.setCmd c).phaseOne c

/-- The handoff that an epoch starts after another (R220). A drive that it does not name has no HANDOFF_DONE of its own to send. -/
def State.newHandoff (s : State) (o g : GroupMap) : Handoff :=
  let others := (g.members.map (·.id)).filter (· != s.selfId)
  { epoch := g.epoch, prev := o.epoch, members := others,
    await := others.filter fun m => (o.member? m).isSome && !s.welt.doneFrom.contains (g.epoch, m), sent := (g.member? s.selfId).isNone }

/-- The newest of commit records. -/
def newest : List CommitRec → Option CommitRec
  | [] => none
  | r :: l => some (l.foldl (fun b x => if b.stamp < x.stamp then x else b) r)

/-- A key whose old home has gone and whose new home is this drive: its own copy is adopted, and its own PENDING fragments are
gathered with the other holders' (R220, R223). -/
def State.takeOwn (s : State) (o : Owed) : State :=
  let s := match newest (s.ownCopies o.ns o.gen o.hash) with | some r => s.adopt r | none => s
  let pend := s.ownPending o.ns o.gen o.hash
  let ask := (pend.flatMap fun p => s.pendingHolders p.hdr).eraseDups
  if pend.isEmpty then s else s.askKeyState o.ns o.gen o.hash ask 0

/-- An epoch becomes current (R198, R200, R220); handoffs of earlier ones go on. -/
def State.activateMap (s : State) (g : GroupMap) : State :=
  let old := s.welt.cur
  let s := s.event 0x0701 [(4, s.epoch), (4, g.epoch), (4, g.members.length)]
  match old with
  | none => ({ s with welt := { s.welt with cur := some g, pendingMap := none } } : State).noteMembers
  | some o =>
    let member := (g.member? s.selfId).isSome
    let new := if member then s.owedAsHome o g ++ s.owedAsHolder o g else []
    let mine := new.filter fun x => !x.asHome && g.home x.hash == some s.selfId
    let owed := s.welt.owed.filter (!·.sent) ++ new.filter fun x => !mine.contains x
    let h := s.newHandoff o g
    let s := { s with welt := { s.welt with cur := some g, pendingMap := none, retained := o :: s.welt.retained, owed := owed,
                                            handoffs := h :: s.welt.handoffs, doneFrom := s.welt.doneFrom.filter fun x => decide (g.epoch < x.1) } }
    let s := (mine.foldl State.takeOwn s).handoffDone.queueMoves.noteMembers
    s.kv.cmds.foldl (fun s c => s.peersLeft g c) s

/-- A write of GroupMap (R198): its abort code. -/
def State.mapWrite (s : State) (b : Bytes) : State × Nat :=
  let a := s.mapAbort b
  let g := mapOfBytes b
  if a ≠ 0 then (s.event 0x0702 [(4, g.epoch), (4, a)], a)
  else if s.mapHeld b then (s, 0)
  else if g.activation ≤ s.ptp then (s.activateMap g, 0)
  else ({ s with welt := { s.welt with pendingMap := some g } }, 0)

end Sys2Proof.Machine
end

