-- ==== Sys2Proof/Machine/Dma.lean ====
section
/-! DEFINITION. The DMA engine: descriptors, runs, triggers, disable, errors and parking (14 R406 to R416). -/

namespace Sys2Proof.Machine

/-- Base and size of the local SRAM (Table 14.1). -/
abbrev sramBase : Nat := 0x10000000
/-- 512 KiB. -/
abbrev sramSize : Nat := 0x80000
/-- Base of the site DRAM window. -/
abbrev siteDramBase : Nat := 0x80000000

/-- `n` bytes from `a` lie wholly in the local SRAM. -/
def inSram (a n : Nat) : Bool := decide (sramBase ≤ a) && decide (a + n ≤ sramBase + sramSize)

/-- `n` bytes from `a` lie wholly in the site DRAM window. -/
def State.inSiteDram (s : State) (a n : Nat) : Bool :=
  decide (siteDramBase ≤ a) && decide (a + n ≤ siteDramBase + s.siteDramSize)

/-- A channel by number. -/
def State.ch (s : State) (n : Nat) : DmaCh := s.dma.getD n {}

/-- Replaces a channel. -/
def State.setCh (s : State) (n : Nat) (c : DmaCh) : State := { s with dma := s.dma.setIfInBounds n c }

/-- Channels 12 to 15 belong to site firmware. -/
def siteCh (n : Nat) : Bool := decide (12 ≤ n)

/-- A two's-complement field of 32 bits. -/
def signed32 (v : Nat) : Int := if v < 2 ^ 31 then v else (v : Int) - 2 ^ 32

/-- Reads a descriptor's fields from memory (Table 14.7). -/
def readDesc (m : List Host.Cell) (a : Nat) : DmaDesc :=
  { ctrl := memLE m a 4, lineLen := memLE m (a + 4) 4, lineCount := memLE m (a + 8) 2, param := memLE m (a + 12) 4,
    src := memLE m (a + 16) 8, dst := memLE m (a + 24) 8,
    srcStride := signed32 (memLE m (a + 32) 4), dstStride := signed32 (memLE m (a + 36) 4) }

/-- N of R408. -/
def DmaDesc.bytes (d : DmaDesc) : Nat := d.lineLen * d.lineCount
/-- MODE. -/
def DmaDesc.mode (d : DmaDesc) : Nat := fieldAt d.ctrl 1 3
/-- The interleave ways w of MODE_PARAM. -/
def DmaDesc.ways (d : DmaDesc) : Nat := fieldAt d.param 0 5
/-- The interleave grain g in bytes. -/
def DmaDesc.grain (d : DmaDesc) : Nat := 64 * fieldAt d.param 8 16
/-- The plane bytes P. -/
def DmaDesc.plane (d : DmaDesc) : Nat := fieldAt d.param 0 10

/-- A MODE and MODE_PARAM of Table 14.9, and N a multiple as it requires. -/
def DmaDesc.modeOk (d : DmaDesc) : Bool :=
  match d.mode with
  | 0 => d.param == 0
  | 1 | 2 => decide (2 ≤ d.ways ∧ d.ways ≤ 16) && decide (64 ≤ d.grain) && d.bytes % (d.ways * d.grain) == 0
  | 3 | 4 => decide (d.plane ∈ [1, 2, 4, 8, 16, 32, 64, 128, 256, 512]) && d.bytes % (8 * d.plane) == 0
  | _ => false

/-- R408 step 2 passes. -/
def DmaDesc.fieldOk (d : DmaDesc) : Bool :=
  d.modeOk && d.lineLen != 0 && decide (d.lineLen ≤ 16777216) && decide (d.bytes ≤ 2 ^ 30) &&
    (decide (d.lineCount ≤ 1) || decide (d.lineLen ≤ d.dstStride.natAbs))

/-- An address computed with a stride, in 64 bits. -/
def strided (base : Nat) (stride : Int) (i : Nat) : Nat := (((base : Int) + stride * (i : Int)) % (2 ^ 64)).toNat

/-- The address of the k-th byte of lines of `len` bytes. -/
def lineByte (base : Nat) (stride : Int) (len k : Nat) : Nat := strided base stride (k / len) + k % len

/-- Every line of source and destination lies in a site window (R408 step 3). -/
def State.sandboxOk (s : State) (d : DmaDesc) : Bool :=
  (List.range d.lineCount).all fun i =>
    let a := strided d.src d.srcStride i
    let b := strided d.dst d.dstStride i
    (inSram a d.lineLen || s.inSiteDram a d.lineLen) && (inSram b d.lineLen || s.inSiteDram b d.lineLen)

/-- The domain that an address of a channel lies in: Table 14.1 for site channels; for core channels a constant of
the part's address map, which the manual does not give (log 5). -/
def chDom (n a : Nat) : Dom :=
  if siteCh n then (if siteDramBase ≤ a then .dram else .core)
  else Dom.all.getD (Config.coreAddrDomain a % 9) .core

/-- Every domain that a descriptor touches is ON (R415). -/
def State.descDomsOn (s : State) (n : Nat) (d : DmaDesc) : Bool :=
  (List.range d.lineCount).all fun i =>
    s.domOn (chDom n (strided d.src d.srcStride i)) && s.domOn (chDom n (strided d.dst d.dstStride i))

/-- The source index that INTERLEAVE puts at destination index `d` (R409). -/
def interleaveSrc (w g n d : Nat) : Nat :=
  (d / g % w) * (n / w) + (d / g / w) * g + d % g

/-- The destination index of source index `k` under INTERLEAVE (R409). -/
def interleaveDst (w g n k : Nat) : Nat :=
  ((k % (n / w)) / g * w + k / (n / w)) * g + (k % (n / w)) % g

/-- Gathers eight bits, bit `m` from `f m`. -/
def gatherBits (f : Nat → Bool) : Byte :=
  BitVec.ofNat 8 ((List.range 8).foldl (fun a m => a + (if f m then 2 ^ m else 0)) 0)

/-- The destination byte at index `d` of a descriptor whose source bytes are `src` (R409). -/
def DmaDesc.destByte (x : DmaDesc) (src : Nat → Byte) (d : Nat) : Byte :=
  match x.mode with
  | 1 => src (interleaveSrc x.ways x.grain x.bytes d)
  | 2 => src (interleaveDst x.ways x.grain x.bytes d)
  | 3 =>
    let p := x.plane
    let b := d / (8 * p) * (8 * p)
    let o := d % (8 * p)
    gatherBits fun m => (src (b + 8 * (o % p) + m)).getLsbD (o / p)
  | 4 =>
    let p := x.plane
    let b := d / (8 * p) * (8 * p)
    let o := d % (8 * p)
    gatherBits fun t => (src (b + t * p + o / 8)).getLsbD (o % 8)
  | _ => src d

/-- Memory after the first `n` destination bytes of a descriptor have arrived. The source is read whole before the first
write (DESIGN CHOICE, log 6). -/
def moveBytes (m : List Host.Cell) (x : DmaDesc) (n : Nat) : List Host.Cell :=
  (List.range n).foldl (fun acc d =>
    memPut acc (lineByte x.dst x.dstStride x.lineLen d)
      (x.destByte (fun k => memGet m (lineByte x.src x.srcStride x.lineLen k)) d)) m

/-- The address of the descriptor at HEAD. -/
def DmaCh.descAddr (c : DmaCh) : Nat := c.ring + 64 * c.head

/-- Writes back STATUS, BYTES_DONE and DONE_TIME, then clears OWN (R407, R411). -/
def writeBack (m : List Host.Cell) (a ctrl status bytes time : Nat) : List Host.Cell :=
  let m := memPut m (a + 40) (BitVec.ofNat 8 status)
  let m := memWrite m (a + 44) (leBytes 4 bytes)
  let m := memWrite m (a + 48) (leBytes 8 time)
  memPut m a (BitVec.ofNat 8 (ctrl / 2 * 2))

/-- The next HEAD. -/
def DmaCh.nextHead (c : DmaCh) : Nat := if c.ringSize = 0 then 0 else (c.head + 1) % c.ringSize

/-- The address of DMA_CH_STATUS (Table 14.6). -/
def dmaStatusAt (n : Nat) : Nat := 0x40011004 + 0x100 * n

/-- The channel ends in ERROR; the event names it (R414). -/
def State.dmaError (s : State) (n : Nat) (c : DmaCh) (status addr : Nat) : State :=
  let c := { c with st := .error, en := false, err := true, lastErr := status, cur := none, pending := false,
                    errAddr := if status = 4 ∨ status = 6 then addr else c.errAddr }
  ((((s.setCh n c).hwSet (dmaStatusAt n) 0x10).bump K.dmaDescriptorErrors)).event 0x0B01 [(4, n), (4, status), (4, c.head), (8, c.errAddr)]

/-- The current descriptor ends with a status after `bytes` destination bytes: memory and HEAD (R413, R414). -/
def State.dmaFinish (s : State) (n : Nat) (d : DmaDesc) (status bytes : Nat) : State :=
  let c := s.ch n
  let m := writeBack (moveBytes s.mem d bytes) c.descAddr d.ctrl status bytes s.ptp
  let s := { s with mem := m }
  let s := if siteCh n then s.addTo K.siteDmaBytes bytes else s
  s.setCh n { c with head := c.nextHead, cur := none }

/-- A ring of a site channel must lie in its windows; an address elsewhere, or in a domain that is not ON, cannot be
read (R384, R399). -/
def State.ringReadable (s : State) (n a : Nat) : Bool :=
  (!siteCh n || inSram a 64 || s.inSiteDram a 64) && s.domOn (chDom n a)

/-- Takes the descriptor at HEAD: the run ends, errs, parks or works on it. The flag says whether the run has ended. -/
def State.takeDesc (s : State) (n : Nat) : State × Bool :=
  let c := s.ch n
  let a := c.descAddr
  if !s.ringReadable n a then (s.dmaError n c 6 a, true)
  else
    let d := readDesc s.mem a
    if !bitAt d.ctrl 0 then (s.setCh n { c with st := .idle, cur := none }, true)
    else
      let c := { c with runCount := c.runCount + 1, curAt := s.now }
      let s := s.setCh n c
      if d.lineCount = 0 then (s.setCh n { c with st := .running, cur := some d }, false)
      else if !d.fieldOk then
        let s := s.dmaFinish n d 3 0
        (s.dmaError n (s.ch n) 3 0, true)
      else if siteCh n && !s.sandboxOk d then
        let s := s.dmaFinish n d 5 0
        (s.dmaError n (s.ch n) 5 0, true)
      else if s.descDomsOn n d then (s.setCh n { c with st := .running, cur := some d }, false)
      else (s.setCh n { c with st := .parked, cur := some d }, false)

/-- Channels started by the end of a non-empty run of channel `n` (R410). -/
def State.chainedTo (s : State) (n : Nat) : List Nat :=
  (List.range 16).filter fun k => (s.ch k).en && (s.ch k).trig == 2 && (s.ch k).chainSrc == n

/-- The triggers that the end of a run of channel `n` makes: its own waiting one, then the chained channels'. -/
def State.afterRun (s : State) (n : Nat) : State × List Nat :=
  let c := s.ch n
  let chain := if c.runCount = 0 then [] else s.chainedTo n
  if c.pending && c.st == .idle then (s.setCh n { c with pending := false }, n :: chain) else (s, chain)

/-- Applies triggers in order, with those that their run ends make in turn (R410). -/
def State.triggers : Nat → State → List Nat → State
  | 0, s, _ => s
  | _, s, [] => s
  | fuel + 1, s, n :: rest =>
    let c := s.ch n
    match c.st with
    | .running | .parked => State.triggers fuel (s.setCh n { c with pending := true }) rest
    | .disabled | .error => State.triggers fuel s rest
    | .idle =>
      let r := (s.setCh n { c with st := .running, runCount := 0 }).takeDesc n
      if r.2 then
        let q := r.1.afterRun n
        State.triggers fuel q.1 (rest ++ q.2)
      else State.triggers fuel r.1 rest

/-- One trigger to a channel. -/
def State.dmaTrigger (s : State) (n : Nat) : State := State.triggers 256 s [n]

/-- Destination bytes arrived at a stop: a multiple of 64, or all (R413). -/
def stopBytes (d : DmaDesc) (bytes : Nat) : Nat := min d.bytes (ceilDiv bytes 64 * 64)

/-- A channel stops under R413 after `bytes` destination bytes; it enters DISABLED. -/
def State.dmaStop (s : State) (n bytes : Nat) : State :=
  let c := s.ch n
  let s := match c.cur with
    | some d => s.dmaFinish n d 2 (if c.st = DmaState.parked then 0 else stopBytes d bytes)
    | none => s
  s.setCh n { s.ch n with en := false, st := .disabled, pending := false }

/-- A forced disable (R383, R401) with its event. -/
def State.dmaForce (s : State) (n bytes cause : Nat) : State :=
  if (s.ch n).en then (s.dmaStop n bytes).event 0x0B02 [(4, n), (4, cause)] else s

/-- Bytes that channels 12 to 15 may move in one window of 1 ms (R412). -/
def State.siteAllowance (s : State) : Nat := s.num K.siteDmaMBps * 1000

/-- Whether the allowance of the windows since the descriptor began lets it have moved all its bytes by now, and the
bytes it then takes of the present window (R412; earliest packing, log 7). -/
def State.siteRate (s : State) (c : DmaCh) (n : Nat) : Bool × Nat :=
  let w0 := c.curAt / nsMs
  let w := s.now / nsMs
  let first := s.siteAllowance - (if s.site.dmaWindow = w0 then s.site.dmaSpent else 0)
  let avail := first + (w - w0) * s.siteAllowance
  (decide (n ≤ avail), if w = w0 then s.siteAllowance - first + n else n - (avail - s.siteAllowance))

/-- Resumes every parked channel whose domains are ON (R415). -/
def State.dmaResume (s : State) : State :=
  (List.range 16).foldl (fun s n =>
    let c := s.ch n
    match c.cur with
    | some d => if c.st == .parked && s.descDomsOn n d then s.setCh n { c with st := .running, curAt := s.now } else s
    | none => s) s

/-- The current descriptor of a running channel completes (R411): bytes, writeback, DONE, then the next descriptor. -/
def State.dmaComplete (s : State) (n : Nat) : State :=
  let c := s.ch n
  match c.cur with
  | none => s
  | some d =>
    if c.st != .running then s
    else
      let rate := s.siteRate c d.bytes
      if siteCh n && !rate.1 then s
      else
        let s := if siteCh n then { s with site := { s.site with dmaWindow := s.now / nsMs, dmaSpent := rate.2 } } else s
        let s := s.dmaFinish n d (if d.lineCount = 0 then 1 else 0) d.bytes
        let c := s.ch n
        let c := { c with done := c.done || bitAt d.ctrl 4, doneCount := (c.doneCount + 1) % 2 ^ 32 }
        let s := (if bitAt d.ctrl 4 then (s.setCh n c).hwSet (dmaStatusAt n) 8 else s.setCh n c).bump K.dmaDescriptorsCompleted
        let r := if bitAt d.ctrl 6 then (s.setCh n { c with st := .idle }, true) else s.takeDesc n
        if r.2 then
          let q := r.1.afterRun n
          State.triggers 256 q.1 q.2
        else r.1

/-- A descriptor of a channel touches a domain: the domain serves its source or destination (R383). -/
def DmaDesc.touches (d : DmaDesc) (n : Nat) (x : Dom) : Bool :=
  (List.range d.lineCount).any fun i => chDom n (strided d.src d.srcStride i) == x || chDom n (strided d.dst d.dstStride i) == x

/-- Channels whose current descriptor runs and touches a domain. -/
def State.dmaBusy (s : State) (x : Dom) : List Nat :=
  (List.range 16).filter fun n =>
    (s.ch n).st == .running && (match (s.ch n).cur with | some d => d.touches n x | none => false)

/-- Power-downs whose channels have parked or ended proceed; once none is left on the way to DORMANT, PWR_REQ falls (R382,
R383). -/
def State.settleQuiesce (s : State) : State :=
  let free (q : Dom × Nat × Nat) : Bool := s.dom q.1 == .changing && (s.dmaBusy q.1).isEmpty
  let rest := s.clk.quiesce.filter fun q => !free q
  let s := (s.clk.quiesce.filter free).foldl (fun s q => s.domTo q.1 .off) s
  let s := { s with clk := { s.clk with quiesce := rest } }
  if rest.isEmpty && s.mode.phase == .quiescing then { s with mode := { s.mode with phase := .awaitPower false, pwrReq := false } } else s

/-- Powers a domain down: at once, or once its running descriptors have completed (R382, R383). -/
def State.powerDown (s : State) (d : Dom) : State :=
  if s.dom d = .off ∨ s.clk.quiesce.any (·.1 == d) = true then s
  else if s.dom d = .retain ∨ (s.dmaBusy d).isEmpty = true then s.domTo d .off
  else
    let s := s.domTo d .changing
    { s with clk := { s.clk with quiesce := s.clk.quiesce ++ [(d, s.now, 0)] } }

/-- The engine's registers are reachable and `n` names a channel. -/
def State.dmaUp (s : State) (n : Nat) : Bool := decide (n < 16) && s.domOn .core

/-- DMA_DOORBELL: any write is a trigger (R410). -/
def execDmaDoorbell (t n : Nat) (s : State) : Host.Outcome State Fault Refusal :=
  let s := s.advance t
  done (if s.dmaUp n then s.dmaResume.dmaTrigger n else s)

/-- DMA_TIMER_TRIGGER: with TRIG = 1, every PERIOD µs counted from the setting of EN (R410). -/
def execDmaTimerTrigger (t n : Nat) (s : State) : Host.Outcome State Fault Refusal :=
  let s := s.advance t
  let c := s.ch n
  done (if s.dmaUp n && c.en && c.trig == 1 && c.period != 0 && decide (c.enAt + (c.ticks + 1) * c.period * 1000 ≤ s.now)
    then (s.setCh n { c with ticks := c.ticks + 1 }).dmaTrigger n else s)

/-- The configuration that setting EN accepts (R406). -/
def enableOk (n : Nat) (c : DmaCh) : Bool :=
  decide (c.ringSize ∈ [4, 8, 16, 32, 64, 128, 256, 512, 1024, 2048, 4096]) && c.chainSrc != n &&
    (!siteCh n || decide (12 ≤ c.chainSrc))

/-- A write of DMA_CH_CTRL that leaves EN as it is: TRIG and CHAIN_SRC are locked while EN is set (R406). -/
def DmaCh.ctrlFields (c : DmaCh) (v : Nat) : DmaCh :=
  let c := { c with prio := fieldAt v 8 2, doneIe := bitAt v 10, errIe := bitAt v 11 }
  if c.en then c else { c with trig := fieldAt v 1 2, chainSrc := fieldAt v 4 4 }

/-- DMA_ENABLE: a write of DMA_CH_CTRL with EN = 1 (R406). -/
def execDmaEnable (t n v : Nat) (s : State) : Host.Outcome State Fault Refusal :=
  let s := s.advance t
  let c := (s.ch n).ctrlFields v
  done (if !s.dmaUp n then s
    else if c.en then s.setCh n c
    else if enableOk n c then s.setCh n { c with en := true, st := .idle, enAt := s.now, ticks := 0 }
    else (s.setCh n { c with st := .disabled, err := true, lastErr := 3 }).hwSet (dmaStatusAt n) 0x10)

/-- DMA_RING_REG_WRITE: ignored while EN is set; any ring register write sets HEAD to 0 (R406, Table 14.6). -/
def execDmaRingRegWrite (t n reg v : Nat) (s : State) : Host.Outcome State Fault Refusal :=
  let s := s.advance t
  let c := s.ch n
  done (if !s.dmaUp n || c.en then s
    else
      let hi := c.ring / 2 ^ 32
      let lo := c.ring % 2 ^ 32
      match reg with
      | 0x08 => s.setCh n { c with ring := hi * 2 ^ 32 + v % 2 ^ 32 / 64 * 64, head := 0 }
      | 0x0C => s.setCh n { c with ring := (if siteCh n then 0 else v % 2 ^ 32) * 2 ^ 32 + lo, head := 0 }
      | 0x10 => s.setCh n { c with ringSize := v % 2 ^ 13, head := 0 }
      | _ => s)

/-- DMA_DISABLE: a write of EN = 0 (R413). A channel in ERROR has EN clear already and stays there. -/
def execDmaDisable (t n bytes : Nat) (s : State) : Host.Outcome State Fault Refusal :=
  let s := s.advance t
  done (if s.dmaUp n && (s.ch n).en then (s.dmaStop n bytes).settleQuiesce else s)

/-- DMA_DESCRIPTOR_COMPLETE: every destination write of the current descriptor has arrived (R411). -/
def execDmaDescriptorComplete (t n : Nat) (s : State) : Host.Outcome State Fault Refusal :=
  let s := s.advance t
  done (if s.dmaUp n then (s.dmaComplete n).settleQuiesce else s)

/-- DMA_BUS_ERROR: ends the current descriptor with ERR_BUS; a failed fetch or writeback writes nothing back and
leaves HEAD (R414). -/
def execDmaBusError (t n addr bytes : Nat) (fetch : Bool) (s : State) : Host.Outcome State Fault Refusal :=
  let s := s.advance t
  let c := s.ch n
  done (if s.dmaUp n && c.st == .running then
      match c.cur with
      | none => s
      | some d =>
        let s := if fetch then s.dmaError n c 6 addr
          else
            let s := s.dmaFinish n d 4 (min d.bytes bytes)
            s.dmaError n (s.ch n) 4 addr
        let q := s.afterRun n
        (State.triggers 256 q.1 q.2).settleQuiesce
    else s)

end Sys2Proof.Machine
end

