-- ==== Sys2Proof/Machine/Image.lean ====
section
/-! DEFINITION. Firmware images: header, sections and the three stages of verification (15 R427 to R429). -/

namespace Sys2Proof.Machine

/-- One entry of the section table (Table 15.2). -/
structure Section where
  kind : Nat
  off : Nat
  len : Nat
  deriving DecidableEq, Repr

/-- ImageType. -/
def imgType (b : Bytes) : Nat := leAt b 4 1
/-- SectionCount. -/
def imgSections (b : Bytes) : Nat := leAt b 6 1
/-- SignerIndex. -/
def imgSigner (b : Bytes) : Nat := leAt b 7 1
/-- ImageLength. -/
def imgLength (b : Bytes) : Nat := leAt b 8 4
/-- FwVersion. -/
def imgVersion (b : Bytes) : Nat := leAt b 12 4
/-- RollbackLevel. -/
def imgRollback (b : Bytes) : Nat := leAt b 16 1
/-- SteppingMask. -/
def imgStepping (b : Bytes) : Nat := leAt b 17 1
/-- SettingsFormat. -/
def imgFormat (b : Bytes) : Nat := leAt b 18 2
/-- SubprocVersion. -/
def imgSubproc (b : Bytes) : Nat := leAt b 20 4
/-- SubprocFloor. -/
def imgFloor (b : Bytes) : Nat := leAt b 24 4
/-- ActivationPrepMs. -/
def imgPrepMs (b : Bytes) : Nat := leAt b 28 4
/-- SignerPublicKey. -/
def imgKey (b : Bytes) : Bytes := sliceBytes b 32 96

/-- Entry `i` of the section table. -/
def imgSection (b : Bytes) (i : Nat) : Section :=
  { kind := leAt b (128 + 16 * i) 1, off := leAt b (132 + 16 * i) 4, len := leAt b (136 + 16 * i) 4 }

/-- The sections in use. -/
def imgSectionList (b : Bytes) : List Section := (List.range (min 16 (imgSections b))).map (imgSection b)

/-- How many sections have a kind. -/
def sectionCount (l : List Section) (k : Nat) : Nat := (l.filter (·.kind == k)).length

/-- Size limits of Table 15.3; `dram` is the size of the site DRAM window. -/
def sectionFits (dram : Nat) (x : Section) : Bool :=
  match x.kind with
  | 1 => decide (x.len ≤ 1572864)
  | 7 => decide (x.len ≤ 524288)
  | 8 => decide (x.len ≤ dram)
  | _ => true

/-- Two sections do not overlap. -/
def sectionsApart (x y : Section) : Bool := decide (x.off + x.len ≤ y.off ∨ y.off + y.len ≤ x.off)

/-- Pairwise test over a list. -/
def allPairs {α : Type} (f : α → α → Bool) : List α → Bool
  | [] => true
  | x :: r => r.all (f x) && allPairs f r

/-- The section rules of R427. -/
def sectionsOk (dram : Nat) (b : Bytes) : Bool :=
  let l := imgSectionList b
  decide (1 ≤ imgSections b ∧ imgSections b ≤ 16) &&
  l.all (fun x => x.off % 64 == 0 && decide (x.off + x.len + 96 ≤ imgLength b) && sectionFits dram x &&
    decide (1 ≤ x.kind ∧ x.kind ≤ 8)) &&
  allPairs sectionsApart l &&
  (if imgType b = 1 then [1, 2, 3, 4, 5, 6].all (fun k => sectionCount l k == 1) && sectionCount l 7 == 0 && sectionCount l 8 == 0
   else sectionCount l 7 == 1 && decide (sectionCount l 8 ≤ 1) && [1, 2, 3, 4, 5, 6].all (fun k => sectionCount l k == 0))

/-- The bit of SteppingMask for the running stepping, B1 (R16). -/
abbrev steppingBit : Nat := 1

/-- The active OTP settings generation: the highest-numbered programmed one whose CRC holds (R443). -/
def activeGen : List (Option Bytes) → Option Bytes
  | [] => none
  | g :: r =>
    match activeGen r with
    | some b => some b
    | none => match g with
      | some b => if leAt b 60 4 = crc32 (b.take 60) then some b else none
      | none => none

/-- Retire level of a vendor key (R428). -/
def retireLevel : Nat → Nat
  | 0 => 32 | 1 => 64 | 2 => 96 | 3 => 129 | _ => 0

/-- The signer of an image is accepted (R428). A settings generation acts from the MUSTER after its writing (R443). -/
def State.signerOk (s : State) (b : Bytes) : Bool :=
  let d := Config.sha384 (imgKey b)
  if imgType b = 1 then
    decide (imgSigner b < 4) && d == Config.vendorDigest (imgSigner b) && decide (s.fw.otp.rollback < retireLevel (imgSigner b))
  else match s.fw.genInEffect with
    | some g => d == sliceBytes g 4 48
    | none => false

/-- The signature holds over every byte before it (R427). -/
def signatureOk (b : Bytes) : Bool :=
  Config.ecdsaVerify (imgKey b) (b.take (imgLength b - 96)) (sliceBytes b (imgLength b - 96) 96)

/-- The format checks of R429 stage 1 for an image of `staged` bytes; `floor` asks for the SubprocFloor test. -/
def State.formatOk (s : State) (b : Bytes) (staged : Nat) (floor : Bool) : Bool :=
  b.take 4 == [0x47, 0x52, 0x5A, 0x49] && leAt b 5 1 == 1 && (imgType b == 1 || imgType b == 2) &&
  decide (imgLength b ≤ (if imgType b = 1 then 12582912 else 4194304)) && decide (608 ≤ imgLength b) &&
  sectionsOk s.siteDramSize b && imgLength b == staged && bitAt (imgStepping b) steppingBit &&
  (imgType b != 1 || (decide (s.fw.flash.format ≤ imgFormat b) && (!floor || decide (imgFloor b ≤ s.fw.subproc))))

/-- ImageState after verification: 1 VERIFIED, 2 REJECTED_SIGNATURE, 3 REJECTED_ROLLBACK, 4 REJECTED_FORMAT (R429). -/
def State.verifyImage (s : State) (b : Bytes) (staged : Nat) (floor : Bool) : Nat :=
  if !s.formatOk b staged floor then 4
  else if !(s.signerOk b && signatureOk b) then 2
  else if imgType b = 1 ∧ imgRollback b < s.fw.otp.rollback then 3
  else 1

/-- Local SRAM and the site DRAM window after the site image in flash is loaded: what they held does not survive, and
each holds its section from its base (R400, Table 15.3). -/
def State.loadSite (s : State) (dram : Bool) : State :=
  let m := memClear s.mem 0x10000000 0x10080000
  let m := if dram then memClear m 0x80000000 0xC0000000 else m
  match s.fw.flash.site with
  | none => { s with mem := m }
  | some b =>
    { s with mem := (imgSectionList b).foldl (fun m x =>
        if x.kind = 7 then memWrite m 0x10000000 (sliceBytes b x.off x.len)
        else if x.kind = 8 ∧ dram then memWrite m 0x80000000 (sliceBytes b x.off x.len)
        else m) m }

end Sys2Proof.Machine
end

