-- ==== Sys2Proof/Machine/Mailbox.lean ====
section
/-! DEFINITION. The mailbox between core firmware and site firmware: rings, messages, notices (14 R403, R404). -/

namespace Sys2Proof.Machine

/-- The site-to-core ring (Table 14.1). -/
abbrev s2cBase : Nat := 0x40001000
/-- The core-to-site ring. -/
abbrev c2sBase : Nat := 0x40001800

/-- The 64 bytes of a message (R404): little-endian. -/
def slotBytes (type token : Nat) (payload : Bytes) : Bytes :=
  leBytes 1 type ++ leBytes 1 0 ++ leBytes 2 payload.length ++ leBytes 4 token ++ padTo payload 56

/-- The core-to-site ring has no free slot. -/
def State.c2sFull (s : State) : Bool := (s.site.c2sProd + 1) % 32 == s.site.c2sCons

/-- Writes a message into the next core-to-site slot and advances the producer. -/
def State.c2sPut (s : State) (m : MbxMsg) : State :=
  { s with mem := memWrite s.mem (c2sBase + 64 * s.site.c2sProd) (slotBytes m.type m.token m.payload),
           site := { s.site with c2sProd := (s.site.c2sProd + 1) % 32 } }

/-- A message leaves, or its request's slot is returned without it: a REPLY that has gone returns the request's slot. -/
def State.c2sGone (s : State) (m : MbxMsg) : State :=
  if m.type = 0x81 then { s with site := { s.site with s2cCons := (s.site.s2cCons + 1) % 32 } } else s

/-- Sends waiting messages while slots are free, oldest first. -/
def State.c2sDrain : Nat → State → State
  | 0, s => s
  | fuel + 1, s =>
    match s.site.waiting with
    | [] => s
    | m :: rest =>
      if s.c2sFull then s
      else State.c2sDrain fuel ((({ s with site := { s.site with waiting := rest } } : State).c2sPut m).c2sGone m)

/-- Sends a message from core firmware; a full ring makes it wait (R403). -/
def State.mbxSend (s : State) (type token : Nat) (payload : Bytes) : State :=
  let m : MbxMsg := { type := type, token := token, payload := payload, since := s.now }
  State.c2sDrain 33 { s with site := { s.site with waiting := s.site.waiting ++ [m] } }

/-- A REPLY: abort code, total length and data; dictionary bytes keep their big-endian form (R404). -/
def State.mbxReply (s : State) (token abort total : Nat) (data : Bytes) : State :=
  s.mbxSend 0x81 token (leBytes 4 abort ++ leBytes 4 total ++ data)

/-- The request at the consumer: type, length, token, payload; none while the ring is empty, an earlier reply waits, or execution is
paused (15 R435). -/
def State.mbxRequest (s : State) : Option (Nat × Nat × Nat × Bytes) :=
  if s.paused = true ∨ s.site.s2cProd = s.site.s2cCons ∨ s.site.waiting.any (·.type == 0x81) then none
  else
    let a := s2cBase + 64 * s.site.s2cCons
    some (memLE s.mem a 1, memLE s.mem (a + 2) 2, memLE s.mem (a + 4) 4, memRead s.mem (a + 8) 56)

/-- A request of a listed type whose Length is consistent with it (Table 14.3). -/
def requestOk (type len : Nat) : Bool :=
  (type == 1 && len == 8) || (type == 2 && decide (len ≤ 56))

/-- Answers requests at the front of the ring that are of no listed type or of a wrong length (R404). -/
def State.mbxRejectBad : Nat → State → State
  | 0, s => s
  | fuel + 1, s =>
    match s.mbxRequest with
    | some (type, len, token, _) =>
      if requestOk type len then s else State.mbxRejectBad fuel (s.mbxReply token 0x08000000 0 [])
    | none => s

/-- Core firmware answers: it runs in SERVE, SWEEP and LULL, with site firmware running. -/
def State.siteRunning (s : State) : Bool := s.site.st == 1

/-- The MODE_NOTICE at the start of a transition (R404): `resetAt` is PTP ns, 0 if the cores are not reset. -/
def State.modeNotice (s : State) (target : Mode) (resetAt : Nat) : State :=
  if s.siteRunning then
    s.mbxSend 0x82 0 (leBytes 1 s.mode.mode.code ++ leBytes 1 target.code ++ leBytes 2 0 ++ leBytes 8 resetAt)
  else s

end Sys2Proof.Machine
end

