-- ==== Sys2Proof/Machine/Site.lean ====
section
/-! DEFINITION. Site firmware's blocks: access faults, watchdog, timers, the recorder's registers and the mailbox
commands (14 R399 to R405, R423). -/

namespace Sys2Proof.Machine

/-- Listed register offsets of the windows of Table 14.1, by window base: 32-bit registers. -/
def siteRegOk (addr : Nat) : Bool :=
  let o := addr % 0x1000
  match addr / 0x1000 with
  | 0x40000 => decide (o ≤ 0x14)
  | 0x40010 => o == 0
  | 0x40011 => decide (0xC00 ≤ o) && decide (o % 0x100 ≤ 0x28)
  | 0x40020 => decide (o ≤ 0x64 ∨ (0x80 ≤ o ∧ o ≤ 0xA4))
  | 0x40030 => decide (o ≤ 0x18 ∨ (0x20 ≤ o ∧ o ≤ 0x4C))
  | 0x40040 => decide (o ≤ 0x14)
  | 0x40050 => decide (o ≤ 0x14)
  | 0x40060 => decide (o ≤ 0x04 ∨ (0x10 ≤ o ∧ o ≤ 0x3C))
  | _ => false

/-- An access of `width` bits at `addr` by cores 6 and 7 lies in the map (R399); the site DRAM window needs PD_DRAM ON
(R402) and the Awl partition PD_KV (R384). -/
def State.siteAccessOk (s : State) (addr width : Nat) : Bool :=
  let n := width / 8
  let ring := decide (0x40001000 ≤ addr ∧ addr + n ≤ 0x40002000)
  decide (width = 8 ∨ width = 16 ∨ width = 32 ∨ width = 64) && 
  (inSram addr n || ring || (s.inSiteDram addr n && s.domOn .dram) ||
   (width == 32 && addr % 4 == 0 && siteRegOk addr && (addr / 0x1000 != 0x40020 || s.domOn .kv)))

/-- SITE_ACCESS_FAULT: an access outside the map faults at the core, is counted and recorded; an access inside it is no
fault (R399). -/
def execSiteAccessFault (t core addr width : Nat) (s : State) : Host.Outcome State Fault Refusal :=
  let s := s.advance t
  done (if s.siteRunning && (core == 6 || core == 7) && !s.siteAccessOk addr width then
      (s.bump K.siteAccessFaults).event 0x0B03 [(4, core), (4, addr)]
    else s)

/-- SITE_WATCHDOG_EXPIRY: no write to TMR_WDOG for SiteWatchdogMs (R401). `bytes` are the destination bytes that had
arrived on channels 12 to 15. -/
def execSiteWatchdogExpiry (t : Nat) (bytes : List Nat) (s : State) : Host.Outcome State Fault Refusal :=
  let s := s.advance t
  done (if s.siteRunning && decide (s.site.wdogAt + s.num K.siteWatchdogMs * nsMs ≤ s.now) then
      let past := (s.site.expiries ++ [s.now]).filter fun x => decide (s.now < x + 3600 * nsSec)
      let s := [12, 13, 14, 15].foldl (fun s n => s.dmaForce n (bytes.getD (n - 12) 0) 2) s
      let s := (s.bump K.siteWatchdogResets).event 0x0B04 [(4, past.length)]
      if 3 ≤ past.length then
        (({ s with site := { s.site with expiries := past, st := 3 } } : State)).event 0x0B05 []
      else
        ({ s with site := { s.site with expiries := past, st := 1, wdogAt := s.now } } : State).loadSite false
    else s)

/-- TMR_WDOG_KICK: any write to TMR_WDOG restarts the watchdog (R405). -/
def execTmrWdogKick (t : Nat) (s : State) : Host.Outcome State Fault Refusal :=
  let s := s.advance t
  done (if s.domOn .core then { s with site := { s.site with wdogAt := s.now } } else s)

/-- TMR_NOW_READ: a read of TMR_NOW_LO latches the upper half of PTP time (R405). -/
def execTmrNowRead (t : Nat) (s : State) : Host.Outcome State Fault Refusal :=
  let s := s.advance t
  done (if s.domOn .core then { s with site := { s.site with nowHi := BitVec.ofNat 32 (s.ptp / 2 ^ 32) } } else s)

/-- TMR_CMP_WRITE: sets one half of comparator `n` and clears FIRED[n] (R405). -/
def execTmrCmpWrite (t n : Nat) (hi : Bool) (v : Nat) (s : State) : Host.Outcome State Fault Refusal :=
  let s := s.advance t
  let old := s.site.cmp.getD n 0
  let new := if hi then v % 2 ^ 32 * 2 ^ 32 + old % 2 ^ 32 else old / 2 ^ 32 * 2 ^ 32 + v % 2 ^ 32
  done (if s.domOn .core && decide (n < 4) then
      { s with site := { s.site with cmp := s.site.cmp.setIfInBounds n new,
                                     fired := s.site.fired - (s.site.fired &&& s.clears 0x40060034 (2 ^ n)) } }
    else s)

/-- Comparator `n` is enabled and NOW has reached it. -/
def State.cmpDue (s : State) (n : Nat) : Bool := bitAt s.site.cmpEn n && decide (s.site.cmp.getD n 0 ≤ s.ptp)

/-- Sets FIRED[n] where the comparator is due. -/
def State.cmpFire (s : State) (n : Nat) : State :=
  if decide (n < 4) && s.cmpDue n && !bitAt s.site.fired n then
    ({ s with site := { s.site with fired := s.site.fired + 2 ^ n } } : State).hwSet 0x40060034 (2 ^ n)
  else s

/-- TIMER_COMPARATOR_FIRE (R405). -/
def execTimerComparatorFire (t n : Nat) (s : State) : Host.Outcome State Fault Refusal :=
  let s := s.advance t
  done (if s.domOn .core then s.cmpFire n else s)

/-- A recorder command fails with a code: DONE and ERR (Table 14.12). -/
def State.evrErr (s : State) (code : Nat) : State :=
  ({ s with evs := { s.evs with done := true, err := true, errCode := code } } : State).hwSet 0x40030014 6

/-- EVR_FETCH: copies the record of FETCH_SEQ from the on-chip ring; NOT_HELD where the ring has it no longer (R423). -/
def execEvrFetch (t : Nat) (s : State) : Host.Outcome State Fault Refusal :=
  let s := s.advance t
  let e := s.evs
  let want := e.fetchHi.toNat * 2 ^ 32 + e.fetchLo.toNat
  done (if !s.domOn .core || e.busy then s
    else match e.ring.find? (·.seq == some want) with
      | some r => ({ s with evs := { e with rec_ := r.bytes, done := true } } : State).hwSet 0x40030014 2
      | none => s.evrErr 1)

/-- EVR_POST: makes a record with code 0x0D00 | LOW (R423). -/
def execEvrPost (t : Nat) (s : State) : Host.Outcome State Fault Refusal :=
  let s := s.advance t
  let e := s.evs
  let low := e.postCode.toNat % 256
  let code := 0x0D00 + low
  done (if !s.domOn .core || e.busy then s
    else if low = 0 then s.evrErr 3
    else if s.hasToken code then
      let s := (s.eventSeq code (padTo e.postDetail 12) 2).1
      ({ s with evs := { s.evs with done := true } } : State).hwSet 0x40030014 2
    else (s.eventSeq code (padTo e.postDetail 12) 2).1.evrErr 2)

/-- EVR_NEXT_SEQ_READ: a read of EVR_NEXT_SEQ_LO latches the upper half of the next Seq (R423). -/
def execEvrNextSeqRead (t : Nat) (s : State) : Host.Outcome State Fault Refusal :=
  let s := s.advance t
  done (if s.domOn .core then { s with evs := { s.evs with nextHi := BitVec.ofNat 32 (s.evs.nextSeq / 2 ^ 32) } } else s)

/-- MBX_S2C_PROD_WRITE: a value in the free range posts messages; any other sets OVERRUN and is ignored (R403). -/
def execMbxS2cProdWrite (t v : Nat) (s : State) : Host.Outcome State Fault Refusal :=
  let s := s.advance t
  let cur := s.site.s2cProd
  let v := v % 32
  let step := (v + 32 - cur) % 32
  let free := (s.site.s2cCons + 31 - cur) % 32
  done (if !s.domOn .core then s
    else if 1 ≤ step ∧ step ≤ free then State.mbxRejectBad 33 { s with site := { s.site with s2cProd := v } }
    else ({ s with site := { s.site with overrun := true } } : State).hwSet 0x40000010 2)

/-- MBX_C2S_CONS_WRITE: returns slots to core firmware, whose waiting messages go (R403). -/
def execMbxC2sConsWrite (t v : Nat) (s : State) : Host.Outcome State Fault Refusal :=
  let s := s.advance t
  done (if s.domOn .core then
      State.mbxRejectBad 33 (State.c2sDrain 64 { s with site := { s.site with c2sCons := v % 32 } })
    else s)

/-- MBX_SITE_REPORT: the payload becomes SiteReport, and a REPLY with AbortCode 0 goes (R404). -/
def execMbxSiteReport (t : Nat) (s : State) : Host.Outcome State Fault Refusal :=
  let s := s.advance t
  done (match s.mbxRequest with
    | some (2, len, token, payload) =>
      if s.domOn .core && decide (len ≤ 56) then
        State.mbxRejectBad 33 ((s.setStr K.siteReport (payload.take len)).mbxReply token 0 0 [])
      else s
    | _ => s)

/-- MBX_C2S_FULL_TIMEOUT: messages without a slot for 100 ms are dropped and C2S_LOST is set (R403). -/
def execMbxC2sFullTimeout (t : Nat) (s : State) : Host.Outcome State Fault Refusal :=
  let s := s.advance t
  let old := s.site.waiting.filter fun m => decide (m.since + 100 * nsMs ≤ s.now)
  done (if old.isEmpty then s
    else
      let s := { s with site := { s.site with waiting := s.site.waiting.filter fun m => !decide (m.since + 100 * nsMs ≤ s.now),
                                              c2sLost := true } }
      let s := s.hwSet 0x40000010 4
      State.mbxRejectBad 33 (old.foldl State.c2sGone s))

end Sys2Proof.Machine
end

