-- ==== Sys2Proof/Machine/Modes.lean ====
section
/-! DEFINITION. Mode changes, transitions, the hold-up flush, HALT and DORMANT (13 R369 to R384, 08 R252, 03 R86,
12 R357 to R359). -/

namespace Sys2Proof.Machine

/-- The triggers that event 0x0101 names, by the model's own count (log 28: the manual numbers none). -/
abbrev trNmt : Nat := 1
/-- Wake alarm. -/
abbrev trAlarm : Nat := 2
/-- Main power rose. -/
abbrev trPower : Nat := 3
/-- Recovery completed. -/
abbrev trRecovered : Nat := 4
/-- Idle. -/
abbrev trIdle : Nat := 5
/-- An exit trigger of R373. -/
abbrev trExit : Nat := 6
/-- Warm reset by pin. -/
abbrev trWarm : Nat := 7
/-- Class-2 alarm. -/
abbrev trClass2 : Nat := 8
/-- Uncorrectable DRAM error. -/
abbrev trDram : Nat := 9
/-- Forced clock switch. -/
abbrev trForced : Nat := 10
/-- CPLL loss of lock. -/
abbrev trCpll : Nat := 11
/-- Power stayed after a flush. -/
abbrev trReturn : Nat := 12
/-- A cause of HALT. -/
abbrev trHalt : Nat := 13
/-- Main power fell. -/
abbrev trFall : Nat := 14
/-- TamperClear. -/
abbrev trClear : Nat := 15
/-- A life-cycle request. -/
abbrev trLife : Nat := 16
/-- Thermal trip. -/
abbrev trTrip : Nat := 17
/-- The end of an alarm's SWEEP. -/
abbrev trSweepEnd : Nat := 18

/-- Heel's RTC (12 R362): PTP seconds while LOCKED, else counted from the last setting. -/
def State.rtc (s : State) : Nat :=
  if s.eth.ptp.st = PtpState.locked then s.ptp / nsSec else s.shelf.rtcBase + (s.now - s.shelf.rtcAt) / nsSec

/-- Sets the RTC. -/
def State.setRtc (s : State) (v : Nat) : State := { s with shelf := { s.shelf with rtcBase := v, rtcAt := s.now } }

/-- Timing of one phase at 40 MHz (Table 12.3): prescaler, Prop + Seg1, Seg2 and SJW in time quanta. -/
structure BitTiming where
  prescaler : Nat
  seg1 : Nat
  seg2 : Nat
  sjw : Nat
  deriving DecidableEq, Repr

/-- The nominal phase by ShelfNominalKbps (Table 12.3). -/
def nominalTiming : Nat → Option BitTiming
  | 125 => some ⟨4, 63, 16, 16⟩ | 250 => some ⟨2, 63, 16, 16⟩ | 500 => some ⟨1, 63, 16, 16⟩ | 1000 => some ⟨1, 31, 8, 8⟩
  | _ => none

/-- The data phase by ShelfDataKbps (Table 12.3). -/
def dataTiming : Nat → Option BitTiming
  | 1000 => some ⟨1, 29, 10, 10⟩ | 2000 => some ⟨1, 14, 5, 5⟩ | 4000 => some ⟨1, 7, 2, 2⟩ | 5000 => some ⟨1, 5, 2, 2⟩
  | _ => none

/-- The secondary sample point in data time quanta after the measured loop delay, above 1,000 kbit/s (R353). -/
def ssp (kbps : Nat) : Option Nat := if 1000 < kbps then (dataTiming kbps).map fun x => x.seg1 + 1 else none

/-- The format of a frame that is sent: heartbeat and boot-up are classical; the others switch bit rates where the data rate in effect
is the higher (R353, R355, Table 12.4). -/
def State.canFmt (s : State) (id : Nat) : CanFmt :=
  if id / 128 = 14 then .classical else if s.shelf.nominal < s.shelf.dataRate then .fdBrs else .fd

/-- A CAN frame leaves. -/
def State.canSend (s : State) (id : Nat) (b : Bytes) : State := (s.emit (.can id (s.canFmt id) b)).bump K.canTxFrames

/-- The controller can send: it runs, or Heel starts WOSC for the frame in DORMANT (R359, R386). -/
def State.canReady (s : State) : Bool := s.shelf.running || (s.mode.mode == .dormant && s.healthy .xtal32k)

/-- A heartbeat with the byte of the present mode; its period restarts (R357, R359). -/
def State.heartbeatNow (s : State) : State :=
  if s.num K.producerHeartbeatTime = 0 ∨ s.canReady = false then s
  else { s.canSend (0x700 + s.shelf.nodeId) [BitVec.ofNat 8 s.mode.mode.heartbeat] with
         shelf := { s.shelf with lastHeartbeat := s.now } }

/-- The operating mode changes: count, event 0x0101, MODE_CHG, and a heartbeat where the NMT state changes (R359, R371,
R395). OperatingSeconds stops while PD_CORE is off. An entry to SERVE takes RwpUdpPort (03 R89). -/
def State.enterMode (s : State) (m : Mode) (trig : Nat) : State :=
  let old := s.mode.mode
  let secs := s.operatingSeconds
  let s := if m = .serve then { s with net := { s.net with udpPort := s.num K.rwpUdpPort } } else s
  let s := { s with mode := { s.mode with mode := m }, evs := { s.evs with secsBase := secs, secsAt := s.now } }
  let d := packDetail [(1, old.code), (1, m.code), (4, Config.eventCode 0x0101 trig)]
  let (s, seq) := (s.bump K.modeChanges).eventSeq 0x0101 d
  let s := s.cpcIrq 1
  let s := if old.heartbeat = m.heartbeat then s else s.heartbeatNow
  s.linkCond 0x0101 seq (ofLE (padTo d 4))

/-- GPIO0 to 7 as the settings have them; inputs with a weak pull-down until core firmware has applied the settings (16 R449, R473). -/
def State.gpioPins (s : State) : Nat × Nat × Nat :=
  if s.shelf.coreAnswers then
    let d := s.num K.gpioDirection % 256
    (d, s.num K.gpioOutput % 256 &&& d, s.num K.gpioPullDown % 256)
  else (0, 0, 255)

/-- The pins take what the settings say (16 R473). -/
def State.gpioApply (s : State) : State := let x := s.gpioPins; s.emit (.gpio x.1 x.2.1 x.2.2)

/-- The order in which domains come up (R382). -/
def upOrder : List Dom := [.sec, .dram, .kv, .media, .netA, .netB, .welt]

/-- A domain's clock runs: its PLL is locked, or it has been switched to FSO (R382, R391). -/
def State.clockOk (s : State) (d : Dom) : Bool :=
  (s.clk.onFso.contains d && s.healthy .fso) ||
    (match d with
     | .aon => s.healthy .wosc
     | .netA | .netB => (s.pll .npll).locked
     | .dram => (s.pll .mpll).locked
     | .media => (s.pll .cpll).locked && (s.pll .fpll).locked
     | _ => (s.pll .cpll).locked)

/-- Powers a domain up: at once where its clock runs and no power-down is under way, else once both hold (R382). -/
def State.powerUp (s : State) (d : Dom) : State :=
  if s.domOn d then s
  else if s.clockOk d && !(s.clk.quiesce.any (·.1 == d)) then (s.domTo d .on).dmaResume
  else
    let s := if s.clk.quiesce.any (·.1 == d) then s else s.domTo d .changing
    if s.clk.upWaiting.contains d then s else { s with clk := { s.clk with upWaiting := s.clk.upWaiting ++ [d] } }

/-- Powers a list of domains down in order. -/
def State.powerDowns (s : State) (l : List Dom) : State := l.foldl State.powerDown s

/-- Powers a list of domains up in order. -/
def State.powerUps (s : State) (l : List Dom) : State := l.foldl State.powerUp s

/-- Site cores are held in reset, or released to run (R400). -/
def State.siteHold (s : State) : State :=
  if s.site.st = 1 then { s with site := { s.site with st := 2 } } else s

/-- Cores 6 and 7 leave reset at SERVE or SWEEP (R400). -/
def State.siteRelease (s : State) : State :=
  if s.site.st = 2 then { s with site := { s.site with st := 1, wdogAt := s.now, expiries := [] } } else s

/-- A port drops: no link, no mode; sessions' paths follow at LINK_DOWN or time out (R333). -/
def State.portOff (s : State) (p : PortId) : State :=
  let x := s.port p
  let s := { s with net := { s.net with held := s.net.held.filter (·.1 != p) } }
  s.setPort p { x with link := .disabled, activeMode := 0, activeFec := 0, preemptActive := false, verifySent := 0, paused := [],
                       ignoreUntil := none, recValid := false, bufUsed := 0, xoff := false }

/-- A port that is enabled and powered starts training (R318, R320). -/
def State.portStart (s : State) (p : PortId) : State :=
  let x := s.port p
  let s := { s with net := { s.net with held := s.net.held.filter (·.1 != p) } }
  if s.flag (K.portEnable p.code) && s.domOn (match p with | .a => .netA | .b => .netB) then
    s.setPort p { x with link := .training, activeMode := 0, activeFec := 0, preemptActive := false, verifyFailed := false, verifySent := 0,
                         paused := [], ignoreUntil := none, recValid := false }
  else s.portOff p

/-- HaltCause codes (Table 13.3; DEDUCED, log 29: each cause's own event). -/
def HaltCause.code : HaltCause → Nat
  | .noDie => 0x0802 | .dramConfig => 0x080C | .recovery => 0x0812 | .activation => 0x0A04 | .class2 => 0x0902 | .tamper => 0x0903
  | .counter => 0x0906 | .pll => 0x0C05

/-- The causes that POR_N or the loss of VSTBY releases (15 R444). -/
def HaltCause.releasedByVstby : HaltCause → Bool
  | .noDie => true | .dramConfig => true | .recovery => true | .class2 => true | .pll => true
  | .activation => false | .tamper => false | .counter => false

/-- HALT is reached: HaltCause, event, domains of the HALT column, site cores in reset, links down (R369, R375, R400). -/
def State.enterHalt (s : State) (c : HaltCause) : State :=
  let s := { s with mode := { s.mode with halt := some c, target := none, phase := .idle, drainUntil := none, recovering := false, held := none } }
  let s := (s.setNum K.haltCause c.code).enterMode .halt trHalt
  let s := (((s.siteHold).portOff .a).portOff .b)
  let s := { s with media := { s.media with wpN := false } }
  let s := s.powerDowns [.welt, .netB, .netA, .kv]
  if c = .dramConfig then s.powerDowns [.dram] else s

/-- Sessions close on a mode change (R86); HALF_OPEN ones, and HELLOs that this drive has sent, are discarded (log 18). -/
def State.closeAll (s : State) (reason : Nat) : State :=
  let s := { s with net := { s.net with hellos := [] } }
  s.net.sessions.foldl (fun s x => s.closeSession x.sid reason 0) s

/-- At a flush, reads are abandoned, programs not issued yet are not, and erases that run are suspended where ERASE_SUSPEND is supported
(R252 steps 2 and 3). -/
def State.shedOps (s : State) : State :=
  let keep (o : ArrayOp) : Bool := match o.kind with | .read .. => false | .program _ => o.issuedAt.isSome | .erase .. => true
  let s := { s with media := { s.media with ops := s.media.ops.filter keep } }
  if !profSuspend s.media.profile then s
  else (s.media.ops.filter fun o => (match o.kind with | .erase .. => true | _ => false) && o.issuedAt.isSome).foldl (fun s o => s.suspendOp o s.now) s

/-- A hold-up flush starts: intake stops, PD_NET_A, PD_NET_B and PD_WELT are shed, and channels that touch them stop
(R252, R377, R383). No flush runs in LULL-2, whose buffer is empty. -/
def State.startFlush (s : State) (why : FlushWhy) : State :=
  let shed : List Dom := [.welt, .netB, .netA]
  let busy := (shed.flatMap s.dmaBusy).eraseDups
  let s := busy.foldl (fun s n => let x := s.drawFree; x.2.dmaForce n x.1 3) s
  let s := ((s.powerDowns shed).portOff .a).portOff .b
  let s := (s.shedOps)
  { s with mode := { s.mode with phase := .flushing why, flushAt := s.now, drainUntil := none },
           media := { s.media with grantCap := some 0 } }

/-- Stripes of this drive's writes that have not passed their commit point. -/
def State.openStripes (s : State) : List StripeId :=
  s.kv.cmds.filterMap fun c => c.write.bind fun w => if w.commit.isNone then some w.stripe else none

/-- A buffered record that the flush skips: relocation copies, and the home's own fragments of uncommitted writes (R252
step 5). -/
def State.flushSkips (s : State) (r : MediaRec) : Bool :=
  (s.media.moves.any (·.new == r.addr)) ||
    (match r.body with
     | .header i _ | .slice i _ _ | .dir i _ => s.openStripes.contains i
     | _ => false)

/-- Event records that wait become a batch of the SYSTEM stream (14 R419). -/
def State.appendBatch (s : State) : State :=
  let l := s.evs.staged.take 1024
  if l.isEmpty then s
  else
    let s := s.journal (16 + 32 * l.length) (.events l)
    { s with evs := { s.evs with staged := s.evs.staged.drop 1024, stagedAt := s.now, log := s.evs.log ++ l } }

/-- Where a record comes in a flush (R252 step 4): commit records and the journal tail, then what some command has relied on as durable,
then the rest. -/
def State.flushGroup (s : State) (r : MediaRec) : Nat :=
  if r.jseq.isSome || (match r.body with | .commit _ => true | _ => false) then 0 else if s.relied r then 1 else 2

/-- The records that wait in the buffer, in the order of a flush. -/
def State.flushOrder (s : State) : List MediaRec :=
  let l := s.media.recs.filter fun r => !r.units.isEmpty
  [0, 1, 2].flatMap fun g => l.filter fun r => s.flushGroup r == g

/-- Program units are programmed with FLUSH set, in order. -/
def State.flushUnits (s : State) (l : List UnitId) : State := l.foldl (fun s u => if s.unitPending u then (s.unitDone u true).1 else s) s

/-- Units that wait, in the order of a flush. -/
def State.unitsInOrder (s : State) : List UnitId := ((s.flushOrder.flatMap (·.units)).filter (·.stream != 255)).eraseDups

/-- The flush's work up to its end record (R252 steps 3 to 5): issued programs complete, skipped content goes, and the rest is written in
order, native-stream records to the SLC stream. Where the flush is cut, a free value says after how many units. Answers the bytes and
how many units were written. -/
def State.writeBuffer (s : State) (cut : Option Nat) : State × Nat × Nat :=
  let s := if s.mode.mode = .lull1 then
      { s with evs := { s.evs with staged := s.evs.staged ++ s.evs.heel.filter (·.seq.isSome), heel := s.evs.heel.filter (·.seq.isNone) } }
    else s
  let s := s.appendBatch
  let running := s.media.ops.filterMap fun o => match o.kind with | .program u => if o.issuedAt.isSome then some u else none | _ => none
  let s := running.foldl (fun s u => (s.unitDone u).1) s
  let skip := s.media.recs.filter fun r => !r.units.isEmpty && s.flushSkips r
  let s := { s with media := { s.media with recs := s.media.recs.filter fun r => !skip.contains r, moves := [], raw := [] } }
  let wait := s.flushOrder
  let bytes := (wait.map (·.len)).sum
  let s := (wait.filter fun r => decide (2 ≤ r.stream)).foldl (fun s r => s.reappend r 0) s
  let l := s.unitsInOrder
  let l := match cut with | some n => l.take (n % (l.length + 1)) | none => l
  (s.flushUnits l, bytes, l.length)

/-- The whole flush: the buffer, then the flush-end record, and Fn_WP_N (R252 steps 4 to 6). Answers the bytes programmed. -/
def State.writeOut (s : State) : State × Nat :=
  let (s, bytes, _) := s.writeBuffer none
  let s := s.flushUnits s.unitsInOrder
  let s := s.journal 32 (.flushEnd bytes ((s.now - s.mode.flushAt) / 1000))
  let s := s.flushUnits s.unitsInOrder
  ({ s with media := { s.media with wpN := false, ops := [] } }, bytes)

/-- What is lost when the main domains are reset or lose power: sessions, commands, calendars, the index, Awl, peer
messages, DMA, ports and clocks of PD_CORE (R369, R371; 10 R311; 14 R400). Records whose units were not programmed are
gone. -/
def State.loseMain (s : State) : State :=
  let s := s.dropSessions
  let recs := s.media.recs.filter (·.units.isEmpty)
  let lifeE := s.shank.lifeEnded
  let lifeB := s.shank.lifeBroken
  let insts := s.idx.insts
  let policy := s.awl.policy
  let w := s.welt
  let frags := w.frags.map fun (f : Frag) => { f with waiting := [] }
  ({ s with
    shank := { rho := s.num K.ldpcRetryFloorPermille, lifeEnded := lifeE, lifeBroken := lifeB }
    idx := { insts := insts }
    awl := { policy := policy }
    welt := { w with frags := frags, msgs := [], repairs := [], noPath := [], lost := [], gathers := [], serial := 0, aborted := [],
                     stamps := [], rebuildWin := 0, rebuildBytes := 0, rebalanceBytes := 0, confirmed := [] }
    media := { s.media with recs := recs, moves := [], raw := [], granted := 0, grantCap := none, running := none, slcBytes := 0,
                            erasing := [], ops := [], wpN := false, toRepair := [], notReady := [], hour := [], pageReads := 0, pageRetries := 0, scanFirst := false }
    dma := Vector.replicate 16 {}
    site := { dramMiB := s.site.dramMiB }
    sec := { s.sec with slots := [], dramKey := false, psks := [], secrets := [], erasing := [], eraseNext := [] }
    eth := { capKiB := s.eth.capKiB }
    fw := { s.fw with staged := {}, act := {}, lace := {} }
    dict := { s.dict with sels := [], waits := [], programming := false }
    clk := { s.clk with gates := [], gatedDoms := [], upWaiting := [], quiesce := [], fmc := {}, lullHold := false, irqStatus := 0, irqEn := 0,
                        onFso := [], coreRamp := 16, kvRamp := 16 } } : State).condOff 0xFF02

/-- Open USDO transfers end when the answering node changes (R352). -/
def State.abortTransfers (s : State) : State :=
  s.shelf.transfers.foldl (fun s x =>
    s.canSend (0x580 + s.shelf.nodeId) ([x.node % 256 |> BitVec.ofNat 8, 0x7F] ++ beBytes 2 x.idx ++ beBytes 1 x.sub ++ beBytes 4 0x08000020))
    { s with shelf := { s.shelf with transfers := [], delayed := [] } }

/-- PWR_REQ is asserted, within 100 us of the request (R376). -/
def State.askPower (s : State) (target : Mode) (trig : Nat) : State :=
  let s := s.modeNotice .muster 0
  ({ s with mode := { s.mode with target := some target, trig := trig, pwrReq := true, pwrReqAt := s.now } } : State).cpcIrq 1

/-- DORMANT: main power has gone (R370, R371, R377, R381). A held target asks for power at once. -/
def State.enterDormant (s : State) : State :=
  let held := s.mode.held
  let s := (s.loseMain).abortTransfers
  let s := { s with clk := { s.clk with doms := #v[.on, .off, .off, .off, .off, .off, .off, .off, .off] } }
  let off : List Source := [.xtal25, .fso, .recA, .recB, .ethRefclk]
  let s := off.foldl (fun s x => s.setSrc x {}) s
  let s := { s with clk := { s.clk with plls := s.clk.plls.map fun (p : PllSt) => { p with locked := false, holdover := false, ref := none, relockSince := none } } }
  let s := s.enterMode .dormant trFall
  let s := { s with mode := { s.mode with phase := .idle, target := none, held := none, dormantRtc := s.rtc, alarmsUsed := 0,
                                          recovering := false, cap := none, coolSince := none, drainUntil := none },
                    shelf := { s.shelf with coreAnswers := false, lastTraffic := s.now },
                    site := { s.site with st := if s.site.st = 0 then 0 else 2 },
                    fw := { s.fw with genInEffect := none, tap := none } }
  match held with
  | some .serve => s.askPower .serve trNmt
  | some .sweep => s.askPower .sweep trNmt
  | _ => s

/-- No command is admitted, waits for its decision, or still owes its ending (R86). -/
def State.drained (s : State) : Bool := s.kv.cmds.isEmpty

/-- LULL ends: domains and ramps come back, records that waited are staged, rho is the floor again (R373, R392,
R419; 05 R133). -/
def State.lullExit (s : State) (trig : Nat) : State :=
  let deep := s.mode.mode == .lull2
  let s := s.enterMode .serve trig
  let s := { s with shank := { s.shank with rho := s.num K.ldpcRetryFloorPermille }, media := { s.media with wam := 1150 } }
  let s := { s with clk := { s.clk with coreRamp := 16, kvRamp := 16, gatedDoms := [] } }
  let s := if deep then
      let m := s.pll .mpll
      let s := s.setPll .mpll { m with locked := true }
      let f := s.pll .fpll
      let s := s.setPll .fpll { f with locked := true }
      let s := s.powerUps [.dram, .media, .welt]
      { s with media := { s.media with wpN := true, zqAt := s.now, zqTemp := s.mode.tempC } }
    else s
  let kept := s.evs.heel.filter (·.seq.isSome)
  { s with evs := { s.evs with staged := s.evs.staged ++ kept, stagedAt := s.now, heel := s.evs.heel.filter (·.seq.isNone) },
           mode := { s.mode with idleSince := s.now } }

/-- A transition out of SERVE or LULL begins to drain, toward SWEEP, DORMANT or HALT (R86, R370, R371). -/
def State.beginDrain (s : State) (target : Mode) (trig : Nat) : State :=
  let s := if s.mode.mode == .lull1 || s.mode.mode == .lull2 then s.lullExit trExit else s
  let s := s.modeNotice target (if target = .sweep then 0 else s.ptp)
  ({ s with mode := { s.mode with phase := .draining, target := some target, trig := trig, leaving := s.mode.mode } } : State).cpcIrq 1

/-- The persistent settings in effect ask for a site image and none is valid: a target of SERVE is taken as SWEEP (15 R443,
Table 15.8). -/
def State.siteBars (s : State) : Bool :=
  (match s.fw.genInEffect with | some b => bitAt (beAt b 1 1) 1 | none => false) && s.site.st == 0

/-- A request for a mode (R358, R370, Table 12.6). HALT's own ways, flushes and a halted drive ignore it and answer
false; a live activation holds it until the handover has ended (Table 15.6). -/
def State.requestMode (s : State) (m : Mode) (trig : Nat) : State × Bool :=
  let md := s.mode
  if md.mode = .halt ∨ md.target = some .halt ∨ s.inFlush = true then (s, false)
  else
    if s.shank.actPending then ({ s with mode := { md with held := some m } }, true)
    else match md.phase with
    | .awaitPower _ => ({ s with mode := { md with held := some m } }, true)
    | .resetHeld =>
      if m = .dormant then ({ s with mode := { md with held := some m } }, true)
      else ({ s with mode := { md with held := none, leaving := m } }, true)
    | .quiescing =>
      if m = .dormant then (s, true) else ({ s with mode := { md with held := some m } }, true)
    | .draining =>
      if m = .serve then (({ s with mode := { md with phase := .idle, target := none, trig := trig, idleSince := s.now } } : State).cpcIrq 1, true)
      else (({ s with mode := { md with target := some m, trig := trig } } : State).cpcIrq 1, true)
    | _ =>
      match md.mode with
      | .dormant =>
        if m = .dormant then (s, true)
        else if md.pwrReq then ({ s with mode := { md with target := some m, trig := trig } }, true)
        else (s.askPower m trig, true)
      | .muster =>
        let s := { s with mode := { md with target := some m, trig := trig } }
        if m = .dormant then
          let s := { s with mode := { s.mode with leaving := .muster } }
          (s.startFlush .toDormant, true)
        else (s, true)
      | .sweep =>
        if m = .sweep ∨ (m = .serve ∧ (s.life = 0 ∨ s.siteBars = true)) then (s, true)
        else if m = .serve then
          let s := (s.modeNotice .serve 0).powerUps [.welt]
          let s := { s with mode := { s.mode with idleSince := s.now, alarmWake := false }, shank := { s.shank with rho := s.num K.ldpcRetryFloorPermille } }
          let s := s.enterMode .serve trig
          (if (s.welt.cur).isSome then s.queueMoves.noteMembers else s, true)
        else
          let s := s.modeNotice .dormant s.ptp
          let s := { s with mode := { s.mode with target := some .dormant, trig := trig, leaving := .sweep } }
          ((s.cpcIrq 1).startFlush .toDormant, true)
      | _ =>
        if m = .serve then (s, true) else (s.beginDrain m trig, true)

/-- The drive leaves for HALT (R375, Table 13.3). -/
def State.goHalt (s : State) (c : HaltCause) : State :=
  if s.mode.mode = .halt ∨ s.mode.mode = .dormant ∨ s.mode.target = some .halt then s
  else
    let s := { s with mode := { s.mode with halt := some c, target := some .halt, trig := trHalt, leaving := s.mode.mode } }
    match c with
    | .counter =>
      if s.serving then
        let s := (s.beginDrain .halt trHalt)
        { s with mode := { s.mode with drainUntil := some (s.now + 100 * nsMs) } }
      else ((s.modeNotice .halt s.ptp).closeAll 6).startFlush .toHalt
    | .activation => (((s.modeNotice .halt s.ptp).closeAll 6).dropSessions).startFlush .toHalt
    | .tamper => (s.dropSessions).enterHalt c
    | .class2 => (s.dropSessions).enterHalt c
    | _ => (((s.modeNotice .halt s.ptp).closeAll 6).dropSessions).enterHalt c

/-- Draining has ended, or its time has: sessions close, and the transition goes on (R86, R371, R375). -/
def State.drainDone (s : State) : State :=
  let why := s.mode.target
  let s := s.closeAll (if why = some .halt then 6 else 4)
  match why with
  | some .halt => s.startFlush .toHalt
  | some .sweep =>
    let s := (s.powerDowns [.welt]).enterMode .sweep s.mode.trig
    { s with mode := { s.mode with phase := .idle, target := none } }
  | some .dormant => s.startFlush .toDormant
  | _ => { s with mode := { s.mode with phase := .idle, target := none } }

/-- A flush has written its end: event 0x0806, LastFlushUs and the count (R252). -/
def State.flushReport (s : State) (bytes us : Nat) : State :=
  ((s.event 0x0806 [(8, bytes), (4, us)]).setSys K.lastFlushUs (.num (min us 0xFFFFFFFF))).bumpSys K.holdupFlushes

/-- The first moment at which the token-ns booked can be served under a lower limit (R140): for each booked point, the time
that the old limit must still run. -/
def State.lowerAt (s : State) (old new : Nat) : Nat :=
  (s.shank.books.filter fun b => b.res == .token).foldl (fun t b =>
    let owed := owedBy s.shank.books .token b.deadline
    let span := new * (b.deadline - s.now)
    if span < owed then max t (s.now + ceilDiv (owed - span) (max 1 (old - new))) else t) s.now

/-- The token limit changes from `old` to what now stands: a raise acts at once, a lowering when the booked work allows it,
with event 0x0503 (R140). -/
def State.limitChanged (s : State) (old : Nat) : State :=
  let new := s.tokenLimit
  if new = old then s
  else if old < new then { s with shank := { s.shank with oldLimit := none } }
  else
    let t := s.lowerAt old new
    let s := { s with shank := { s.shank with oldLimit := if s.now < t then some old else none, effectiveAt := s.ptp + (t - s.now) } }
    s.event 0x0503 [(2, old), (2, new), (8, s.shank.effectiveAt)]

/-- No PC3 work of any chapter is ready (R372). -/
def State.noBackground (s : State) : Bool :=
  s.welt.repairs.isEmpty && s.welt.owed.all (·.sent) && s.welt.gathers.isEmpty && s.welt.msgs.isEmpty && s.media.running.isNone &&
    s.idx.passEnd.isNone && s.media.moves.isEmpty && s.media.erasing.isEmpty &&
    !(s.media.sbs.any fun x => x.st == .victim || x.st == .pendingErase || s.scanIsDue x || (x.st == .closed && x.forced != 0)) &&
    !(s.oldestSlc.any s.foldDue) && !s.cycleDue &&
    !((List.range s.dieSets).any fun ds => decide (s.freeCount ds < s.num K.gcStartFree))

/-- The drive is idle (R372), but for the time that has passed. -/
def State.idle (s : State) : Bool :=
  s.flag K.lullEnable && s.kv.cmds.isEmpty && s.noBackground && (s.media.recs.all fun r => r.units.isEmpty) && s.evs.staged.isEmpty &&
    !s.shank.actPending && s.mode.phase == .idle

end Sys2Proof.Machine
end

