-- ==== Sys2Proof/Machine/Tap.lean ====
section
/-! DEFINITION. The test access port (16 R452; JTAG_DISABLE of 15 Table 15.8). No command of the table drives its pins: what it
answers is a function of the state (log 118). -/

namespace Sys2Proof.Machine

/-- IDCODE: stepping digit [31:28], 0x4842 [27:12], 0x3A9 [11:1] and 1 (R452). -/
def idcodeOf (stepping : Nat) : Nat := stepping * 2 ^ 28 + 0x4842 * 2 ^ 12 + 0x3A9 * 2 + 1

/-- The running stepping's digit: bits 23 to 16 of RevisionNumber (R16), 0 for B0 and 1 for B1. -/
def State.steppingDigit (s : State) : Nat := s.num K.revisionNumber / 2 ^ 16 % 16

/-- JTAG_DISABLE of the settings in effect: BlockFlags bit 0 of the active generation (Table 15.8). It takes effect at the next
MUSTER (R443), and is lost to no power state: until then the generation in effect stands. -/
def State.jtagDisabled (s : State) : Bool :=
  match s.fw.tapGen with
  | some b => bitAt (beAt b 1 1) 0
  | none => false

/-- The port is powered and the instruction is one it answers: while JTAG_DISABLE is set, IDCODE and BYPASS only (R452). -/
def State.tapAnswers (s : State) (i : TapInstr) : Bool :=
  s.fw.tap.isSome && (!s.jtagDisabled || i == .idcode || i == .bypass)

/-- The instruction that takes hold when `i` is shifted in: one that the port does not answer selects BYPASS (IEEE 1149.1, log 118). -/
def State.tapSelect (s : State) (i : TapInstr) : TapInstr := if s.tapAnswers i then i else .bypass

/-- What the selected data register holds as it is captured: IDCODE's 32 bits or BYPASS's single 0; the boundary cells' levels and
the image register are not values that the manual gives. -/
def State.tapCapture (s : State) : Option (Nat × Nat) :=
  match s.fw.tap with
  | some .idcode => some (32, idcodeOf s.steppingDigit)
  | some .bypass => some (1, 0)
  | _ => none

/-- The port after its pads get power: Test-Logic-Reset, with IDCODE selected; the generation active now is in effect. -/
def State.tapUp (s : State) : State :=
  let t := s.fw.tap.getD .idcode
  { s with fw := { s.fw with tap := some t, tapGen := activeGen s.fw.otp.gens } }

/-- The boot ROM asks for its image over JTAG (R451): none where the port does not answer. -/
def State.tapImage (s : State) : Option Bytes × State :=
  if s.tapAnswers .load then (s.media.board.jtag, { s with fw := { s.fw with tap := some .load } }) else (none, s)

end Sys2Proof.Machine
end

