-- ==== Sys2Proof/Machine/Muster.lean ====
section
/-! DEFINITION. Entry to MUSTER: settings, boot image, wipes, discovery, DRAM, keys and domains, as far as the start of
recovery (13 R371, R380; 12 R349 to R351; 15 R431, R432, R441, R442; 10 R293, R294, R306, R312, R313; 08 R233 to R237,
R257; 14 R400). The boot steps of Table 13.6 up to recovery pass within the step that enters MUSTER (log 30). -/

namespace Sys2Proof.Machine

/-- VOL entries held in PD_AON (R349). -/
def aonKept (k : Nat) : Bool := k / 256 == 0x2003 || k == K.rtcSeconds || k == K.haltCause

/-- Entries that no restore touches, beyond their access codes (R351). -/
def neverRestored (k : Nat) : Bool :=
  decide (k ∈ [K.nodeId, K.shelfNominalKbps, K.shelfDataKbps, K.groupMap, K.selfMemberId, K.tamperArm, K.tamperPolicy]) || k / 256 == 0x2320

/-- A restore group holds an index: 1 all, 2 communication, 3 application (R351). -/
def inGroup (g k : Nat) : Bool :=
  let i := k / 256
  let comm := decide (0x1000 ≤ i ∧ i ≤ 0x1FFF) || i == 0x2002
  let app := decide (0x2000 ≤ i ∧ i ≤ 0x2FFF) && i != 0x2002
  match g with
  | 1 => comm || app
  | 2 => comm
  | _ => app

/-- A SYS entry that a restore returns to its default. -/
def restorable (k : Nat) : Bool :=
  match dictRow? k with
  | some r => r.persist == .sys && (r.access == .rw || r.access == .rwr) && !neverRestored k
  | none => false

/-- Namespace attributes at their defaults (Table 12.10). -/
def Ns.restored (x : Ns) : Ns :=
  { x with retention := 4, hold := 604800, quotaBytes := 0, quotaObjects := 0, readOnly := false }

/-- The dictionary at MUSTER: Heel's held writes go to the store, marked groups return to defaults, SYS values come from the
store, VOL values to their defaults but for those in PD_AON (R349, R351). -/
def State.reloadDict (s : State) : State :=
  let held := s.dict.heel.foldl (fun m x => mapPut m x.1 (dictCell x.1 x.2)) s.dict.stored
  let stored := held.filter fun x => !(restorable x.1 && s.dict.restore.any fun g => inGroup g x.1)
  let kept := s.dict.vals.filter fun x => aonKept x.1
  let vals := stored.foldl (fun m x => mapPut m x.1 (some x.2)) kept
  let nss := if s.dict.restore.any fun g => g != 2 then s.kv.nss.map Ns.restored else s.kv.nss
  let s := { s with dict := { vals := vals, stored := stored }, kv := { s.kv with nss := nss } }
  s.setNum K.powerTokenLimit (s.num K.powerTokens)

/-- The pointer record with the greatest PointerSeq among those whose CRC holds (R426). -/
def newestPtr (l : List Bytes) : Option PtrRec :=
  (l.filterMap ptrOfBytes).foldl (fun (b : Option PtrRec) p => match b with | some q => if q.seq < p.seq then some p else some q | none => some p) none

/-- Appends a pointer record. The block holds 16 sectors of 128 records; the oldest sector is erased before the last record of the
current one is written (R426). -/
def Flash.addPtr (f : Flash) (slot : Nat) (image : Bytes) : Flash :=
  let p : PtrRec := { slot := slot, seq := ((newestPtr f.ptrs).map (·.seq)).getD 0 + 1, version := imgVersion image, rollback := imgRollback image,
                      length := imgLength image }
  let l := if 2047 ≤ f.ptrs.length then f.ptrs.drop 128 else f.ptrs
  { f with ptrs := l ++ [p.bytes] }

/-- The image of a core slot. -/
def Flash.slot (f : Flash) (n : Nat) : Option Bytes := if n = 0 then f.slotA else f.slotB

/-- ImageState of a core slot at boot, 0xFF where it holds none (R431). -/
def State.slotState (s : State) (n : Nat) : Nat :=
  match s.fw.flash.slot n with
  | some b => if imgType b = 1 then s.verifyImage b b.length false else 4
  | none => 0xFF

/-- A booted core image: its slot and bytes. -/
structure Booted where
  slot : Nat
  image : Bytes

/-- The boot ROM's choice (R431 steps 2 to 4, 16 R451): events and the pointer record of a fallback go with it. -/
def State.bootChoice (s : State) : State × Option Booted :=
  if s.media.board.bootMode = 3 ∧ s.life = 0 then
    match s.tapImage with
    | (some b, s) => if imgType b = 1 ∧ s.verifyImage b b.length false = 1 then (s, some ⟨0, b⟩) else (s, none)
    | (none, s) => (s, none)
  else
    let named := ((newestPtr s.fw.flash.ptrs).map (·.slot)).getD 0
    let a := if (newestPtr s.fw.flash.ptrs).isSome then s.slotState named else 0xFF
    let b := s.slotState (1 - named)
    if a = 1 then (s, (s.fw.flash.slot named).map fun i => ⟨named, i⟩)
    else if b = 1 then
      match s.fw.flash.slot (1 - named) with
      | some i =>
        let s := { s with fw := { s.fw with flash := s.fw.flash.addPtr (1 - named) i } }
        (s.event 0x0A05 [(1, 1 - named), (1, a)], some ⟨1 - named, i⟩)
      | none => (s, none)
    else
      let (x, y) := if named = 0 then (a, b) else (b, a)
      (s.event 0x0A06 [(1, x), (1, y)], none)

/-- Settings follow the booted image's format (R441). The major number is bits 15 to 8 (Table 15.2). -/
def State.migrate (s : State) (fmt : Nat) : State :=
  let old := s.fw.flash.format
  if fmt = old then s
  else
    let drop : List (Nat × DVal) := if old / 256 < fmt / 256 then s.dict.stored.filter fun x => restorable x.1 else []
    let gone (k : Nat) : Bool := drop.any (·.1 == k)
    let nss := if old / 256 < fmt / 256 then s.kv.nss.map Ns.restored else s.kv.nss
    let s := { s with dict := { s.dict with stored := s.dict.stored.filter fun x => !gone x.1, vals := s.dict.vals.filter fun x => !gone x.1 },
                      kv := { s.kv with nss := nss }, fw := { s.fw with flash := { s.fw.flash with format := fmt } } }
    s.event 0x0A08 [(2, old), (2, fmt), (4, drop.length)]

/-- Generated slots below the highest generated one are revoked (R293). -/
def revokeLower : List SeedSlot → List SeedSlot
  | [] => []
  | x :: l =>
    let later := l.any fun y => match y with | .generated _ => true | _ => false
    (match x with | .generated _ => if later then .revoked else x | _ => x) :: revokeLower l

/-- The first unprogrammed seed slot. -/
def freeSeed (l : List SeedSlot) : Option Nat := (List.range l.length).find? fun i => l[i]? == some .unprogrammed

/-- Used superblocks other than the anchor area wait for erase; the maps are empty, and both anchor superblocks are erased
around the new anchor record (R313 steps 3 and 6). -/
def State.emptyMaps (s : State) : State :=
  let sbs := s.media.sbs.map fun (x : Superblock) =>
    if x.st = .unusable ∨ x.st = .free then x else { x with st := .pendingErase, rowDone := [], rows := 0, forced := 0 }
  let im : Image := { cells := [], frags := [], bad := s.media.badBlocks, dies := s.media.retiredDies, sets := s.media.deadSets,
                      tables := sbs.map fun (x : Superblock) =>
                        { ds := x.ds, sb := x.sb, st := x.st, erases := x.erases, reads := x.reads, age := x.age, scanAge := x.scanAge } }
  let c : Cycle := { no := (s.media.cycles.head?.map (·.no)).getD 0 + 1, start := s.media.jseq + 1, image := im }
  { s with media := { s.media with sbs := sbs, streams := [], recs := [], cycles := [c], running := none, badAddrs := [],
                                   anchorSeq := s.media.anchorSeq + 1, anchorSb := 1 - s.media.anchorSb, anchorFill := 1,
                                   anchorErases := s.media.anchorErases + 2 },
           welt := { s.welt with frags := [], gone := [], released := [], boots := [], owed := [] },
           idx := { n := s.idx.n },
           kv := { s.kv with nss := [] },
           evs := { s.evs with anchored := s.evs.anchored ++ s.media.recs.filterMap fun r => match r.body with
             | .events l => if r.units.isEmpty then some l else none
             | _ => none },
           sec := { s.sec with secrets := [], copies := [] } }

/-- The codes of a wipe in `Fw.wipe`: a life-cycle bit, or this for a tamper wipe (R312). -/
abbrev tamperWipe : Nat := 9

/-- The seed slots after a wipe: all revoked at retirement; else the next one generated, and those before it revoked unless the
part is being provisioned (R293, R312). -/
def wipeSeeds (l : List SeedSlot) (code : Nat) (retire : Bool) (fresh : Bytes) : List SeedSlot :=
  if retire then l.map fun _ => .revoked
  else
    let m := (List.range l.length).map fun i => if some i = freeSeed l then .generated fresh else l.getD i .unprogrammed
    if code = 0 then m else revokeLower m

/-- A wipe (R312, R313): the next seed, the empty maps, the thermometer bit, the old seed revoked, events. Its measured
duration is a free value (log 3). -/
def State.doWipe (s : State) (code : Nat) : State :=
  let (rnd, s) := s.loadTable.random 32
  let from_ := s.life
  let old := activeSeedSlot s.fw.otp.seeds
  let next := freeSeed s.fw.otp.seeds
  let retire := code == 3 || next.isNone
  let bit : Option Nat := if retire then some 3 else if code = tamperWipe then (if from_ = 2 then some 2 else none) else some code
  let s := { s with fw := { s.fw with otp := { s.fw.otp with seeds := wipeSeeds s.fw.otp.seeds code retire rnd,
                                                             life := s.fw.otp.life ||| (match bit with | some b => 2 ^ b | none => 0) },
                                      wipe := none } }
  let s := if code = 0 ∧ retire = false then s else s.emptyMaps
  let s := if retire || code == 2 || code == tamperWipe then
      { s with sec := { s.sec with psks := [] }, awl := { s.awl with policy := [] },
               welt := { s.welt with cur := none, pendingMap := none, retained := [], handoffs := [], doneFrom := [] } }
    else s
  let s := if code = 0 ∨ retire = true then s else s.tableCopy
  let s := if retire then { s with dict := { s.dict with stored := [], vals := s.dict.vals.filter fun x => aonKept x.1 }, evs := { s.evs with log := [], anchored := [], limits := [] } } else s
  let (d, s) := s.drawFree
  let s := s.event 0x0904 [(4, Config.eventCode 0x0904 code), (1, old), (1, if retire then 0xFF else next.getD 0xFF), (4, d % 2 ^ 32)]
  if s.life = from_ then s else s.event 0x0A0A [(1, from_), (1, s.life)]

/-- A source that starts and becomes stable within the boot (R385, R387). -/
def State.startSource (s : State) (x : Source) : State :=
  if (s.src x).st = .healthy then s else (s.srcTo x .starting 0).srcTo x .healthy 0

/-- A PLL locks at MUSTER, or fails to: event 0x0C05 (R391). -/
def State.lockPll (s : State) (p : Pll) : State :=
  let v := s.pll p
  if s.media.board.locks.getD p.idx true then
    s.setPll p { locked := true, ref := (s.pllOrder p).find? s.healthy }
  else
    (s.setPll p { failed := true, fails := v.fails + 1, ref := (s.pllOrder p).find? s.healthy }).event 0x0C05 [(4, p.idx), (4, v.fails + 1)]

/-- Why a LUN is left unused (R233, R234): 1 it does not answer, 2 no parameter-page copy has a valid CRC, 3 its ID bytes, 4 its
geometry differs from the profile; 0 it passes. Without a profile there is nothing to compare (log 31). -/
def Lun.fault (p : Bytes) (l : Lun) : Nat :=
  match l.id, l.copies.find? (·.crcOk) with
  | none, _ => 1
  | some _, none => 2
  | some b, some c =>
    if p = [] then 0
    else if b ≠ sliceBytes p 4 6 then 3
    else if c.data = 16384 ∧ c.spare = profSpare p ∧ c.planes = profPlanes p ∧ profPages p * profBlocks p ≤ c.pages then 0
    else 4

/-- The LUNs of a channel in ascending (volume, LUN): 16 volumes of up to 4 LUNs (R233, Table 8.2). -/
def Board.lunsOn (b : Board) (c : Nat) : List Lun :=
  let l := b.luns.filter (·.chan == c)
  (List.range 64).filterMap fun i => l.find? fun x => x.vol == i / 4 && x.lun == i % 4

/-- A LUN keeps its place among the dies: it was in service at the last shutdown, or is a retired die (R236, log 115). -/
def State.placed (s : State) (c i : Nat) : Bool :=
  let old := s.media.dies.getD c []
  s.media.dieMap.contains (64 * c + i) ||
    (List.range s.media.u).any fun u => old[u]? == some (i / 4, i % 4) && s.media.retiredDies.contains (slotAt c u)

/-- The dies of a channel: the LUNs that pass, and those that keep their place (R233, R236). -/
def State.diesOn (s : State) (c : Nat) : List (Nat × Nat) :=
  let l := s.media.board.lunsOn c
  if s.media.profile = [] then []
  else (List.range 64).filterMap fun i =>
    if s.placed c i || l.any fun x => 4 * x.vol + x.lun == i && x.fault s.media.profile == 0 then some (i / 4, i % 4) else none

/-- Numbered dies that are missing or failing now and not retired yet, as die set and slot (R236). -/
def State.lostDies (s : State) (c : Nat) : List (Nat × Nat) :=
  let l := s.media.board.lunsOn c
  let ds := s.media.dies.getD c []
  (List.range s.media.u).filterMap fun u => match ds[u]? with
    | some x => 
      if s.media.retiredDies.contains (slotAt c u) || l.any fun y => (y.vol, y.lun) == x && y.fault s.media.profile == 0 then none
      else some (slotAt c u)
    | none => none

/-- The least count of dies on a channel, rounded down to a multiple of 4: U (R236). -/
def usableDies (l : List (List (Nat × Nat))) : Nat :=
  match l.map List.length with
  | [] => 0
  | x :: l => (l.foldl min x) / 4 * 4

/-- Discovery (R233 to R237): settings in effect (R260), NAND_ZQ calibrated, the LUNs held to the profile and numbered, and events for
unused LUNs and dies. RESET and Volume Select leave no state but the numbering. -/
def State.discover (s : State) : State :=
  let s := { s with media := { s.media with
    profile := s.str K.mediaProfile, bufMiB := s.num K.writeBufferMiB, flushTokens := s.num K.flushTokens, budgetMs := s.num K.holdupBudgetMs,
    dramConfig := s.num K.dramConfig, fresh := s.num K.freshSubstreams, wpN := false, zqAt := s.now, zqTemp := s.mode.tempC } }
  let chans := List.range 8
  let dies : List (List (Nat × Nat)) := chans.map s.diesOn
  let s := { s with media := { s.media with dies := dies, u := usableDies dies,
                                            present := chans.map fun c => (s.media.board.lunsOn c).length } }
  let s := { s with media := { s.media with missing := chans.flatMap s.lostDies } }
  let s := { s with media := { s.media with discDies := s.diesInService } }
  let s := (chans.flatMap s.media.board.lunsOn).foldl (fun s l =>
    let n := l.fault s.media.profile
    if n = 0 then s else s.event 0x0801 [(4, l.chan), (4, l.vol), (4, l.lun), (4, Config.eventCode 0x0801 n)]) s
  if dies.any (fun l => decide (s.media.u < l.length)) then s.event 0x0802 ((4, s.media.u) :: dies.map fun l => (1, l.length)) else s

/-- n of Table 6.1 for a DRAM configuration (R165, Table 8.7). -/
def indexBits : Nat → Nat
  | 1 => 27 | 2 => 27 | 3 => 28 | 4 => 28 | _ => 29

/-- Site firmware is loaded and verified, and cores 6 and 7 stay in reset (R400, R402). -/
def State.musterSite (s : State) : State :=
  let s := { s with site := { dramMiB := s.num K.siteDramMiB } }
  match s.fw.flash.site with
  | none =>
    let s := s.loadSite true
    { s with fw := { s.fw with siteVersion := 0 } }
  | some b =>
    let st := if imgType b = 2 then s.verifyImage b b.length false else 4
    if st = 1 then
      let s := s.loadSite true
      { s with site := { s.site with st := 2 }, fw := { s.fw with siteVersion := imgVersion b } }
    else
      let s := { s with mem := memClear (memClear s.mem 0x10000000 0x10080000) 0x80000000 0xC0000000, fw := { s.fw with siteVersion := 0 } }
      s.event 0x0A0B [(1, st)]

/-- Clocks, domains, device keys and discovery (R293, R294, R306, R382, R391). -/
def State.musterPower (s : State) : State :=
  let s := { s with fw := { s.fw with otp := { s.fw.otp with seeds := revokeLower s.fw.otp.seeds } } }
  let s := [Pll.cpll, .npll, .mpll, .fpll].foldl State.lockPll s
  let fso : List Dom := if (s.pll .cpll).locked then [] else [.core, .kv, .media, .welt, .sec]
  let s := { s with clk := { s.clk with onFso := fso } }
  let s := s.powerUps upOrder
  let s := { s with sec := { s.sec with seed := activeSeed s.fw.otp.seeds, drawn := s.sec.drawn + 64, dramKey := true, rngFailed := false } }
  let s := (s.deviceDerive .deriving_).discover
  { s with fw := { s.fw with genInEffect := activeGen s.fw.otp.gens } }

/-- A PLL that the domains need has failed to lock at three entries in a row (R391). -/
def State.pllHalts (s : State) : Bool :=
  decide (3 ≤ (s.pll .cpll).fails) || decide (3 ≤ (s.pll .mpll).fails) || decide (3 ≤ (s.pll .fpll).fails)

/-- Layout of DRAM, Awl's partitions, site firmware and ports, after which recovery runs (R165, R186, R259, R327, R400). -/
def State.musterServe (s : State) : State :=
  let s := { s with idx := { s.idx with n := indexBits s.media.dramConfig }, awl := { s.awl with map := s.num K.awlBankMap },
                    eth := { s.eth with capKiB := s.num K.diagCaptureKiB }, net := { s.net with udpPort := s.num K.rwpUdpPort } }
  let s := (((s.loadTable.loadPolicy).musterSite).portStart .a).portStart .b
  { s with shank := { s.shank with rho := s.num K.ldpcRetryFloorPermille }, mode := { s.mode with recovering := true } }

/-- Everything after core firmware has booted, up to the start of recovery; a standing cause of HALT ends it there
(R236, R257, R375, R391). With no profile there is nothing to pass, and U of 0 does not stop the part (DEDUCED, log 31). -/
def State.musterRest (s : State) : State :=
  let s := s.musterPower
  if s.pllHalts then s.enterHalt .pll
  else match s.mode.halt with
  | some c => s.enterHalt c
  | none =>
    if s.media.u = 0 ∧ s.media.profile ≠ [] then s.enterHalt .noDie
    else match s.media.board.badRank with
    | some r => (s.event 0x080C [(1, s.media.dramConfig), (4, r)]).enterHalt .dramConfig
    | none => s.musterServe

/-- The boot ROM and core firmware's start (R431, R432). -/
def State.boot (s : State) : State :=
  let s := s.tapUp
  let s := { s with fw := { s.fw with bootMode := s.media.board.bootMode } }
  if bitAt s.fw.otp.life 4 then
    let s := s.discover
    s.enterHalt .activation
  else
    match s.bootChoice with
    | (s, none) =>
      { s with mode := { s.mode with target := some .dormant, phase := .awaitPower false, pwrReq := false } }
    | (s, some b) =>
      let fw := { s.fw with running := imgVersion b.image, subproc := imgSubproc b.image, slot := b.slot,
                            digest := padTo (Config.sha384 b.image) 48 }
      let s := ({ s with fw := fw, shelf := { s.shelf with coreAnswers := true } } : State).migrate (imgFormat b.image)
      let wipe := if s.sec.tamperHeld && s.num K.tamperPolicy == 1 then some tamperWipe else s.fw.wipe
      let s := match wipe with | some c => s.doWipe c | none => s
      let held := s.sec.tamperHeld
      let s := { s with sec := { s.sec with tamperHeld := false, tampered := s.sec.tampered || held },
                        mode := { s.mode with halt := if held then some .tamper else s.mode.halt } }
      s.gpioApply.musterRest

/-- The recorder at MUSTER: what Heel holds goes first, numbering waits, OperatingSeconds resumes (R418, R419). -/
def State.musterEvents (s : State) : State :=
  let e := s.evs
  let ring := e.heel ++ (e.ring.filter (·.seq.isNone)).take (2048 - e.heel.length)
  let evs : Recorder := { log := e.log, anchored := e.anchored, nextSeq := e.nextSeq, limits := e.limits, ring := ring, secsBase := e.secsSaved + 60, secsAt := s.now,
                          secsSaved := e.secsSaved, lastSave := e.lastSave }
  { s with evs := evs }

/-- Sources and domains as MUSTER finds them: PD_AON and PD_CORE on, the others about to be powered (R380, R385). -/
def State.musterClocks (s : State) : State :=
  let s := (s.startSource .fso).startSource .xtal25
  let s := if (s.src .ethRefclk).st = SrcState.off then s.srcTo .ethRefclk .starting 0 else s
  let s := s.domTo .core .on
  { s with clk := { s.clk with doms := #v[.on, .on, .off, .off, .off, .off, .off, .off, .off] } }

/-- The drive enters MUSTER (R371, R380). The target stands in `mode.target`. -/
def State.musterEntry (s : State) (trig : Nat) : State :=
  let slept := if s.mode.mode = .dormant then s.rtc - s.mode.dormantRtc else 0
  let s := (s.loseMain).abortTransfers
  let tg := s.mode.target.getD .serve
  let s := { s with mode := { s.mode with phase := .idle, held := none, musterAt := s.now, recovering := false, cap := none, coolSince := none,
                                          flushedSincePfail := false, drainUntil := none, target := some tg } }
  let lost := s.evs.lostHeel
  let s := ((s.musterEvents).enterMode .muster trig).condOff 0x4200
  let s := if 0 < lost then s.event 0x0B80 [(4, lost), (4, 2)] else s
  let s := s.musterClocks
  let s := if s.shelf.bootOwed || s.shelf.running then s else s.setSrc .wosc { st := .healthy }
  let s := { s with shelf := { s.shelf with coreAnswers := false, running := !s.shelf.bootOwed } }
  let s := s.reloadDict
  let long := decide (s.num K.retentionWakeHours * 3600 < slept)
  ({ s with media := { s.media with scanFirst := long } } : State).boot

/-- A warm MUSTER begins: with the target of the mode left, or SERVE from MUSTER (Table 13.2). -/
def State.warmMuster (s : State) (trig : Nat) : State :=
  let t := match s.mode.leaving with | .sweep => Mode.sweep | _ => .serve
  ({ s with mode := { s.mode with target := some t } } : State).musterEntry trig

/-- A flush that ends in MUSTER begins (Table 13.2). In LULL-2, HALT and DORMANT there is nothing to flush. -/
def State.resetFlush (s : State) (trig : Nat) : State :=
  match s.mode.mode with
  | .dormant => s
  | .halt => s
  | m =>
    if s.inFlush then s
    else
      let from_ := if m = Mode.muster ∧ s.mode.target = some .sweep then Mode.sweep else m
      let s := { s with mode := { s.mode with leaving := from_, target := some .muster, trig := trig } }
      if m = .lull2 then
        if s.mode.warmRstN then s.warmMuster trig else { s with mode := { s.mode with phase := .resetHeld } }
      else s.startFlush .warm

end Sys2Proof.Machine
end

