-- ==== Sys2Proof/Machine/Fw.lean ====
section
/-! DEFINITION. Staging, live activation, Lace, life-cycle requests and OTP settings (04 R119, R120; 05 R150, R151; 15 R426 to
R443). -/

namespace Sys2Proof.Machine

/-- Replaces the staged image. -/
def State.setStaged (s : State) (x : Staged) : State := { s with fw := { s.fw with staged := x } }

/-- Distinct image bytes received. -/
def Staged.received (x : Staged) : Nat := (x.parts.map (·.2.length)).sum

/-- A byte of the image has been received. -/
def Staged.has (x : Staged) (a : Nat) : Bool := x.parts.any fun p => decide (p.1 ≤ a ∧ a < p.1 + p.2.length)

/-- The staged bytes in order. -/
def Staged.image (x : Staged) : Bytes := x.parts.foldl (fun b p => overlay b p.1 p.2) (zeros x.length)

/-- Takes the bytes of a segment that have not come before (R119). -/
def Staged.take (x : Staged) (off : Nat) (b : Bytes) : Staged :=
  let new := (List.range b.length).filter fun i => !x.has (off + i)
  if new.length = b.length then { x with parts := x.parts ++ [(off, b)] }
  else { x with parts := x.parts ++ new.map fun i => (off + i, sliceBytes b i 1) }

/-- The FW_SEGMENT body (Table 4.28). -/
def Staged.body (x : Staged) : Bytes := beBytes 4 x.received ++ beBytes 1 x.st ++ zeros 3

/-- Bytes of an FW_SEGMENT command. -/
def CmdPkt.segData (p : CmdPkt) : Bytes := (p.params.drop 16).take (p.param 12 2)

/-- The core slot that an image is bound for: the one not named by the active pointer record (R430). -/
def State.freeSlot (s : State) : Nat := match newestPtr s.fw.flash.ptrs with | some p => 1 - p.slot | none => 1

/-- The image of a flash slot: 0 A, 1 B, 2 the site slot. -/
def State.setSlot (s : State) (n : Nat) (b : Option Bytes) : State :=
  let f := s.fw.flash
  let f := match n with | 0 => { f with slotA := b } | 1 => { f with slotB := b } | _ => { f with site := b }
  { s with fw := { s.fw with flash := f } }

/-- The slot of an image. -/
def State.slotFor (s : State) (b : Bytes) : Nat := if imgType b = 1 then s.freeSlot else 2

/-- Lace's messages go (R439). -/
def State.laceDrop (s : State) : State :=
  { s with fw := { s.fw with lace := {} },
           welt := { s.welt with msgs := s.welt.msgs.filter fun m => m.pkt.opcode != 0x50 && m.pkt.opcode != 0x51 } }

/-- The last missing byte has come: the image is verified, and a VERIFIED one is copied; a forward still in progress is
replaced (R119, R429, R430, R439). The copy's duration is a free value. -/
def State.stageComplete (s : State) : State :=
  let x := s.fw.staged
  let b := x.image
  let st := s.verifyImage b x.length true
  let s := s.event 0x0A01 [(4, x.id), (1, st), (4, imgVersion b)]
  let x := { x with st := st, version := imgVersion b }
  if st = 1 then
    let (d, s) := s.drawFree
    let s := (s.laceDrop).setSlot (s.slotFor b) none
    s.setStaged { x with copy := 1, copyEndsAt := s.now + d }
  else s.setStaged x

/-- FW_SEGMENT may not start: an activation is pending, or another VERIFIED image awaits activation (R119). -/
def State.segmentBusy (s : State) (p : CmdPkt) : Bool :=
  let x := s.fw.staged
  (x.st == 0xFF || x.id != p.param 0 4) && (s.shank.actPending || (x.st == 1 && (x.copy == 1 || x.copy == 2)))

/-- A command that waited behind ORDERED finds the firmware busy when its turn comes: NOT_ADMITTED with Limiter FIRMWARE_BUSY (R119,
R120). -/
def State.endBusy (s : State) (c : CmdCtx) (retryUs : Nat) : State := (s.countRefusal 9).finish c stNotAdmitted (refusalBody retryUs 9)

/-- FW_SEGMENT executes (R119). -/
def State.runSegment (s : State) (c : CmdCtx) : State :=
  let p := c.pkt
  if s.segmentBusy p then
    let (d, s) := s.drawFree
    s.endBusy c (clampNat d 1 0xFFFFFFFF)
  else
  let x := s.fw.staged
  let s := if x.st = 0xFF ∨ x.id ≠ p.param 0 4 then (s.setStaged { id := p.param 0 4, length := p.param 4 4, st := 0 }).trimCache else s
  let x := s.fw.staged
  if x.length ≠ p.param 4 4 then s.finish c stField (errorBody 48 0)
  else if x.length < p.param 8 4 + p.param 12 2 then s.finish c stField (errorBody 52 0)
  else
    let s := if x.st = 0 ∧ 0 < p.param 12 2 then
        let y := x.take (p.param 8 4) p.segData
        let s := s.setStaged y
        if y.received = y.length then s.stageComplete else s
      else s
    s.finish c stOk s.fw.staged.body

/-- d_act of R433, in ns. -/
def State.actDuration (s : State) (b : Bytes) : Nat :=
  100000 * (imgRollback b - s.fw.otp.rollback) + 3 * nsMs + imgPrepMs b * nsMs + 2 * nsMs

/-- ActivationHealthGate holds activations back (R438). -/
def State.gateClosed (s : State) : Bool :=
  s.flag K.activationHealthGate && (s.stripesIncomplete != 0 || !s.welt.lost.isEmpty || s.handoffPending)

/-- How FW_ACTIVATE is decided. -/
inductive ActVerdict where
  | go
  | field (off : Nat)
  | busy (retryUs : Nat)
  deriving DecidableEq, Repr

/-- The staged image is the running one. -/
def State.sameImage (s : State) (b : Bytes) : Bool := padTo (Config.sha384 b) 48 == s.fw.digest

/-- The decision of FW_ACTIVATE (R120, R151, R430, R438); `tEnd` is its bound on the drive's timebase, none for PC3. While an
activation is pending the manual gives no RetryAfterUs: a free value. -/
def State.decideActivate (s : State) (p : CmdPkt) (tEnd : Option Nat) : State × ActVerdict :=
  let x := s.fw.staged
  if s.shank.actPending then
    let (d, s) := s.drawFree
    (s, .busy (clampNat d 1 0xFFFFFFFF))
  else if x.st ≠ 1 ∨ x.id ≠ p.param 0 4 ∨ x.copy = 3 then (s, .field 44)
  else if x.copy = 1 then (s, .busy (clampNat (ceilDiv (x.copyEndsAt - s.now) 1000) 1 0xFFFFFFFF))
  else
    let b := x.image
    if imgType b ≠ 1 then (s, .go)
    else if s.gateClosed then (s, .busy 10000000)
    else if s.sameImage b then (s, .go)
    else match tEnd with
      | none => (s, .go)
      | some e =>
        let fin := s.worstPause + s.actDuration b
        if fin ≤ e then (s, .go)
        else (s.event 0x0502 [(8, s.ptp + (s.worstPause - s.now)), (8, s.ptp + (e - s.now))], .busy (clampNat (ceilDiv (fin - e) 1000) 1 0xFFFFFFFF))

/-- The body of FW_ACTIVATE (R120). -/
def activateBody (version us : Nat) : Bytes := beBytes 4 version ++ beBytes 4 us

/-- Site firmware is replaced: cores 6 and 7 reset, channels 12 to 15 disabled with bytes the manual leaves open, the new
sections loaded (R437). -/
def State.swapSite (s : State) (b : Bytes) : State :=
  let s := [12, 13, 14, 15].foldl (fun s n => let x := s.drawFree; x.2.dmaForce n x.1 2) s
  let s := s.loadSite true
  { s with fw := { s.fw with siteVersion := imgVersion b }, site := { s.site with st := 1, wdogAt := s.now, expiries := [] } }

/-- Steps 1 to 3 of R433: thermometer, pointer record, commit point. They pass within this step. -/
def State.beginActivation (s : State) (c : CmdCtx) (b : Bytes) : State :=
  let d := s.actDuration b
  let s := s.event 0x0A02 [(4, s.fw.running), (4, imgVersion b), (4, d / 1000)]
  let old := s.fw.otp.rollback
  let s := if s.fw.otp.rollback < imgRollback b then
      ({ s with fw := { s.fw with otp := { s.fw.otp with rollback := imgRollback b } } } : State).event 0x0A07 [(1, old), (1, imgRollback b)]
    else s
  let a : Activation := { phase := .preparing, sid := c.sid, tag := c.pkt.tag, tp := s.worstPause, startedAt := s.now, preparedFrom := s.now }
  let s := { s with fw := { s.fw with flash := s.fw.flash.addPtr s.freeSlot b, act := a },
                    shank := { s.shank with actPending := true } }
  (s.onCmd c.sid c.pkt.tag fun c => { c with st := .committed }).noteFaults

/-- The successors that a forward may still take, in chain order (R438, R439). -/
def State.laceAfter (s : State) : List Nat :=
  let o := s.str K.laceOrder
  let ids := (List.range (o.length / 2)).map fun i => beAt o (2 * i) 2
  let after := (ids.dropWhile (· != s.selfId)).drop 1
  after.filter fun i => (s.welt.cur.any fun g => (g.member? i).isSome) && !s.fw.lace.skipped.contains i

/-- LaceSuccessor (R438). -/
def State.laceSuccessor (s : State) : Nat := (s.laceAfter).headD 0

/-- An image is to be forwarded (R438): to the successor, if there is one. -/
def State.laceOffer (s : State) (b : Bytes) : State :=
  let s := s.laceDrop
  match s.laceAfter with
  | [] => s
  | m :: _ => { s with fw := { s.fw with lace := { st := .sending, successor := m, offeredAt := s.now, image := b } } }

/-- An activation of this drive has ended OK: LaceMode 2 forwards its image (R438). -/
def State.laceOwn (s : State) (b : Bytes) : State := if s.num K.laceMode = 2 then s.laceOffer b else s

/-- The next successor, with event 0x0A09 for the one left: causes 1 LaceSkipSeconds, 2 image rejected (DESIGN CHOICE,
log 33). -/
def State.laceSkip (s : State) (cause : Nat) : State :=
  let l := s.fw.lace
  let s := s.event 0x0A09 [(2, l.successor), (4, Config.eventCode 0x0A09 cause)]
  let s := s.laceDrop
  let s := { s with fw := { s.fw with lace := { skipped := l.skipped ++ [l.successor] } } }
  match s.laceAfter with
  | [] => s
  | m :: _ => { s with fw := { s.fw with lace := { st := .sending, successor := m, skipped := l.skipped ++ [l.successor], offeredAt := s.now, image := l.image } } }

/-- The chain stops at a successor that halts (R439): cause 3. -/
def State.laceStop (s : State) : State :=
  let l := s.fw.lace
  let s := (s.laceDrop).event 0x0A09 [(2, l.successor), (4, Config.eventCode 0x0A09 3)]
  { s with fw := { s.fw with lace := { l with st := .stopped } } }

/-- TransferId of a forward (R438). -/
def laceId (b : Bytes) : Nat := let i := beAt (padTo (Config.sha384 b) 48) 0 4; if i = 0 then 1 else i

/-- A forward's message is on its way. -/
def State.laceBusy (s : State) : Bool := s.welt.msgs.any fun m => m.pkt.opcode == 0x50 || m.pkt.opcode == 0x51

/-- The next step of a forward: a segment, or FW_ACTIVATE once the image has been accepted in full (R438). Segments go one at
a time (DESIGN CHOICE, log 33). -/
def State.laceNext (s : State) : State :=
  let l := s.fw.lace
  if s.laceBusy ∨ (l.st ≠ .sending ∧ l.st ≠ .waiting) then s
  else if l.sentBytes < l.image.length then
    let b := sliceBytes l.image l.sentBytes 240
    let par := beBytes 4 (laceId l.image) ++ beBytes 4 l.image.length ++ beBytes 4 l.sentBytes ++ beBytes 2 b.length ++ zeros 2 ++ b
    ({ s with fw := { s.fw with lace := { l with st := .sending } } } : State).peerCmd l.successor 0x50 0 0 3 par [] [] id
  else
    ({ s with fw := { s.fw with lace := { l with st := .waiting, activateSent := true } } } : State).peerCmd l.successor 0x51 0 0 3
      (beBytes 4 (laceId l.image) ++ zeros 4) [] [] id

/-- FW_ACTIVATE starts (R120, R433, R437, R438): what its decision found must still hold. -/
def State.runActivate (s : State) (c : CmdCtx) : State :=
  let b := s.fw.staged.image
  let (s, v) := s.decideActivate c.pkt none
  match v with
  | .field off => s.finish c stField (errorBody off 0)
  | .busy us => s.endBusy c us
  | .go =>
  if imgType b ≠ 1 then
    let s := (s.swapSite b).finish c stOk (activateBody (imgVersion b) 0)
    (s.setStaged {}).laceOwn b
  else if s.sameImage b then
    (s.finish c stOk (activateBody (imgVersion b) 0)).laceOwn b
  else s.beginActivation c b

/-- The activation fails after its commit point (R436): the thermometer bit, event and EMCY, HALT. -/
def State.actFail (s : State) (step cause : Nat) : State :=
  let s := { s with fw := { s.fw with otp := { s.fw.otp with life := s.fw.otp.life ||| 16 }, act := {} }, shank := { s.shank with actPending := false } }
  let s := s.eventEmcy 0x0A04 [(4, step), (4, Config.eventCode 0x0A04 cause)] 0x6100 true
  s.goHalt .activation

/-- The new firmware has taken over (R433 step 6): FW_ACTIVATE ends, Lace forwards, and a mode request that waited acts. -/
def State.handoverDone (s : State) : State :=
  let a := s.fw.act
  let b := s.fw.staged.image
  let us := (s.now - a.pauseAt) / 1000
  let fw := { s.fw with running := imgVersion b, slot := 1 - s.fw.slot, digest := padTo (Config.sha384 b) 48, act := { a with phase := .rejoining } }
  let s := ({ s with fw := fw, shank := { s.shank with actPending := false } } : State).setSys K.lastActivationPauseUs (.num us)
  let s := match s.cmd? a.sid a.tag with
    | some c => s.finish c stOk (activateBody (imgVersion b) us)
    | none => s
  let s := (s.setStaged {}).laceOwn b
  let s := s.noteFaults
  match s.mode.held with
  | some m => (({ s with mode := { s.mode with held := none } } : State).requestMode m trNmt).1
  | none => s

/-- The life-cycle bit that a LifeCycleRequest asks for (Table 15.7). -/
def lifeBit (v : Nat) : Option Nat := if 0x4C430001 ≤ v ∧ v ≤ 0x4C430004 then some (v - 0x4C430001) else none

/-- The state that a request starts from, and its condition (Table 15.7). -/
def State.lifeAllowed (s : State) (b : Nat) : Bool :=
  match b with
  | 0 => s.life == 0
  | 1 => s.life == 1 && s.str K.mediaProfile != [] &&
      decide (s.holdupAccepted (s.str K.mediaProfile) (s.num K.writeBufferMiB) (s.num K.flushTokens) ≤ s.num K.holdupBudgetMs)
  | 2 => s.life == 2
  | _ => decide (1 ≤ s.life ∧ s.life ≤ 3)

/-- A write of LifeCycleRequest (R442): its abort code, 0 where accepted. -/
def State.lifeRequest (s : State) (v : Nat) : State × Nat :=
  match lifeBit v with
  | none => (s, 0x06090030)
  | some b =>
    if !s.settled .sweep || !s.lifeAllowed b then (s, 0x08000022)
    else (({ s with fw := { s.fw with wipe := some b } } : State).resetFlush trLife, 0)

/-- A settings generation may be programmed (R443). -/
def State.genOk (s : State) (b : Bytes) : Bool :=
  leAt b 0 1 == 1 && decide (leAt b 1 1 < 4) && allZero (sliceBytes b 2 2) && allZero (sliceBytes b 52 8) &&
    leAt b 60 4 == crc32 (b.take 60) &&
    (match activeGen s.fw.otp.gens with | some g => !(bitAt (leAt g 1 1) 0) || bitAt (leAt b 1 1) 0 | none => true)

/-- A write of OtpSettings (R443): its abort code. `ok` says whether the cells program. -/
def State.otpWrite (s : State) (b : Bytes) (ok : Bool) : State × Nat :=
  if b.length ≠ 64 then (s, 0x06070010)
  else if s.life ≠ 1 ∧ s.life ≠ 2 then (s, 0x08000022)
  else if 4 ≤ s.fw.otp.gens.length then (s, 0x08000020)
  else if !s.genOk b then (s, 0x06090030)
  else
    let n := s.fw.otp.gens.length
    (({ s with fw := { s.fw with otp := { s.fw.otp with gens := s.fw.otp.gens ++ [if ok then some b else none] } } } : State).event 0x0A0B [(1, n)], 0)

end Sys2Proof.Machine
end

