-- ==== Sys2Proof/Machine/Link.lean ====
section
/-! DEFINITION. Loss and return of an Ethernet link, as the rest of the part sees them (11 R333 to R335, 03 R84, 12 R360). -/

namespace Sys2Proof.Machine

/-- The PPS pin. -/
abbrev pinPps : Nat := 1
/-- CLKOUT's hold. -/
abbrev pinClkout : Nat := 2

/-- A port whose domain has power. -/
def State.portUp (s : State) (p : PortId) : Bool := s.domOn (match p with | .a => .netA | .b => .netB)

/-- Every path on a port becomes FAILED (R84). -/
def State.failPort (s : State) (p : PortId) : State :=
  s.net.sessions.foldl (fun s x =>
    (x.paths.filter fun q => q.port == p && q.st == PathSt.active).foldl (fun s q => s.pathFail x.sid q.idx 1) s) s

/-- Servo state changes (R337, R338): event 0x0205, with the slave port, the grandmaster and the offset at entry. The RTC keeps PTP
time when LOCKED ends, and its time is valid again when LOCKED begins (12 R362). -/
def State.ptpTo (s : State) (st : PtpState) : State :=
  let p := s.eth.ptp
  if p.st = st then s
  else
    let s := if p.st = .locked then s.setRtc s.rtc else s
    let s := if st = .locked then { s with clk := { s.clk with rtcInvalid := false } } else s
    let s := s.setPtp { p with st := st, everLocked := p.everLocked || st == .locked }
    let slave := (p.slave.map PortId.code).getD 0xFF
    s.event 0x0205 [(1, st.code), (1, slave), (8, ofLE (padTo p.gm 8)), (4, (p.offset % 2 ^ 32).toNat)]

/-- The drive enters holdover (R338); a port that already receives Announce from the same master takes over. -/
def State.ptpHoldover (s : State) (lost : Option PortId) : State :=
  let p := s.eth.ptp
  if p.st = .listening ∨ p.st = .holdover then s
  else
    let same := p.announces.find? fun a => a.gm == p.gm && some a.port != lost && some a.port != p.slave
    let slave := match same with
      | some a => some a.port
      | none => if lost = p.slave then none else p.slave
    (s.setPtp { p with slave := slave, lastSync := s.now }).ptpTo .holdover

/-- A port's Announces go with its link, and so does the slave port (R338). -/
def State.ptpLinkLost (s : State) (port : PortId) : State :=
  let p := s.eth.ptp
  let s := s.setPtp { p with announces := p.announces.filter fun a => a.port != port }
  if p.slave = some port then s.ptpHoldover (some port) else s

/-- The source that ClkoutSource names is valid (R340): 1, 2 a recovered clock, 3 CPLL's reference, 4 NPLL's. -/
def State.clkoutValid (s : State) : Bool :=
  let ref (p : Pll) : Bool := match (s.pll p).ref with | some x => s.healthy x | none => false
  match s.num K.clkoutSource with
  | 0 => true
  | 1 => s.healthy .recA
  | 2 => s.healthy .recB
  | 3 => ref .cpll
  | _ => ref .npll

/-- CLKOUT holds its last frequency while its source is invalid: event 0x0206, direction 0 lost, 1 restored (R340). -/
def State.clkoutCheck (s : State) : State :=
  let p := s.eth.ptp
  if s.clkoutValid != p.clkoutHeld || !(s.domOn .core) then s
  else
    let s := ((s.setPtp { p with clkoutHeld := !p.clkoutHeld }).emit (.pin pinClkout (!p.clkoutHeld)))
    s.event 0x0206 [(1, s.num K.clkoutSource), (4, Config.eventCode 0x0206 (bit p.clkoutHeld))]

/-- A link goes down (R333): event, count, paths FAILED, the recovered clock gone; training starts again unless the port is
disabled or unpowered. Before the hold has ended the link was not reported up, and only training restarts (R335). -/
def State.linkDown (s : State) (p : PortId) (cause : Nat) : State :=
  let x := s.port p
  let was := x.link
  if was = LinkState.down ∨ was = LinkState.disabled then s
  else
    let s := (s.portStart p)
    let s := if (s.src (recOf p)).st = SrcState.off then s else s.srcTo (recOf p) .off 0
    let s := (s.ptpLinkLost p).clkoutCheck
    if was = LinkState.up then
      let d := packDetail [(4, p.code), (4, Config.eventCode 0x0201 5), (4, Config.eventCode 0x0201 cause)]
      let (s, seq) := (s.bumpSys (K.cLinkDownCount p.code)).eventSeq 0x0201 d
      ((s.failPort p).linkCond 0x0201 seq (ofLE (padTo d 4))).noteFaults
    else s

end Sys2Proof.Machine
end

