-- ==== Sys2Proof/Machine/Sec.lean ====
section
/-! DEFINITION. Alarms, tamper, key derivation and secret erasure (10 R303 to R312). -/

namespace Sys2Proof.Machine

/-- Every slot is erased and the device keys are derived again (R309, R310); answers how many slots held something. -/
def State.alarmErase (s : State) : State × Nat :=
  let n := s.sec.slots.length
  (({ s with sec := { s.sec with slots := [] } } : State).deviceDerive .deriving_, n)

/-- A command whose slot was erased before its commit point ends KEY_LOST (R309), where its opcode has that ending (04 R123). -/
def State.keyLost (s : State) (l : List (Nat × Nat)) : State × Nat :=
  l.foldl (fun a x =>
    match a.1.cmd? x.1 x.2 with
    | some c =>
      if c.st == .committed || c.st == .releasing || !(keyOp c.pkt.opcode) || c.pkt.opcode == 0x03 then a
      else ((a.1.bump K.keyLostCommands).abort c stKeyLost 0x0901 true, a.2 + 1)
    | none => a) (s, 0)

/-- Class 2 and 3: every key is zeroised, and without the DRAM key what DRAM held is lost, the protected write buffer with it (R306, R310). -/
def State.zeroise (s : State) : State := (s.zeroiseAll).loseDom .dram

/-- Class 2: slots erased, the flush run with media_key derived again, then everything zeroised; MUSTER, or HALT at the
third within an hour (R310). -/
def State.class2 (s : State) (src flushUs : Nat) : State :=
  if s.mode.mode = .dormant then s
  else
    let s := (s.alarmErase).1
    let quiet := s.mode.mode == .halt || s.mode.mode == .lull2
    let s := if quiet then s else let w := s.writeOut; w.1.flushReport w.2 flushUs
    let s := (s.zeroise).bump K.class2Alarms
    let times := s.now :: s.sec.class2Times.filter fun t => decide (s.now < t + 3600 * nsSec)
    let s := { s with sec := { s.sec with class2Times := times, rngFailed := s.sec.rngFailed || src == 2 } }
    let s := s.eventEmcy 0x0902 [(4, Config.eventCode 0x0902 src), (4, flushUs)] 0x3200 false
    if s.mode.mode = .halt then s
    else if 3 ≤ times.length then s.goHalt .class2
    else ({ s with mode := { s.mode with leaving := s.mode.mode } } : State).warmMuster trClass2

/-- Sources of a class-1 alarm that are glitches: VDD_CORE and CCLK (DESIGN CHOICE, log 32: 1 KDF check, 2 AES check,
3 VDD_CORE glitch, 4 CCLK glitch, 5 forced switch of PD_SEC). -/
def isGlitch (src : Nat) : Bool := src == 3 || src == 4

/-- Class 1, and the class-2 alarm that repeated ones raise (R310). -/
def State.class1 (s : State) (src : Nat) (users : List (Nat × Nat)) : State :=
  let (s, n) := s.alarmErase
  let (s, ended) := s.keyLost users
  let s := (s.bump K.class1Alarms).eventEmcy 0x0901 [(4, Config.eventCode 0x0901 src), (4, n), (4, ended)] 0x3200 false
  let near := match s.sec.lastClass1 with | some t => decide (s.now < t + 10 * nsMs) | none => false
  let gl := (if isGlitch src then [s.now] else []) ++ s.sec.glitchTimes.filter fun t => decide (s.now < t + nsSec)
  let s := { s with sec := { s.sec with lastClass1 := some s.now, glitchTimes := gl } }
  let many := isGlitch src && decide (s.num K.glitchAlarmCount ≤ gl.length)
  if near || many then
    let (us, s) := s.drawFree
    s.class2 (if many then 1 else 4) (us % 2 ^ 32)
  else s

/-- CLASS1_ALARM (R310). -/
def execClass1Alarm (t src : Nat) (users : List (Nat × Nat)) (s : State) : Host.Outcome State Fault Refusal :=
  let s := s.advance t
  done (if s.domOn .sec then s.class1 src users else s)

/-- CLASS2_ALARM (R310). -/
def execClass2Alarm (t src flushUs : Nat) (s : State) : Host.Outcome State Fault Refusal :=
  let s := s.advance t
  done (if s.domOn .sec then s.class2 src flushUs else s)

/-- A tamper input is armed and at its active level. -/
def State.tamperActive (s : State) (input : Nat) (level : Bool) : Bool :=
  let arm := s.num K.tamperArm
  decide (input < 2) && bitAt arm input && level == bitAt arm (2 + input)

/-- Class 3 (R310): in DORMANT it is held for the next wake; else every key goes, with a wipe under policy 1, and the drive
halts. -/
def State.tamper (s : State) (input : Nat) (level : Bool) : State :=
  let pol := s.num K.tamperPolicy
  let d := [(1, input), (1, bit level), (1, s.mode.mode.code), (1, pol)]
  let s := s.bumpSys K.tamperAlarms
  if s.mode.mode = .dormant then
    ({ s with sec := { s.sec with tamperHeld := true } } : State).eventEmcy 0x0903 d 0x9000 true
  else
    let s := ({ s.zeroise with sec := { s.zeroise.sec with tampered := true } } : State).eventEmcy 0x0903 d 0x9000 true
    let s := if pol = 1 then s.doWipe tamperWipe else s
    if s.mode.mode = .halt then
      ({ s with mode := { s.mode with halt := some .tamper } } : State).setNum K.haltCause HaltCause.tamper.code
    else
      let s := { s with mode := { s.mode with halt := some .tamper, leaving := s.mode.mode } }
      (s.dropSessions).enterHalt .tamper

/-- TAMPER: an input at a level for a number of XTAL32K cycles; taken from 4 on (R310). -/
def execTamper (t input : Nat) (level : Bool) (cycles : Nat) (s : State) : Host.Outcome State Fault Refusal :=
  let s := s.advance t
  done (if s.tamperActive input level && decide (4 ≤ cycles) then s.tamper input level else s)

/-- KEY_DERIVATION_COMPLETE: DERIVING to READY (R308). -/
def execKeyDerivationComplete (t slot : Nat) (s : State) : Host.Outcome State Fault Refusal :=
  let s := s.advance t
  done (match s.sec.slots.find? (·.slot == slot) with
    | some x =>
      if x.st = .deriving_ then
        let l := s.sec.slots.map fun (y : KeySlot) => if y.slot = slot then { y with st := .ready } else y
        ({ s with sec := { s.sec with slots := l } } : State).bump K.keyDerivations
      else s
    | none => s)

/-- The fields of event 0x0905; the duration in microseconds (DESIGN CHOICE, log 32). -/
def ErasedSecret.fields (e : ErasedSecret) (now : Nat) : List (Nat × Nat) :=
  (1, e.kind) :: (if e.kind = 1 then [(1, e.idLen)] else [(2, e.ns), (4, e.gen)]) ++ [(4, (now - e.since) / 1000)]

/-- SECRET_ERASE_COMPLETE: the anchor switch has erased the older copies; removals that came meanwhile take one further
copy and switch (R304). -/
def execSecretEraseComplete (t : Nat) (s : State) : Host.Outcome State Fault Refusal :=
  let s := s.advance t
  done (if s.sec.erasing.isEmpty then s
    else
      let s := s.sec.erasing.foldl (fun s e => s.event 0x0905 (e.fields s.now)) s
      let next := s.sec.eraseNext
      let left := s.sec.copies.drop (s.sec.copies.length - 1)
      let s := { s with sec := { s.sec with erasing := next, eraseNext := [], copies := left } }
      if next.isEmpty then s else s.tableCopy)

end Sys2Proof.Machine
end

