-- ==== Sys2Proof/Machine/ModeCmds.lean ====
section
/-! DEFINITION. Commands of 13_modes_power_clocks.md other than gates, the counter and recovery: the power handshake, resets,
LULL, draining and flushes, thermal control, domains and clocks. -/

namespace Sys2Proof.Machine

/-- The glitch filter of the control pins (R377, 16 R461): 1 us or longer is always taken, shorter than 0.3 us never;
between them the manual leaves it open, and a free value decides. -/
def State.pinTaken (s : State) (durNs : Nat) : State × Bool :=
  if 1000 ≤ durNs then (s, true)
  else if durNs < 300 then (s, false)
  else let (n, s) := s.drawFree; (s, n % 2 == 1)

/-- PWR_GOOD_CORE_RISE: sampled high with PWR_GOOD_IO high, MUSTER begins; without a request the target is SERVE (R371,
R376). `b` is what the sled answers during this MUSTER. -/
def execPwrGoodCoreRise (t : Nat) (b : Board) (s : State) : Host.Outcome State Fault Refusal :=
  let s := s.advance t
  done (if s.mode.mode = .dormant ∧ s.mode.vstby = true ∧ s.mode.porN = true then
      let asked := s.mode.pwrReq
      let s := { s with mode := { s.mode with pwrGoodCore := true, pwrGoodIo := true, leaving := .dormant }, media := { s.media with board := b } }
      let s := if asked then s
        else
          let s := s.event 0x0105 [(1, 1), (1, bit s.mode.pfailN)]
          { s with mode := { s.mode with target := some .serve } }
      s.musterEntry trPower
    else { s with mode := { s.mode with pwrGoodCore := true, pwrGoodIo := true } })

/-- A flush in progress is cut short: what it had written stays, and the next recovery finds codewords with FLUSH and no FLUSH_END (R252,
R377; 09 R286 step 10). One that began in this cycle has written nothing (16 R459). -/
def State.cutFlush (s : State) : State :=
  if s.inFlush && decide (s.mode.flushAt < s.now) then
    let x := s.drawFree
    let (s, _, n) := x.2.writeBuffer (some x.1)
    { s with mode := { s.mode with flushCut := s.mode.flushCut || decide (0 < n) } }
  else s

/-- PWR_GOOD_CORE_FALL: DORMANT at once; uncontrolled while PWR_REQ is high and no flush has run since PFAIL_N fell, and a
flush in progress is cut short (R377, R378). -/
def execPwrGoodCoreFall (t : Nat) (s : State) : Host.Outcome State Fault Refusal :=
  let s := s.advance t
  done (if s.mode.mode.powered then
      let lost := s.mode.pwrReq && !s.mode.flushedSincePfail
      let old := s.mode.mode
      let s := s.cutFlush
      let asks := s.mode.held.isSome
      let s := if asks then s else { s with mode := { s.mode with pwrReq := false } }
      let s := { s with mode := { s.mode with pwrGoodCore := false, pwrGoodIo := false } }
      let s := s.enterDormant
      if lost then s.event 0x0104 [(1, old.code)] else s
    else { s with mode := { s.mode with pwrGoodCore := false, pwrGoodIo := false } })

/-- PWR_GOOD_TIMEOUT: PwrGoodTimeoutMs after PWR_REQ without PWR_GOOD_CORE (R376). -/
def execPwrGoodTimeout (t : Nat) (s : State) : Host.Outcome State Fault Refusal :=
  let s := s.advance t
  let ms := s.num K.pwrGoodTimeoutMs
  done (if s.mode.mode = .dormant ∧ s.mode.pwrReq = true ∧ s.mode.pwrGoodCore = false ∧ s.mode.pwrReqAt + ms * nsMs ≤ s.now then
      let s := { s with mode := { s.mode with pwrReq := false, target := none, alarmWake := false } }
      s.event 0x0103 [(2, ms), (1, bit s.mode.pwrGoodIo)]
    else s)

/-- PFAIL_N_LOW (R377): the flush starts in MUSTER, SERVE, LULL-1 and SWEEP; one already running serves both (16 R459). -/
def execPfailNLow (t durNs : Nat) (s : State) : Host.Outcome State Fault Refusal :=
  let (s, taken) := (s.advance t).pinTaken durNs
  done (if !taken then s
    else
      let s := { s with mode := { s.mode with pfailN := false, flushedSincePfail := false } }
      let flushes := s.mode.mode == .muster || s.mode.mode == .serve || s.mode.mode == .lull1 || s.mode.mode == .sweep
      let busy := match s.mode.phase with | .idle => false | .draining => false | _ => true
      if !flushes || busy then s
      else
        let from_ := if s.mode.mode = Mode.muster ∧ s.mode.target = some .sweep then Mode.sweep else s.mode.mode
        ({ s with mode := { s.mode with leaving := from_ } } : State).startFlush .pfail)

/-- POST_FLUSH_REASSERT: PFAIL_N has been high for 10 ms after a flush and PWR_GOOD_CORE is still high (R377); a
warm reset that is still held keeps it waiting (R378). -/
def execPostFlushReassert (t : Nat) (s : State) : Host.Outcome State Fault Refusal :=
  let s := s.advance t
  done (if s.mode.phase = .awaitPower true ∧ s.mode.pwrGoodCore = true then
      let s := { s with mode := { s.mode with pfailN := true, pwrReq := true, pwrReqAt := s.now } }
      if s.mode.warmRstN then s.warmMuster trReturn
      else { s with mode := { s.mode with phase := .resetHeld, target := some .muster, trig := trWarm } }
    else s)

/-- WARM_RST_N_LOW (R378): flush, then the warm reset. -/
def execWarmRstNLow (t durNs : Nat) (s : State) : Host.Outcome State Fault Refusal :=
  let (s, taken) := (s.advance t).pinTaken durNs
  done (if taken then ({ s with mode := { s.mode with warmRstN := false } } : State).resetFlush trWarm else s)

/-- WARM_RST_N_RISE: releases a warm reset whose flush has ended (R378). -/
def execWarmRstNRise (t : Nat) (s : State) : Host.Outcome State Fault Refusal :=
  let s := s.advance t
  let s := { s with mode := { s.mode with warmRstN := true } }
  done (if s.mode.phase = .resetHeld then
      let held := s.mode.held
      let s := s.warmMuster s.mode.trig
      if held = some .dormant then (s.requestMode .dormant trNmt).1 else s
    else s)

/-- PD_AON and every other domain reset: Heel's retention SRAM, shelf bus, RTC and standing causes that this releases go
(R378, 12 R349, 15 R444): a SYS entry written while PD_CORE was off keeps its stored value. With `power` VSTBY itself has gone. -/
def State.aonReset (s : State) (power : Bool) : State :=
  let s := s.cutFlush.loseMain
  let halt := s.mode.halt.filter fun c => !c.releasedByVstby
  let released := match s.mode.halt with | some c => c.releasedByVstby | none => false
  let mode : ModeSt := { halt := halt, vstby := s.mode.vstby && !power, porN := s.mode.porN, warmRstN := s.mode.warmRstN, pfailN := s.mode.pfailN,
                         holdupOk := s.mode.holdupOk, flushCut := s.mode.flushCut, pwrGoodCore := s.mode.pwrGoodCore,
                         pwrGoodIo := s.mode.pwrGoodIo }
  let back := s.dict.heel.foldl (fun m x => mapPut m x.1 (mapGet s.dict.stored x.1)) s.dict.vals
  let vals := back.filter fun x => !(aonKept x.1) || (x.1 == K.haltCause && !released)
  { s with mode := mode, clk := { rtcInvalid := true }, shelf := {}, dict := { s.dict with vals := vals, heel := [] },
           evs := { s.evs with heel := [], lostHeel := 0, buckets := [] }, site := {}, eth := { capKiB := s.eth.capKiB },
           sec := { s.sec with lastClass1 := none, class2Times := [], glitchTimes := [], tamperHeld := s.sec.tamperHeld && !power } }

/-- Heel starts XTAL32K and WOSC, and owes the boot-up message (R378, R386). -/
def State.heelStart (s : State) : State :=
  let s := (s.setSrc .xtal32k { st := .starting }).setSrc .wosc { st := .starting }
  { s with shelf := { s.shelf with bootOwed := true } }

/-- POR_N_LOW (R378): everything resets at once, with no flush. -/
def execPorNLow (t durNs : Nat) (s : State) : Host.Outcome State Fault Refusal :=
  let (s, taken) := (s.advance t).pinTaken durNs
  done (if taken then
      let s := s.aonReset false
      { s with mode := { s.mode with porN := false } }
    else s)

/-- POR_N_RISE (R378). -/
def execPorNRise (t : Nat) (s : State) : Host.Outcome State Fault Refusal :=
  let s := s.advance t
  done (if s.mode.porN then s
    else
      let s := { s with mode := { s.mode with porN := true } }
      if s.mode.vstby then s.heelStart else s)

/-- VSTBY_APPLY: the shelf counters restart and Heel starts (12 R359, R353; 13 R386). -/
def execVstbyApply (t : Nat) (s : State) : Host.Outcome State Fault Refusal :=
  let s := s.advance t
  done (if s.mode.vstby then s
    else
      let s := { s with mode := { s.mode with vstby := true }, dict := { s.dict with vals := s.dict.vals.filter fun x => x.1 / 256 != 0x2003 } }
      if s.mode.porN then s.heelStart else s)

/-- VSTBY_LOSS: Heel and everything it holds go (12 R349, 15 R444). -/
def execVstbyLoss (t : Nat) (s : State) : Host.Outcome State Fault Refusal :=
  let s := s.advance t
  done (if s.mode.vstby then s.aonReset true else s)

/-- The boot-up message under the applied identifier (12 R348, R353, R356, R359): shelf clients' selectors return to their
defaults, and an unassigned drive sends EMCY 0xFF01. -/
def State.bootUp (s : State) : State :=
  let s := { s with shelf := { s.shelf with running := true, bootOwed := false, nodeId := s.num K.nodeId, nominal := s.num K.shelfNominalKbps,
                                            dataRate := s.num K.shelfDataKbps, lastHeartbeat := s.now, lastTraffic := s.now, idAttempts := 0 },
                    dict := { s.dict with sels := s.dict.sels.filter fun x => match x.client with | .shelf _ => false | _ => true } }
  let s := s.canSend (0x700 + s.shelf.nodeId) [0]
  if s.shelf.nodeId = 127 then (s.condOn 0xFF01).emcy 0xFF01 0 0 s.fw.otp.serial else s.condOff 0xFF01

/-- XTAL32K_STABLE: XTAL32K is stable and WOSC has locked; the CAN controller starts (R386). -/
def execXtal32kStable (t : Nat) (s : State) : Host.Outcome State Fault Refusal :=
  let s := s.advance t
  done (if (s.src .xtal32k).st = .starting then
      let s := (s.srcTo .xtal32k .healthy 0).srcTo .wosc .healthy 0
      let s := { s with clk := { s.clk with woscTrimHeld := true } }
      if s.shelf.bootOwed then s.bootUp else { s with shelf := { s.shelf with running := true, lastTraffic := s.now } }
    else s)

/-- A channel holds a hardware-owned descriptor that touches a domain (R372). -/
def State.dmaHolds (s : State) (x : Dom) : Bool :=
  (List.range 16).any fun n =>
    let c := s.ch n
    c.en && ((match c.cur with | some d => d.touches n x | none => false) ||
      (let d := readDesc s.mem c.descAddr; bitAt d.ctrl 0 && d.touches n x))

/-- LULL1_ENTRY: idle for LullEnterMs (R372, R392). -/
def execLull1Entry (t : Nat) (s : State) : Host.Outcome State Fault Refusal :=
  let s := s.advance t
  done (if s.mode.mode = .serve ∧ s.idle = true ∧ s.mode.idleSince + s.num K.lullEnterMs * nsMs ≤ s.now then
      let s := (s.modeNotice .lull1 0)
      let s := (s.bump K.lullEntries).enterMode .lull1 trIdle
      { s with mode := { s.mode with lull1At := s.now }, clk := { s.clk with coreRamp := 1, kvRamp := 1, gatedDoms := [.media, .welt] } }
    else s)

/-- LULL2_ENTRY: still idle for Lull2EnterMs, LULL_HOLD clear and no descriptor touching the domains that go down (R369,
R372). -/
def execLull2Entry (t : Nat) (s : State) : Host.Outcome State Fault Refusal :=
  let s := s.advance t
  let held := s.clk.lullHold || s.dmaHolds .dram || s.dmaHolds .media || s.dmaHolds .welt
  done (if s.mode.mode = .lull1 ∧ s.idle = true ∧ held = false ∧ s.mode.lull1At + s.num K.lull2EnterMs * nsMs ≤ s.now then
      let s := s.modeNotice .lull2 0
      let s := { s with media := { s.media with wpN := false } }
      let s := ((s.powerDowns [.welt, .media]).domTo .dram .retain)
      let m := s.pll .mpll
      let f := s.pll .fpll
      let s := (s.setPll .mpll { m with locked := false }).setPll .fpll { f with locked := false }
      let s := { s with clk := { s.clk with gatedDoms := [] } }
      s.enterMode .lull2 trIdle
    else s)

/-- LULL_EXIT: an exit trigger of R373. -/
def execLullExit (t _trigger : Nat) (s : State) : Host.Outcome State Fault Refusal :=
  let s := s.advance t
  done (if s.mode.mode = .lull1 ∨ s.mode.mode = .lull2 then (s.modeNotice .serve 0).lullExit trExit else s)

/-- SWEEP_AUTO_END: a SWEEP of the wake alarm has nothing left to do (R374). -/
def execSweepAutoEnd (t : Nat) (s : State) : Host.Outcome State Fault Refusal :=
  let s := s.advance t
  let free := (List.range s.dieSets).all fun ds => decide (s.num K.gcStartFree ≤ s.freeCount ds)
  done (if s.settled .sweep && s.mode.alarmWake && !s.mode.nmtSinceWake && free && !(s.media.sbs.any s.scanIsDue) then
      (s.requestMode .dormant trSweepEnd).1
    else s)

/-- SERVE_DRAIN_END: no admitted command is left (R86, R371). -/
def execServeDrainEnd (t : Nat) (s : State) : Host.Outcome State Fault Refusal :=
  let s := s.advance t
  done (if s.mode.phase = .draining ∧ s.drained = true then s.drainDone else s)

/-- HALT_DRAIN_TIMEOUT: the drain allowed on the way to HALT runs out (R375). -/
def execHaltDrainTimeout (t : Nat) (s : State) : Host.Outcome State Fault Refusal :=
  let s := s.advance t
  done (match s.mode.drainUntil with
    | some u => if s.mode.phase = .draining ∧ s.mode.target = some .halt ∧ u ≤ s.now then s.drainDone else s
    | none => s)

/-- The thermal trip (R379): event 0x0107, the flush from main power, and DORMANT when power falls. -/
def State.thermalTrip (s : State) (temp : Nat) : State :=
  let s := s.event 0x0107 [(2, temp)]
  let s := { s with mode := { s.mode with leaving := s.mode.mode, target := some .dormant, trig := trTrip } }
  if s.mode.mode = .halt ∨ s.mode.mode = .lull2 then { s with mode := { s.mode with phase := .awaitPower false, pwrReq := false } }
  else s.startFlush .trip

/-- A signed entry's stored form. -/
def signed16 (n : Nat) : Int := if n < 2 ^ 15 then n else (n : Int) - 2 ^ 16

/-- THERMAL_SAMPLE (R379). -/
def execThermalSample (t : Nat) (temp : Int) (s : State) : Host.Outcome State Fault Refusal :=
  let s := s.advance t
  let low := decide (temp < signed16 (s.num K.thermalThrottleC) - 5)
  let secs := s.now / nsSec - s.mode.sampleAt / nsSec
  let idle := match s.mode.phase with | .idle => true | .draining => true | _ => false
  done (if s.mode.mode.powered then
      let s := if s.mode.cap.isSome then s.addTo K.thermalCapSeconds secs else s
      let s := { s with mode := { s.mode with tempC := temp, sampleAt := s.now, coolSince := if low then some (s.mode.coolSince.getD s.now) else none } }
      if signed16 (s.num K.thermalTripC) ≤ temp ∧ idle = true then s.thermalTrip (temp % 65536).toNat else s
    else s)

/-- The cap moves: event 0x0106 and EMCY 0x4200 at a change of direction, the new limit under R140 (R379). -/
def State.capTo (s : State) (c : Option Nat) (down : Bool) : State :=
  let old := s.tokenLimit
  let first := s.mode.cap.isNone
  let turn := first || s.mode.capDown != down
  let s := { s with mode := { s.mode with cap := c, capDown := down } }
  let d := [(2, (s.mode.tempC % 65536).toNat), (2, c.getD 0), (4, Config.eventCode 0x0106 (bit down))]
  let s := if first then s.eventEmcy 0x0106 d 0x4200 true else if turn then s.event 0x0106 d else s
  let s := if c.isNone then s.condOff 0x4200 else s
  s.limitChanged old

/-- THERMAL_STEP, every 100 ms (R379). -/
def execThermalStep (t : Nat) (s : State) : Host.Outcome State Fault Refusal :=
  let s := s.advance t
  let step := s.num K.thermalStepTokens
  let hot := decide (signed16 (s.num K.thermalThrottleC) ≤ s.mode.tempC)
  let cool := match s.mode.coolSince with | some u => decide (u + nsSec ≤ s.now) | none => false
  done (if s.mode.mode.powered && decide (s.mode.lastThermalStep + 100 * nsMs ≤ s.now) then
      let s := { s with mode := { s.mode with lastThermalStep := s.now } }
      if hot then s.capTo (some (max 16 (s.mode.cap.getD s.tokenLimit - step))) true
      else match s.mode.cap with
      | some c =>
        if cool then s.capTo (if s.num K.powerTokenLimit ≤ c + step then none else some (c + step)) false else s
      | none => s
    else s)

/-- WAKE_ALARM (R381). -/
def execWakeAlarm (t : Nat) (s : State) : Host.Outcome State Fault Refusal :=
  let s := s.advance t
  let h := s.num K.wakeIntervalHours
  done (if s.mode.mode = .dormant ∧ h ≠ 0 ∧ s.mode.pwrReq = false ∧ s.mode.dormantRtc + (s.mode.alarmsUsed + 1) * h * 3600 ≤ s.rtc then
      let s := s.event 0x0108 [(8, s.rtc), (2, h)]
      let s := { s with mode := { s.mode with alarmsUsed := s.mode.alarmsUsed + 1, alarmWake := true, nmtSinceWake := false } }
      s.askPower .sweep trAlarm
    else s)

/-- DOMAIN_POWER_UP: a domain that waited for its clock comes up; a port's link then starts (R382, R415). -/
def execDomainPowerUp (t : Nat) (d : Dom) (s : State) : Host.Outcome State Fault Refusal :=
  let s := s.advance t
  done (if s.clk.upWaiting.contains d && s.clockOk d && !(s.clk.quiesce.any (·.1 == d)) then
      let s := { s with clk := { s.clk with upWaiting := s.clk.upWaiting.filter (· != d) } }
      let s := (s.domTo d .on).dmaResume
      match d with
      | .netA => s.portStart .a
      | .netB => s.portStart .b
      | _ => s
    else s)

/-- A transition to DORMANT or HALT repeats a refused quiesce (R383). -/
def State.quiesceRepeats (s : State) : Bool := s.mode.phase == .quiescing || s.mode.mode == .halt

/-- DMA_QUIESCE_TIMEOUT: a descriptor not done 1 ms after the request refuses the power-down (R383). -/
def execDmaQuiesceTimeout (t ch : Nat) (d : Dom) (s : State) : Host.Outcome State Fault Refusal :=
  let s := s.advance t
  done (match s.clk.quiesce.find? (·.1 == d) with
    | some q =>
      if s.dom d = .changing ∧ q.2.1 + nsMs ≤ s.now ∧ (s.dmaBusy d).contains ch = true then
        let s := (s.bump K.domainPowerDownsRefused).event 0x0102 [(4, d.idx), (4, ch), (8, (s.ch ch).descAddr)]
        let rest := s.clk.quiesce.filter (·.1 != d)
        let l := if s.quiesceRepeats then rest ++ [(d, s.now, q.2.2 + 1)] else rest
        let s := { s with clk := { s.clk with quiesce := l }, mode := { s.mode with lull1At := s.now } }
        (s.domTo d .on).dmaResume
      else s
    | none => s)

/-- DMA_QUIESCE_RETRY: every 10 ms; after 100 refusals the channel is disabled, having moved `bytes` (R383). -/
def execDmaQuiesceRetry (t ch : Nat) (d : Dom) (bytes : Nat) (s : State) : Host.Outcome State Fault Refusal :=
  let s := s.advance t
  done (match s.clk.quiesce.find? (·.1 == d) with
    | some q =>
      if s.dom d = .on ∧ q.2.1 + 10 * nsMs ≤ s.now then
        let s := if 100 ≤ q.2.2 ∧ (s.dmaBusy d).contains ch = true then s.dmaForce ch bytes 2 else s
        let l := s.clk.quiesce.map fun (x : Dom × Nat × Nat) => if x.1 = d then (d, s.now, x.2.2) else x
        let s := { s with clk := { s.clk with quiesce := l } }
        (s.domTo d .changing).settleQuiesce
      else s
    | none => s)

/-- CLOCK_MONITOR_WINDOW (R387, R388). -/
def execClockMonitorWindow (t : Nat) (x : Source) (count : Nat) (gap : Bool) (s : State) : Host.Outcome State Fault Refusal :=
  let s := s.advance t
  done ((((s.monitor x count gap).npllReturn).clkoutCheck).noteFaults)

/-- The source that feeds a domain's clock before a forced switch: the PLL's reference. -/
def State.domRef (s : State) (d : Dom) : Option Source :=
  match d with
  | .aon => some .wosc
  | .netA | .netB => (s.pll .npll).ref
  | .dram => (s.pll .mpll).ref
  | .media => (s.pll .fpll).ref
  | _ => (s.pll .cpll).ref

/-- WOSC has stopped: Heel restarts it from its held trim up to 3 times, then waits for the next dominant edge (Table 13.8). -/
def State.woscForced (s : State) : State :=
  if s.shelf.woscRestarts < 3 then { s with shelf := { s.shelf with woscRestarts := s.shelf.woscRestarts + 1 } }
  else
    let s := s.setSrc .wosc {}
    { s with shelf := { s.shelf with running := false } }

/-- A forced switch of a domain to FSO: contents lost, event 0x0C03, EMCY 0x5030, and what Table 13.8 states (R390, R391). -/
def State.forcedSwitch (s : State) (d : Dom) (users : List (Nat × Nat)) : State :=
  let s := (s.bump K.forcedSwitches).eventEmcy 0x0C03 [(4, d.idx), (4, refCode (s.domRef d)), (4, Source.fso.idx), (1, 1)] 0x5030 false
  let s := match d with
    | .netA | .netB | .dram | .aon => s
    | _ => { s with clk := { s.clk with onFso := if s.clk.onFso.contains d then s.clk.onFso else s.clk.onFso ++ [d] } }
  match d with
  | .netA =>
    let s := ((s.linkDown .a 1).portOff .a).domTo .netA .changing
    { s with clk := { s.clk with upWaiting := if s.clk.upWaiting.contains .netA then s.clk.upWaiting else s.clk.upWaiting ++ [.netA] } }
  | .netB =>
    let s := ((s.linkDown .b 1).portOff .b).domTo .netB .changing
    { s with clk := { s.clk with upWaiting := if s.clk.upWaiting.contains .netB then s.clk.upWaiting else s.clk.upWaiting ++ [.netB] } }
  | .dram =>
    let from_ := if s.mode.mode = Mode.muster ∧ s.mode.target = some .sweep then Mode.sweep else s.mode.mode
    if s.mode.mode = .halt ∨ s.mode.mode = .dormant then s
    else ({ s with mode := { s.mode with leaving := from_ } } : State).warmMuster trForced
  | .sec => s.class1 5 users
  | .aon => s.woscForced
  | _ => s.resetFlush trForced

/-- CLOCK_SWITCH_TIMEOUT: a clock stop not completed within 64 FSO cycles (R390, R391). While FSO is DEAD no timeout runs
(R387). -/
def execClockSwitchTimeout (t : Nat) (d : Dom) (users : List (Nat × Nat)) (s : State) : Host.Outcome State Fault Refusal :=
  let s := s.advance t
  done (if (s.src .fso).st = .dead ∨ (s.dom d = .off ∧ d ≠ .aon) then s else s.forcedSwitch d users)

/-- PLL_LOSS_OF_LOCK with a HEALTHY reference (R391): CPLL falls back to FSO, flushes and goes to MUSTER; the others relock. -/
def execPllLossOfLock (t : Nat) (p : Pll) (s : State) : Host.Outcome State Fault Refusal :=
  let s := s.advance t
  let v := s.pll p
  done (if !v.locked then s
    else
      let s := s.event 0x0C02 [(4, p.idx), (4, refCode v.ref), (4, refCode v.ref)]
      match p with
      | .cpll =>
        let s := s.setPll p { v with locked := false, failed := true }
        let s := { s with clk := { s.clk with onFso := [.core, .kv, .media, .welt, .sec] } }
        s.resetFlush trCpll
      | _ => s.setPll p { v with locked := false, relockSince := some s.now })

/-- PLL_LOCK: relocked on its reference (R391). -/
def execPllLock (t : Nat) (p : Pll) (s : State) : Host.Outcome State Fault Refusal :=
  let s := s.advance t
  let v := s.pll p
  done (if v.relockSince.isSome then s.setPll p { v with locked := true, relockSince := none } else s)

/-- PLL_RELOCK_TIMEOUT: MPLL or FPLL not relocked within 100 us is treated as stopped (R391). -/
def execPllRelockTimeout (t : Nat) (p : Pll) (s : State) : Host.Outcome State Fault Refusal :=
  let s := s.advance t
  let v := s.pll p
  done (match v.relockSince with
    | some u =>
      if u + 100000 ≤ s.now then
        let s := s.setPll p { v with relockSince := none, failed := true }
        match p with
        | .mpll => s.forcedSwitch .dram []
        | .fpll => s.forcedSwitch .media []
        | _ => s
      else s
    | none => s)

/-- Main power may go after a flush; with `back`, power that stays brings the drive back to MUSTER (R377). -/
def State.awaitPower (s : State) (back : Bool) : State := { s with mode := { s.mode with phase := .awaitPower back, pwrReq := false } }

/-- HOLDUP_FLUSH_END: the flush-end record is programmed, and the transition goes on (R252, R377 to R379, 16 R459). -/
def execHoldupFlushEnd (t : Nat) (s : State) : Host.Outcome State Fault Refusal :=
  let s := s.advance t
  done (match s.mode.phase with
    | .flushing why =>
      let us := (s.now - s.mode.flushAt) / 1000
      let (s, n) := s.writeOut
      let s := s.flushReport n us
      let s := { s with mode := { s.mode with flushedSincePfail := true } }
      match why with
      | .pfail => s.awaitPower true
      | .trip => s.awaitPower false
      | .warm =>
        if !s.mode.pfailN then s.awaitPower true
        else if s.mode.warmRstN then s.warmMuster s.mode.trig
        else { s with mode := { s.mode with phase := .resetHeld } }
      | .toHalt => match s.mode.halt with | some c => s.enterHalt c | none => s
      | .toDormant =>
        let s := { s with mode := { s.mode with phase := .quiescing } }
        (s.powerDowns upOrder.reverse).settleQuiesce
    | _ => s)

/-- HOLDUP_OK_DEASSERT (R43, R253): the buffer's records of writes go to the SLC stream; EMCY 0x3300 stands. -/
def execHoldupOkDeassert (t : Nat) (s : State) : Host.Outcome State Fault Refusal :=
  let s := s.advance t
  done (if s.mode.holdupOk && s.mode.mode.powered then
      let s := ({ s with mode := { s.mode with holdupOk := false } } : State).eventEmcy 0x080A [(1, 0)] 0x3300 true
      let issued (u : UnitId) : Bool := s.media.ops.any fun o => o.kind == OpKind.program u && o.issuedAt.isSome
      let waits (r : MediaRec) : Bool := decide (0x10 ≤ r.stream) && !r.units.isEmpty && !(r.units.any issued)
      let s := (s.media.recs.filter waits).foldl (fun s r => s.reappend r 0) s
      { s with kv := { s.kv with cmds := s.kv.cmds.map fun (c : CmdCtx) => { c with write := c.write.map fun w => { w with mediaFirst := true } } } }
    else { s with mode := { s.mode with holdupOk := false } })

/-- HOLDUP_OK_ASSERT (R253). -/
def execHoldupOkAssert (t : Nat) (s : State) : Host.Outcome State Fault Refusal :=
  let s := s.advance t
  done (if !s.mode.holdupOk && s.mode.mode.powered then
      (({ s with mode := { s.mode with holdupOk := true } } : State).event 0x080A [(1, 1)]).condOff 0x3300
    else { s with mode := { s.mode with holdupOk := true } })

end Sys2Proof.Machine
end

