-- ==== Sys2Proof/Machine/Flags.lean ====
section
/-! DEFINITION. Flag words computed from the state: domains, sources, SummaryFlags, and the interrupts to cores 6 and 7 and
to the owners of DMA channels (13 R395; 12 R367; 14 R403, R405, R406, R423; 06 R191, R193). -/

namespace Sys2Proof.Machine

/-- Two bits for each state, the first lowest. -/
def pairs : List Nat → Nat
  | [] => 0
  | x :: l => x % 4 + 4 * pairs l

/-- CPC_DOMAINS (R395). -/
def State.domainWord (s : State) : Nat := pairs (Dom.all.map fun d => (s.dom d).code)

/-- CPC_CLOCKS (R395). -/
def State.clockWord (s : State) : Nat := pairs (Source.all.map fun x => (s.src x).st.code)

/-- SummaryFlags (Table 12.10). -/
def State.summaryFlags (s : State) : Nat :=
  bit s.mode.holdupOk + 2 * bit (s.eth.ptp.st == .locked) + 4 * bit s.shank.actPending + 8 * bit s.sec.wrapped +
    16 * bit (decide (0 < s.stripesIncomplete)) + 32 * bit (!s.media.short.isEmpty) + 64 * bit (!s.dict.restore.isEmpty)

/-- The mailbox interrupts cores 6 and 7 (Table 14.2). -/
def State.mbxIrq (s : State) : Bool := s.site.mbxIrqEn && s.site.c2sProd != s.site.c2sCons

/-- The timer block interrupts cores 6 and 7 (R405). -/
def State.tmrIrq (s : State) : Bool := (s.site.fired &&& s.site.tmrIrqEn) != 0

/-- A DMA channel interrupts its owning cores (R406). -/
def State.dmaIrq (s : State) (n : Nat) : Bool :=
  let c := s.ch n
  (c.done && c.doneIe) || (c.err && c.errIe)

/-- Awl's site partition interrupts cores 6 and 7 (Table 6.7, R193). -/
def State.awlIrq (s : State) : Bool :=
  let a := s.awl.at_ s.now
  (a.done && bitAt a.irqEn 0) || (a.err && bitAt a.irqEn 1) || (a.shadowLost && bitAt a.irqEn 2)

/-- The event recorder interrupts cores 6 and 7 (Table 14.12). -/
def State.evrIrq (s : State) : Bool :=
  (s.evs.done && bitAt s.evs.irqEn.toNat 0) || (s.evs.new && bitAt s.evs.irqEn.toNat 1)

/-- The clock and power controller interrupts cores 6 and 7 (R395). -/
def State.cpcIrqLine (s : State) : Bool := (s.clk.irqStatus &&& s.clk.irqEn) != 0

/-- Some interrupt of cores 6 and 7 is raised. -/
def State.siteIrq (s : State) : Bool :=
  s.mbxIrq || s.tmrIrq || s.awlIrq || s.evrIrq || s.cpcIrqLine || [12, 13, 14, 15].any s.dmaIrq

end Sys2Proof.Machine
end

