-- ==== Sys2Proof/Machine/DictRead.lean ====
section
/-! DEFINITION. Reading the dictionary: who may read what and where, the entries whose value the part computes, and the
value as bytes (12 R345, R348, R352, R366, R367; the entry tables of every chapter). -/

namespace Sys2Proof.Machine

/-- The selectors of a client; defaults until it writes one (R348). -/
def State.sel (s : State) (c : Client) : Selectors := (s.dict.sels.find? (·.client == c)).getD { client := c }

/-- Replaces a client's selectors. -/
def State.setSel (s : State) (x : Selectors) : State :=
  { s with dict := { s.dict with sels := s.dict.sels.filter (fun (y : Selectors) => y.client != x.client) ++ [x] } }

/-- The namespace that a client's NsSelect names; none while the number is free or retired or the generation is not
current (R367). -/
def State.nsSelected (s : State) (c : Client) : Option Ns :=
  let v := (s.sel c).ns
  (s.ns? (v % 4096)).bind fun x => if x.live && (v / 65536 == 0 || v / 65536 == x.gen) then some x else none

/-- An index of the dormant subset (R352). -/
def dormantIndex (i : Nat) : Bool :=
  decide (i ∈ [0x1000, 0x1001, 0x1010, 0x1011, 0x1012, 0x1017, 0x1018, 0x2000, 0x2002, 0x2003])

/-- A key of the dormant subset; of 0x2901 it has subindices 1 to 3 (R352). -/
def dormantKey (k : Nat) : Bool := dormantIndex (k / 256) || (k / 256 == 0x2901 && decide (1 ≤ k % 256 ∧ k % 256 ≤ 3))

/-- Keys that HALT lets be written (Table 12.2). -/
def haltWritable (k : Nat) : Bool :=
  k == K.tamperClear || decide (k / 256 ∈ [0x1010, 0x1017, 0x2002, 0x2B02])

/-- Table 12.2: a client reaches an entry in the present mode. -/
def State.modeServes (s : State) (c : Client) (k : Nat) (write : Bool) : Bool :=
  match c with
  | .rwp _ => s.serving
  | .site => s.mode.mode.powered
  | .shelf _ =>
    let alone := !s.shelf.coreAnswers
    (!alone || dormantKey k) && !(write && s.mode.mode == .halt && !haltWritable k)

/-- The abort code that refuses a read for access rights, 0 if none (Table 0.3, Table 4.26, R404). -/
def readRights (c : Client) (a : Access) : Nat :=
  match a, c with
  | .wo, _ => 0x06010001
  | .rwr, .rwp _ => 0x06010001
  | .rwr, .site => 0x06010001
  | _, _ => 0

/-- The abort code that refuses a write for access rights, 0 if none (Table 0.3, Table 4.26). -/
def State.writeRights (s : State) (c : Client) (a : Access) : Nat :=
  match a, c with
  | _, .site => 0x06010002
  | .const, _ => 0x06010002
  | .ro, _ => 0x06010002
  | .rwr, .rwp _ => 0x06010002
  | .rwp, _ => if s.life = 1 then 0 else 0x08000022
  | _, _ => 0

/-- Entries of 0x2000, 0x2101 to 0x2104 that the part computes. -/
def State.liveMode (s : State) (k : Nat) : Option Nat :=
  match k with
  | 0x100100 => some s.errorRegister
  | 0x101804 => some s.fw.otp.serial
  | 0x200001 => some s.mode.mode.code
  | 0x200002 => some s.life
  | 0x200003 => some s.summaryFlags
  | 0x200004 => some (s.rtc % 2 ^ 48)
  | 0x210101 => some ((s.mode.target.map Mode.code).getD 0xFF)
  | 0x210201 => some s.domainWord
  | 0x210302 => some (refCode (s.pll .npll).ref + 0x80 * bit (s.pll .npll).holdover)
  | 0x210303 => some s.clockWord
  | 0x210404 => some (s.mode.tempC % 65536).toNat
  | 0x210405 => some (s.mode.cap.getD 0)
  | _ => none

/-- Status entries of a port (0x2201, 0x2202). -/
def Port.live (x : Port) (sub : Nat) : Option Nat :=
  match sub with
  | 0x14 => some x.link.code
  | 0x15 => some x.activeMode
  | 0x16 => some x.activeFec
  | 0x17 => some (bit x.preemptActive)
  | _ => none

/-- Status entries of the ports, PTP and sessions. -/
def State.liveNet (s : State) (k : Nat) : Option Nat :=
  match k / 256 with
  | 0x2201 => s.eth.portA.live (k % 256)
  | 0x2202 => s.eth.portB.live (k % 256)
  | 0x2204 =>
    match k % 256 with
    | 6 => some s.eth.ptp.st.code
    | 7 => some (s.eth.ptp.offset % 2 ^ 32).toNat
    | 9 => some ((s.eth.ptp.slave.map PortId.code).getD 0xFF)
    | _ => none
  | 0x2311 =>
    match k % 256 with
    | 1 => some (s.net.sessions.filter (·.st == .open_)).length
    | 2 => some (s.net.sessions.filter (·.onChip)).length
    | _ => none
  | 0x2320 => if k % 256 = 1 then some s.sec.psks.length else none
  | 0x2402 => if k % 256 = 1 then some (s.kv.nss.filter (·.live)).length else none
  | _ => none

/-- Status entries of Shank, the index, Awl and Welt. -/
def State.liveKv (s : State) (k : Nat) : Option Nat :=
  match k with
  | 0x250306 => some s.shank.effectiveAt
  | 0x250401 => some (bit s.shank.actPending)
  | 0x25100F => some s.shank.rho
  | 0x252003 => some s.ingestBound
  | 0x252007 => some s.restoreBound
  | 0x260204 => some s.awl.policy.length
  | 0x260301 => some s.objCapacity
  | 0x260302 => some s.idxCount
  | 0x260303 => some s.idx.overflow.length
  | 0x260304 => some (16 * s.idx.imageEntries)
  | 0x260305 => some (8192 - s.idx.insts.length)
  | 0x270103 => some s.epoch
  | 0x270104 => some ((s.welt.pendingMap.map (·.epoch)).getD 0)
  | 0x270105 => some s.maps.length
  | 0x270106 => some (bit s.handoffPending)
  | 0x270301 => some s.stripesIncomplete
  | _ => none

/-- Fragment bytes still to read for a queued repair: those of k fragments, or of one copy, less what has been read. -/
def State.repairBytes (s : State) (q : Repair) : Nat :=
  match s.recOfStripe q.stripe with
  | some r => (if r.striped then r.k else 1) * fragLen r.striped r.valueLen r.k - (q.got.map (·.2.2.length)).sum
  | none => 0

/-- The least and greatest of a list, 0 where it is empty. -/
def listMin : List Nat → Nat
  | [] => 0
  | x :: l => l.foldl min x

/-- Status entries of Insole. -/
def State.liveMedia (s : State) (k : Nat) : Option Nat :=
  let p := s.media.profile
  match k with
  | 0x270302 => some ((s.welt.repairs.filter fun q => !q.rebalance).map s.repairBytes).sum
  | 0x280201 => some s.media.present.sum
  | 0x280202 => some s.diesInService
  | 0x280203 => some s.dieSets
  | 0x280204 => some (if s.media.present.isEmpty then 0 else s.channelRate)
  | 0x280205 => some (if p = [] then 0 else parityBytes p)
  | 0x280206 => some (if s.media.present.isEmpty then 0 else s.holdupNow)
  | 0x280207 => some s.media.slcBytes
  | 0x280208 => some (s.diesInService * profPlanes p * profPages p * profBlocks p * 16384)
  | 0x280209 => some s.media.wam
  | 0x280401 => some (listMin ((List.range s.dieSets).map s.freeCount))
  | 0x280402 => some (listMin ((List.range s.dieSets).flatMap fun ds => (List.range (profBlocks p)).map (s.erasesOf ds)))
  | 0x280403 => some ((s.media.sbs.map (·.erases)).foldl max 0)
  | 0x280404 => some ((s.media.cycles.head?.map (·.no)).getD 0)
  | 0x280405 => some s.journalSpan
  | 0x280408 => some (s.media.sbs.filter s.scanIsDue).length
  | _ => none

/-- Status entries of keys, firmware, recorder, site and pins. -/
def State.liveSys (s : State) (k : Nat) : Option Nat :=
  match k with
  | 0x290201 => some (activeSeedSlot s.fw.otp.seeds)
  | 0x290202 => some (revokedBits s.fw.otp.seeds)
  | 0x290203 => some s.fw.otp.noncePrefix
  | 0x290204 => some s.sec.counter
  | 0x290205 => some s.sec.chunk
  | 0x290206 => some s.sec.powerCycle
  | 0x290207 => some (s.sec.slots.filter (·.st == .ready)).length
  | 0x290208 => some (bit !s.sec.erasing.isEmpty)
  | 0x2A0101 => some s.fw.running
  | 0x2A0103 => some s.fw.subproc
  | 0x2A0104 => some s.fw.siteVersion
  | 0x2A0105 => some s.fw.flash.format
  | 0x2A0106 => some s.fw.slot
  | 0x2A0107 => some s.fw.otp.rollback
  | 0x2A0201 => some s.fw.staged.id
  | 0x2A0202 => some s.fw.staged.st
  | 0x2A0203 => some s.fw.staged.version
  | 0x2A0204 => some s.fw.staged.copy
  | 0x2A0205 => some (if s.fw.staged.copy = 1 then ceilDiv (s.fw.staged.copyEndsAt - s.now) nsMs else 0)
  | 0x2A0304 => some s.fw.lace.st.code
  | 0x2A0305 => some s.laceSuccessor
  | 0x2A0401 => some 0
  | 0x2A0403 => some s.fw.otp.gens.length
  | 0x2A0404 => some (bit (bitAt s.fw.otp.life 4))
  | 0x2B0101 => some s.evs.nextSeq
  | 0x2B0102 => some ((s.evs.log.head?.orElse fun _ => s.evs.ring.find? (·.seq.isSome)).bind (·.seq) |>.getD s.evs.nextSeq)
  | 0x2C0104 => some s.site.st
  | 0x2D0401 => some s.fw.bootMode
  | _ => none

/-- A number that the part computes when the entry is read. -/
def State.liveNum (s : State) (k : Nat) : Option Nat :=
  if k < 0x210500 then s.liveMode k
  else if k < 0x250000 then s.liveNet k
  else if k < 0x270302 then s.liveKv k
  else if k < 0x290000 then s.liveMedia k
  else s.liveSys k

/-- Measurements of which the manual gives no value: clock offsets, rail voltages, power, sampled pins (log 3). -/
def measured (k : Nat) : Bool :=
  decide ((0x210304 ≤ k ∧ k ≤ 0x210309) ∨ (0x2D0101 ≤ k ∧ k ≤ 0x2D0109)) || k == K.gpioInput

/-- EventCatalogue: 8 bytes for each code (R421). -/
def State.catalogueBytes (s : State) : Bytes :=
  let emcyEvents : List Nat := [0x0106, 0x0201, 0x0501, 0x0703, 0x0803, 0x0809, 0x080A, 0x0812, 0x0901, 0x0902, 0x0903, 0x0A04, 0x0C01, 0x0C03]
  catalogue.flatMap fun c =>
    let r := s.rate c
    beBytes 2 c ++ beBytes 2 r.1 ++ beBytes 2 r.2 ++ beBytes 1 (bit (emcyEvents.contains c)) ++ [0]

/-- Records that the log holds with their numbers, on media, staged and in the ring, oldest first. -/
def State.heldRecs (s : State) : List EvRec :=
  let l := s.evs.log ++ s.evs.staged
  l ++ s.evs.ring.filter fun r => r.seq.isSome && !l.contains r

/-- EventSnapshot:s (R422). -/
def State.snapBytes (s : State) (i : Nat) : Bytes :=
  let x := s.evs.snaps.getD i {}
  match x.st with
  | .closed => zeros 32
  | .open_ =>
    let recs := s.heldRecs.filter fun r => match r.seq with | some n => decide (x.first ≤ n ∧ n ≤ x.last) | none => false
    [1, 0, 0, 0] ++ beBytes 4 recs.length ++ beBytes 8 x.first ++ beBytes 8 (if x.count = 0 then x.first - 1 else x.last) ++
      beBytes 8 x.expiresAt ++ recs.flatMap EvRec.bytes
  | .expired => [2, 0, 0, 0] ++ beBytes 4 0 ++ beBytes 8 x.first ++ beBytes 8 x.last ++ beBytes 8 x.expiresAt

/-- DiagCaptureRead: headers and frame bytes, each padded to a multiple of 8 (R327, Table 11.5). -/
def CapRec.bytes (r : CapRec) : Bytes :=
  let n := ceilDiv r.data.length 8 * 8
  beBytes 4 r.seq ++ beBytes 1 r.port.code ++ beBytes 1 r.flags ++ beBytes 2 r.orig ++ beBytes 2 r.data.length ++ zeros 6 ++
    beBytes 8 r.ts ++ padTo r.data n

/-- A string or DOMAIN that the part computes. -/
def State.liveStr (s : State) (k : Nat) : Option Bytes :=
  match k with
  | 0x220113 => some (beBytes 6 s.fw.otp.macBase)
  | 0x220213 => some (beBytes 6 (s.fw.otp.macBase + 1))
  | 0x220306 => some (s.eth.capture.flatMap CapRec.bytes)
  | 0x220408 => some (padTo s.eth.ptp.gm 8)
  | 0x270101 => some ((s.welt.cur.map (·.raw)).getD [])
  | 0x2A0102 => some s.fw.digest
  | 0x2A0402 => some ((activeGen s.fw.otp.gens).getD [])
  | 0x2B0104 => some s.catalogueBytes
  | 0x2B0301 => some (s.snapBytes 0)
  | 0x2B0302 => some (s.snapBytes 1)
  | 0x2B0303 => some (s.snapBytes 2)
  | 0x2B0304 => some (s.snapBytes 3)
  | _ => none

/-- Entries of 0x2401 through a client's NsSelect (R367). -/
def State.nsEntry (s : State) (x : Ns) (sub : Nat) : Nat :=
  match sub with
  | 2 => x.gen
  | 3 => x.retention
  | 4 => x.hold
  | 5 => x.quotaBytes
  | 6 => x.quotaObjects
  | 7 => bit x.readOnly
  | 8 => s.chargedBytes x
  | 9 => s.chargedObjects x
  | _ => (s.liveRecs x).length

/-- What a read of an existing, readable entry answers: bytes, or an abort code. -/
inductive DRead where
  | value (b : Bytes)
  | abort (code : Nat)
  deriving DecidableEq, Repr

/-- A number in its type's width, big-endian (R3, R354). -/
def DictRow.numBytes (r : DictRow) (n : Nat) : Bytes := beBytes ((r.typ.size).getD 4) n

/-- The value of an entry for a client. -/
def State.entryBytes (s : State) (c : Client) (r : DictRow) : State × DRead :=
  let k := r.key
  if k = K.nsSelect then (s, .value (r.numBytes (s.sel c).ns))
  else if k = K.awlPolicySelect then (s, .value (r.numBytes (s.sel c).awl))
  else if k = K.shelfReadOffset then (s, .value (r.numBytes (s.sel c).off))
  else if k / 256 = 0x2401 ∧ k % 256 ≠ 0 then
    match s.nsSelected c with
    | some x => (s, .value (r.numBytes (s.nsEntry x (k % 256))))
    | none => (s, .abort 0x08000024)
  else if k = K.awlPolicyReadback then
    match s.policyReadback (s.sel c).awl with
    | some b => (s, .value b)
    | none => (s, .abort 0x06090030)
  else if measured k then
    let (d, s) := s.drawFree
    (s, .value (r.numBytes d))
  else
    match r.typ.size with
    | some _ => (s, .value (r.numBytes ((s.liveNum k).getD (s.num k))))
    | none => (s, .value ((s.liveStr k).getD (s.str k)))

/-- A read of an entry by index and subindex (R345, R352, Table 4.26): existence, rights, mode, value. -/
def State.dictGet (s : State) (c : Client) (index sub : Nat) : State × Option DictRow × DRead :=
  if (dictRowsOf index).isEmpty then (s, none, .abort 0x06020000)
  else match dictRow? (index * 256 + sub) with
    | none => (s, none, .abort 0x06090011)
    | some r =>
      let a := readRights c r.access
      if a ≠ 0 then (s, some r, .abort a)
      else if !s.modeServes c r.key false then (s, some r, .abort 0x08000022)
      else
        let x := s.entryBytes c r
        (x.1, some r, x.2)

end Sys2Proof.Machine
end

