-- ==== Sys2Proof/Machine/Checks.lean ====
section
/-! DEFINITION. The checks of Table 4.3, steps 1 to 14, in their order (02 R19, R22, R31 to R34, 03 R75, R81, R94, 04 R95 to R103,
R106, R113 to R116, R119, R121, 06 R171, 07 R206, R211, R212). -/

namespace Sys2Proof.Machine

/-- How a check turns a command away. -/
inductive Reject where
  | answer (status : Nat) (body : Bytes)
  /-- NOT_ADMITTED with RetryAfterUs and Limiter -/
  | busy (retryUs limiter : Nat)
  | redirect (home : Nat)
  deriving DecidableEq, Repr

/-- A field of the CMD is refused (Table 4.9). -/
def Reject.field (off : Nat) : Reject := .answer stField (errorBody off 0)
/-- A length of the CMD is refused. -/
def Reject.length (off : Nat) : Reject := .answer stLength (errorBody off 0)
/-- ACCESS_DENIED (Table 4.8). -/
def Reject.denied (reason cap : Nat) : Reject := .answer stDenied (denialBody reason cap 0)

/-- A CMD with its fields in their widths, reserved bits ignored (R6, Table 3.10), and its variable fields in their stated
lengths. -/
def CmdPkt.norm (p : CmdPkt) : CmdPkt :=
  { p with opcode := p.opcode % 256, flags := p.flags % 256, tag := p.tag % 65536, cls := p.cls % 4, inc := p.inc % 16, ns := p.ns % 4096,
           gen := p.gen % 2 ^ 24, seq := p.seq % 2 ^ 32, keyLen := p.keyLen % 65536, paramLen := p.paramLen % 65536,
           valueLen := p.valueLen % 2 ^ 64, params := padTo p.params (p.paramLen % 65536), key := padTo p.key (p.keyLen % 65536) }

/-- The opcodes of Table 4.1. -/
def opcodeKnown (op : Nat) : Bool :=
  decide (op ∈ [0x01, 0x02, 0x03, 0x04, 0x10, 0x11, 0x12, 0x13, 0x20, 0x30, 0x31, 0x32, 0x40, 0x41, 0x50, 0x51, 0x60]) || peerOp op

/-- CommitKind of a STRIPE_COMMIT. -/
def CmdPkt.kind (p : CmdPkt) : Nat := p.param 0 1

/-- A STRIPE_COMMIT that carries a key and names its stripe's namespace: kind 0x01, 0x02, 0x03 or 0x05 (R210). A CommitKind that
Table 7.5 does not list has neither rule of its own and is refused at step 8 by its kind. -/
def CmdPkt.stripeKey (p : CmdPkt) : Bool := p.opcode == 0x74 && !decide (p.kind ∈ [4, 0x10, 0x11])

/-- Commands that carry a key (Tables 4.1, 7.5). -/
def CmdPkt.takesKey (p : CmdPkt) : Bool := keyOp p.opcode || p.opcode == 0x70 || p.stripeKey

/-- Commands that carry a value. -/
def CmdPkt.takesValue (p : CmdPkt) : Bool := putOp p.opcode || p.opcode == 0x71

/-- Commands that name a current namespace generation, checked at step 11 (Tables 4.1, 7.5). -/
def CmdPkt.needsNs (p : CmdPkt) : Bool :=
  keyOp p.opcode || decide (p.opcode ∈ [0x04, 0x31, 0x70, 0x71, 0x72]) || p.stripeKey

/-- ParamLength is as Tables 4.1 and 7.5 require (step 5). -/
def CmdPkt.paramsOk (p : CmdPkt) : Bool :=
  let n := p.paramLen
  match p.opcode with
  | 0x02 => n == 8 | 0x10 => n == 8 | 0x13 => n == 8 | 0x51 => n == 8
  | 0x11 => n == 16 | 0x30 => n == 24 | 0x40 => n == 12
  | 0x04 => decide (48 ≤ n) && n == 48 + p.param 6 2
  | 0x41 => decide (8 ≤ n) && n == 8 + p.param 4 2
  | 0x50 => decide (16 ≤ n) && n == 16 + p.param 12 2
  | 0x70 => n == 96 | 0x71 => n == 40 | 0x72 => n == 40 | 0x73 => n == 24 | 0x75 => n == 48
  | 0x74 => n == (if p.kind = 0x10 ∨ p.kind = 0x11 then 80 else 152)
  | _ => n == 0

/-- Steps 1 to 7 of Table 4.3, which depend on the packet alone and on the protocol version. -/
def CmdPkt.shape (p : CmdPkt) (v1 : Bool) : Option Reject :=
  if p.pktLen ≠ 60 + p.paramLen + p.keyLen + (if p.immediate then p.valueLen else 0) then some (.length 0)
  else if 256 < p.paramLen then some (.length 34)
  else if !opcodeKnown p.opcode || (v1 && peerOp p.opcode) then some (.answer stOpcode (errorBody 16 0))
  else if p.immediate && !p.takesValue then some (.field 17)
  else if !p.paramsOk then some (.length 34)
  else if p.takesKey != decide (0 < p.keyLen) then some (.field 32)
  else if 1024 < p.keyLen then some (.length 32)
  else if !p.takesValue && p.valueLen != 0 then some (.field 36)
  else if 2 ^ 30 < p.valueLen then some (.length 36)
  else if p.immediate && decide (8192 < p.valueLen) then some (.length 36)
  else none

/-- The first condition that holds names the FieldOffset. -/
def firstField : List (Bool × Nat) → Option Nat
  | [] => none
  | (c, off) :: l => if c then some off else firstField l

/-- A RetentionClass out of its range (R103). -/
def retentionBad (c : Nat) : Bool := decide (8 ≤ c ∧ c ≤ 0xFE)

/-- k and m that NS_CREATE asks for, defaults applied (Table 4.20). -/
def CmdPkt.nsK (p : CmdPkt) : Nat := if p.param 0 1 = 0 then 8 else p.param 0 1
/-- m of NS_CREATE. -/
def CmdPkt.nsM (p : CmdPkt) : Nat := if p.param 1 1 = 0 then 3 else p.param 1 1

/-- Members of the current epoch. -/
def State.memberCount (s : State) : Nat := (s.welt.cur.map (·.members.length)).getD 0

/-- The conditions of R113, in order. -/
def State.nsCreateField (s : State) (p : CmdPkt) : Option Nat :=
  let hold := p.param 4 4
  firstField [(decide (20 < p.param 0 1), 44), (decide (4 < p.param 1 1), 45), (retentionBad (p.param 2 1), 46),
    (hold != 0 && !decide (3600 ≤ hold ∧ hold ≤ 31536000), 48), (decide (2 ^ 31 < p.param 8 4), 52), (decide (2 ^ 56 < p.param 16 8), 60),
    (decide (24 < p.nsK + p.nsM), 45), (decide (s.memberCount < p.nsK + p.nsM), 45), (p.gen != 0, 24), (s.nsRetired p.ns, 22)]

/-- A fragment that the receiver had and has released (R212). -/
def State.fragReleased (s : State) (i : StripeId) (idx : Nat) : Bool := s.welt.released.any (· == (i, idx))

/-- The step-8 conditions of a FRAG_RESERVE, by offset (R206, R211, R212). -/
def State.reserveField (s : State) (p : CmdPkt) : Option Nat :=
  let h := FragHdr.ofBytes p.params p.key
  let held := s.frag? h.stripe h.index
  firstField [(decide (layoutWidth h.striped h.k h.m ≤ h.index), 45),
    (!s.maps.isEmpty && s.maps.all (fun g => decide (h.epoch < g.epoch)), 56),
    ((match held with | some f => f.raw != p.params.take 96 || f.hdr.key != p.key | none => false) || s.fragReleased h.stripe h.index, 60),
    (decide (h.stripe.boot < s.bootSeen h.stripe.home), 64)]

/-- The length of a segment's slice (R203). -/
def FragHdr.sliceLen (h : FragHdr) (seg : Nat) : Nat :=
  if h.striped then (if seg + 1 < h.segments then chunkC else h.lastChunk) else h.valueLen

/-- The step-8 conditions of a FRAG_PUT (R206, R212). -/
def State.putField (s : State) (p : CmdPkt) : Option Nat :=
  let (i, idx) := p.fragRef
  let seg := p.param 20 4
  let held := s.frag? i idx
  firstField [(p.valueLen == 0 || (match held with | some f => decide (seg < f.hdr.segments) && f.hdr.sliceLen seg != p.valueLen | none => false), 36),
    (decide (i.boot < s.bootSeen i.home), 48),
    (match held with | some f => decide (f.hdr.segments ≤ seg) | none => false, 64)]

/-- Step 8: parameter values out of the ranges of 04 and 07, as a FieldOffset. -/
def State.paramField (s : State) (p : CmdPkt) : Option Nat :=
  if !p.needsNs && p.opcode != 0x30 && p.opcode != 0x32 && p.ns != 0 then some 22
  else if !p.needsNs && p.opcode != 0x30 && p.opcode != 0x32 && p.gen != 0 then some 24
  else match p.opcode with
  | 0x02 => firstField [(decide (2 ^ 30 < p.param 0 4), 44), (decide (2 ^ 30 < p.param 4 4), 48)]
  | 0x04 => firstField [(decide (65536 < p.param 0 4), 44), (decide (208 < p.param 6 2), 50), (!s.cursorOk (sliceBytes p.params 8 40) p.gen, 52)]
  | 0x10 => firstField [(retentionBad (p.param 0 1), 44)]
  | 0x11 => firstField [(retentionBad (p.param 8 1), 52)]
  | 0x30 => s.nsCreateField p
  | 0x40 => firstField [(decide (1048576 < p.param 8 4), 52)]
  | 0x50 => firstField [(p.param 0 4 == 0, 44), (!decide (1 ≤ p.param 4 4 ∧ p.param 4 4 ≤ 12582912), 48),
      (decide (p.param 4 4 < p.param 8 4 + p.param 12 2), 52), (decide (240 < p.param 12 2), 56)]
  | 0x70 => s.reserveField p
  | 0x71 => s.putField p
  | 0x72 => match s.frag? p.fragRef.1 p.fragRef.2 with
      | some f => firstField [(decide (f.hdr.fragLen < p.param 20 4), 64)]
      | none => none
  | 0x73 => firstField [(!decide (1 ≤ p.param 17 1 ∧ p.param 17 1 ≤ 4), 61)]
  | 0x74 => firstField [(!decide (p.kind ∈ [1, 2, 3, 4, 5, 0x10, 0x11]), 44)]
  | 0x75 => firstField [(!decide (1 ≤ p.param 0 1 ∧ p.param 0 1 ≤ 4), 44), (!decide (1 ≤ p.param 4 4 ∧ p.param 4 4 ≤ 65536), 48)]
  | _ => none

/-- A stale HomeBoot has been refused: count and event (R206). -/
def State.noteStale (s : State) (p : CmdPkt) (off : Nat) : State :=
  let i := StripeId.ofBytes (if p.opcode = 0x70 then sliceBytes p.params 16 16 else p.params.take 16)
  if (p.opcode = 0x70 ∧ off = 64) ∨ (p.opcode = 0x71 ∧ off = 48) then
    (s.bump K.weltStaleReservation).event 0x0708 [(2, i.home), (4, s.bootSeen i.home), (4, i.boot)]
  else s

/-- Step 9: on its way to HALT, or leaving SERVE (R98). The manual gives no RetryAfterUs for MODE: a free value. -/
def State.admitting (s : State) : State × Option Reject :=
  if s.serving && s.mode.phase == .idle then (s, none)
  else if s.mode.target = some Mode.halt then (s, some (.answer 0x70 []))
  else
    let (d, s) := s.drawFree
    (s, some (.busy (clampNat d 1 retryMax) 8))

/-- The HomeMemberId of the StripeId that a FRAG_RESERVE names. -/
def CmdPkt.homeNamed (p : CmdPkt) : Nat := p.param 16 2

/-- Step 10: Awl's policy, and a peer's place in the group (R97, R121, R185, R211). -/
def State.access (s : State) (x : Session) (rx : Rx) (p : CmdPkt) (f : AwlFacts) : State × Option Reject :=
  let peer := peerOp p.opcode
  match s.policyCheck x.policy p.opcode p.ns p.cls x.v1 peer rx.port p.key f with
  | (s, .deny reason cap) => (s, some (.denied reason (if reason = 1 ∨ reason = 2 then cap else 0)))
  | (s, .pass) =>
    if !peer then (s, none)
    else match s.memberOf x with
      | none => (s, some (.denied 4 0))
      | some m => (s, if p.opcode = 0x70 ∧ p.homeNamed ≠ m then some (.denied 4 0) else none)

/-- The Absent body (Table 4.22). -/
def State.absentBody (s : State) (n : Nat) : Bytes :=
  match s.ns? n with
  | none => zeros 8
  | some x => beBytes 1 (if x.live then 2 else if x.gen = 0xFFFFFF then 1 else 0) ++ zeros 3 ++ beBytes 4 x.gen

/-- Step 11: the namespace and generation are current (R30, R115, R229). -/
def State.nsStep (s : State) (p : CmdPkt) : Option Reject :=
  if p.opcode = 0x32 then
    match s.ns? p.ns with
    | some x => if x.live && (p.gen == 0 || p.gen == x.gen) then none else some (.answer stAbsent (s.absentBody p.ns))
    | none => some (.answer stAbsent (s.absentBody p.ns))
  else if p.needsNs && (s.nsLive p.ns p.gen).isNone then some (.answer stAbsent [])
  else none

/-- A peer names a generation newer than this drive's: its sender is asked for its namespaces at once (R229). -/
def State.nsAsk (s : State) (x : Session) (p : CmdPkt) : State :=
  if peerOp p.opcode && decide (((s.ns? p.ns).map (·.gen)).getD 0 < p.gen) then
    match s.memberOf x with
    | some m => s.sendQuery m 4 (zeros 16) 0 0 id
    | none => s
  else s

/-- Step 12: this drive is the key's home (R19). -/
def State.homeStep (s : State) (p : CmdPkt) : Option Reject :=
  if !keyOp p.opcode then none
  else match s.homeOf (s.hashes p.ns p.gen p.key).1 with
    | some h => if h = s.selfId then none else some (.redirect h)
    | none => none

/-- Step 13: the namespace is writable (R33). -/
def State.writableStep (s : State) (p : CmdPkt) : Option Reject :=
  if writeOp p.opcode && ((s.nsLive p.ns p.gen).any (·.readOnly) || s.sec.wrapped) then some (.answer 0x42 []) else none

/-- The key's present entry. -/
def State.keyEntry (s : State) (p : CmdPkt) : Option Resolved :=
  match s.instOf p.ns p.gen with
  | some i => s.lookup i (s.hashes p.ns p.gen p.key).1 p.key
  | none => none

/-- Step 14: quotas (R34), then the index's capacity (R171). -/
def State.quotaStep (s : State) (p : CmdPkt) : State × Option Reject :=
  if !putOp p.opcode then (s, none)
  else match s.nsLive p.ns p.gen with
    | none => (s, none)
    | some x =>
      let e := s.keyEntry p
      let live := match e with | some r => !r.rec_.tombstone | none => false
      let bytes := s.chargedBytes x
      let objects := s.chargedObjects x
      if x.quotaBytes ≠ 0 ∧ x.quotaBytes < bytes + p.valueLen then (s, some (.answer 0x43 (quotaBody 1 bytes)))
      else if x.quotaObjects ≠ 0 ∧ live = false ∧ x.quotaObjects < objects + 1 then (s, some (.answer 0x43 (quotaBody 2 objects)))
      else if e.isNone && (s.idx.full || decide (s.objCapacity ≤ s.idxCount)) then
        (s.bump K.indexCapacityRefusals, some (.answer 0x43 (quotaBody 2 objects)))
      else (s, none)

/-- Steps 11 to 14; a key that missed Awl's hot partition is resolved once step 12 has passed (06 R188). -/
def State.checkNs (s : State) (x : Session) (p : CmdPkt) (hot : Option Nat) : State × Option Reject :=
  match s.nsStep p with
  | some r => (s.nsAsk x p, some r)
  | none => match s.homeStep p with
    | some r => (s, some r)
    | none =>
      let s := s.resolveMiss p hot
      match s.writableStep p with
      | some r => (s, some r)
      | none => s.quotaStep p

/-- Steps 9 to 14; SESSION_RESET passes 9 and 10. -/
def State.checkRest (s : State) (x : Session) (rx : Rx) (p : CmdPkt) (f : AwlFacts) (hot : Option Nat) : State × Option Reject :=
  if p.opcode = 0x60 then s.checkNs x p hot
  else match s.admitting with
    | (s, some r) => (s, some r)
    | (s, none) => match s.access x rx p f with
      | (s, some r) => (s, some r)
      | (s, none) => s.checkNs x p hot

/-- Steps 1 to 14 of Table 4.3. -/
def State.checks (s : State) (x : Session) (rx : Rx) (p : CmdPkt) (f : AwlFacts) (hot : Option Nat) : State × Option Reject :=
  match p.shape x.v1 with
  | some r => (s, some r)
  | none => match s.paramField p with
    | some off => (s.noteStale p off, some (.field off))
    | none => s.checkRest x rx p f hot

/-- An address of a group map as REDIRECT carries it: 4 bytes for an IPv4-mapped one (AddrFamily 4), else 16 (Tables 3.4,
3.12). -/
def redirectAddr (b : Bytes) : Bytes := if b.take 12 = zeros 10 ++ [0xFF, 0xFF] then b.drop 12 else b

/-- The REDIRECT of a key whose home is another member (R76): port A while listed, else port B. -/
def State.redirectBody (s : State) (p : CmdPkt) (home : Nat) : PktBody :=
  match s.welt.cur.bind fun g => g.member? home with
  | some m => .redirect p.opcode p.tag p.inc m.udp s.epoch home (redirectAddr (if bitAt m.portMap 0 then m.addrA else m.addrB))
  | none => .redirect p.opcode p.tag p.inc 0 s.epoch home (zeros 16)

/-- A command that is not admitted ends (R98, R99). -/
def State.reject (s : State) (sid path : Nat) (p : CmdPkt) : Reject → State
  | .answer st b => s.answer sid path p st b
  | .busy us lim => s.refuse sid path p us lim
  | .redirect h => (s.endTag sid p.tag).send sid path false (s.redirectBody p h)

end Sys2Proof.Machine
end

