-- ==== Sys2Proof/Machine/Operands.lean ====
section
/-! DEFINITION. The operand forms of dictionary writes: lengths, reserved bits, ranges and the constraints of every entry
(00 R6; 12 R346, R353; the entry tables and owning rules of every chapter). -/

namespace Sys2Proof.Machine

/-- Reserved bits are ignored when written and read as zero (R6). -/
def maskReserved (k n : Nat) : Nat :=
  if k = K.diagControl then n % 8
  else if k = K.tamperArm then n % 16
  else if k = K.anAdvertise 0 ∨ k = K.anAdvertise 1 then n &&& 0x0FFE
  else if k = K.vlanTag 0 ∨ k = K.vlanTag 1 then n &&& 0xEFFF
  else n

/-- The abort code for a string's or DOMAIN's length (R117, R346), 0 where it is allowed. The length of a GroupMap is the first
check of R198, whose refusals record an event. -/
def strLength (k n : Nat) : Nat :=
  let fixed (m : Nat) : Nat := if n = m then 0 else 0x06070010
  if k = K.nodeIdClaim then fixed 8
  else if k = K.eventRateLimit then fixed 6
  else if k = K.awlPolicyEntry then fixed 80
  else if k = K.mediaProfile then fixed 128
  else if k = K.otpSettings then fixed 64
  else if k = K.ipv6Address 0 ∨ k = K.ipv6Address 1 then fixed 17
  else if k = K.ipv4Address 0 ∨ k = K.ipv4Address 1 then fixed 5
  else if k = K.ipv6Gateway 0 ∨ k = K.ipv6Gateway 1 then fixed 16
  else if k = K.ipv4Gateway 0 ∨ k = K.ipv4Gateway 1 then fixed 4
  else if k = K.pskEntryWrite then (if 36 ≤ n ∧ n ≤ 99 then 0 else 0x06070010)
  else if k = K.siteMessage then (if 1 ≤ n ∧ n ≤ 56 then 0 else 0x06070010)
  else if k = K.groupMap then 0
  else if k = K.laceOrder then (if n % 2 = 0 ∧ n ≤ 128 then 0 else 0x06070010)
  else if k = K.smbusPollList then (if n % 2 = 0 ∧ n ≤ 16 then 0 else 0x06070010)
  else if n = 0 then 0x06090030
  else 0

/-- The abort code for a value's length. -/
def DictRow.lengthAbort (r : DictRow) (b : Bytes) : Nat :=
  match r.typ.size with
  | some n => if b.length = n then 0 else 0x06070010
  | none => strLength r.key b.length

/-- A number lies in its row's range. -/
def DictRow.inRange (r : DictRow) (n : Nat) : Bool :=
  (match r.lo with | some a => decide (a ≤ n) | none => true) && (match r.hi with | some a => decide (n ≤ a) | none => true)

/-- A lane map is a permutation of 0 to 3 (R318). -/
def laneMapOk (v : Nat) : Bool :=
  let l := [fieldAt v 0 2, fieldAt v 2 2, fieldAt v 4 2, fieldAt v 6 2]
  [0, 1, 2, 3].all fun i => l.contains i

/-- A FecMode goes with a forced PortMode (Table 11.1). -/
def fecOk (mode fec : Nat) : Bool :=
  mode == 0 || fec == 0 ||
    (match mode with
     | 1 => fec == 1 || fec == 2
     | 2 => decide (fec ≤ 3)
     | 3 => decide (fec ≤ 3)
     | 8 => fec == 3
     | 9 => fec == 3
     | _ => fec == 4)

/-- Constraints of the ports' settings (R317, R318, R324, R330). -/
def State.portValueOk (s : State) (p sub n : Nat) : Bool :=
  match sub with
  | 2 => decide (n ≤ 0x0B) && fecOk n (s.num (K.fecMode p))
  | 4 => fecOk (s.num (K.portMode p)) n
  | 5 => laneMapOk n
  | 6 => laneMapOk n
  | 9 => n % 4096 != 4095
  | 0x0E => decide (n ≤ 2)
  | _ => true

/-- Constraints of the shelf bus, modes, thermal and clock entries (R353, R359, R362, R379, R381). -/
def State.shelfValueOk (s : State) (k n : Nat) : Bool :=
  if k = K.timeCobId then !bitAt n 30
  else if k = K.producerHeartbeatTime then n == 0 || decide (100 ≤ n ∧ n ≤ 60000)
  else if k = K.shelfNominalKbps then decide (n ∈ [125, 250, 500, 1000] ∧ n ≤ s.num K.shelfDataKbps)
  else if k = K.shelfDataKbps then decide (n ∈ [1000, 2000, 4000, 5000] ∧ s.num K.shelfNominalKbps ≤ n)
  else if k = K.wakeIntervalHours then decide (n ≤ 8760)
  else if k = K.npllRefSelect then decide (n ≤ 4)
  else if k = K.thermalThrottleC then decide (n + 2 ≤ s.num K.thermalTripC)
  else if k = K.thermalTripC then decide (s.num K.thermalThrottleC + 2 ≤ n ∧ n ≤ 110)
  else if k = K.ptpTransport then decide (n ≤ 2)
  else if k = K.ptpDelayMechanism then decide (n ≤ 1)
  else if k = K.clkoutSource then decide (n ≤ 4)
  else if k = K.clkoutFreqKhz then decide (n ∈ [10000, 25000, 156250])
  else true

/-- Constraints of the transport's, Shank's and the index's entries (R126, R140, R176, Tables 3.18, 5.6); PortFailoverAllowanceUs
keeps the longest failover time of 11 R334 (log 106). -/
def State.kvValueOk (s : State) (k n : Nat) : Bool :=
  if k = K.pathDeadMs then decide (2 * s.num K.keepaliveIntervalMs < n)
  else if k = K.keepaliveIntervalMs then decide (2 * n < s.num K.pathDeadMs)
  else if k = K.nsSelect then decide (n / 4096 % 16 = 0 ∧ n < 2 ^ 40)
  else if k = K.pc0BaseMs then decide (5 ≤ n ∧ n ≤ 1000 ∧ n ≤ s.num K.pc1BaseMs)
  else if k = K.pc1BaseMs then decide (10 ≤ n ∧ n ≤ 10000 ∧ s.num K.pc0BaseMs ≤ n ∧ n ≤ s.num K.pc2BaseMs)
  else if k = K.pc2BaseMs then decide (100 ≤ n ∧ n ≤ 600000 ∧ s.num K.pc1BaseMs ≤ n)
  else if k = K.pc0RateMBps then decide (1 ≤ n ∧ n ≤ 25600 ∧ s.num K.pc1RateMBps ≤ n)
  else if k = K.pc1RateMBps then decide (1 ≤ n ∧ n ≤ 25600 ∧ n ≤ s.num K.pc0RateMBps ∧ s.num K.pc2RateMBps ≤ n)
  else if k = K.pc2RateMBps then decide (1 ≤ n ∧ n ≤ 25600 ∧ n ≤ s.num K.pc1RateMBps)
  else if k = K.admitCeilingPermille then decide (s.num K.peerReadSharePermille + 300 < n)
  else if k = K.peerReadSharePermille then decide (n + 300 < s.num K.admitCeilingPermille)
  else if k = K.portFailoverAllowanceUs then decide (810 ≤ n)
  else if k = K.powerTokenLimit then decide (16 ≤ n ∧ n ≤ s.num K.powerTokens)
  else if k = K.awlBankMap then s.bankMapOk n
  else if k = K.selfMemberId then n != 0xFFFF
  else true

/-- DRAM that the read cache keeps with given settings is at least 1 GiB, the media tables counted at 4 GiB (R259). -/
def layoutOk (config bufMiB siteMiB : Nat) : Bool :=
  decide (64 * 2 ^ indexBits config / 2 ^ 20 + bufMiB + 64 + 32 + siteMiB + dramMiB config / 32 + 4096 + 1024 ≤ dramMiB config)

/-- Constraints of media, keys, firmware, site and pin entries (R251, R259, R402, R438, Tables 8.7, 9.7, 16 entries). -/
def State.mediaValueOk (s : State) (k n : Nat) : Bool :=
  let p := s.str K.mediaProfile
  if k = K.writeBufferMiB then layoutOk (s.num K.dramConfig) n (s.num K.siteDramMiB) && decide (s.holdupAccepted p n (s.num K.flushTokens) ≤ s.num K.holdupBudgetMs)
  else if k = K.flushTokens then decide (s.holdupAccepted p (s.num K.writeBufferMiB) n ≤ s.num K.holdupBudgetMs)
  else if k = K.holdupBudgetMs then decide (s.holdupAccepted p (s.num K.writeBufferMiB) (s.num K.flushTokens) ≤ n)
  else if k = K.dramConfig then decide (1 ≤ n ∧ n ≤ 5) && layoutOk n (s.num K.writeBufferMiB) (s.num K.siteDramMiB)
  else if k = K.gcStartFree then decide (s.num K.gcUrgentFree < n)
  else if k = K.gcUrgentFree then decide (n < s.num K.gcStartFree)
  else if k = K.tamperClear then n == 0xA5
  else if k = K.laceMode then decide (n ≤ 2)
  else if k = K.siteDramMiB then decide (n ≤ 1024 ∧ n % 64 = 0) && layoutOk (s.num K.dramConfig) (s.num K.writeBufferMiB) n
  else if k = K.smbusClockKhz then n == 100 || n == 400
  else true

/-- Attributes of a namespace (Table 2.2). -/
def nsValueOk (sub n : Nat) : Bool :=
  match sub with
  | 3 => decide (n ≤ 7)
  | 4 => decide (3600 ≤ n ∧ n ≤ 31536000)
  | 5 => decide (n ≤ 2 ^ 56)
  | 6 => decide (n ≤ 2 ^ 31)
  | _ => decide (n ≤ 1)

/-- A number satisfies its entry's range and constraints. -/
def State.numOk (s : State) (r : DictRow) (n : Nat) : Bool :=
  r.inRange n &&
    (if r.key / 256 = 0x2201 then s.portValueOk 0 (r.key % 256) n
     else if r.key / 256 = 0x2202 then s.portValueOk 1 (r.key % 256) n
     else if r.key / 256 = 0x2401 ∧ r.key % 256 ≠ 1 then nsValueOk (r.key % 256) n
     else if r.key < 0x230000 then s.shelfValueOk r.key n
     else if r.key < 0x280000 then s.kvValueOk r.key n
     else s.mediaValueOk r.key n)

/-- An SMBus address, bits 6 to 0 of its byte, outside the reserved ranges (16 R474; 00 R6). -/
def smbusAddrOk (b : Byte) : Bool := decide (0x08 ≤ b.toNat % 128 ∧ b.toNat % 128 ≤ 0x77)

/-- A string or DOMAIN satisfies its layout's own constraints, where no operation of its own checks them. -/
def State.strOk (s : State) (k : Nat) (b : Bytes) : Bool :=
  if k = K.pskEntryWrite then decide (1 ≤ beAt b 0 1 ∧ beAt b 0 1 ≤ 64 ∧ b.length = 35 + beAt b 0 1)
  else if k = K.pskIdentityDelete then decide (b.length ≤ 64)
  else if k = K.mediaProfile then profileOk b &&
    decide (s.holdupAccepted b (s.num K.writeBufferMiB) (s.num K.flushTokens) ≤ s.num K.holdupBudgetMs)
  else if k = K.eventRateLimit then catalogue.contains (beAt b 0 2)
  else if k = K.smbusPollList then (List.range (b.length / 2)).all fun i => smbusAddrOk (b.getD (2 * i) 0)
  else true

end Sys2Proof.Machine
end

