-- ==== Sys2Proof/Machine/Dict.lean ====
section
/-! DEFINITION. Writing the dictionary: lengths, ranges and constraints, the effect of every entry, and the settings store
(12 R345 to R352, R356, R362, R366, R367; the entry tables and owning rules of every chapter; 15 R440). -/

namespace Sys2Proof.Machine

/-- What a write answers: done, done once the settings store holds it (R349), or refused with an abort code. -/
inductive DWrite where
  | ok
  | stored
  | abort (code : Nat)
  deriving DecidableEq, Repr

/-- A new settings copy starts when SYS writes wait and none is being programmed (15 R440). -/
def State.storeKick (s : State) : State :=
  if s.dict.programming || s.dict.waits.isEmpty then s
  else
    let sys := s.dict.vals.filter fun x => persistOf x.1 == .sys
    { s with dict := { s.dict with programming := true, copy := sys, waits := s.dict.waits.map fun (w : StoreWait) => { w with inCopy := true } } }

/-- A SYS write waits for the settings store (R349). -/
def State.awaitStore (s : State) (who : Waiter) : State :=
  ({ s with dict := { s.dict with waits := s.dict.waits ++ [{ who := who, inCopy := false }] } } : State).storeKick

/-- A value is set in effect. SYS values end with the store, or are held by Heel while PD_CORE is off (R349). -/
def State.putEntry (s : State) (r : DictRow) (v : DVal) : State × DWrite :=
  let s := s.setVal r.key v
  if r.persist != .sys then (s, .ok)
  else if s.mode.mode.powered then (s, .stored)
  else ({ s with dict := { s.dict with heel := mapPut s.dict.heel r.key (some v) } }, .ok)

/-- A SYS value that State holds under another name has been accepted. -/
def accepted (a : Nat) : DWrite := if a = 0 then .stored else .abort a

/-- A port's link restarts (R320). -/
def State.portRestart (s : State) (p : PortId) : State :=
  if (s.port p).link = .up ∨ (s.port p).link = .hold then s.linkDown p 0 else s.portStart p

/-- The drive takes a new node-ID (R356): stored, and a boot-up message under it. -/
def State.claim (s : State) (serial new : Nat) : State :=
  if serial = s.fw.otp.serial ∧ 1 ≤ new ∧ new ≤ 127 then (s.setSys K.nodeId (.num new)).bootUp else s

/-- PskEntryWrite (Table 3.18, R303, R304): a 1,025th identity is not stored (DEDUCED, log 65: it cannot be stored). -/
def State.pskPut (s : State) (b : Bytes) : State × DWrite :=
  let n := beAt b 0 1
  let e : Psk := { identity := sliceBytes b 1 n, psk := sliceBytes b (1 + n) 32, policy := beAt b (33 + n) 2 }
  let old := s.sec.psks.any (·.identity == e.identity)
  if !old && decide (1024 ≤ s.sec.psks.length) then (s, .abort 0x08000020)
  else if old then
    let s := { s with sec := { s.sec with psks := s.sec.psks.map fun (x : Psk) => if x.identity = e.identity then e else x } }
    (s.eraseSecret { kind := 1, ns := 0, gen := 0, idLen := n, since := s.now }, .ok)
  else (({ s with sec := { s.sec with psks := s.sec.psks ++ [e] } } : State).tableCopy, .ok)

/-- PskIdentityDelete (Table 3.18, R304): OPEN sessions of the identity close with NORMAL. An identity not held leaves
nothing to remove. -/
def State.pskDelete (s : State) (b : Bytes) : State :=
  if s.sec.psks.any (·.identity == b) then
    let s := { s with sec := { s.sec with psks := s.sec.psks.filter fun (x : Psk) => x.identity != b } }
    let s := (s.net.sessions.filter fun x => x.identity == b && x.st == SessSt.open_).foldl (fun s x => s.closeSession x.sid 0 0) s
    s.eraseSecret { kind := 1, ns := 0, gen := 0, idLen := b.length, since := s.now }
  else s

/-- EventRateLimit (R420): the bucket keeps its tokens, capped at the new Burst; one that had no limit is full. -/
def State.rateLimit (s : State) (b : Bytes) : State :=
  let code := beAt b 0 2
  let l : RateLimit := { code := code, burst := beAt b 2 2, perMinute := beAt b 4 2 }
  let k := s.bucket code
  let unlimited := (s.rate code).1 == 0
  let s := { s with evs := { s.evs with limits := l :: s.evs.limits.filter fun (y : RateLimit) => y.code != code } }
  s.setBucket { k with credit := if unlimited then l.burst * tokenUnit else min k.credit (l.burst * tokenUnit) }

/-- EventSnapshotFrom (R422). -/
def State.snapshotFrom (s : State) (i from_ : Nat) : State :=
  let held := s.heldRecs.filterMap (·.seq)
  let first := if s.evs.nextSeq ≤ from_ then from_ else max from_ ((held.head?).getD s.evs.nextSeq)
  let last := s.evs.nextSeq - 1
  let n := (held.filter fun q => decide (first ≤ q ∧ q ≤ last)).length
  let x : Snapshot := if from_ = 0 then {}
    else { st := .open_, first := first, last := if n = 0 then first - 1 else last, count := n,
           expiresAt := s.ptp + s.num K.eventSnapshotHoldSeconds * nsSec }
  { s with evs := { s.evs with snaps := s.evs.snaps.setIfInBounds i x } }

/-- TamperClear (R310): a class-3 HALT is released into MUSTER. -/
def State.clearTamper (s : State) : State :=
  if s.mode.mode = .halt ∧ s.mode.halt = some .tamper then
    let s := (s.condOff 0x9000)
    let s := { s with sec := { s.sec with tampered := false }, mode := { s.mode with halt := none } }
    s.warmMuster trClear
  else s

/-- A namespace attribute changes on this drive (R367). -/
def State.nsAttr (s : State) (x : Ns) (sub n : Nat) : State :=
  s.setNs (match sub with
    | 3 => { x with retention := n }
    | 4 => { x with hold := n }
    | 5 => { x with quotaBytes := n }
    | 6 => { x with quotaObjects := n }
    | _ => { x with readOnly := n != 0 })

/-- Preemption stops with its setting, and its verify exchange starts with it (11 R329). -/
def State.preemptSet (s : State) (p : PortId) : State :=
  let x := s.port p
  s.setPort p { x with preemptActive := false, verifyFailed := false, upAt := s.now }

/-- Received pause of a kind that PauseMode no longer obeys ends (11 R330). -/
def State.pauseSet (s : State) (p : PortId) : State :=
  let m := s.num (K.pauseMode p.code)
  let x := s.port p
  (s.setPort p { x with paused := x.paused.filter fun h => (m == 1 && h.prio == 8) || (m == 2 && h.prio != 8) }).resumeTx p

/-- What follows a numeric entry's new value, beyond the value itself. -/
def State.afterNum (s : State) (k old : Nat) : State :=
  if k / 256 = 0x2201 ∧ k % 256 ≤ 7 then s.portRestart .a
  else if k / 256 = 0x2202 ∧ k % 256 ≤ 7 then s.portRestart .b
  else if k = K.powerTokens then (s.setNum K.powerTokenLimit (s.num K.powerTokens)).limitChanged old
  else if k = K.powerTokenLimit then s.limitChanged old
  else if k = K.lullEnable then s.stirred
  else if k = K.npllRefSelect then s.pllsFollow
  else if k = K.ppsEnable ∧ s.flag K.ppsEnable = false ∧ s.eth.ptp.pps = true then
    let p := s.eth.ptp
    (s.setPtp { p with pps := false }).emit (.pin pinPps false)
  else if k = K.clkoutSource then s.clkoutCheck
  else if k = K.gpioDirection ∨ k = K.gpioOutput ∨ k = K.gpioPullDown then s.gpioApply
  else if k = K.preemptEnable 0 then s.preemptSet .a
  else if k = K.preemptEnable 1 then s.preemptSet .b
  else if k = K.pauseMode 0 then s.pauseSet .a
  else if k = K.pauseMode 1 then s.pauseSet .b
  else s

/-- A numeric entry is written. -/
def State.writeNum (s : State) (c : Client) (r : DictRow) (v : Nat) : State × DWrite :=
  let k := r.key
  let n := maskReserved k v
  if k = K.storeAll then
    if n ≠ 0x73617665 then (s, .abort 0x08000020)
    else if s.dict.waits.isEmpty then (s, .ok) else (s, .stored)
  else if k / 256 = 0x1011 then
    if n ≠ 0x6C6F6164 then (s, .abort 0x08000020)
    else
      let g := k % 256
      ({ s with dict := { s.dict with restore := if s.dict.restore.contains g then s.dict.restore else s.dict.restore ++ [g] } }, .ok)
  else if k = K.lifeCycleRequest then
    let x := s.lifeRequest n
    (x.1, if x.2 = 0 then .ok else .abort x.2)
  else if !s.numOk r n then (s, .abort 0x06090030)
  else if k = K.nsSelect then let x := s.sel c; (s.setSel { x with ns := n }, .ok)
  else if k = K.awlPolicySelect then let x := s.sel c; (s.setSel { x with awl := n }, .ok)
  else if k = K.shelfReadOffset then let x := s.sel c; (s.setSel { x with off := n }, .ok)
  else if k / 256 = 0x2401 then
    match s.nsSelected c with
    | some x => (s.nsAttr x (k % 256) n, .stored)
    | none => (s, .abort 0x08000024)
  else if k = K.tamperClear then (s.clearTamper, .ok)
  else if k = K.diagCaptureRelease then
    ({ s with eth := { s.eth with capture := s.eth.capture.filter fun (x : CapRec) => decide (n < x.seq) } }, .ok)
  else if k / 256 = 0x2B02 then
    let x := s.putEntry r (.num n)
    (x.1.snapshotFrom (k % 256 - 1) n, x.2)
  else
    let old := s.tokenLimit
    let x := s.putEntry r (.num n)
    (x.1.afterNum k old, x.2)

/-- A string or DOMAIN is written. -/
def State.writeStr (s : State) (r : DictRow) (b : Bytes) : State × DWrite :=
  let k := r.key
  if k = K.groupMap then
    let x := s.mapWrite b
    (x.1, accepted x.2)
  else if k = K.awlPolicyEntry then
    match s.policyAfter b with
    | some t => (s.setPolicy t, .stored)
    | none => (s, .abort 0x06090030)
  else if k = K.otpSettings then
    let (d, s) := s.drawFree
    let x := s.otpWrite b (d % 2 == 1)
    (x.1, if x.2 = 0 then .ok else .abort x.2)
  else if !s.strOk k b then (s, .abort 0x06090030)
  else if k = K.nodeIdClaim then (s.claim (beAt b 0 4) (beAt b 4 1), .ok)
  else if k = K.pskEntryWrite then s.pskPut b
  else if k = K.pskIdentityDelete then (s.pskDelete b, .ok)
  else if k = K.eventRateLimit then (s.rateLimit b, .stored)
  else if k = K.siteMessage then
    if s.siteRunning && !s.c2sFull then (s.mbxSend 0x83 0 b, .ok) else (s, .abort 0x08000020)
  else s.putEntry r (.bytes (if k = K.mediaProfile then profNorm b else b))

/-- The abort code that stops a write before its value is looked at: rights, mode, length; 0 if none. -/
def State.writeGuard (s : State) (c : Client) (r : DictRow) (b : Bytes) : Nat :=
  let a := s.writeRights c r.access
  if a ≠ 0 then a else if !s.modeServes c r.key true then 0x08000022 else r.lengthAbort b

/-- A write of an entry by index and subindex (R345, R346, R352, Table 4.26): existence, rights, mode, length, and then the value: its range
before what it selects (DESIGN CHOICE, log 120). -/
def State.dictSet (s : State) (c : Client) (index sub : Nat) (b : Bytes) : State × Option DictRow × DWrite :=
  if (dictRowsOf index).isEmpty then (s, none, .abort 0x06020000)
  else match dictRow? (index * 256 + sub) with
    | none => (s, none, .abort 0x06090011)
    | some r =>
      let a := s.writeGuard c r b
      if a ≠ 0 then (s, some r, .abort a)
      else
        let x := match r.typ.size with
          | some _ => s.writeNum c r (ofBE b)
          | none => s.writeStr r b
        (x.1, some r, x.2)

/-- A write whose end nobody is told: the rows of the dictionary's own commands. A SYS write still waits for the store. -/
def State.dictWrite (s : State) (c : Client) (key : Nat) (b : Bytes) : State :=
  let x := s.dictSet c (key / 256) (key % 256) b
  match x.2.2 with
  | .stored => x.1.awaitStore .none
  | _ => x.1

/-- An access waits for the end of the execution pause (15 R435). -/
def State.delay (s : State) (d : Delayed) : State := { s with shelf := { s.shelf with delayed := s.shelf.delayed ++ [d] } }

/-- Such a write, or its wait for the end of an execution pause (15 R435). -/
def State.dictApply (s : State) (c : Client) (key : Nat) (b : Bytes) : State :=
  if s.paused then s.delay (.write c key b) else s.dictWrite c key b

end Sys2Proof.Machine
end

