-- ==== Sys2Proof/Machine/Admin.lean ====
section
/-! DEFINITION. What the commands without a key do when they execute: namespaces, dictionary, FLUSH, SESSION_RESET
(02 R30 to R32, R40, R50, 04 R111 to R118, 05 R147, R148, 07 R228). -/

namespace Sys2Proof.Machine

/-- The command is still in flight. -/
def State.hasCmd (s : State) (c : CmdCtx) : Bool := (s.cmd? c.sid c.pkt.tag).isSome

/-- The record that NS_CREATE makes, with random HashKey and secret (R113, R303). -/
def State.newNs (s : State) (p : CmdPkt) : NsRec × State :=
  let r1 := s.random 16
  let r2 := r1.2.random 32
  ({ gen := ((s.ns? p.ns).map (·.gen)).getD 0 + 1, k := p.nsK, m := p.nsM, retention := if p.param 2 1 = 0xFF then 4 else p.param 2 1,
     readOnly := bitAt (p.param 3 1) 0, live := true, hold := if p.param 4 4 = 0 then 604800 else p.param 4 4,
     quotaObjects := p.param 8 4, quotaBytes := p.param 16 8, hashKey := r1.1, secret := r2.1 }, r2.2)

/-- A namespace record goes to members, whose acknowledgements the command awaits (R228). -/
def State.distribute (s : State) (c : CmdCtx) (kind : Nat) (r : NsRec) (ms : List Nat) (st : CmdSt) (undoing : Bool) : State :=
  let s := s.onCmd c.sid c.pkt.tag fun c =>
    { c with st := st, awaiting := ms, acked := [], awaitUntil := s.now + s.num K.nsDistributeMs * nsMs, undoing := undoing }
  ms.foldl (fun s m => s.sendNs m kind c.pkt.ns r (some (c.sid, c.pkt.tag))) s

/-- Every member has acknowledged, or none is left to wait for: the command ends (R113, R114, R228). -/
def State.nsDone (s : State) (c : CmdCtx) : State :=
  if c.undoing then s.finish c stPeers (outcomeBody 0 0x070B c.bound s.ptp)
  else if c.pkt.opcode = 0x31 then s.finish c stOk (beBytes 4 c.pkt.gen)
  else match s.ns? c.pkt.ns with
    | some x => s.finish c stOk (s.nsBody x)
    | none => s.finish c stOk []

/-- NS_CREATE executes (R113, R228); the number may have been retired since its receipt (R31). -/
def State.runNsCreate (s : State) (c : CmdCtx) : State :=
  match s.ns? c.pkt.ns with
  | some x =>
    if x.live then s.finish c stExists (s.nsBody x)
    else if s.nsRetired c.pkt.ns then s.finish c stField (errorBody 22 0)
    else
      let r := s.newNs c.pkt
      let s := r.2.applyNs c.pkt.ns r.1 1
      if s.otherMembers.isEmpty then s.nsDone c else s.distribute c 0x10 r.1 s.otherMembers .running false
  | none =>
    let r := s.newNs c.pkt
    let s := r.2.applyNs c.pkt.ns r.1 1
    if s.otherMembers.isEmpty then s.nsDone c else s.distribute c 0x10 r.1 s.otherMembers .running false

/-- NS_DELETE executes: the generation ends at once (R53, R114, R228). -/
def State.runNsDelete (s : State) (c : CmdCtx) : State :=
  match s.nsLive c.pkt.ns c.pkt.gen with
  | none => s.finish c stAbsent []
  | some x =>
    let r := { s.nsRec x with live := false }
    let s := s.endGen c.pkt.ns c.pkt.gen 1
    if s.otherMembers.isEmpty then s.nsDone c else s.distribute c 0x11 r s.otherMembers .committed false

/-- NS_QUERY executes (R115). -/
def State.runNsQuery (s : State) (c : CmdCtx) : State :=
  match s.ns? c.pkt.ns with
  | some x => if x.live && (c.pkt.gen == 0 || c.pkt.gen == x.gen) then s.finish c stOk (s.nsBody x)
    else s.finish c stAbsent (s.absentBody c.pkt.ns)
  | none => s.finish c stAbsent (s.absentBody c.pkt.ns)

/-- A member has acknowledged a namespace record (R228). -/
def State.nsAck (s : State) (sid tag member : Nat) : State :=
  match s.cmd? sid tag with
  | none => s
  | some c =>
    if c.awaiting.contains member then
      let c := { c with awaiting := c.awaiting.filter (· != member), acked := c.acked ++ [member] }
      let s := s.setCmd c
      if c.awaiting.isEmpty then s.nsDone c else s
    else s

/-- NsDistributeMs has passed without every acknowledgement (R228). NS_DELETE's Outcome says NOT_A_WRITE, NS_CREATE's
NOT_COMMITTED (DESIGN CHOICE, log 35: the manual names neither). -/
def State.nsTimeout (s : State) (c : CmdCtx) : State :=
  if c.undoing then s.nsDone c
  else
    let s := s.event 0x070B [(2, c.pkt.ns), (4, if c.pkt.opcode = 0x31 then c.pkt.gen else ((s.ns? c.pkt.ns).map (·.gen)).getD 0), (4, c.awaiting.length)]
    if c.pkt.opcode = 0x31 then s.finish c stPeers (outcomeBody 2 0x070B c.bound s.ptp)
    else match s.ns? c.pkt.ns with
      | none => s.nsDone { c with undoing := true }
      | some x =>
        let r := { s.nsRec x with live := false }
        let s := if x.live then s.endGen x.number x.gen 1 else s
        if c.acked.isEmpty then s.nsDone { c with undoing := true } else s.distribute c 0x11 r c.acked .running true

/-- Access codes of DICT_READ (Table 4.25). -/
def Access.code : Access → Nat
  | .const => 0 | .ro => 1 | .rw => 2 | .wo => 3 | .rwr => 4 | .rwp => 5

/-- A dictionary refusal in band (Table 4.26); `value` is the FieldOffset of the parameter that a refusal of the value names. -/
def State.dictRefuse (s : State) (c : CmdCtx) (code value : Nat) : State :=
  if code = 0x06010001 ∨ code = 0x06010002 ∨ code = 0x08000022 then s.finish c stDenied (denialBody 3 0 code)
  else if code = 0x06070010 then s.finish c stLength (errorBody 48 code)
  else s.finish c stField (errorBody (if code = 0x06020000 then 44 else if code = 0x06090011 then 46 else value) code)

/-- DICT_READ executes (R116, R118). -/
def State.runDictRead (s : State) (c : CmdCtx) : State :=
  let p := c.pkt
  match s.dictGet (.rwp c.sid) (p.param 0 2) (p.param 2 1) with
  | (s, some r, .value b) =>
    if b.length < p.param 4 4 then s.finish c stField (errorBody 48 0x06090030)
    else
      let out := sliceBytes b (p.param 4 4) (min (p.param 8 4) (b.length - p.param 4 4))
      (s.onCmd c.sid p.tag fun c => { c with st := .running }).reply c out stOk
        (beBytes 1 r.typ.code ++ beBytes 1 r.access.code ++ zeros 2 ++ beBytes 4 b.length ++ beBytes 4 out.length)
  | (s, none, .value _) => s.finish c stField (errorBody 44 0x06020000)
  | (s, _, .abort code) => s.dictRefuse c code 44

/-- DICT_WRITE executes (R117, R118, R349): a SYS value's response waits for the settings store. -/
def State.runDictWrite (s : State) (c : CmdCtx) : State :=
  let p := c.pkt
  match s.dictSet (.rwp c.sid) (p.param 0 2) (p.param 2 1) ((p.params.drop 8).take (p.param 4 2)) with
  | (s, _, .ok) => if s.hasCmd c then s.finish c stOk [] else s
  | (s, _, .stored) => (s.onCmd c.sid p.tag fun c => { c with st := .running }).awaitStore (.rwp c.sid p.tag)
  | (s, _, .abort code) => if s.hasCmd c then s.dictRefuse c code 52 else s

/-- FLUSH's conditions hold (R40, R111, R147): every covered command has ended, and every write of the session before it that
committed is media-durable. -/
def State.flushReady (s : State) (c : CmdCtx) : Bool :=
  ((s.earlierInSession c).filter fun x => c.covers.contains x.pkt.tag).isEmpty &&
    s.kv.sessWrites.all fun w => w.sid != c.sid || decide (c.pos ≤ w.pos) || c.acked.contains w.pos || s.writeOnMedia w

/-- SESSION_RESET ends OK once every command that it acted on has ended (R112, R148). -/
def State.resetReady (s : State) (c : CmdCtx) : Bool :=
  ((s.earlierInSession c).filter fun x => c.covers.contains x.pkt.tag).isEmpty

/-- The SESSION_RESET body (Table 4.19). -/
def resetBody (aborted suppressed : Nat) : Bytes := beBytes 4 aborted ++ beBytes 4 suppressed

/-- SESSION_RESET executes (R50, R72, R112, R148). -/
def State.runReset (s : State) (c : CmdCtx) : State :=
  let l := (s.earlierInSession c).filter fun x => x.pkt.opcode != 0x60 && x.st != .releasing
  let past := l.filter fun x => x.st == .committed
  let open_ := l.filter fun x => x.st != .committed
  let bound := past.foldl (fun b x => max b x.bound) (s.ptp + 2 * nsMs + (if s.shank.actPending then 2 * nsMs else 0))
  let tags := l.map (·.pkt.tag)
  let s := s.onCmd c.sid c.pkt.tag fun c =>
    { c with st := .running, ta := s.ptp, bound := bound, covers := tags, aborted := open_.length, silenced := past.length }
  let s := past.foldl (fun s x => s.onCmd x.sid x.pkt.tag fun x => { x with suppressed := true }) s
  let s := s.onSession c.sid fun x =>
    { x with tags := x.tags.map fun g => if past.any (·.pkt.tag == g.tag) then { g with byReset := some c.pkt.tag } else g }
  open_.foldl (fun s x => s.abort x stReset 0 true) s

/-- A SESSION_RESET that has nothing left to wait for ends. -/
def State.resetDone (s : State) (c : CmdCtx) : State :=
  if c.pkt.opcode = 0x60 ∧ c.st = .running ∧ s.resetReady c = true then s.finish c stOk (resetBody c.aborted c.silenced) else s

end Sys2Proof.Machine
end

