-- ==== Sys2Proof/Machine/Admit.lean ====
section
/-! DEFINITION. Shank's decision on a command, and the start of an admitted one (02 R36, R39, R45, 05 R124 to R153, R477, 06 R164,
07 R211, R222). -/

namespace Sys2Proof.Machine

/-- An admitted command starts to execute. -/
def State.startCmd (s : State) (c : CmdCtx) : State :=
  match c.pkt.opcode with
  | 0x01 => s.startRead c
  | 0x02 => s.startRead c
  | 0x03 => s.startRead c
  | 0x04 => s.runList c
  | 0x10 => s.startWrite c
  | 0x11 => s.startWrite c
  | 0x12 => s.startWrite c
  | 0x13 => s.startWrite c
  | 0x20 => s.onCmd c.sid c.pkt.tag fun c => { c with st := .running }
  | 0x30 => s.runNsCreate c
  | 0x31 => s.runNsDelete c
  | 0x32 => s.runNsQuery c
  | 0x40 => s.runDictRead c
  | 0x41 => s.runDictWrite c
  | 0x50 => s.runSegment c
  | 0x51 => s.runActivate c
  | 0x60 => s.runReset c
  | _ => s.startPeer c

/-- Commands that stand before another and that it may wait on: writes on its key, the earlier commands of its session for
ORDERED and FLUSH (R135). -/
def State.predecessors (s : State) (c : CmdCtx) : List CmdCtx :=
  (if keyOp c.pkt.opcode then s.writesBefore c else []) ++ (if c.ordered then s.earlierInSession c else if c.pkt.opcode == 0x20 then s.flushCovers c else [])

/-- Worst-case end of a command, on the drive's timebase. -/
def State.worstEnd (s : State) (c : CmdCtx) : Nat := c.due + s.heldOf c

/-- The predecessors whose worst-case end a promised command adds: a write's own predecessors hold only its commit turn. -/
def State.waitedFor (s : State) (c : CmdCtx) : List CmdCtx :=
  (if readOp c.pkt.opcode then s.writesBefore c else []) ++ (if c.ordered then s.earlierInSession c else if c.pkt.opcode == 0x20 then s.flushCovers c else [])

/-- pred_end and the critical resource of the predecessor that it comes from (R134, R135). -/
def State.predEnd (s : State) (c : CmdCtx) : Nat × Nat :=
  (s.waitedFor c).foldl (fun b p => let e := s.worstEnd p; if b.1 < e then (e, p.critical) else b) (0, 1)

/-- A repair or rebalance runs on the key: a PC3 predecessor of writes on it (R226). -/
def State.repairBefore (s : State) (c : CmdCtx) : Bool :=
  writeOp c.pkt.opcode && (match s.instOf c.pkt.ns c.pkt.gen with
    | some i => s.repairRuns i (s.hashes c.pkt.ns c.pkt.gen c.pkt.key).1
    | none => false)

/-- A PC3 command stands before a promised one (R135). -/
def State.pc3Before (s : State) (c : CmdCtx) : Bool :=
  (s.predecessors c).any (fun p => !p.promised && !peerOp p.pkt.opcode) || s.repairBefore c

/-- The range of a read over a value of a given length: first byte and count. -/
def CmdPkt.range (p : CmdPkt) (len : Nat) : Nat × Nat :=
  match p.opcode with
  | 0x01 => (0, len)
  | 0x02 => (p.param 0 4, min (p.param 4 4) (len - p.param 0 4))
  | _ => (0, 0)

/-- States that a read may return: the present one, and each uncommitted write before it as the record that it would make. -/
def State.readStates (s : State) (c : CmdCtx) : List CommitRec :=
  (match s.keyEntry c.pkt with | some r => if r.rec_.tombstone then [] else [r.rec_] | none => []) ++
    (s.writesBefore c).filterMap fun x => if putOp x.pkt.opcode then x.write.map fun w => writeRec x w 0 0 [] else none

/-- Demand of a read on the DRAM subchannel and at peers, for one state (Table 5.3). -/
def State.readWork (s : State) (p : CmdPkt) (r : CommitRec) : List (Res × Nat) :=
  let n := p.range r.valueLen
  let f := s.fetches r n.1 n.2
  mergeWork (f.1.map (fun x => (Res.peer x.1, x.2)) ++ [(Res.dram, 2 * n.2 + 2 * f.2)])

/-- Members that a read may fetch from. -/
def State.readPeers (s : State) (c : CmdCtx) : List Nat :=
  ((s.readStates c).flatMap fun r => let n := c.pkt.range r.valueLen; (s.fetches r n.1 n.2).1.map (·.1)).eraseDups

/-- Size of a command (Table 5.2). -/
def State.sizeOf (s : State) (c : CmdCtx) : Nat :=
  let p := c.pkt
  match p.opcode with
  | 0x01 => ((s.readStates c).map (·.valueLen)).foldl max 0
  | 0x02 => min (((s.readStates c).map (·.valueLen)).foldl max 0) (p.param 4 4)
  | 0x04 => min (p.param 0 4 * 1060) 16777216
  | 0x10 => p.valueLen
  | 0x11 => p.valueLen
  | 0x20 => (((s.flushCovers c).filter fun x => writeOp x.pkt.opcode && x.st != .committed).map (·.pkt.valueLen)).sum +
      ((s.kv.sessWrites.filter fun w => w.sid == c.sid && !s.writeOnMedia w).map (·.len)).sum
  | 0x40 => p.param 8 4
  | 0x41 => p.param 4 2
  | 0x50 => p.param 12 2
  | _ => 0

/-- Bytes of the OK response's body (04). -/
def respBody (op : Nat) : Nat :=
  match op with
  | 0x02 => 40 | 0x04 => 56 | 0x20 => 0 | 0x30 => 48 | 0x31 => 4 | 0x32 => 48 | 0x40 => 12 | 0x41 => 0
  | 0x50 => 8 | 0x51 => 8 | 0x60 => 8 | _ => 32

/-- Value bytes that a command moves over the ports: those of an immediate value are in its CMD already. -/
def CmdPkt.moved (p : CmdPkt) (size : Nat) : Nat :=
  if putOp p.opcode then (if p.immediate then 0 else p.valueLen)
  else if decide (p.opcode ∈ [0x01, 0x02, 0x04, 0x40]) then size else 0

/-- The DRAM and peer part of a command's demand (Table 5.3): for a read the greatest over the states it may return (R135). -/
def State.dramWork (s : State) (c : CmdCtx) (size : Nat) : List (Res × Nat) :=
  if readOp c.pkt.opcode then (s.readStates c).foldl (fun w r => maxWork w (s.readWork c.pkt r)) []
  else if putOp c.pkt.opcode then [(Res.dram, 4 * c.pkt.valueLen)]
  else if c.pkt.opcode = 0x04 ∨ c.pkt.opcode = 0x40 then [(Res.dram, 2 * size)]
  else []

/-- The record at an address is known to lie in the write buffer. -/
def State.recBuffered (s : State) (a : Nat) : Bool := (s.recAt a).any fun r => !r.units.isEmpty

/-- The first index candidate of a key command whose commit record is not known to lie in the write buffer: its place. -/
def State.recToRead (s : State) (p : CmdPkt) : Option Nat :=
  if !keyOp p.opcode then none
  else (s.instOf p.ns p.gen).bind fun i =>
    ((s.candidates (s.hashes p.ns p.gen p.key).1 i).find? fun x => !s.recBuffered x.2.loc).map (·.2.loc)

/-- The commit-record read that such a command books: one page read on its die and one codeword on its channel (Table 5.4, L_ldpc). -/
def State.recPlan (s : State) (p : CmdPkt) : Plan :=
  match s.recToRead p with
  | none => { dies := [], chans := [] }
  | some a =>
    let d := s.slotOf a
    { dies := [{ die := dieNo d.1 d.2, reads := 1, programs := 0 }],
      chans := [{ chan := (dieAt d.1 d.2).1, readBytes := 4096 + parityBytes s.media.profile, programBytes := 0 }] }

/-- The demand of a command (Table 5.3). -/
def State.workOf (s : State) (c : CmdCtx) (size : Nat) : List (Res × Nat) :=
  let mpb := ((s.session? c.sid).map (·.mpb)).getD 1232
  mergeWork (s.planWork c.plan ++ s.planWork (s.recPlan c.pkt) ++
    portWork c.pkt.pktLen (40 + respBody c.pkt.opcode) (c.pkt.moved size) mpb ++ s.dramWork c size)

/-- The command reads media (Table 5.4, L_ldpc). -/
def State.readsMedia (s : State) (c : CmdCtx) : Bool :=
  if c.pkt.opcode = 0x04 ∨ c.pkt.opcode = 0x72 then true
  else if c.pkt.opcode = 0x01 ∨ c.pkt.opcode = 0x02 then !(s.readStates c).isEmpty || (s.recToRead c.pkt).isSome
  else (s.recToRead c.pkt).isSome

/-- The homes of a key under retained earlier epochs that are members still and whose handoff is not complete (R222). -/
def State.oldHomes (s : State) (h : Nat) : List Nat :=
  (s.welt.retained.filterMap fun g => match g.home h with
    | none => none
    | some m =>
      let told := s.welt.handoffs.any fun x => x.prev == g.epoch && !x.await.contains m
      if m = s.selfId ∨ told = true ∨ !(s.welt.cur.any fun c => (c.member? m).isSome) then none else some m).eraseDups

/-- The members of a retained earlier epoch under which the key's home has left since (R222, R223). -/
def State.goneHomes (s : State) (h : Nat) : List Nat :=
  (s.welt.retained.flatMap fun g => match g.home h with
    | none => []
    | some m => if m = s.selfId ∨ (s.welt.cur.any fun c => (c.member? m).isSome) = true then []
      else (g.members.map (·.id)).filter (· != s.selfId)).eraseDups

/-- Whom a key command asks for its key's state: the old home while no HANDOFF has come, and every survivor where the old home has
left, since HANDOFF_PENDINGs may follow a HANDOFF (R220, R222, R223). -/
def State.toAsk (s : State) (p : CmdPkt) : List Nat :=
  let h := (s.hashes p.ns p.gen p.key).1
  ((if (s.keyEntry p).isSome then [] else s.oldHomes h) ++ s.goneHomes h).eraseDups

/-- Peers that a command uses (Table 5.4, L_peer). -/
def State.peersOf (s : State) (c : CmdCtx) : List Nat :=
  let p := c.pkt
  let pulled := if keyOp p.opcode then s.toAsk p else []
  let own := if readOp p.opcode then s.readPeers c
    else if writeOp p.opcode then (match c.write with | some w => (w.peers s.selfId).map (·.member) | none => [])
    else if p.opcode = 0x30 ∨ p.opcode = 0x31 then s.otherMembers else []
  own ++ pulled

/-- What the margin of a command depends on (Table 5.4). -/
def State.factsOf (s : State) (c : CmdCtx) : Facts :=
  let p := c.pkt
  let peers := s.peersOf c
  { miss := keyOp p.opcode && !c.hot, media := s.readsMedia c, durable := writeOp p.opcode && (p.durable || !s.holdup),
    fill := if putOp p.opcode && !p.immediate then p.valueLen else 0, peers := peers,
    peerFault := (p.opcode == 0x01 || p.opcode == 0x02) && !peers.isEmpty }

/-- The bound's end on the drive's timebase: R124, or T_F of a FLUSH (R147). -/
def State.boundEnd (s : State) (c : CmdCtx) (size : Nat) : Nat :=
  let t := s.now + s.boundNs c.pkt.cls size
  if c.pkt.opcode = 0x20 then (s.flushCovers c).foldl (fun b x => if x.promised then max b x.due else b) t else t

/-- The media times reported so far for the fragments of a write that may commit (R147); all ones promises none. -/
def WriteCtx.reported (w : WriteCtx) : List Nat :=
  (w.holders.filter fun h => h.reserved == some true && !h.failed && h.mediaBy != 0xFFFFFFFFFFFFFFFF).map (·.mediaBy)

/-- The latest media time reported for the writes that a FLUSH covers, on the drive's timebase (R147). -/
def State.mediaEnd (s : State) (c : CmdCtx) : Nat :=
  if c.pkt.opcode ≠ 0x20 then 0
  else
    let open_ := (s.flushCovers c).flatMap fun x => match x.write with | some w => if x.openWrite then w.reported else [] | none => []
    ((s.kv.sessWrites.filter fun w => w.sid == c.sid).map (·.mediaBy) ++ open_).foldl (fun b m =>
      if s.ptp < m then max b (s.now + (m - s.ptp)) else b) 0

/-- A command enters with its covers (R40) before it takes its position. -/
def State.withCovers (s : State) (c : CmdCtx) : CmdCtx :=
  if c.pkt.opcode = 0x20 then { c with covers := (s.flushCovers c).map (·.pkt.tag) } else c

/-- A command that will execute without a promise: its epoch and decision time are set, and it enters phase one or takes its
position (R127, R141). -/
def State.enter (s : State) (c : CmdCtx) (bound deadline critical size : Nat) : State :=
  let c := { s.withCovers c with ta := s.ptp, arrivedAt := s.now, bound := bound, deadline := deadline, critical := critical, size := size,
                                 epoch := s.epoch, withAct := s.shank.actPending }
  match c.write, s.instOf c.pkt.ns c.pkt.gen with
  | some w, some inst => (s.setCmd c).beginPhaseOne c w inst
  | _, _ => (s.setCmd c).takePosition c State.startCmd

/-- A command is refused at its decision: it leaves and takes no position. -/
def State.refuseCmd (s : State) (c : CmdCtx) (us limiter : Nat) : State := (s.dropCmd c).refuse c.sid c.path c.pkt us limiter

/-- Refused for a reason whose RetryAfterUs the manual leaves open: a free value. -/
def State.refuseFree (s : State) (c : CmdCtx) (limiter : Nat) : State :=
  let (d, s) := s.drawFree
  s.refuseCmd c (clampNat d 1 retryMax) limiter

/-- Commands that hold a context (R74, R131). -/
def State.contexts (s : State) : Nat := (s.net.sessions.map (·.unreleased)).sum

/-- Contexts on chip; the others lie in DRAM's command context store (00 R14). -/
def State.contextsOnChip (s : State) : Nat := min 8192 s.contexts

/-- RetryAfterUs of Limiter CONTEXTS (R146). -/
def State.contextRetry (s : State) : Nat :=
  let ends := (s.kv.cmds.filter fun c => c.promised && c.admitted).map s.worstEnd
  match ends with
  | [] => 1
  | x :: l => clampNat (ceilDiv (l.foldl min x - s.now) 1000) 1 retryMax

/-- The promised decision (R134, R135). -/
def State.decidePromised (s : State) (c : CmdCtx) : State :=
  if s.pc3Before c then s.refuseFree c 1
  else
    let size := s.sizeOf c
    let tEnd := s.boundEnd c size
    let pe := s.predEnd c
    let work := s.workOf c size
    match s.judge tEnd (s.margin (s.factsOf c)) work (max pe.1 (s.mediaEnd c)) pe.2 with
    | .refuse us lim => s.refuseCmd c us lim
    | .pass d crit => (s.book (.cmd c.sid c.pkt.tag) d work).enter c (s.ptp + (tEnd - s.now)) d crit size

/-- The decision of a command that is not a peer's (R127, R134, R151, R119, R164, R295). -/
def State.decideOwn (s : State) (c : CmdCtx) : State :=
  if c.pkt.opcode = 0x50 ∧ s.segmentBusy c.pkt = true then s.refuseFree c 9
  else if c.pkt.opcode = 0x30 ∧ s.rngOk = false then s.refuseFree c 8
  else if c.pkt.opcode = 0x30 ∧ (s.freeInst).isNone = true then s.refuseCmd c s.instRetryUs 4
  else if c.pkt.opcode = 0x51 then
    match s.decideActivate c.pkt (if c.pkt.cls = 3 then none else some (s.boundEnd c 0)) with
    | (s, .field off) => (s.dropCmd c).answer c.sid c.path c.pkt stField (errorBody off 0)
    | (s, .busy us) => s.refuseCmd c us 9
    | (s, .go) => if c.pkt.cls = 3 then s.enter c 0 0 1 0 else s.decidePromised c
  else if c.pkt.cls = 3 then s.enter c 0 0 1 (s.sizeOf c)
  else s.decidePromised c

/-- RetryAfterUs for an Epoch that is not current here yet (R211). -/
def State.epochRetry (s : State) : Nat :=
  match s.welt.pendingMap with
  | some g => clampNat (ceilDiv (g.activation - s.ptp) 1000) 1 retryMax
  | none => 1000

/-- FRAG_RESERVE's decision (R142, R211, R477). A repeat of a held reservation is not tested again (R212). -/
def State.decideReserve (s : State) (c : CmdCtx) : State :=
  let h := FragHdr.ofBytes c.pkt.params c.pkt.key
  if s.epoch < h.epoch then s.refuseCmd c s.epochRetry 8
  else if h.deadline = 0 ∨ (s.frag? h.stripe h.index).isSome = true then s.enter c 0 0 1 0
  else
    let mpb := ((s.session? c.sid).map (·.mpb)).getD 1232
    let work := mergeWork (s.planWork c.plan ++ portWork c.pkt.pktLen 48 h.fragLen mpb ++ [(Res.dram, 2 * h.fragLen)])
    let tEnd := s.now + (h.deadline - s.ptp) - 100000
    match s.judge tEnd (s.margin { durable := h.durable || !s.holdup }) work 0 1 with
    | .refuse us lim => s.refuseCmd c us lim
    | .pass d crit => (s.book (.frag h.stripe h.index) d work).enter c 0 d crit 0

/-- A peer command's decision (R477). -/
def State.decidePeer (s : State) (c : CmdCtx) : State := if c.pkt.opcode = 0x70 then s.decideReserve c else s.enter c 0 0 1 0

/-- The state of a key whose handoff has not arrived is pulled first; the command waits (R222, R223). -/
inductive PullSt where
  | none_ | wait | ask (l : List Nat)
  deriving DecidableEq, Repr

/-- Whether a key command must wait for its key's state; LIST, which returns every key homed here, waits until the handoff is complete
(R48; DESIGN CHOICE, log 105). -/
def State.pullState (s : State) (c : CmdCtx) : PullSt :=
  if c.pkt.opcode = 0x04 then (if s.handoffPending then .wait else .none_)
  else if !keyOp c.pkt.opcode then .none_
  else
    let h := (s.hashes c.pkt.ns c.pkt.gen c.pkt.key).1
    match s.gather? c.pkt.ns c.pkt.gen h with
    | some g => if g.awaiting.isEmpty && g.pending.isEmpty then .none_ else .wait
    | none => let l := s.toAsk c.pkt; if l.isEmpty then .none_ else .ask l

/-- An earlier command on the key is not decided yet (R135). -/
def State.keyUndecided (s : State) (c : CmdCtx) : Bool :=
  (s.kv.cmds.takeWhile fun x => !(x.sid == c.sid && x.pkt.tag == c.pkt.tag)).any fun x => (x.st == .undecided || x.st == .phaseOne) && x.sameKey c

/-- The command's generation has no instance slot here yet (R164). -/
def State.noInst (s : State) (p : CmdPkt) : Bool := p.needsNs && (s.instOf p.ns p.gen).isNone

/-- A write's context is made at its decision (R206). -/
def State.withWrite (s : State) (c : CmdCtx) : CmdCtx :=
  if !writeOp c.pkt.opcode then c
  else match s.nsLive c.pkt.ns c.pkt.gen, s.instOf c.pkt.ns c.pkt.gen with
    | some x, some i =>
      let h := (s.hashes c.pkt.ns c.pkt.gen c.pkt.key).1
      { c with write := some (s.newWrite c.pkt x i h ((s.lookup i h c.pkt.key).map (·.rec_))) }
    | _, _ => c

/-- Step 15 of Table 4.3, once nothing before the command on its key is undecided (R135, R136). -/
def State.decideNow (s : State) (c : CmdCtx) : State :=
  if c.pkt.opcode = 0x60 then (s.bump K.admittedCount).startCmd c
  else if 262144 < s.contexts then s.refuseCmd c s.contextRetry 7
  else if s.noInst c.pkt then s.refuseCmd c s.instRetryUs 4
  else if peerOp c.pkt.opcode then s.decidePeer c
  else s.decideOwn (s.withWrite c)

/-- A command's decision, or its wait for one (R135, R222). -/
def State.decideCmd (s : State) (sid tag : Nat) : State :=
  match s.cmd? sid tag with
  | none => s
  | some c =>
    if c.st ≠ .undecided ∨ s.keyUndecided c = true then s
    else match s.pullState c with
      | .wait => s
      | .ask l => s.askKeyState c.pkt.ns c.pkt.gen (s.hashes c.pkt.ns c.pkt.gen c.pkt.key).1 l 0
      | .none_ => s.decideNow c

/-- A command that waited for its turn starts, unless execution is paused or it still waits behind ORDERED (R39, 15 R435). -/
def State.goOn (s : State) (c : CmdCtx) : State :=
  let s := s.setCmd c
  if c.paused || c.ordered then s else s.startCmd c

/-- A command in flight moves on by itself where what it waited for has come: its decision, the end of phase one, a lost
quorum, media, releases, the end of the commands it acted on. -/
def State.settleOne (s : State) (sid tag : Nat) : State :=
  match s.cmd? sid tag with
  | none => s
  | some c => match c.st with
    | .undecided => s.decideCmd sid tag
    | .phaseOne => s.phaseOne c
    | .waiting =>
      if c.paused then (if s.paused then s.checkQuorum c else s.goOn { c with paused := false })
      else if c.pkt.opcode = 0x75 then (if c.reply.isNone && !c.ordered then s.runQuery c else s)
      else s.checkQuorum c
    | .running => if c.pkt.opcode = 0x60 then s.resetDone c else s.checkQuorum c
    | .committed => s.mediaDurable c
    | .releasing => s.releaseDone c false

/-- Every command in flight, in order, and the peers' answers that wait for media; values leave the write buffer. -/
def State.settle (s : State) : State :=
  ((s.kv.cmds.map fun c => (c.sid, c.pkt.tag)).foldl (fun s k => s.settleOne k.1 k.2) s.answerWaiting).rawLeave

/-- A command that passed every check joins the commands in flight and is decided (R98, R168, R188). -/
def State.admission (s : State) (rx : Rx) (p : CmdPkt) (plan : Plan) (hot : Option Nat) : State :=
  let c : CmdCtx := { sid := rx.sid, pkt := p, path := rx.path, plan := plan, st := .undecided, ta := 0, bound := 0, deadline := 0, pos := 0,
                      epoch := s.epoch, size := 0, hot := hot.isSome, arrivedAt := s.now, ordered := p.ordered && p.opcode != 0x60 }
  let s := { s with kv := { s.kv with cmds := s.kv.cmds ++ [c] } }
  (s.confirmHot p hot).decideCmd rx.sid p.tag

/-- The key of a CMD can be parsed: its lengths are consistent and it has 1 to 1,024 bytes of key. -/
def CmdPkt.keyParsed (p : CmdPkt) : Bool :=
  keyOp p.opcode && p.pktLen == 60 + p.paramLen + p.keyLen + (if p.immediate then p.valueLen else 0) && decide (1 ≤ p.keyLen ∧ p.keyLen ≤ 1024)

/-- The hot search of a key command, as soon as its key is parsed, whatever becomes of the command (R188). Under a generation that no
LIVE instance stands for, the search counts and misses (DEDUCED, log 110). -/
def State.parseKey (s : State) (p : CmdPkt) (f : AwlFacts) : State × Option Nat :=
  if !p.keyParsed then (s, none)
  else match s.instOf p.ns p.gen with
    | some i => let h := s.hashes p.ns p.gen p.key; s.hotSearch i h.1 h.2 p.key f
    | none => ((s.bump K.awlSearches).bump K.awlHotMisses, none)

/-- NAK for a tag (R71). -/
def State.nakTag (s : State) (rx : Rx) (reason : Nat) (p : CmdPkt) : State :=
  (s.sendNow rx.sid rx.path (.nak reason [(p.tag, p.inc, 0)])).bump K.nakTagSent

/-- A CMD is taken in CmdSeq order: tag, context limit, checks, decision (R71, R74, R98). It releases the tag's earlier command,
and with a SESSION_RESET those that it suppressed (R72). -/
def State.takeCmd (s : State) (rx : Rx) (p : CmdPkt) (plan : Plan) : State :=
  match s.session? rx.sid with
  | none => s
  | some x =>
    let s := s.setSession { x with nextSeq := (x.nextSeq + 1) % 2 ^ 32, lastCmd := s.now }
    let prev := x.tags.find? (·.tag == p.tag)
    let want := match prev with | some g => (g.inc + 1) % 16 | none => 0
    if (match prev with | some g => !g.ended | none => false) then s.nakTag rx 4 p
    else if p.inc ≠ want then s.nakTag rx 5 p
    else
      let rest := (x.tags.filter (·.tag != p.tag)).map fun (g : TagRec) =>
        if g.byReset = some p.tag then { g with released := true, byReset := none } else g
      if x.maxOut ≤ (rest.filter fun g => !g.released).length then s.closeSession rx.sid 2 (rx.pn % 2 ^ 32)
      else
        let g : TagRec := { tag := p.tag, inc := p.inc, seq := p.seq, ended := false, released := false, byReset := none }
        let s := s.onSession rx.sid fun x => { x with tags := rest ++ [g] }
        let (s, hot) := s.parseKey p plan.awl
        match s.checks x rx p plan.awl hot with
        | (s, some r) => s.reject rx.sid rx.path p r
        | (s, none) => s.admission rx p plan hot

/-- Held CMDs whose turn has come (R70). -/
def State.drainHeld : Nat → State → Nat → State
  | 0, s, _ => s
  | fuel + 1, s, sid =>
    match s.session? sid with
    | none => s
    | some x =>
      match x.held.find? fun h => h.pkt.seq == x.nextSeq with
      | none => s
      | some h =>
        let s := s.setSession { x with held := x.held.filter fun y => y.pkt.seq != h.pkt.seq }
        State.drainHeld fuel (s.takeCmd h.rx h.pkt h.plan) sid

/-- A CMD by its CmdSeq (R70). -/
def State.seqCmd (s : State) (x : Session) (rx : Rx) (p : CmdPkt) (plan : Plan) : State :=
  let d := (p.seq + 2 ^ 32 - x.nextSeq) % 2 ^ 32
  if 2 ^ 31 ≤ d then s.bump K.rxDuplicate
  else if x.maxOut ≤ d then s.closeSession rx.sid 2 (rx.pn % 2 ^ 32)
  else if d = 0 then
    let n := x.held.length + 1
    State.drainHeld n (s.takeCmd rx p plan) rx.sid
  else if x.held.any (·.pkt.seq == p.seq) then s.bump K.rxDuplicate
  else s.setSession { x with held := x.held ++ [{ rx := rx, pkt := p, plan := plan }] }

/-- The drive leaves LULL for work (R373). -/
def State.wakeLull (s : State) : State :=
  match s.mode.mode with
  | .lull1 => s.lullExit trExit
  | .lull2 => s.lullExit trExit
  | _ => s

/-- A CMD arrives (R70 to R75, R98): receipt, order, checks, decision; then what it may have let go on. -/
def State.cmdArrive (s : State) (rx : Rx) (p : CmdPkt) (plan : Plan) : State :=
  let p := p.norm
  match s.rxPacket rx 2 true with
  | (s, .dropped) => s
  | (s, .taken) =>
    match s.session? rx.sid with
    | none => s
    | some x =>
      let s := if p.pktLen < 60 ∨ x.asHost.isSome = true then s.bump K.rxMalformed else s.seqCmd x rx p plan
      (((s.settle).wakeLull).ackIfDue rx).checkPns

end Sys2Proof.Machine
end

