-- ==== Sys2Proof/Machine/Array.lean ====
section
/-! DEFINITION. The channel sequencers: operations of the array in the order of their deadlines, tokens, suspended erases, and what a
codeword's read leads to (05 R139; 08 R238, R246, R253 to R255; 09 R274, R277). -/

namespace Sys2Proof.Machine

/-- The array takes programs and erases: PD_MEDIA is on and Fn_WP_N is deasserted (R238). -/
def State.writable (s : State) : Bool := s.domOn .media && s.media.wpN

/-- A program unit's program passes, and what waited for it goes on (R250, R271). -/
def State.programUnit (s : State) (u : UnitId) : State := (((s.unitDone u).1.rawLeave).settleMoves).checkShort

/-- Page reads of a block: the counter rises, and at its limit the superblock becomes a forced victim (R277). -/
def State.countReads (s : State) (ds sb slot n : Nat) : State :=
  match s.sb? ds sb with
  | none => s
  | some x =>
    let old := (mapGet x.reads slot).getD 0
    let new := min (old + n) (2 ^ 32 - 1)
    let lim := if x.slc then s.num K.readDisturbLimitSlc else s.num K.readDisturbLimit
    let s := s.setSb { x with reads := mapPut x.reads slot (some new) }
    if old < lim ∧ lim ≤ new then
      ((s.force ds sb 2).bump K.readDisturbRefreshes).event 0x0810 [(4, ds), (4, sb), (4, slot), (4, new)]
    else s

/-- A block is to be retired once its superblock has been relocated, which is forced (R266, R274). A superblock being written is
closed for it. -/
def State.condemn (s : State) (ds sb slot : Nat) : State :=
  let s := match s.sb? ds sb with
    | some x => if x.st = SbState.open_ then s.evacuate ds sb else s
    | none => s
  match s.sb? ds sb with
  | some x =>
    if x.retireSlots.contains slot then s.force ds sb 1
    else (s.setSb { x with retireSlots := x.retireSlots ++ [slot] }).force ds sb 1
  | none => s

/-- The records that have bytes on the page of a codeword. -/
def State.recsOnPage (s : State) (ds sb q : Nat) : List MediaRec :=
  let page := cwAddr ds sb (q / 4 * 4)
  (s.recsOf ds sb).filter fun r => (s.recPages r fun u => u.ds == ds && u.sb == sb).contains page

/-- A page that neither the ladder nor parity recovers (R246): event 0x0805, and its fragments are to enter the repair queue. -/
def State.pageLost (s : State) (ds sb q steps : Nat) : State :=
  let s := s.event 0x0805 [(5, cwAddr ds sb q), (4, steps)]
  let l := (s.recsOnPage ds sb q).map (·.addr)
  let new := l.filter fun a => !s.media.badAddrs.contains a
  { s with media := { s.media with badAddrs := s.media.badAddrs ++ new, toRepair := s.media.toRepair ++ l } }

/-- Index `n` of a committed stripe enters Welt's repair queue. -/
def State.queueIndex (s : State) (i : StripeId) (n : Nat) : State :=
  match s.recOfStripe i with
  | some c => s.queueRepair c n false
  | none => s

/-- Fragments whose records were lost enter Welt's repair queue (R242, R246). -/
def State.takeLost (s : State) : State :=
  if s.media.toRepair.isEmpty || !s.domOn .welt then s
  else
    let l := s.media.toRepair
    let s := { s with media := { s.media with toRepair := [] } }
    l.foldl (fun s a => match s.recAt a with
      | some r => (match r.body with
        | .slice i n _ => s.queueIndex i n
        | .header i n => s.queueIndex i n
        | _ => s)
      | none => s) s

/-- The slice of a fragment was reported missing to Welt: a read that still runs on it fetches the spare fragment besides (R246). -/
def State.fetchSpare (s : State) (i : StripeId) (n seg : Nat) : State :=
  s.kv.cmds.foldl (fun s c => match c.read with
    | some d =>
      let r := d.rec_
      match d.chunks.find? fun e => e.index == n && e.seg == seg with
      | some e =>
        if r.stripe ≠ i then s
        else match (List.range (layoutWidth r.striped r.k r.m)).find? fun j =>
            (r.holder? j).isSome && !(d.chunks.any fun x => x.index == j && x.seg == seg) with
          | some j =>
            let span := touched (pieces r.valueLen r.k d.off d.len) seg
            let p : Piece := if r.striped then { index := j, seg := seg, off := span.1, len := span.2 - span.1 }
              else { index := j, seg := seg, off := e.off, len := e.len }
            let x := s.fetchPiece c r p
            x.1.onCmd c.sid c.pkt.tag fun c => { c with read := c.read.map fun d => { d with chunks := d.chunks ++ [x.2] } }
          | none => s
      | none => s
    | none => s) s

/-- The foreground ladder failed: the slices on the page are missing, and the row's other pages are read for a rebuild (R246). -/
def State.foregroundFail (s : State) (ds sb slot q : Nat) : State :=
  let others := (((s.sb? ds sb).map (·.slots)).getD []).filter (· != slot)
  let s := others.foldl (fun s i => s.countReads ds sb i 1) s
  (s.recsOnPage ds sb q).foldl (fun s r => match r.body with
    | .slice i n seg => s.fetchSpare i n seg
    | _ => s) s

/-- Record payload bytes of data records in one codeword (R155, R241). -/
def State.cwDataBytes (s : State) (ds sb q : Nat) : Nat :=
  let slc := s.slcAt ds sb
  let cws := unitCws s.media.profile slc
  let lo := q % max 1 cws * cwPayload
  let part (r : MediaRec) : Nat := ((List.range r.span.length).map fun k => match r.span[k]? with
    | some u => if u.ds = ds ∧ u.sb = sb ∧ unitQ s.media.profile slc u = q / max 1 cws * cws then
        let x := recPart s.media.profile slc r k
        min x.2 (lo + cwPayload) - max x.1 lo
      else 0
    | none => 0).sum
  ((s.media.recs.filter fun r => r.body.data).map part).sum

/-- What a codeword's read did, by how it ended (R242, R246, R277): page reads on the block; past LdpcRetrySteps the foreground has
failed. -/
def State.readOutcome (s : State) (ds sb q : Nat) (o : ReadOutcome) : State :=
  let slot := q / max 1 (unitCws s.media.profile (s.slcAt ds sb)) % 32
  let all := profRetries s.media.profile + 1
  match o with
  | .step n =>
    let s := (s.bump K.codewordsRead).countReads ds sb slot (n + 1)
    if s.num K.ldpcRetrySteps < n then s.foregroundFail ds sb slot q else s
  | .parity =>
    let s := (s.countReads ds sb slot all).foregroundFail ds sb slot q
    let s := (s.bump K.dieParityRebuilds).event 0x0804 [(5, cwAddr ds sb (q / 4 * 4))]
    let s := s.condemn ds sb slot
    ((s.recsOnPage ds sb q).filter fun r => s.recValid r && !s.moving r.addr && r.units.isEmpty).foldl (fun s r =>
      s.copyRec ds sb r (match s.sb? ds sb with | some x => s.moveStream x r | none => 2)) s
  | .lost =>
    let s := (s.countReads ds sb slot all).foregroundFail ds sb slot q
    ((s.pageLost ds sb q (profRetries s.media.profile)).condemn ds sb slot).takeLost

/-- A codeword's read was issued: what it did, and its report to Shank whether it needed step 1 or beyond (R246). -/
def State.readIssued (s : State) (addr : Nat) (o : ReadOutcome) (tagFails : Nat) : State :=
  let (ds, sb, q) := addrParts (addr * 4096)
  let retried := o != .step 0
  let s := s.addTo K.codewordTagFail tagFails
  let s := if retried then s.bump K.pagesRetried else s
  let got := if o = .lost then 0 else s.cwDataBytes ds sb q
  let s := { s with shank := { s.shank with readBytes := s.shank.readBytes + got } }
  let (ds', slot) := s.slotOf (addr * 4096)
  let s := { s with media := { s.media with pageReads := s.media.pageReads + 1, pageRetries := s.media.pageRetries + bit retried,
                                            notReady := s.media.notReady.filter fun n => !(n.1 == ds' && n.2.1 == slot) } }
  s.readOutcome ds sb q o

/-- The token limit that Insole keeps to: FlushTokens in a flush, and until a lowering takes effect the old limit (R140, R252). -/
def State.opLimit (s : State) : Nat :=
  if s.inFlush then s.media.flushTokens
  else match s.shank.oldLimit with
    | some o => if s.ptp < s.shank.effectiveAt then o else s.tokenLimit
    | none => s.tokenLimit

/-- The deadline of an operation that Shank has booked nothing for: after all others. -/
abbrev noDeadline : Nat := 2 ^ 80

/-- The least of some deadlines. -/
def leastOf (l : List Nat) : Nat := l.foldl min noDeadline

/-- The deadline booked for a record's write: by its command, or by a peer's reservation. -/
def State.recDeadline (s : State) (r : MediaRec) : Nat :=
  match r.body.stripe? with
  | none => noDeadline
  | some i => leastOf ((s.shank.books.filter fun b => match b.owner with
      | .frag j _ => j == i
      | .cmd sid tag => (s.cmd? sid tag).any fun c => c.write.any (·.stripe == i)).map (·.deadline))

/-- The deadline of an operation as Shank booked it: of the records in a unit; for a read, the first booked on its die (R254, log
117). -/
def State.opDeadline (s : State) : OpKind → Nat
  | .program u => leastOf ((s.media.recs.filter fun r => r.units.contains u).map s.recDeadline)
  | .erase .. => noDeadline
  | .read a _ _ =>
    let x := s.slotOf (a * 4096)
    leastOf ((s.shank.books.filter fun b => b.res == .die (dieNo x.1 x.2)).map (·.deadline))

/-- The place of an operation in the order: its deadline; while HOLDUP_OK is deasserted, the records that completed commands rely on
come first (R253, R254). -/
def State.opRank (s : State) (o : OpKind) : Nat :=
  match o with
  | .program u =>
    if !s.mode.holdupOk && s.media.recs.any fun r => r.units.contains u && r.body.stripe?.isSome && s.relied r then 0
    else s.opDeadline o + 1
  | _ => s.opDeadline o + 1

/-- An operation runs at a time: issued, not yet at the end of its busy time. -/
def State.opRuns (s : State) (o : ArrayOp) (t : Nat) : Bool := o.issuedAt.any fun a => decide (t < a + s.opBusy o)

/-- Tokens free at a time (R139). -/
def State.freeTokens (s : State) (t : Nat) : Nat := s.opLimit - ((s.media.ops.filter fun o => s.opRuns o t).map fun o => s.opCost o.kind).sum

/-- An operation's die runs another one. -/
def State.dieBusy (s : State) (o : ArrayOp) (t : Nat) : Bool :=
  let x := s.opPlace o.kind
  s.media.ops.any fun y => y.no != o.no && s.opRuns y t && (let z := s.opPlace y.kind; z.1 == x.1 && z.2.2 == x.2.2)

/-- An operation could be issued at a time but for tokens: its die is free, no calibration holds it, and nothing is programmed before
the superblock's SB_OPEN is (R238, R282). -/
def State.opReady (s : State) (t : Nat) (o : ArrayOp) : Bool :=
  o.issuedAt.isNone && decide (o.since ≤ t) && decide (s.media.zqHold ≤ t) && !s.dieBusy o t &&
    (match o.kind with
     | .program u => s.writable && s.openLogged u
     | .erase .. => s.writable
     | .read .. => s.domOn .media)

/-- When enough tokens for a cost would all be free, by the maximum busy times of what runs (R254). -/
def State.tokensAt (s : State) (t cost : Nat) : Nat :=
  let run := s.media.ops.filter fun o => s.opRuns o t
  let ends := run.map fun o => o.issuedAt.getD t + s.opBusy o
  leastOf (ends.filter fun e => decide (cost ≤ s.freeTokens t + ((run.filter fun o => decide (o.issuedAt.getD t + s.opBusy o ≤ e)).map
    fun o => s.opCost o.kind).sum))

/-- The operation of earliest deadline of a list, the older one among equals. -/
def State.firstOp (s : State) (l : List ArrayOp) : Option ArrayOp :=
  l.foldl (fun (b : Option ArrayOp) o => match b with
    | some x => if s.opRank o.kind < s.opRank x.kind then some o else some x
    | none => some o) none

/-- The operation that is issued next at a time (R254): the earliest deadline where its tokens are free; else a later one that fits in the
tokens left and ends before the waiting one's tokens would all be free. -/
def State.nextOp (s : State) (t : Nat) : Option ArrayOp :=
  let l := s.media.ops.filter (s.opReady t)
  match s.firstOp l with
  | none => none
  | some o =>
    if s.opCost o.kind ≤ s.freeTokens t then some o
    else
      let e := s.tokensAt t (s.opCost o.kind)
      s.firstOp (l.filter fun x => x.no != o.no && decide (s.opCost x.kind ≤ s.freeTokens t) && decide (t + s.opBusy x ≤ e))

/-- An erase that a waiting read cannot otherwise meet its earlier deadline for (R255). -/
def State.eraseInWay (s : State) (t : Nat) : Option ArrayOp :=
  if !profSuspend s.media.profile then none
  else s.media.ops.find? fun e =>
    (match e.kind with | .erase .. => true | _ => false) && s.opRuns e t && decide (e.suspends < 4) &&
      s.media.ops.any fun r => (match r.kind with | .read .. => true | _ => false) && r.issuedAt.isNone && decide (r.since ≤ t) &&
        (let x := s.opPlace e.kind; let y := s.opPlace r.kind; x.1 == y.1 && x.2.2 == y.2.2) &&
        decide (s.opDeadline r.kind < noDeadline) && decide (s.opDeadline r.kind < e.issuedAt.getD t + s.opBusy e + s.opBusy r)

/-- An operation is issued: it takes its tokens, and its wait for them is counted. A read does its work (R139, R246). -/
def State.issueOp (s : State) (o : ArrayOp) (t : Nat) : State :=
  let s := { s with media := { s.media with ops := s.media.ops.map fun x => if x.no = o.no then { x with issuedAt := some t, tokenWait := none } else x } }
  let s := match o.tokenWait with | some w => s.addTo K.tokenWaitNs (t - w) | none => s
  match o.kind with
  | .read a out tags => s.readIssued a out tags
  | _ => s

/-- Everything that can be issued at a time is. -/
def State.issueAll : Nat → State → Nat → State
  | 0, s, _ => s
  | fuel + 1, s, t =>
    let s := match s.eraseInWay t with | some e => s.suspendOp e t | none => s
    match s.nextOp t with
    | some o => State.issueAll fuel (s.issueOp o t) t
    | none =>
      let wait (x : ArrayOp) : ArrayOp := if s.opReady t x && x.tokenWait.isNone then { x with tokenWait := some t } else x
      { s with media := { s.media with ops := s.media.ops.map wait } }

/-- The sequencers go on from a time to the present: whenever an operation's busy time ends, others may be issued. -/
def State.opsFrom : Nat → State → Nat → State
  | 0, s, _ => s
  | fuel + 1, s, t =>
    let s := State.issueAll (s.media.ops.length + 5) s t
    let next := leastOf (((s.media.ops.filter fun o => s.opRuns o t).map fun o => o.issuedAt.getD t + s.opBusy o).filter (· ≤ s.now))
    if next = noDeadline then s else State.opsFrom fuel s next

/-- An operation is given to its sequencer. -/
def State.giveOp (s : State) (k : OpKind) : State :=
  { s with media := { s.media with ops := s.media.ops ++ [{ no := s.media.opNo, kind := k, since := s.now }], opNo := s.media.opNo + 1 } }

/-- Program units that are full and wait for nothing but their turn (R250). -/
def State.fullUnits (s : State) : List UnitId :=
  let open_ := s.media.streams.flatMap (·.open_)
  if s.inFlush then [] else ((s.media.recs.flatMap (·.units)).filter fun u => u.stream != 255 && !open_.contains u && !(s.media.ops.any fun o => o.kind == OpKind.program u)).eraseDups

/-- An operation that the sequencer still has to do with. -/
def State.opStands (s : State) (o : ArrayOp) : Bool :=
  match o.kind with
  | .program u => s.unitPending u
  | .erase ds sb _ => s.media.erasing.contains (ds, sb)
  | .read .. => o.issuedAt.isNone || s.opRuns o s.now

/-- The sequencers' work up to now (R254): full units are given to them, and operations issued in order. -/
def State.runOps (s : State) : State :=
  let s := s.fullUnits.foldl (fun s u => s.giveOp (.program u)) s
  if s.media.ops.isEmpty then s
  else
    let s := State.opsFrom (2 * s.media.ops.length + 2) s s.media.opsAt
    { s with media := { s.media with ops := s.media.ops.filter s.opStands, opsAt := s.now } }

/-- The program of a unit is issued by now; a unit that is still being filled is given to the sequencer for it. -/
def State.issueUnit (s : State) (u : UnitId) : State :=
  (if s.media.ops.any fun o => o.kind == OpKind.program u then s else s.giveOp (.program u)).runOps

/-- A unit's program has been issued. -/
def State.issued (s : State) (u : UnitId) : Bool := s.media.ops.any fun o => o.kind == OpKind.program u && o.issuedAt.isSome

/-- Every block of a superblock's erase has been issued and none is suspended. -/
def State.erasesIssued (s : State) (ds sb : Nat) : Bool :=
  s.media.ops.all fun o => match o.kind with | .erase a b _ => !(a == ds && b == sb) || o.issuedAt.isSome | _ => true

end Sys2Proof.Machine
end

