-- ==== Sys2Proof/Machine/Repair.lean ====
section
/-! DEFINITION. Repair and rebalance of committed stripes (07 R225 to R227). -/

namespace Sys2Proof.Machine

/-- The repair of a stripe index. -/
def State.repair? (s : State) (i : StripeId) (idx : Nat) : Option Repair := s.welt.repairs.find? fun q => q.stripe == i && q.index == idx

/-- Replaces a repair. -/
def State.setRepair (s : State) (q : Repair) : State :=
  { s with welt := { s.welt with repairs := s.welt.repairs.map fun (x : Repair) => if x.stripe = q.stripe ∧ x.index = q.index then q else x } }

/-- A repair leaves the queue, its messages with it. -/
def State.dropRepair (s : State) (q : Repair) : State :=
  ({ s with welt := { s.welt with repairs := s.welt.repairs.filter fun x => !(x.stripe == q.stripe && x.index == q.index),
                                  msgs := s.welt.msgs.filter fun m => !(m.repair && m.stripe == q.stripe && m.index == q.index) } } : State).stirred

/-- A repair goes back to the queue. -/
def State.requeue (s : State) (q : Repair) : State :=
  let s := { s with welt := { s.welt with msgs := s.welt.msgs.filter fun m => !(m.repair && m.stripe == q.stripe && m.index == q.index) } }
  s.setRepair { q with st := .queued, sources := [], off := 0, got := [], slices := [], confirmed := [] }

/-- The highest-ranked placeable member that holds no index of a stripe (R226). -/
def State.repairTarget (s : State) (r : CommitRec) : Option Nat :=
  (((s.welt.cur.map fun g => g.ranked r.hash).getD []).find? fun m => !r.holders.contains m)

/-- No write on the key stands before the repair in its order (R226). -/
def State.keyFree (s : State) (q : Repair) : Bool :=
  !(s.kv.cmds.any fun c => c.openWrite && (match c.write with | some w => w.hash == q.hash | none => false) &&
    s.instOf c.pkt.ns c.pkt.gen == some q.inst)

/-- A repair may start: its stripe is current, this drive is its home, the key is free and a target exists. -/
def State.repairable (s : State) (q : Repair) : Bool :=
  match s.recOfStripe q.stripe with
  | none => false
  | some r => s.isHome r.hash && s.keyFree q && (s.repairTarget r).isSome

/-- Intact fragments of a queued stripe: its width less the indices that wait for repair (R227). -/
def State.intactOf (s : State) (q : Repair) : Nat :=
  match s.recOfStripe q.stripe with
  | none => 0
  | some r => layoutWidth r.striped r.k r.m - (s.welt.repairs.filter fun x => x.stripe == q.stripe && !x.rebalance).length

/-- A queued stripe that comes before another (R227). -/
def State.repairBeforeQ (s : State) (a b : Repair) : Bool :=
  decide (s.intactOf a < s.intactOf b) || (s.intactOf a == s.intactOf b && decide (a.hash < b.hash))

/-- No other queued stripe of its kind comes before it. -/
def State.repairNext (s : State) (q : Repair) : Bool :=
  !((s.welt.repairs.filter fun x => x.rebalance == q.rebalance && x.st == RepairSt.queued && s.repairable x).any fun x => s.repairBeforeQ x q)

/-- The window of 100 ms that the present time falls in. -/
def State.rateWindow (s : State) : State :=
  let w := s.now / (100 * nsMs)
  if s.welt.rebuildWin = w then s
  else { s with welt := { s.welt with rebuildWin := w, rebuildBytes := 0, rebalanceBytes := 0 } }

/-- Bytes of the window's allowance that are left (R227). -/
def State.rateLeft (s : State) (rebalance : Bool) : Nat :=
  if rebalance then s.num K.rebalanceRateMBps * 100000 - s.welt.rebalanceBytes else s.num K.rebuildRateMBps * 100000 - s.welt.rebuildBytes

/-- Ports and DRAM can move `n` bytes within a window beside all that Shank has booked (R127, R227). -/
def State.unbooked (s : State) (n : Nat) : Bool :=
  let e := s.now + 100 * nsMs
  [(Res.port, n), (Res.dram, 2 * n)].all fun x =>
    let c := s.cap x.1
    decide ((owedBy s.shank.books x.1 e + x.2) * c.2 ≤ c.1 * (e - s.now))

/-- Bytes read count against their window. -/
def State.rateCount (s : State) (rebalance : Bool) (n : Nat) : State :=
  let s := s.addTo K.weltRebuildReadBytes n
  if rebalance then { s with welt := { s.welt with rebalanceBytes := s.welt.rebalanceBytes + n } }
  else { s with welt := { s.welt with rebuildBytes := s.welt.rebuildBytes + n } }

/-- Length of a fragment of a committed state. -/
def CommitRec.fragLen (r : CommitRec) : Nat := Machine.fragLen r.striped r.valueLen r.k

/-- Segments of a fragment of a committed state. -/
def CommitRec.segs (r : CommitRec) : Nat := segmentsOf r.striped r.valueLen r.k

/-- A whole fragment that this drive holds intact. -/
def State.ownFrag (s : State) (r : CommitRec) (i : Nat) : Option Bytes :=
  ((List.range r.segs).foldl (fun (b : Option Bytes) g => b.bind fun x => (s.ownSlice r.stripe i g).map fun y => x ++ y) (some []))

/-- This drive's own fragments of a stripe that are not intact enter the queue themselves (R225). -/
def State.queueOwnBad (s : State) (r : CommitRec) : State :=
  if r.segs = 0 then s
  else ((s.ownIndices r).filter fun i => (s.ownFrag r i).isNone).foldl (fun s i => s.queueRepair r i false) s

/-- Indices that a repair reads: any k intact ones, or one copy of a mirrored value; a rebalance reads the index itself. -/
def State.repairSources (s : State) (r : CommitRec) (q : Repair) : List Nat :=
  if q.rebalance then [q.index]
  else
    let ok (i : Nat) : Bool := i != q.index && !(s.welt.repairs.any fun x => x.stripe == q.stripe && x.index == i && !x.rebalance) &&
      (match r.holder? i with | some m => if m = s.selfId then (s.ownFrag r i).isSome else s.canServe m | none => false)
    ((List.range (layoutWidth r.striped r.k r.m)).filter ok).take (if r.striped then r.k else 1)

/-- The header under which a repaired fragment is reserved: Deadline 0, the present epoch (R226, R477). -/
def State.repairHdr (s : State) (r : CommitRec) (idx : Nat) : FragHdr :=
  { index := idx, k := r.k, m := r.m, ns := r.ns, gen := r.gen, epoch := s.epoch, stripe := r.stripe, kind := if r.tombstone then 0x12 else 0x10,
    attrs := r.attrs, durable := false, segments := r.segs, expected := 0, valueLen := r.valueLen, hash := r.hash, stamp := r.stamp,
    deadline := 0, lastChunk := r.lastChunk, fragLen := r.fragLen, key := r.key }

/-- The slices of a fragment. -/
def CommitRec.cut (r : CommitRec) (b : Bytes) : List Bytes :=
  (List.range r.segs).map fun g => if r.striped then sliceBytes b (g * chunkC) (chunkOf r.valueLen r.k g) else b

/-- The lost index recomputed from the fragments read (R204, R205). -/
def CommitRec.rebuild (r : CommitRec) (idx : Nat) (got : List (Nat × Nat × Bytes)) : List Bytes :=
  if !r.striped then [((got.head?.map (·.2.2)).getD [])].take r.segs
  else (List.range r.segs).map fun g =>
    let c := chunkOf r.valueLen r.k g
    fragChunk r.k r.m idx (rsDecode r.k r.m (got.map fun x => (x.1, sliceBytes x.2.2 (g * chunkC) c)))

/-- The repaired index is durable at its target: new record, HOLDERS to every holder, REPLACED to the former one (R226). -/
def State.repairDone (s : State) (q : Repair) (r : CommitRec) : State :=
  let former := r.holders.getD q.index 0xFFFF
  let bit_ := if r.mask / 2 ^ q.index % 2 = 1 then 0 else 2 ^ q.index
  let r' := { r with holders := r.holders.set q.index q.target, mask := r.mask + bit_, revision := (r.revision + 1) % 256 }
  let s := (s.dropRepair q).writeCommit r' q.inst false (s.media.raw.any fun v => v.stripe == r.stripe)
  let s := (s.fragsOf r.stripe).foldl (fun s f => s.commitFrag f r') s
  let s := (s.otherHolders r').foldl (fun s x => s.sendCommit x.2 2 x.1 r') s
  let s := if former = s.selfId then s.releaseFrag r.stripe q.index
    else if former ≠ 0xFFFF ∧ s.memberReachable former = true then s.sendRelease former r.stripe q.index 3 none else s
  (s.bump K.weltRepairedFragments).event 0x0706 (r.stripe.fields ++ [(1, q.index), (2, former), (2, q.target)])

/-- The slices are there: they are placed here, or reserved for at the target (R226). -/
def State.repairPlace (s : State) (q : Repair) (r : CommitRec) : State :=
  let h := s.repairHdr r q.index
  if q.target = s.selfId then
    let s := if (s.frag? r.stripe q.index).isSome then s else s.addFrag h 0xFFFFFFFFFFFFFFFF
    let fk := (s.fragKey r.ns r.gen).getD []
    let s := (List.range q.slices.length).foldl (fun s g => match s.frag? r.stripe q.index with
      | some f => let b := q.slices.getD g []; s.addSlice f g b (sliceCheck fk r.stripe q.index g b)
      | none => s) s
    s.repairDone q r
  else
    (s.setRepair { q with st := .reserving }).sendReserve q.target 3 h fun m => { m with repair := true }

/-- Bytes of a source that have come. -/
def Repair.have_ (q : Repair) (i : Nat) : Nat := ((q.got.find? (·.1 == i)).map (·.2.2.length)).getD 0

/-- Bytes of a source are added to those that came before. -/
def Repair.take (q : Repair) (i : Nat) (b : Bytes) : Repair :=
  if q.got.any (·.1 == i) then { q with got := q.got.map fun x => if x.1 = i then (i, 0, x.2.2 ++ b) else x }
  else { q with got := q.got ++ [(i, 0, b)] }

/-- Every source has come whole: the index is recomputed or copied (R226). -/
def State.repairRead (s : State) (q : Repair) (r : CommitRec) : State :=
  if r.segs ≠ 0 ∧ (q.sources.any fun i => decide (q.have_ i < r.fragLen)) then s.setRepair q
  else
    let slices := if r.segs = 0 then [] else if q.rebalance then r.cut ((q.got.head?.map (·.2.2)).getD []) else r.rebuild q.index q.got
    let q := { q with slices := slices, got := [] }
    (s.setRepair q).repairPlace q r

/-- The next bytes of every source are read, as many as the window's allowance and the capacity that Shank has not booked let (R226,
R227). -/
def State.repairMore (s : State) (q : Repair) (r : CommitRec) : State :=
  let n := min (r.fragLen - q.off) (s.rateLeft q.rebalance / max 1 q.sources.length)
  if r.segs ≠ 0 ∧ (n = 0 ∨ s.unbooked (n * q.sources.length) = false) then s.setRepair q
  else
    let s := s.rateCount q.rebalance (n * q.sources.length)
    let own := q.sources.filter fun i => r.holder? i == some s.selfId
    let q' := own.foldl (fun (q' : Repair) i => q'.take i (sliceBytes ((s.ownFrag r i).getD []) q.off n)) { q with off := q.off + n }
    let s := s.setRepair q'
    let s := q.sources.foldl (fun s i => match r.holder? i with
      | some m => if m = s.selfId then s else
          s.sendGet m r.ns r.gen 3 r.stripe i q.off n 0 fun x => { x with repair := true, seg := i, index := q.index }
      | none => s) s
    s.repairRead q' r

/-- The target lacks the fragment: its bytes are read (R226). A fragment of this drive's own that is not intact is no source and is
queued itself. -/
def State.repairFetch (s : State) (q : Repair) (r : CommitRec) : State :=
  let s := s.queueOwnBad r
  let need := if r.segs = 0 then [] else s.repairSources r q
  if r.segs ≠ 0 ∧ !q.rebalance ∧ need.length < (if r.striped then r.k else 1) then s.requeue q
  else s.repairMore { q with st := .reading, sources := need, off := 0, got := [] } r

/-- A repair or rebalance starts (R226): the target is asked what it holds of the key. -/
def State.repairStart (s : State) (q : Repair) (r : CommitRec) : State :=
  match s.repairTarget r with
  | none => s
  | some m =>
    let s := s.requeue q
    let q := { q with st := .asking, target := m, sources := [], off := 0, got := [], slices := [], confirmed := [] }
    let s := s.setRepair q
    if m = s.selfId then s.repairFetch q r
    else s.sendQuery m 1 (zeros 16) r.hash r.hash fun x => { x with repair := true, stripe := q.stripe, index := q.index }

/-- The target's HOLDINGS: a fragment already there needs no second transfer (R226). -/
def State.repairHoldings (s : State) (q : Repair) (r : CommitRec) (entries : Bytes) : State :=
  let n := entries.length / 40
  let has := (List.range n).any fun i =>
    let e := sliceBytes entries (40 * i) 40
    e.take 16 == q.stripe.bytes && beAt e 32 1 == q.index && beAt e 33 1 == 1
  if has then s.repairDone q r else s.repairFetch q r

/-- Bytes of a source have come, or have failed; a source found bad enters the queue itself, and is none of the next attempt's
(R225, R226). -/
def State.repairGot (s : State) (q : Repair) (r : CommitRec) (idx : Nat) (b : Option Bytes) (bad : Bool) : State :=
  match b with
  | none => let s := s.requeue q; if bad then s.queueRepair r idx false else s
  | some b => s.repairRead (q.take idx b) r

/-- The target has answered the reservation (R226). -/
def State.repairReserved (s : State) (q : Repair) (r : CommitRec) (ok : Bool) : State :=
  if !ok then s.requeue q
  else if r.segs = 0 then s.repairDone q r
  else
    let s := s.setRepair { q with st := .putting }
    let fk := (s.fragKey r.ns r.gen).getD []
    (List.range q.slices.length).foldl (fun s g =>
      let b := q.slices.getD g []
      s.sendPut q.target r.ns r.gen 3 r.stripe q.index g b (sliceCheck fk r.stripe q.index g b) fun m => { m with repair := true }) s

/-- The target has answered a slice (R226). -/
def State.repairPut (s : State) (q : Repair) (r : CommitRec) (seg : Nat) (ok : Bool) : State :=
  if !ok then s.requeue q
  else
    let q := { q with confirmed := seg :: q.confirmed }
    if (List.range r.segs).all fun g => q.confirmed.contains g then s.repairDone q r else s.setRepair q

/-- A fetch for the repair has not been answered. -/
def State.repairAsks (s : State) (q : Repair) : Bool :=
  s.welt.msgs.any fun m => m.repair && m.pkt.opcode == 0x72 && m.stripe == q.stripe && m.index == q.index

/-- STRIPE_REPAIR and STRIPE_REBALANCE: the next stripe of the queue starts, or the next bytes of one that is being read are asked for,
as the rate allows (R225 to R227). One whose target has been lost starts again. -/
def State.runRepair (s : State) (i : StripeId) (idx : Nat) (rebalance : Bool) : State :=
  match s.repair? i idx with
  | none => s
  | some q =>
    let s := s.rateWindow
    if q.rebalance ≠ rebalance ∨ !s.serving then s
    else match s.recOfStripe i with
      | none => s.dropRepair q
      | some r =>
        if q.st = .queued ∨ s.welt.lost.contains q.target = true then
          (if s.repairable q && s.repairNext q && decide (0 < s.rateLeft rebalance) then s.repairStart q r else s)
        else if q.st = .reading ∧ s.repairAsks q = false then s.repairMore q r
        else s

/-- STRIPE_REPAIR: a lost fragment is recomputed and placed on the target (R226). -/
def execStripeRepair (t : Nat) (stripe : StripeId) (index : Nat) (s : State) : Host.Outcome State Fault Refusal :=
  done ((s.advance t).runRepair stripe index false).settle

/-- STRIPE_REBALANCE: a fragment is copied from a DRAINING or absent holder (R226). -/
def execStripeRebalance (t : Nat) (stripe : StripeId) (index : Nat) (s : State) : Host.Outcome State Fault Refusal :=
  done ((s.advance t).runRepair stripe index true).settle

end Sys2Proof.Machine
end

