-- ==== Sys2Proof/Machine/Peers.lean ====
section
/-! DEFINITION. What peers answer, and Welt's own timers: reservations, slices, fetches, releases, commits, queries, repeats,
orphans, epochs, handoff, namespace convergence (07 R198 to R230, R476). -/

namespace Sys2Proof.Machine

/-- The write in progress that a message belongs to. -/
def State.writeOf (s : State) (m : PeerMsg) : Option (CmdCtx × WriteCtx) :=
  match m.cmd with
  | none => none
  | some (sid, tag) => match s.cmd? sid tag with
    | none => none
    | some c => match c.write with
      | some w => if w.stripe = m.stripe then some (c, w) else none
      | none => none

/-- The repair that a message belongs to, with its stripe's record. -/
def State.repairOf (s : State) (m : PeerMsg) : Option (Repair × CommitRec) :=
  if !m.repair then none
  else match s.repair? m.stripe m.index, s.recOfStripe m.stripe with
    | some q, some r => some (q, r)
    | _, _ => none

/-- Sessions out of packet numbers close (R63), what waited may go on, the array's sequencers too (08 R254), and faults that entered or
left the model are recorded (05 R138). A media write counter whose last values are used up sends the drive to HALT (10 R302). -/
def State.goneOn (s : State) : State :=
  let s := s.checkPns.settle.runOps.takeLost.review.noteFaults
  if 2 ^ 64 ≤ s.sec.counter then s.goHalt .counter else s

/-- A command ends in the state so reached. -/
def State.afterReply (s : State) : Host.Outcome State Fault Refusal := done s.goneOn

/-- RetryAfterUs of a refusal, 0 of any other failure (Table 4.7). -/
def retryOf (status : Nat) (body : Bytes) : Nat := if status = stNotAdmitted then beAt body 0 4 else 0

/-- A peer has answered a write's reservation (R141, R143). A reservation granted after the write has ended is released; one
granted after admission receives every slice already produced (R214). -/
def State.reserveAnswer (s : State) (m : PeerMsg) (status : Nat) (body : Bytes) : State :=
  match s.writeOf m with
  | none => if status = stOk then s.sendRelease m.member m.stripe m.index 1 none else s
  | some (c, w) =>
    if c.st = .committed ∨ c.st = .releasing then
      if status = stOk then s.sendRelease m.member m.stripe m.index 1 none else s
    else if status ≠ stOk then
      s.onHolder c.sid c.pkt.tag m.index fun h => { h with reserved := some false, retryUs := retryOf status body }
    else
      let s := s.onHolder c.sid c.pkt.tag m.index fun h => { h with reserved := some (!h.failed), mediaBy := beAt body 0 8 }
      if c.st = .phaseOne then s
      else match w.holders.find? fun h => h.index == m.index with
        | some h => s.sendSlices c w h (List.range w.segmentsDone)
        | none => s

/-- FRAG_RESERVE_REPLY (R141, R143, R226). -/
def execFragReserveReply (t : Nat) (r : PeerReply) (s : State) : Host.Outcome State Fault Refusal :=
  let s := s.advance t
  match s.peerReply r with
  | (s, none) => done s
  | (s, some m) =>
    if m.repair then
      match s.repairOf m with
      | some (q, x) => (s.repairReserved q x (r.status == stOk)).afterReply
      | none => done s
    else
      let s := s.reserveAnswer m r.status r.body
      match s.writeOf m with
      | some (c, _) => (s.phaseOne c).afterReply
      | none => s.afterReply

/-- A holder of a write has failed: before the commit it is marked, afterwards its index enters the repair queue (R214). -/
def State.holderFails (s : State) (m : PeerMsg) : State :=
  let s := { s with welt := { s.welt with msgs := s.welt.msgs.filter fun x => !(x.pkt.opcode == 0x71 && !x.repair && x.stripe == m.stripe && x.index == m.index) } }
  match s.writeOf m with
  | some (c, _) =>
    if c.st = .committed ∨ c.st = .releasing then s
    else s.onHolder c.sid c.pkt.tag m.index fun h => { h with failed := true }
  | none => s

/-- The last slice of an index has been confirmed after the stripe's commit: the index is durable though HolderMask does not say so
(R214, R225). -/
def State.noteLate (s : State) (m : PeerMsg) : State :=
  let more := s.welt.msgs.any fun x => x.stripe == m.stripe && x.index == m.index && !x.repair && x.pkt.opcode == 0x71
  if more || (s.recOfStripe m.stripe).isNone || s.welt.confirmed.contains (m.stripe, m.index) then s
  else { s with welt := { s.welt with confirmed := (m.stripe, m.index) :: s.welt.confirmed } }

/-- A holder has confirmed a slice (R214). -/
def State.putAnswer (s : State) (m : PeerMsg) (status : Nat) (body : Bytes) : State :=
  if status ≠ stOk then (s.holderFails m).failRepair m
  else match s.writeOf m with
    | none => s.noteLate m
    | some (c, _) => (s.noteLate m).onHolder c.sid c.pkt.tag m.index fun h =>
        { h with confirmed := m.seg :: h.confirmed, onMedia := if beAt body 0 1 = 2 then m.seg :: h.onMedia else h.onMedia, mediaBy := beAt body 8 8 }

/-- FRAG_PUT_REPLY (R214, R226). -/
def execFragPutReply (t : Nat) (r : PeerReply) (s : State) : Host.Outcome State Fault Refusal :=
  let s := s.advance t
  match s.peerReply r with
  | (s, none) => done s
  | (s, some m) =>
    if m.repair then
      match s.repairOf m with
      | some (q, x) => (s.repairPut q x m.seg (r.status == stOk)).afterReply
      | none => done s
    else (s.putAnswer m r.status r.body).afterReply

/-- The bytes of a fetch, if it ended OK with all of them. -/
def fetched (m : PeerMsg) (status : Nat) : Option Bytes :=
  if status = stOk ∧ m.pkt.param 24 4 ≤ m.got.length then some (m.got.take (m.pkt.param 24 4)) else none

/-- FRAG_GET_REPLY (R218, R226): the piece has come, or is missing; a fragment found bad enters the repair queue. -/
def execFragGetReply (t : Nat) (r : PeerReply) (s : State) : Host.Outcome State Fault Refusal :=
  let s := s.advance t
  match s.peerReply r with
  | (s, none) => done s
  | (s, some m) =>
    if m.repair then
      match s.repairOf m with
      | some (q, x) => (s.repairGot q x m.seg (fetched m r.status) (r.status == stNotFound || r.status == stMedia)).afterReply
      | none => done s
    else
      let s := match s.recOfStripe m.stripe with
        | some x => if r.status = stNotFound ∨ r.status = stMedia then s.queueRepair x m.index false else s
        | none => s
      match m.cmd with
      | none => done s
      | some (sid, tag) =>
        let off := m.pkt.param 20 4
        let off := match (s.cmd? sid tag).bind (·.read) with
          | some d => if d.rec_.striped then off - m.seg * chunkC else off
          | none => off
        (s.pieceCame sid tag m.index m.seg off (m.pkt.param 24 4) (fetched m r.status)).afterReply

/-- FRAG_RELEASE_REPLY (R215, R476): repeats stop, and the acknowledgement counts. -/
def execFragReleaseReply (t : Nat) (r : PeerReply) (s : State) : Host.Outcome State Fault Refusal :=
  let s := s.advance t
  match s.peerReply r with
  | (s, none) => done s
  | (s, some m) =>
    match s.writeOf m with
    | some (c, _) => (s.onHolder c.sid c.pkt.tag m.index fun h => { h with releaseAcked := true }).afterReply
    | none => s.afterReply

/-- An index entry goes, with its REMOVE_LOG (Table 9.3, R173). -/
def State.dropEntry (s : State) (x : Resolved) : State :=
  let s := s.journal 48 (.removeLog x.rec_.hash x.rec_.version x.entry.fp x.entry.inst)
  (s.sbTouched x.entry.loc).removeEntry x.slot

/-- A new home has acknowledged a HANDOFF: the old home removes its own index entry (R220). -/
def State.handoffAcked (s : State) (i : StripeId) : State :=
  match s.recOfStripe i with
  | none => s
  | some r => if s.isHome r.hash then s else match s.current r.ns r.gen r.hash r.key with
    | some (x, _) => s.dropEntry x
    | none => s

/-- A holder has answered a STRIPE_COMMIT (R214, R217, R220, R228). -/
def State.commitAnswer (s : State) (m : PeerMsg) (status : Nat) : State :=
  let kind := m.pkt.param 0 1
  if kind = 1 ∨ kind = 2 then
    if status = stNotFound ∨ status = stMedia then
      match s.recOfStripe m.stripe with
      | some r => s.queueRepair r m.index false
      | none => s
    else s
  else if kind = 3 then (if status = stOk then s.handoffAcked m.stripe else s)
  else if kind = 0x10 ∨ kind = 0x11 then
    match m.cmd with
    | some (sid, tag) => if status = stOk then s.nsAck sid tag m.member else s
    | none => s
  else s

/-- STRIPE_COMMIT_REPLY. -/
def execStripeCommitReply (t : Nat) (r : PeerReply) (s : State) : Host.Outcome State Fault Refusal :=
  let s := s.advance t
  match s.peerReply r with
  | (s, none) => done s
  | (s, some m) => (s.commitAnswer m r.status).afterReply

/-- Records of a KEY_STATE answer: commit copies and PENDING headers, by RecordType and KeyLength (R210). -/
def parseKeyState : Nat → Bytes → List CommitRec × List (FragHdr × Bool)
  | 0, _ => ([], [])
  | fuel + 1, b =>
    if b.length < 96 then ([], [])
    else
      let kl := beAt b 4 2
      if beAt b 0 1 = 0x31 then
        let r := parseKeyState fuel (b.drop (144 + kl))
        (CommitRec.ofBytes b (sliceBytes b 144 kl) :: r.1, r.2)
      else if beAt b 0 1 = 0x30 then
        let r := parseKeyState fuel (b.drop (96 + kl))
        (r.1, (FragHdr.ofBytes b (sliceBytes b 96 kl), bitAt (beAt b 35 1) 1) :: r.2)
      else ([], [])

/-- A gathering whose answers have all come and that leaves nothing to resolve is adopted (R221, R222). -/
def State.adoptGather (s : State) (ns gen hash : Nat) : State :=
  match s.gather? ns gen hash with
  | none => s
  | some g => if g.awaiting.isEmpty && g.pending.isEmpty then g.copies.foldl (fun s r => s.adopt r) s else s

/-- A KEY_STATE answer (R220, R222, R223). -/
def State.keyStateAnswer (s : State) (m : PeerMsg) : State :=
  let ns := m.stripe.home
  let gen := m.stripe.boot
  let hash := m.stripe.serial
  match s.gather? ns gen hash with
  | none => s
  | some g =>
    let l := parseKeyState (m.got.length + 1) m.got
    let copies := l.1.filter fun r => r.ns == ns && r.gen == gen
    let pend := if s.oldHomeGone hash then
        (l.2.filter fun h => h.1.ns == ns && h.1.gen == gen).map fun h => ({ hdr := h.1, member := m.member, complete := h.2 } : Pending)
      else []
    let g := { g with awaiting := g.awaiting.filter (· != m.member), copies := g.copies ++ copies, pending := g.pending ++ pend }
    (s.setGather g).adoptGather ns gen hash

/-- The StripeId that a RESOLVE asked about. -/
def PeerMsg.subject (m : PeerMsg) : StripeId := StripeId.ofBytes (sliceBytes m.pkt.params 16 16)

/-- A RESOLVE has been answered (R219). -/
def State.resolveAnswer (s : State) (m : PeerMsg) (status : Nat) (body : Bytes) : State :=
  match s.frag? m.subject m.index with
  | none => s
  | some f =>
    if f.committed then s
    else
      let later := s.setFrag { f with resolveAt := s.ptp + s.num K.orphanHoldSeconds * nsSec }
      if status ≠ stOk then later
      else match beAt body 5 1 with
        | 1 => s.commitFrag f (CommitRec.ofBytes m.got (sliceBytes m.got 144 (beAt m.got 4 2)))
        | 2 => ((s.releaseOne f 1).bump K.weltOrphansReleased).event 0x0709 f.hdr.stripe.fields
        | _ => later

/-- A REBUILD_QUERY has been answered: the peer's allotment, then what its kind asked for (R144, R210). -/
def State.queryAnswered (s : State) (m : PeerMsg) (status : Nat) (body : Bytes) : State :=
  let s := if status = stOk then
      { s with shank := { s.shank with allot := mapPut s.shank.allot m.member (some (beAt body 6 2)) } }
    else s
  match m.pkt.param 0 1 with
  | 1 => match s.repairOf m with
    | some (q, r) => if status = stOk then s.repairHoldings q r m.got else s.requeue q
    | none => s
  | 2 => s.resolveAnswer m status body
  | 3 => s.keyStateAnswer m
  | _ => if status = stOk then State.applyNsEntries (m.got.length / 76 + 1) s m.got else s

/-- REBUILD_QUERY_REPLY (R222, R226, R229). -/
def execRebuildQueryReply (t : Nat) (r : PeerReply) (s : State) : Host.Outcome State Fault Refusal :=
  let s := s.advance t
  match s.peerReply r with
  | (s, none) => done s
  | (s, some m) => (s.queryAnswered m r.status r.body).afterReply

/-- ORPHAN_RESOLVE_ANSWER (R219). -/
def execOrphanResolveAnswer (t : Nat) (r : PeerReply) (s : State) : Host.Outcome State Fault Refusal :=
  let s := s.advance t
  match s.peerReply r with
  | (s, none) => done s
  | (s, some m) => (s.queryAnswered m r.status r.body).afterReply

/-- ORPHAN_RESOLVE_TIMER: a fragment PENDING for OrphanHoldSeconds past its Deadline (R219). -/
def execOrphanResolveTimer (t : Nat) (stripe : StripeId) (index : Nat) (s : State) : Host.Outcome State Fault Refusal :=
  let s := s.advance t
  done (match s.frag? stripe index with
    | none => s
    | some f =>
      if f.committed ∨ s.ptp < f.resolveAt then s
      else
        let s := s.setFrag { f with resolveAt := s.ptp + s.num K.orphanHoldSeconds * nsSec }
        let known := s.maps.any fun g => (g.member? stripe.home).isSome
        match (if known then some stripe.home else s.homeOf f.hdr.hash) with
        | none => s
        | some m =>
          if m = s.selfId then s
          else
            let s := { s with welt := { s.welt with msgs := s.welt.msgs.filter fun x =>
              !(x.pkt.opcode == 0x75 && x.pkt.param 0 1 == 2 && x.subject == stripe && x.index == index) } }
            s.sendQuery m 2 stripe.bytes 0 0 fun x => { x with index := index })

/-- PHASE_ONE_TIMEOUT: PeerReserveWaitUs has passed since the decision began (R143). -/
def execPhaseOneTimeout (t : Nat) (sid tag : Nat) (s : State) : Host.Outcome State Fault Refusal :=
  let s := s.advance t
  match s.cmd? sid tag with
  | none => done s
  | some c => match c.write with
    | none => done s
    | some w =>
      if c.st = .phaseOne ∧ c.arrivedAt + s.num K.peerReserveWaitUs * 1000 ≤ s.now then (s.refusePhaseOne c w).afterReply else done s

/-- A FRAG_PUT to a member has had no answer within PeerFragTimeoutUs of its last byte; a DURABLE one is given until
T - 100 us (R214). -/
def State.putLate (s : State) (m : PeerMsg) : Bool :=
  m.pkt.opcode == 0x71 && !m.repair && m.on.isSome && (m.pkt.immediate || decide (m.value.length ≤ m.sent)) &&
    decide (m.sentAt + s.fragTimeout ≤ s.now) &&
    (match s.writeOf m with
     | some (c, w) => !w.durable || c.pkt.cls == 3 || decide (c.due ≤ s.now + 100000)
     | none => true)

/-- HOLDER_FAIL_TIMEOUT (R214). -/
def execHolderFailTimeout (t : Nat) (sid tag member : Nat) (s : State) : Host.Outcome State Fault Refusal :=
  let s := s.advance t
  match s.welt.msgs.find? fun m => m.cmd == some (sid, tag) && m.member == member && s.putLate m with
  | none => done s
  | some m => ((s.holderFails m).failRepair m).afterReply

/-- RELEASE_ACK_WAIT_END: enough releases have been acknowledged, or PeerFragTimeoutUs has passed (R215). -/
def execReleaseAckWaitEnd (t : Nat) (sid tag : Nat) (s : State) : Host.Outcome State Fault Refusal :=
  let s := s.advance t
  match s.cmd? sid tag with
  | none => done s
  | some c => match c.write with
    | none => done s
    | some w => (s.releaseDone c (decide (w.releaseAt ≤ s.now))).afterReply

/-- MESSAGE_REPEAT: an unanswered FRAG_RELEASE or STRIPE_COMMIT goes again, at doubling intervals up to 1 s; none goes to a
member declared lost or absent from every retained epoch (R476). -/
def execMessageRepeat (t : Nat) (msg : Nat) (s : State) : Host.Outcome State Fault Refusal :=
  let s := s.advance t
  match s.welt.msgs.find? (·.id == msg) with
  | none => done s
  | some m =>
    if !m.repeats then done s
    else if s.welt.lost.contains m.member || (s.member? m.member).isNone then done (s.dropMsg msg)
    else if m.sentAt + m.interval ≤ s.now then
      let also := match m.on with | some o => (o.1, o.2, m.pkt.inc) :: m.also | none => m.also
      done ((s.onMsg msg fun m => { m with on := none, also := also, sentAt := s.now, interval := min nsSec (2 * m.interval) }).dispatch msg)
    else done s

/-- FRAG_FETCH_TIMEOUT: bytes asked of a holder have not come within PeerFragTimeoutUs and their transfer time (R218). -/
def execFragFetchTimeout (t : Nat) (sid tag index : Nat) (s : State) : Host.Outcome State Fault Refusal :=
  let s := s.advance t
  match (s.cmd? sid tag).bind (·.read) with
  | none => done s
  | some d =>
    let late := d.chunks.filter fun e => e.index == index && e.data.isNone && !e.missing && decide (e.askedAt + s.fragTimeout + s.lineNs e.len ≤ s.now)
    let s := { s with welt := { s.welt with msgs := s.welt.msgs.filter fun m =>
      !(m.pkt.opcode == 0x72 && m.cmd == some (sid, tag) && m.index == index && late.any fun e => e.seg == m.seg) } }
    (late.foldl (fun s e => s.pieceCame sid tag e.index e.seg e.off e.len none) s).afterReply

/-- NS_DISTRIBUTE_TIMEOUT (R228). -/
def execNsDistributeTimeout (t : Nat) (sid tag : Nat) (s : State) : Host.Outcome State Fault Refusal :=
  let s := s.advance t
  match s.cmd? sid tag with
  | none => done s
  | some c =>
    if (c.pkt.opcode = 0x30 ∨ c.pkt.opcode = 0x31) ∧ !c.awaiting.isEmpty ∧ c.awaitUntil ≤ s.now then (s.nsTimeout c).afterReply else done s

/-- NS_SYNC: every NsSyncSeconds every member is asked for its namespaces (R229). -/
def execNsSync (t : Nat) (s : State) : Host.Outcome State Fault Refusal :=
  let s := s.advance t
  if s.serving ∧ s.welt.lastSync + s.num K.nsSyncSeconds * nsSec ≤ s.now then
    done (s.otherMembers.foldl State.askNamespaces { s with welt := { s.welt with lastSync := s.now } })
  else done s

/-- MEMBER_LOST: no ACTIVE path to a member for MemberLostSeconds (R225): event 0x0703 with direction 1. -/
def execMemberLost (t : Nat) (member : Nat) (s : State) : Host.Outcome State Fault Refusal :=
  let s := s.advance t
  match s.welt.noPath.find? (·.1 == member) with
  | none => done s
  | some x =>
    if s.welt.lost.contains member ∨ s.now < x.2 + s.num K.memberLostSeconds * nsSec ∨ s.serving = false then done s
    else
      let s := { s with welt := { s.welt with lost := s.welt.lost ++ [member],
                                              msgs := s.welt.msgs.filter fun m => !(m.member == member && (m.pkt.opcode == 0x73 || m.pkt.opcode == 0x74)) } }
      ((s.eventEmcy 0x0703 [(2, member), (4, Config.eventCode 0x0703 1)] 0xFF02 true).queueMoves).stirred.afterReply

/-- GROUP_MAP_WRITE (R198). -/
def execGroupMapWrite (t : Nat) (client : Client) (value : Bytes) (s : State) : Host.Outcome State Fault Refusal :=
  ((s.advance t).dictApply client K.groupMap value).afterReply

/-- EPOCH_ACTIVATE: PTP time has reached the pending map's ActivationTime (R198). -/
def execEpochActivate (t : Nat) (s : State) : Host.Outcome State Fault Refusal :=
  let s := s.advance t
  match s.welt.pendingMap with
  | none => done s
  | some g => if g.activation ≤ s.ptp then (s.activateMap g).afterReply else done s

/-- Commands on a key that were decided under an earlier epoch and have not ended (R145, R220). -/
def State.earlierRuns (s : State) (o : Owed) : Bool :=
  s.kv.cmds.any fun c => keyOp c.pkt.opcode && c.pkt.ns == o.ns && c.pkt.gen == o.gen && c.pkt.key == o.key && decide (c.epoch < s.epoch) && c.st != .undecided

/-- The HANDOFF of a key goes to its new home: from the old home, or, with its HANDOFF_PENDINGs, from a surviving holder (R220). -/
def State.handOff (s : State) (o : Owed) (new : Nat) : State :=
  if new = s.selfId then s
  else if o.asHome then
    match s.current o.ns o.gen o.hash o.key with
    | some (x, _) => (s.bump K.weltHandoffRecords).sendCommit new 3 0 x.rec_
    | none => s
  else
    let s := match newest (s.ownCopies o.ns o.gen o.hash) with
      | some r => (s.bump K.weltHandoffRecords).sendCommit new 3 0 r
      | none => s
    (s.welt.frags.filter fun f => f.hdr.hash == o.hash && f.hdr.ns == o.ns && f.hdr.gen == o.gen && !f.committed).foldl (fun s f => s.sendPending new f) s

/-- A handoff that is due goes (R220). -/
def State.sendOwed (s : State) (o : Owed) : State :=
  match s.homeOf o.hash with
  | none => s
  | some new =>
    let s := (s.handOff o new)
    let s := { s with welt := { s.welt with owed := s.welt.owed.map fun (x : Owed) => if x = o then { x with sent := true } else x } }
    s.stirred.handoffDone

/-- HANDOFF_SEND: the old home once its earlier commands on the key have ended, or the first surviving holder (R220). -/
def execHandoffSend (t : Nat) (ns hash : Nat) (s : State) : Host.Outcome State Fault Refusal :=
  let s := s.advance t
  match s.welt.owed.find? fun o => o.ns == ns && o.hash == hash && !o.sent && o.rank == 0 with
  | none => done s
  | some o => if s.earlierRuns o then done s else (s.sendOwed o).afterReply

/-- HANDOFF_FALLBACK_TIMEOUT: the next surviving holder sends after PeerFragTimeoutUs for each one before it (R220). -/
def execHandoffFallbackTimeout (t : Nat) (ns hash : Nat) (s : State) : Host.Outcome State Fault Refusal :=
  let s := s.advance t
  match s.welt.owed.find? fun o => o.ns == ns && o.hash == hash && !o.sent && decide (0 < o.rank) with
  | none => done s
  | some o => if s.now < o.since + o.rank * s.fragTimeout then done s else (s.sendOwed o).afterReply

/-- HANDOFF_PULL_TIMEOUT: the answers have not all come within PeerFragTimeoutUs: the command is refused, or, where every member of the
current epoch has answered, decided (R222; DESIGN CHOICE, log 113). -/
def execHandoffPullTimeout (t : Nat) (sid tag : Nat) (s : State) : Host.Outcome State Fault Refusal :=
  let s := s.advance t
  match s.cmd? sid tag with
  | none => done s
  | some c =>
    if c.st ≠ .undecided ∨ keyOp c.pkt.opcode = false then done s
    else
      let h := (s.hashes c.pkt.ns c.pkt.gen c.pkt.key).1
      match s.gather? c.pkt.ns c.pkt.gen h with
      | none => done s
      | some g =>
        let here := g.awaiting.filter fun m => s.welt.cur.any fun x => (x.member? m).isSome
        if g.awaiting.isEmpty ∨ s.now < g.since + s.fragTimeout then done s
        else if here.isEmpty then ((s.setGather { g with awaiting := [] }).adoptGather g.ns g.gen g.hash).afterReply
        else
          let s := { s with welt := { s.welt with gathers := s.welt.gathers.filter fun x => !(x.ns == g.ns && x.gen == g.gen && x.hash == g.hash) } }
          (s.refuseCmd c (s.num K.peerFragTimeoutUs) 6).afterReply

/-- A write's pending headers in ascending WriteStamp, one for each StripeId. -/
def insertStamp (h : FragHdr) : List FragHdr → List FragHdr
  | [] => [h]
  | x :: l => if x.stripe = h.stripe then x :: l else if h.stamp < x.stamp then h :: x :: l else x :: insertStamp h l

/-- Holders of a pending stripe among the survivors: index, member, durable in every slice. -/
def Gather.holders (g : Gather) (i : StripeId) : List (Nat × Nat × Bool) :=
  ((g.pending.filter fun p => p.hdr.stripe == i).map fun p => (p.hdr.index, p.member, p.complete)).eraseDups

/-- The commit record that a new home writes for a pending write (R223). Its ValueTag, which no surviving holder has, is a free
value (DESIGN CHOICE, log 38). -/
def State.forwardRec (s : State) (g : Gather) (h : FragHdr) (version : Nat) : CommitRec × State :=
  let l := g.holders h.stripe
  let (d, s) := s.drawFree
  ({ attrs := h.attrs, k := h.k, m := h.m, ns := h.ns, gen := h.gen, epoch := h.epoch, stripe := h.stripe, version := version, commitTime := s.ptp,
     valueLen := h.valueLen, hash := h.hash, stamp := h.stamp,
     holders := (List.range (layoutWidth h.striped h.k h.m)).map fun i => match l.find? fun x => x.1 == i with | some x => x.2.1 | none => 0xFFFF,
     mask := (((l.filter (·.2.2)).map (·.1)).eraseDups.map fun i => 2 ^ i).sum, revision := 0, lastChunk := h.lastChunk, tag := beBytes 16 d, key := h.key }, s)

/-- A pending stripe is released at its holders, this drive's own fragment with it. -/
def State.releasePending (s : State) (g : Gather) (i : StripeId) : State :=
  (g.holders i).foldl (fun s x => if x.2.1 = s.selfId then s.releaseFrag i x.1 else s.sendRelease x.2.1 i x.1 1 none) s

/-- One pending stripe is rolled forward or released (R223). -/
def State.resolveOne (s : State) (g : Gather) (inst : Nat) (prior : Option CommitRec) (h : FragHdr) : State × Option CommitRec :=
  match g.copies.find? fun r => r.stripe == h.stripe with
  | some r => (s.adopt r, some r)
  | none =>
    let n := (((g.holders h.stripe).filter (·.2.2)).map (·.2.1)).eraseDups.length
    let q := quorum h.striped h.k h.m (s.num K.quorumSlack)
    if q ≤ n + 1 ∧ (commitCondition h.kind h.expected prior).isNone = true then
      let v := max ((prior.map (·.version)).getD 0 + 1) s.ptp
      let (r, s) := s.forwardRec g h v
      let s := s.writeCommit r inst false true
      let s := (s.fragsOf r.stripe).foldl (fun s f => s.commitFrag f r) s
      let s := (s.otherHolders r).foldl (fun s x => s.sendCommit x.2 1 x.1 r) s
      let s := match prior with | some o => { s with kv := { s.kv with superseded := s.kv.superseded ++ [(o, s.kv.nextPos)] } } | none => s
      ((s.bump K.weltRolledForward).event 0x0707 (r.stripe.fields ++ [(8, v)]), some r)
    else (s.releasePending g h.stripe, prior)

/-- HANDOFF_RESOLVE (R223): the PENDING stripes gathered for a key whose old home has left are rolled forward or released. -/
def execHandoffResolve (t : Nat) (ns hash : Nat) (s : State) : Host.Outcome State Fault Refusal :=
  let s := s.advance t
  match s.welt.gathers.find? fun g => g.ns == ns && g.hash == hash && g.awaiting.isEmpty && !g.pending.isEmpty with
  | none => done s
  | some g => match s.instOf g.ns g.gen with
    | none => done s
    | some inst =>
      let s := g.copies.foldl (fun s r => if g.pending.any fun p => p.hdr.stripe == r.stripe then s else s.adopt r) s
      let key := ((g.pending.head?.map (·.hdr.key))).getD []
      let prior := (s.lookup inst hash key).map (·.rec_)
      let base := (prior.map (·.stamp)).getD 0
      let l := ((g.pending.map (·.hdr)).filter fun (h : FragHdr) => decide (base < h.stamp)).foldl (fun acc h => insertStamp h acc) []
      let a := l.foldl (fun (a : State × Option CommitRec) h => a.1.resolveOne g inst a.2 h) (s, prior)
      (a.1.setGather { g with pending := [] }).afterReply

end Sys2Proof.Machine
end

