-- ==== Sys2Proof/Machine/CmdRows.lean ====
section
/-! DEFINITION. The commands of Table 4.1 and of Table 7.5 as they arrive, and the events of their lives: turns, commits, endings
(02 R36 to R53, 03 R70, 05 R147, R148, R152, 07 R216). -/

namespace Sys2Proof.Machine

/-- A CMD of one opcode arrives. -/
def State.arrive (s : State) (op : Nat) (rx : Rx) (pkt : CmdPkt) (plan : Plan) : State := s.cmdArrive rx { pkt with opcode := op } plan

/-- A STRIPE_COMMIT or REBUILD_QUERY of one kind arrives. -/
def State.arriveKind (s : State) (op kind : Nat) (rx : Rx) (pkt : CmdPkt) (plan : Plan) : State :=
  s.cmdArrive rx { pkt with opcode := op, params := beBytes 1 kind ++ pkt.params.drop 1 } plan

/-- CMD_SEQ_HOLD: a CMD of any opcode, by its CmdSeq (R70). -/
def execCmdSeqHold (t : Nat) (rx : Rx) (pkt : CmdPkt) (plan : Plan) (s : State) : Host.Outcome State Fault Refusal :=
  done ((s.advance t).cmdArrive rx pkt plan)

/-- GET (R101). -/
def execGet (t : Nat) (rx : Rx) (pkt : CmdPkt) (plan : Plan) (s : State) : Host.Outcome State Fault Refusal :=
  done ((s.advance t).arrive 0x01 rx pkt plan)

/-- GET_RANGE (R102). -/
def execGetRange (t : Nat) (rx : Rx) (pkt : CmdPkt) (plan : Plan) (s : State) : Host.Outcome State Fault Refusal :=
  done ((s.advance t).arrive 0x02 rx pkt plan)

/-- STAT (R101). -/
def execStat (t : Nat) (rx : Rx) (pkt : CmdPkt) (plan : Plan) (s : State) : Host.Outcome State Fault Refusal :=
  done ((s.advance t).arrive 0x03 rx pkt plan)

/-- LIST (R107). -/
def execList (t : Nat) (rx : Rx) (pkt : CmdPkt) (plan : Plan) (s : State) : Host.Outcome State Fault Refusal :=
  done ((s.advance t).arrive 0x04 rx pkt plan)

/-- PUT (R20, R103, R104). -/
def execPut (t : Nat) (rx : Rx) (pkt : CmdPkt) (plan : Plan) (s : State) : Host.Outcome State Fault Refusal :=
  done ((s.advance t).arrive 0x10 rx pkt plan)

/-- PUT_IF (R26, R104). -/
def execPutIf (t : Nat) (rx : Rx) (pkt : CmdPkt) (plan : Plan) (s : State) : Host.Outcome State Fault Refusal :=
  done ((s.advance t).arrive 0x11 rx pkt plan)

/-- DELETE (R27, R104). -/
def execDelete (t : Nat) (rx : Rx) (pkt : CmdPkt) (plan : Plan) (s : State) : Host.Outcome State Fault Refusal :=
  done ((s.advance t).arrive 0x12 rx pkt plan)

/-- DELETE_IF (R105). -/
def execDeleteIf (t : Nat) (rx : Rx) (pkt : CmdPkt) (plan : Plan) (s : State) : Host.Outcome State Fault Refusal :=
  done ((s.advance t).arrive 0x13 rx pkt plan)

/-- FLUSH (R40, R111, R147). -/
def execFlush (t : Nat) (rx : Rx) (pkt : CmdPkt) (plan : Plan) (s : State) : Host.Outcome State Fault Refusal :=
  done ((s.advance t).arrive 0x20 rx pkt plan)

/-- NS_CREATE (R113, R228). -/
def execNsCreate (t : Nat) (rx : Rx) (pkt : CmdPkt) (plan : Plan) (s : State) : Host.Outcome State Fault Refusal :=
  done ((s.advance t).arrive 0x30 rx pkt plan)

/-- NS_DELETE (R114, R228). -/
def execNsDelete (t : Nat) (rx : Rx) (pkt : CmdPkt) (plan : Plan) (s : State) : Host.Outcome State Fault Refusal :=
  done ((s.advance t).arrive 0x31 rx pkt plan)

/-- NS_QUERY (R115). -/
def execNsQuery (t : Nat) (rx : Rx) (pkt : CmdPkt) (plan : Plan) (s : State) : Host.Outcome State Fault Refusal :=
  done ((s.advance t).arrive 0x32 rx pkt plan)

/-- DICT_READ (R116). -/
def execDictRead (t : Nat) (rx : Rx) (pkt : CmdPkt) (plan : Plan) (s : State) : Host.Outcome State Fault Refusal :=
  done ((s.advance t).arrive 0x40 rx pkt plan)

/-- DICT_WRITE (R117). -/
def execDictWrite (t : Nat) (rx : Rx) (pkt : CmdPkt) (plan : Plan) (s : State) : Host.Outcome State Fault Refusal :=
  done ((s.advance t).arrive 0x41 rx pkt plan)

/-- FW_SEGMENT (R119). -/
def execFwSegment (t : Nat) (rx : Rx) (pkt : CmdPkt) (plan : Plan) (s : State) : Host.Outcome State Fault Refusal :=
  done ((s.advance t).arrive 0x50 rx pkt plan)

/-- FW_ACTIVATE (R120, R151). -/
def execFwActivate (t : Nat) (rx : Rx) (pkt : CmdPkt) (plan : Plan) (s : State) : Host.Outcome State Fault Refusal :=
  done ((s.advance t).arrive 0x51 rx pkt plan)

/-- SESSION_RESET (R112, R148). -/
def execSessionReset (t : Nat) (rx : Rx) (pkt : CmdPkt) (plan : Plan) (s : State) : Host.Outcome State Fault Refusal :=
  done ((s.advance t).arrive 0x60 rx pkt plan)

/-- FRAG_RESERVE (R142, R207). -/
def execFragReserve (t : Nat) (rx : Rx) (pkt : CmdPkt) (plan : Plan) (s : State) : Host.Outcome State Fault Refusal :=
  done ((s.advance t).arrive 0x70 rx pkt plan)

/-- FRAG_PUT (R212, R214). -/
def execFragPut (t : Nat) (rx : Rx) (pkt : CmdPkt) (plan : Plan) (s : State) : Host.Outcome State Fault Refusal :=
  done ((s.advance t).arrive 0x71 rx pkt plan)

/-- FRAG_GET (R212, R218). -/
def execFragGet (t : Nat) (rx : Rx) (pkt : CmdPkt) (plan : Plan) (s : State) : Host.Outcome State Fault Refusal :=
  done ((s.advance t).arrive 0x72 rx pkt plan)

/-- FRAG_RELEASE (R212, R217). -/
def execFragRelease (t : Nat) (rx : Rx) (pkt : CmdPkt) (plan : Plan) (s : State) : Host.Outcome State Fault Refusal :=
  done ((s.advance t).arrive 0x73 rx pkt plan)

/-- STRIPE_COMMIT COMMIT (R217). -/
def execStripeCommitCommit (t : Nat) (rx : Rx) (pkt : CmdPkt) (plan : Plan) (s : State) : Host.Outcome State Fault Refusal :=
  done ((s.advance t).arriveKind 0x74 0x01 rx pkt plan)

/-- STRIPE_COMMIT HOLDERS (R226). -/
def execStripeCommitHolders (t : Nat) (rx : Rx) (pkt : CmdPkt) (plan : Plan) (s : State) : Host.Outcome State Fault Refusal :=
  done ((s.advance t).arriveKind 0x74 0x02 rx pkt plan)

/-- STRIPE_COMMIT HANDOFF (R220, R221). -/
def execStripeCommitHandoff (t : Nat) (rx : Rx) (pkt : CmdPkt) (plan : Plan) (s : State) : Host.Outcome State Fault Refusal :=
  done ((s.advance t).arriveKind 0x74 0x03 rx pkt plan)

/-- STRIPE_COMMIT HANDOFF_DONE (R220). -/
def execStripeCommitHandoffDone (t : Nat) (rx : Rx) (pkt : CmdPkt) (plan : Plan) (s : State) : Host.Outcome State Fault Refusal :=
  done ((s.advance t).arriveKind 0x74 0x04 rx pkt plan)

/-- STRIPE_COMMIT HANDOFF_PENDING (R220). -/
def execStripeCommitHandoffPending (t : Nat) (rx : Rx) (pkt : CmdPkt) (plan : Plan) (s : State) : Host.Outcome State Fault Refusal :=
  done ((s.advance t).arriveKind 0x74 0x05 rx pkt plan)

/-- STRIPE_COMMIT NS_CREATE (R228). -/
def execStripeCommitNsCreate (t : Nat) (rx : Rx) (pkt : CmdPkt) (plan : Plan) (s : State) : Host.Outcome State Fault Refusal :=
  done ((s.advance t).arriveKind 0x74 0x10 rx pkt plan)

/-- STRIPE_COMMIT NS_DELETE (R228). -/
def execStripeCommitNsDelete (t : Nat) (rx : Rx) (pkt : CmdPkt) (plan : Plan) (s : State) : Host.Outcome State Fault Refusal :=
  done ((s.advance t).arriveKind 0x74 0x11 rx pkt plan)

/-- REBUILD_QUERY HOLDINGS (R210). -/
def execRebuildQueryHoldings (t : Nat) (rx : Rx) (pkt : CmdPkt) (plan : Plan) (s : State) : Host.Outcome State Fault Refusal :=
  done ((s.advance t).arriveKind 0x75 0x01 rx pkt plan)

/-- REBUILD_QUERY RESOLVE (R219). -/
def execRebuildQueryResolve (t : Nat) (rx : Rx) (pkt : CmdPkt) (plan : Plan) (s : State) : Host.Outcome State Fault Refusal :=
  done ((s.advance t).arriveKind 0x75 0x02 rx pkt plan)

/-- REBUILD_QUERY KEY_STATE (R222). -/
def execRebuildQueryKeyState (t : Nat) (rx : Rx) (pkt : CmdPkt) (plan : Plan) (s : State) : Host.Outcome State Fault Refusal :=
  done ((s.advance t).arriveKind 0x75 0x03 rx pkt plan)

/-- REBUILD_QUERY NAMESPACES (R229). -/
def execRebuildQueryNamespaces (t : Nat) (rx : Rx) (pkt : CmdPkt) (plan : Plan) (s : State) : Host.Outcome State Fault Refusal :=
  done ((s.advance t).arriveKind 0x75 0x04 rx pkt plan)

/-- FLUSH_END (R40, R111). -/
def execFlushEnd (t : Nat) (sid tag : Nat) (s : State) : Host.Outcome State Fault Refusal :=
  let s := s.advance t
  match s.cmd? sid tag with
  | none => done s
  | some c =>
    if c.pkt.opcode = 0x20 ∧ c.st = .running ∧ s.flushReady c = true then
      let s := { s with kv := { s.kv with sessWrites := s.kv.sessWrites.filter fun w => !s.writeOnMedia w } }
      (s.finish c stOk []).afterReply
    else done s

/-- ORDERED_START: every earlier command of the session has ended (R39). -/
def execOrderedStart (t : Nat) (sid tag : Nat) (s : State) : Host.Outcome State Fault Refusal :=
  let s := s.advance t
  match s.cmd? sid tag with
  | none => done s
  | some c =>
    if c.ordered ∧ c.st = .waiting ∧ (s.earlierInSession c).isEmpty = true then
      (s.goOn { c with ordered := false, paused := s.paused }).afterReply
    else done s

/-- READ_TURN: no write before the read on its key is without commit (R45). -/
def execReadTurn (t : Nat) (sid tag : Nat) (s : State) : Host.Outcome State Fault Refusal :=
  let s := s.advance t
  match s.cmd? sid tag with
  | none => done s
  | some c =>
    if readOp c.pkt.opcode ∧ c.st = .waiting ∧ c.ordered = false ∧ c.paused = false ∧ s.paused = false ∧ (s.writesBefore c).isEmpty = true then (s.readTurn c).afterReply else done s

/-- WRITE_COMMIT: the write's commit turn (R26, R38, R214). -/
def execWriteCommit (t : Nat) (sid tag : Nat) (s : State) : Host.Outcome State Fault Refusal :=
  let s := s.advance t
  match s.cmd? sid tag with
  | none => done s
  | some c => (s.tryCommit c).afterReply

/-- SUPERSEDED_RELEASE: every read before the write that superseded a stripe has ended (R216). -/
def execSupersededRelease (t : Nat) (stripe : StripeId) (s : State) : Host.Outcome State Fault Refusal :=
  let s := s.advance t
  match s.kv.superseded.find? (·.1.stripe == stripe) with
  | none => done s
  | some (r, pos) =>
    let reads := s.kv.cmds.any fun c => readOp c.pkt.opcode && c.admitted && decide (c.pos < pos) && c.pkt.ns == r.ns && c.pkt.gen == r.gen &&
      c.pkt.key == r.key
    if reads then done s
    else
      let s := { s with kv := { s.kv with superseded := s.kv.superseded.filter fun x => x.1.stripe != stripe } }
      (s.releaseStripe r 2).afterReply

/-- Causes of a broken promise (R152; DESIGN CHOICE, log 40: 1 a second fault, 2 a fault outside Table 1.8, 3 a peer late, 4 a die
slower than discovered). The drive names 1 while two fault kinds are present, 3 while peers' answers are missing, 4 while the command
has work on a die, else 2. -/
def State.brokenCause (s : State) (c : CmdCtx) : Nat :=
  if 2 ≤ s.presentFaults.length then 1
  else if s.welt.msgs.any fun m => m.cmd == some (c.sid, c.pkt.tag) then 3
  else if c.plan.dies.isEmpty then 2 else 4

/-- A FLUSH of the session does not wait for the media time of a write that ended PROMISE_BROKEN before it (R147). -/
def State.excuse (s : State) (c : CmdCtx) : State :=
  let l := s.kv.cmds.map fun (x : CmdCtx) =>
    if x.sid = c.sid ∧ x.pkt.opcode = 0x20 ∧ x.covers.contains c.pkt.tag = true ∧ c.pos < x.pos then { x with acked := x.acked ++ [c.pos] } else x
  { s with kv := { s.kv with cmds := l } }

/-- The CommitState of a promise broken by a command that is not a write in progress (R152). -/
def brokenCommit (op : Nat) : Nat := if op = 0x30 then 3 else if op = 0x31 then 1 else 2

/-- A promise is broken (R152): event 0x0501, EMCY 0xFF03, and the ending that the rule gives. -/
def State.breakPromise (s : State) (c : CmdCtx) : State :=
  let s := s.eventEmcy 0x0501 [(4, c.sid), (2, c.pkt.tag), (1, c.pkt.opcode), (4, Config.eventCode 0x0501 (s.brokenCause c))] 0xFF03 false
  if writeOp c.pkt.opcode then
    if c.st = .committed then (s.excuse c).finish c stBroken (outcomeBody 1 0x0501 c.bound s.ptp)
    else s.abort c stBroken 0x0501 true
  else (s.freeWindows c).finish c stBroken (outcomeBody (brokenCommit c.pkt.opcode) 0x0501 c.bound s.ptp)

/-- A promise is broken while the response waits to be handed to the MAC (R128, R152): PROMISE_BROKEN goes in its place. -/
def State.breakEnding (s : State) (e : DueEnd) : State :=
  let op := ((s.session? e.sid).bind fun x => x.txq.findSome? fun y => match y.2.2 with
    | .resp op _ tag _ _ => if tag = e.tag then some op else none
    | _ => none).getD 0
  let s := s.eventEmcy 0x0501 [(4, e.sid), (2, e.tag), (1, op), (4, Config.eventCode 0x0501 2)] 0xFF03 false
  let body := outcomeBody e.commit 0x0501 e.bound s.ptp
  let s := s.onSession e.sid fun x => { x with txq := x.txq.map fun y => match y.2.2 with
    | .resp op _ tag inc _ => if tag = e.tag then (y.1, y.2.1, .resp op stBroken tag inc body) else y
    | _ => y }
  { s with net := { s.net with ends := s.net.ends.map fun (y : DueEnd) => if y = e then { y with broken := true } else y } }

/-- PROMISE_BROKEN: T and the host-held time have passed (R152). -/
def execPromiseBroken (t : Nat) (sid tag : Nat) (s : State) : Host.Outcome State Fault Refusal :=
  let s := s.advance t
  match s.cmd? sid tag with
  | none => match s.net.ends.find? fun e => e.sid == sid && e.tag == tag && !e.broken && decide (e.due < s.now) with
    | some e => done (s.breakEnding e)
    | none => done s
  | some c =>
    if c.promised && c.admitted && decide (s.worstEnd c < s.now) then (s.breakPromise c).afterReply else done s

end Sys2Proof.Machine
end

