-- ==== Sys2Proof/Machine/DictCmds.lean ====
section
/-! DEFINITION. The dictionary's commands: writes of single entries by a client, the settings store, the mailbox's
DICT_READ, snapshots and the node-ID (12 R345 to R356, 14 R404, R420, R422, 15 R440 to R443, 06 R176, R186, 05 R140, 10
R310, 11 R320, R327, 03 R89). -/

namespace Sys2Proof.Machine

/-- DICT_ENTRY_WRITE: a write of an entry is checked and applied (R346). -/
def execDictEntryWrite (t : Nat) (client : Client) (index sub : Nat) (bytes : Bytes) (s : State) : Host.Outcome State Fault Refusal :=
  let s := s.advance t
  done (s.dictApply client (index * 256 + sub) bytes)

/-- STORE_ALL (R350). -/
def execStoreAll (t : Nat) (client : Client) (value : Nat) (s : State) : Host.Outcome State Fault Refusal :=
  let s := s.advance t
  done (s.dictApply client K.storeAll (beBytes 4 value))

/-- RESTORE_GROUP: a write of 0x1011:sub (R351). -/
def execRestoreGroup (t : Nat) (client : Client) (sub value : Nat) (s : State) : Host.Outcome State Fault Refusal :=
  let s := s.advance t
  done (s.dictApply client (0x101100 + sub % 256) (beBytes 4 value))

/-- PSK_ENTRY_WRITE (03 R89, Table 3.18). -/
def execPskEntryWrite (t : Nat) (client : Client) (bytes : Bytes) (s : State) : Host.Outcome State Fault Refusal :=
  let s := s.advance t
  done (s.dictApply client K.pskEntryWrite bytes)

/-- PSK_IDENTITY_DELETE (03 R89, Table 3.18). -/
def execPskIdentityDelete (t : Nat) (client : Client) (bytes : Bytes) (s : State) : Host.Outcome State Fault Refusal :=
  let s := s.advance t
  done (s.dictApply client K.pskIdentityDelete bytes)

/-- POWER_TOKENS_WRITE (05 R140, Table 5.6). -/
def execPowerTokensWrite (t : Nat) (client : Client) (value : Nat) (s : State) : Host.Outcome State Fault Refusal :=
  let s := s.advance t
  done (s.dictApply client K.powerTokens (beBytes 2 value))

/-- POWER_TOKEN_LIMIT_WRITE (05 R140). -/
def execPowerTokenLimitWrite (t : Nat) (client : Client) (value : Nat) (s : State) : Host.Outcome State Fault Refusal :=
  let s := s.advance t
  done (s.dictApply client K.powerTokenLimit (beBytes 2 value))

/-- POWER_TOKEN_LIMIT_EFFECTIVE: the lowered limit acts at PowerTokenEffectiveTime (05 R140). -/
def execPowerTokenLimitEffective (t : Nat) (s : State) : Host.Outcome State Fault Refusal :=
  let s := s.advance t
  done (if s.shank.oldLimit.isSome && decide (s.shank.effectiveAt ≤ s.ptp) then { s with shank := { s.shank with oldLimit := none } } else s)

/-- A LifeCycleRequest with the signature of a given request (Table 15.7); another value is another command. -/
def State.lifeWrite (s : State) (client : Client) (bit : Nat) (bytes : Bytes) : State :=
  if bytes.length = 4 ∧ ofBE bytes = 0x4C430001 + bit then s.dictApply client K.lifeCycleRequest bytes else s

/-- LIFE_CYCLE_PROVISION (15 R442). -/
def execLifeCycleProvision (t : Nat) (client : Client) (bytes : Bytes) (s : State) : Host.Outcome State Fault Refusal :=
  let s := s.advance t
  done (s.lifeWrite client 0 bytes)

/-- LIFE_CYCLE_DEPLOY (15 R442). -/
def execLifeCycleDeploy (t : Nat) (client : Client) (bytes : Bytes) (s : State) : Host.Outcome State Fault Refusal :=
  let s := s.advance t
  done (s.lifeWrite client 1 bytes)

/-- LIFE_CYCLE_RETURN (15 R442). -/
def execLifeCycleReturn (t : Nat) (client : Client) (bytes : Bytes) (s : State) : Host.Outcome State Fault Refusal :=
  let s := s.advance t
  done (s.lifeWrite client 2 bytes)

/-- LIFE_CYCLE_RETIRE (15 R442). -/
def execLifeCycleRetire (t : Nat) (client : Client) (bytes : Bytes) (s : State) : Host.Outcome State Fault Refusal :=
  let s := s.advance t
  done (s.lifeWrite client 3 bytes)

/-- A write of OtpSettings (15 R443): `progOk` says whether the cells program. -/
def State.otpApply (s : State) (client : Client) (bytes : Bytes) (progOk : Bool) : State :=
  match dictRow? K.otpSettings with
  | some r => if s.writeGuard client r bytes = 0 then (s.otpWrite bytes progOk).1 else s
  | none => s

/-- OTP_SETTINGS_WRITE (15 R443). -/
def execOtpSettingsWrite (t : Nat) (client : Client) (bytes : Bytes) (progOk : Bool) (s : State) : Host.Outcome State Fault Refusal :=
  let s := s.advance t
  done (if s.paused then s.delay (.otp client bytes progOk) else s.otpApply client bytes progOk)

/-- TAMPER_CLEAR (10 R310). -/
def execTamperClear (t : Nat) (client : Client) (value : Nat) (s : State) : Host.Outcome State Fault Refusal :=
  let s := s.advance t
  done (s.dictApply client K.tamperClear (beBytes 1 value))

/-- EVENT_RATE_LIMIT_WRITE (14 R420). -/
def execEventRateLimitWrite (t : Nat) (client : Client) (bytes : Bytes) (s : State) : Host.Outcome State Fault Refusal :=
  let s := s.advance t
  done (s.dictApply client K.eventRateLimit bytes)

/-- EVENT_SNAPSHOT_FROM_WRITE of a slot from 1 to 4 (14 R422). -/
def execEventSnapshotFromWrite (t : Nat) (client : Client) (slot value : Nat) (s : State) : Host.Outcome State Fault Refusal :=
  let s := s.advance t
  done (s.dictApply client (0x2B0200 + slot % 256) (beBytes 8 value))

/-- The records that the log keeps before its oldest batches go (14 R419). -/
abbrev logLimit : Nat := 2097152

/-- A record pinned by an open snapshot (14 R422). -/
def State.pinned (s : State) (r : EvRec) : Bool :=
  s.evs.snaps.any fun x => x.st == .open_ && decide (x.first ≤ r.seq.getD 0 ∧ r.seq.getD 0 ≤ x.last)

/-- Releases the oldest batches above the limit, but for pinned ones (14 R419). -/
def State.logTrim (s : State) : State :=
  let batches := s.evs.anchored ++ s.media.recs.filterMap fun r => match r.body with | .events l => some l | _ => none
  batches.foldl (fun s l =>
    if decide (logLimit < s.evs.log.length) && !(l.any s.pinned) then
      { s with evs := { s.evs with log := s.evs.log.filter fun e => !l.contains e } }
    else s) s

/-- SNAPSHOT_EXPIRY of a slot from 1 to 4: its hold time has passed, or pinned records would hold the log more than 262,144
above its limit (14 R422). -/
def execSnapshotExpiry (t : Nat) (slot : Nat) (s : State) : Host.Outcome State Fault Refusal :=
  let s := s.advance t
  let i := slot - 1
  let x := s.evs.snaps.getD i {}
  let timed := decide (x.expiresAt ≤ s.ptp)
  let full := decide (logLimit + 262144 < s.evs.log.length)
  done (if 1 ≤ slot ∧ slot ≤ 4 ∧ x.st = .open_ ∧ (timed || full) = true then
      let s := { s with evs := { s.evs with snaps := s.evs.snaps.setIfInBounds i { x with st := .expired, count := 0 } } }
      (s.event 0x0B81 [(4, slot), (8, x.first), (4, if timed then 1 else 2)]).logTrim
    else s)

/-- SITE_MESSAGE_WRITE (14 R404). -/
def execSiteMessageWrite (t : Nat) (client : Client) (bytes : Bytes) (s : State) : Host.Outcome State Fault Refusal :=
  let s := s.advance t
  done (s.dictApply client K.siteMessage bytes)

/-- PORT_SETTING_WRITE: PortEnable, PortMode, AnAdvertise, FecMode, TxLaneMap, RxLaneMap or LanePolarity (11 R320). -/
def execPortSettingWrite (t : Nat) (client : Client) (port : PortId) (sub : Nat) (value : Bytes) (s : State) :
    Host.Outcome State Fault Refusal :=
  let s := s.advance t
  done (if 1 ≤ sub ∧ sub ≤ 7 then
      s.dictApply client (0x220100 + 256 * port.code + sub) value
    else s)

/-- DIAG_CAPTURE_RELEASE (11 R327). -/
def execDiagCaptureRelease (t : Nat) (client : Client) (seq : Nat) (s : State) : Host.Outcome State Fault Refusal :=
  let s := s.advance t
  done (s.dictApply client K.diagCaptureRelease (beBytes 4 seq))

/-- A write of AwlPolicyEntry whose Op is the given one (06 R186). -/
def State.policyWrite (s : State) (client : Client) (op : Nat) (b : Bytes) : State :=
  if beAt b 0 1 = op then s.dictApply client K.awlPolicyEntry b else s

/-- AWL_POLICY_WRITE (06 R186). -/
def execAwlPolicyWrite (t : Nat) (client : Client) (value : Bytes) (s : State) : Host.Outcome State Fault Refusal :=
  let s := s.advance t
  done (s.policyWrite client 0 value)

/-- AWL_POLICY_DELETE (06 R186). -/
def execAwlPolicyDelete (t : Nat) (client : Client) (value : Bytes) (s : State) : Host.Outcome State Fault Refusal :=
  let s := s.advance t
  done (s.policyWrite client 1 value)

/-- AWL_POLICY_INSERT (06 R181, R186). -/
def execAwlPolicyInsert (t : Nat) (client : Client) (value : Bytes) (s : State) : Host.Outcome State Fault Refusal :=
  let s := s.advance t
  done (s.policyWrite client 2 value)

/-- AWL_POLICY_COMPACT (06 R186). -/
def execAwlPolicyCompact (t : Nat) (client : Client) (value : Bytes) (s : State) : Host.Outcome State Fault Refusal :=
  let s := s.advance t
  done (s.policyWrite client 3 value)

/-- AWL_BANK_MAP_WRITE (06 R176): in effect at the next entry to MUSTER. -/
def execAwlBankMapWrite (t : Nat) (client : Client) (value : Nat) (s : State) : Host.Outcome State Fault Refusal :=
  let s := s.advance t
  done (s.dictApply client K.awlBankMap (beBytes 4 value))

/-- NODE_ID_CLAIM: the broadcast download of 0x2002:02 (R356). -/
def execNodeIdClaim (t : Nat) (serial newId : Nat) (s : State) : Host.Outcome State Fault Refusal :=
  let s := s.advance t
  done (if s.shelf.running then ({ s with shelf := { s.shelf with lastTraffic := s.now } } : State).bump K.canRxFrames |>.claim serial newId else s)

/-- NODE_ID_EMCY_RETRY: EMCY 0xFF01 was lost in arbitration or to an error and is sent again; its delay of 10 to 500 ms comes
from the serial number and the attempt count, by no stated formula (R356). -/
def execNodeIdEmcyRetry (t : Nat) (s : State) : Host.Outcome State Fault Refusal :=
  let s := s.advance t
  done (if s.shelf.running && s.shelf.nodeId == 127 then
      ({ s with shelf := { s.shelf with idAttempts := s.shelf.idAttempts + 1 } } : State).emcy 0xFF01 0 0 s.fw.otp.serial
    else s)

/-- MBX_DICT_READ: the request at the front of the site-to-core ring is answered (14 R404). -/
def execMbxDictRead (t : Nat) (s : State) : Host.Outcome State Fault Refusal :=
  let s := s.advance t
  done (match s.mbxRequest with
    | some (1, len, token, payload) =>
      if s.domOn .core && len == 8 then
        let off := leAt payload 4 4
        let x := s.dictGet .site (leAt payload 0 2) (leAt payload 2 1)
        let s := match x.2.2 with
          | .abort a => x.1.mbxReply token a 0 []
          | .value b => if b.length < off then x.1.mbxReply token 0x06090030 0 [] else x.1.mbxReply token 0 b.length (sliceBytes b off 48)
        State.mbxRejectBad 33 s
      else s
    | _ => s)

/-- The answer of a USDO download that has ended: initiate response with the index and subindex (R363, log 34). -/
def usdoOk (node index sub : Nat) : Bytes := beBytes 1 node ++ [0x60] ++ beBytes 2 index ++ beBytes 1 sub

/-- Answers a writer whose value the settings store now holds (R349, R117). -/
def State.storeAnswer (s : State) (w : Waiter) : State :=
  match w with
  | .none => s
  | .shelf node index sub => s.canSend (0x580 + s.shelf.nodeId) (usdoOk node index sub)
  | .rwp sid tag =>
    match s.cmd? sid tag with
    | some c => s.finish c stOk []
    | none => s

/-- Bytes of a settings copy (R440). -/
def settingsLen (l : List (Nat × DVal)) : Nat :=
  20 + (l.map fun x => 8 + ceilDiv ((((dictRow? x.1).bind (·.typ.size)).getD (match x.2 with | .bytes b => b.length | .num _ => 4))) 4 * 4).sum

/-- SETTINGS_STORE_COMPLETE: the copy is programmed; the writes that it holds end, and the next copy starts (R349, R350, 15
R440). -/
def execSettingsStoreComplete (t : Nat) (s : State) : Host.Outcome State Fault Refusal :=
  let s := s.advance t
  done (if !s.dict.programming then s
    else
      let ended := s.dict.waits.filter (·.inCopy)
      let n := s.fw.flash.copySeq + 1
      let len := settingsLen s.dict.copy
      let s := { s with fw := { s.fw with flash := { s.fw.flash with copySeq := n } },
                        dict := { s.dict with programming := false, stored := s.dict.copy, waits := s.dict.waits.filter fun w => !w.inCopy } }
      let s := if s.serving || s.mode.mode == .sweep then (s.append 1 (pad16 (1 + len)) (.settings n)).1 else s
      (ended.foldl (fun s w => s.storeAnswer w.who) s).storeKick)

end Sys2Proof.Machine
end

