-- ==== Sys2Proof/Machine/Transport.lean ====
section
/-! DEFINITION. The transport engine's own steps: HELLO and ACCEPT, timers, ACK, NAK, DATA, grants, keepalive, RWP v1
(03 R55 to R94). -/

namespace Sys2Proof.Machine

/-- The packet fails R56: not version 2, not the type, or too short. -/
def badHeader (b : Bytes) (type size : Nat) : Bool := decide (b.length < size) || beAt b 0 1 != 2 || beAt b 1 1 != type

/-- A port's address as ACCEPT writes it (Table 3.4): its IPv6 address, or else its IPv4 address as IPv4-mapped (DESIGN CHOICE,
log 41: IPv6 first where the port holds both). -/
def State.portAddress (s : State) (p : PortId) : Bytes :=
  let v6 := padTo ((s.str (K.ipv6Address p.code)).take 16) 16
  let v4 := padTo ((s.str (K.ipv4Address p.code)).take 4) 4
  if allZero v6 && !allZero v4 then zeros 10 ++ [0xFF, 0xFF] ++ v4 else v6

/-- PortMap of ACCEPT (Table 3.4): the ports whose links are up. -/
def State.portMap (s : State) : Nat := bit (s.eth.portA.link == .up) + 2 * bit (s.eth.portB.link == .up)

/-- Bytes 0 to 195 of an ACCEPT (Table 3.4). -/
def State.acceptHead (s : State) (nonce pub : Bytes) (status mpb sid retryMs : Nat) : Bytes :=
  rwpHeader 2 0 sid 0 ++ padTo nonce 32 ++ padTo pub 97 ++ beBytes 1 status ++ beBytes 2 mpb ++ beBytes 4 sid ++
    beBytes 4 (s.num K.maxOutstanding) ++ beBytes 4 retryMs ++ beBytes 1 s.portMap ++ zeros 3 ++ s.portAddress .a ++ s.portAddress .b

/-- Sends an ACCEPT on a port. -/
def State.sendAccept (s : State) (p : PortId) (addr : Nat) (b : Bytes) : State :=
  (s.txFrame p (s.frameBytes p addr b.length)).emitOn p (.accept p ect0 (s.portTci p) b)

/-- RetryAfterMs of TABLE_FULL (R88). -/
def State.tableRetry (s : State) : Nat :=
  let l := (s.openSessions.filter fun x => x.asHost.isNone && x.unreleased == 0).map fun x => x.lastCmd + s.num K.evictionMinIdleSeconds * nsSec - s.now
  match l with
  | [] => 60000
  | a :: r => min 60000 (max 1000 (ceilDiv (r.foldl min a) nsMs))

/-- A SessionId for a new session: a nonzero one that no entry bears; which one the manual leaves to the drive (free value). -/
def State.newSid (s : State) : Nat × State :=
  let d := s.drawFree
  let l := (List.range (s.net.sessions.length + 1)).map fun i => 1 + (d.1 + i) % (2 ^ 32 - 1)
  (((l.find? fun n => (s.session? n).isNone)).getD 1, d.2)

/-- A refusal by ACCEPT, counted (R58, R90). -/
def State.refuseHello (s : State) (h : HelloPkt) (hk : Bytes) (status mpb retryMs : Nat) : State :=
  let b := s.acceptHead [] [] status mpb 0 retryMs
  (s.sendAccept h.port h.addr (b ++ cmac16 hk b)).bump K.helloRefused

/-- A HALF_OPEN session is entered and answered ACCEPTED (R58 step 4, R60, R61). The ECDH engine needs random bits: with none,
nothing is sent (R295). -/
def State.acceptHello (s : State) (h : HelloPkt) (k : Psk) (mpb : Nat) : State :=
  if !s.rngOk then s
  else
    let (sid, s) := s.newSid
    let (nonce, s) := s.random 32
    let (priv, s) := s.random 48
    let hostNonce := sliceBytes h.bytes 16 32
    let hostPub := sliceBytes h.bytes 48 97
    let ctx := rwpCtx k.identity (padTo (Config.ecdhShared priv hostPub) 48) hostNonce nonce
    let b := s.acceptHead nonce (Config.ecdhPublic priv) 0 mpb sid 0
    let b := b ++ cmac16 (kdf k.psk "RWP2 confirm" ctx 32) b
    let path : NetPath := { idx := 0, port := h.port, addr := h.addr, st := .validating, lastTx := s.now, lastRx := s.now, lastCong := s.now }
    let x : Session :=
      { sid := sid, st := .halfOpen, v1 := false, asHost := none, identity := k.identity, policy := k.policy, mpb := mpb,
        maxOut := s.num K.maxOutstanding, hostNonce := hostNonce, hostPub := hostPub, accept := b,
        h2dKey := kdf k.psk "RWP2 h2d key" ctx 32, h2dIv := kdf k.psk "RWP2 h2d iv" ctx 12,
        d2hKey := kdf k.psk "RWP2 d2h key" ctx 32, d2hIv := kdf k.psk "RWP2 d2h iv" ctx 12,
        openedAt := s.now, lastCmd := s.now, lastActive := s.now, paths := [path] }
    let s := { s with net := { s.net with sessions := s.net.sessions ++ [x] } }
    (s.touch sid).sendAccept h.port h.addr b

/-- A HELLO whose identity and MAC hold, after the mode check (R58). -/
def State.newHello (s : State) (h : HelloPkt) (k : Psk) (hk : Bytes) (mpb : Nat) : State :=
  match s.net.sessions.find? fun x => x.st == .halfOpen && x.hostNonce == sliceBytes h.bytes 16 32 && x.hostPub == sliceBytes h.bytes 48 97 with
  | some x => s.sendAccept h.port h.addr x.accept
  | none =>
    if 1024 ≤ (s.net.sessions.filter (·.st == .halfOpen)).length then s.bump K.helloRefused
    else match s.makeRoom with
      | some s => s.acceptHello h k mpb
      | none => s.refuseHello h hk 1 mpb s.tableRetry

/-- HELLO (R55, R56, R58, R59, R88); a datagram that is no HELLO of version 2, nor of a type of Table 3.2, is malformed. An
IdentityLength that R58 does not allow names no identity. RetryAfterMs of NOT_SERVING is not stated: a free value. A HELLO ends LULL
(R373). -/
def execHello (t : Nat) (h : HelloPkt) (s : State) : Host.Outcome State Fault Refusal :=
  let s := s.advance t
  if s.otherPort h.dst then done (s.bump (K.cRxFiltered h.port.code)) else
  let s := s.rxFrame h.port (s.frameBytes h.port h.addr h.bytes.length)
  let b := h.bytes
  if badHeader b 1 232 || decide (beAt b 146 2 < 1232) then done (s.bump K.rxMalformed)
  else
    let id := sliceBytes b 152 (beAt b 148 1)
    match s.psk? id with
    | none => done (s.bump K.rxAuthFail)
    | some k =>
      let hk := kdf k.psk "RWP2 hello" id 32
      if cmac16 hk (b.take 216) != sliceBytes b 216 16 then done (s.bump K.rxAuthFail)
      else
        let mpb := min (beAt b 146 2) (s.portMpb h.port)
        if s.serving then done (s.newHello h k hk mpb).wakeLull
        else
          let (d, s) := s.drawFree
          done (s.refuseHello h hk 2 mpb (d % 2 ^ 32))

/-- The drive's terms for a TLS 1.3 handshake (R92): TLS_AES_256_GCM_SHA384 (0x1302), secp384r1 (0x0018) and psk_dhe_ke (1) are
offered, and no certificate. Early data is refused: the handshake goes on without it. -/
def TlsHello.accepted (h : TlsHello) : Bool := h.suites.contains 0x1302 && h.groups.contains 0x0018 && h.modes.contains 1 && !h.certificate && h.verifies

/-- The ACCEPT of RWP v1 (R93): a message with the body of Table 3.4 from offset 16, in which four fields are meaningful. -/
def v1Accept (status sid out retryMs : Nat) : Bytes :=
  v1Message 0x02 (zeros 129 ++ beBytes 1 status ++ zeros 2 ++ beBytes 4 sid ++ beBytes 4 out ++ beBytes 4 retryMs ++ zeros 52)

/-- TLS_HANDSHAKE (R92, R93): an RWP v1 session opens, and ACCEPT is its first message; or the table is full. -/
def execTlsHandshake (t : Nat) (h : TlsHello) (s : State) : Host.Outcome State Fault Refusal :=
  let s := s.advance t
  if s.otherPort h.dst || !s.serving || !s.flag K.rwpV1Enable then done s
  else match s.psk? h.identity with
    | none => done (s.bump K.rxAuthFail)
    | some k =>
      if !h.accepted then done (s.bump K.rxAuthFail)
      else match s.makeRoom with
        | none => done (((s.bump K.helloRefused).emitOn h.port (.accept h.port ect0 (s.portTci h.port) (v1Accept 1 0 0 s.tableRetry))).wakeLull)
        | some s =>
          let (sid, s) := s.newSid
          let path : NetPath := { idx := 0, port := h.port, addr := h.addr, st := .active, lastTx := s.now, lastRx := s.now, lastCong := s.now }
          let b := v1Accept 0 sid (s.num K.maxOutstanding) 0
          let x : Session :=
            { sid := sid, st := .open_, v1 := true, asHost := none, identity := k.identity, policy := k.policy, mpb := 9552,
              maxOut := s.num K.maxOutstanding, hostNonce := [], hostPub := [], accept := b, h2dKey := [], h2dIv := [], d2hKey := [],
              d2hIv := [], openedAt := s.now, lastCmd := s.now, lastActive := s.now, paths := [path] }
          let s := { s with net := { s.net with sessions := s.net.sessions ++ [x] } }
          done ((((s.touch sid).bump K.sessionsOpened).emitOn h.port (.accept h.port ect0 (s.portTci h.port) b)).wakeLull)

/-- HALF_OPEN_TIMEOUT (Table 3.5): 1 s without a packet. -/
def execHalfOpenTimeout (t : Nat) (sid : Nat) (s : State) : Host.Outcome State Fault Refusal :=
  let s := s.advance t
  match s.session? sid with
  | some x => if x.st = .halfOpen ∧ x.openedAt + nsSec ≤ s.now then done (s.dropSession sid) else done s
  | none => done s

/-- When a session has had nothing for SessionLossMs: no ACTIVE path, or silence on the one connection of RWP v1 (Table 3.5,
R94). -/
def State.sessionSilent (s : State) (x : Session) : Bool :=
  let w := s.num K.sessionLossMs * nsMs
  (match x.noPathSince with | some a => decide (a + w ≤ s.now) | none => false) ||
    (x.v1 && x.paths.all fun q => decide (q.lastRx + w ≤ s.now))

/-- SESSION_LOSS_TIMEOUT (Table 3.5, R51). -/
def execSessionLossTimeout (t : Nat) (sid : Nat) (s : State) : Host.Outcome State Fault Refusal :=
  let s := s.advance t
  match s.session? sid with
  | some x => if x.st == .open_ && s.sessionSilent x then (s.loseSession sid).afterReply else done s
  | none => done s

/-- IDLE_TIMEOUT (Table 3.5). -/
def execIdleTimeout (t : Nat) (sid : Nat) (s : State) : Host.Outcome State Fault Refusal :=
  let s := s.advance t
  match s.session? sid with
  | some x =>
    if x.st = .open_ ∧ x.asHost = none ∧ x.unreleased = 0 ∧ x.lastCmd + s.num K.idleTimeoutSeconds * nsSec ≤ s.now then
      (s.closeSession sid 1 0).afterReply
    else done s
  | none => done s

/-- CLOSING_TIMEOUT (Table 3.5): 3 PTOs of path 0. -/
def execClosingTimeout (t : Nat) (sid : Nat) (s : State) : Host.Outcome State Fault Refusal :=
  let s := s.advance t
  match s.session? sid with
  | some x => match x.closeAt with
    | some a => if x.st = .closing ∧ a ≤ s.now then done (s.dropSession sid) else done s
    | none => done s
  | none => done s

/-- V1_CONNECTION_CLOSE (R94): an OPEN session is LOST; a CLOSING one is over. -/
def execV1ConnectionClose (t : Nat) (sid : Nat) (s : State) : Host.Outcome State Fault Refusal :=
  let s := s.advance t
  match s.session? sid with
  | some x =>
    if x.v1 = false then done s
    else if x.st = .open_ then (s.loseSession sid).afterReply
    else done (s.dropSession sid)
  | none => done s

/-- CLOSE received (R63, R86, Table 3.5): the session is CLOSING and its commands end; the CLOSE is acknowledged. DEVICE_HALTING from
Lace's successor stops the chain (R439). -/
def execClose (t : Nat) (rx : Rx) (reason detail : Nat) (s : State) : Host.Outcome State Fault Refusal :=
  let s := s.advance t
  let _ := detail
  match s.rxPacket rx 0 true with
  | (s, .dropped) => done s
  | (s, .taken) => match s.session? rx.sid with
    | none => done s
    | some x =>
      if x.st = .closing then done (s.sendAck rx.sid rx.path)
      else
        let s := if reason = 6 ∧ x.asHost = some s.fw.lace.successor ∧ s.fw.lace.activateSent = true then s.laceStop else s
        let s := if reason = 5 then s.event 0x0304 [(4, rx.sid), (4, x.direction false)] else s
        let s := (s.endSessionCmds rx.sid).sendAck rx.sid rx.path
        let s := { s with net := { s.net with ends := s.net.ends.filter (·.sid != rx.sid) } }
        let s := s.onSession rx.sid fun x => { x with st := .closing, unacked := [], txq := [], held := [],
                                                      closeAt := some (s.now + 3 * ((x.path? 0).map (·.pto)).getD 150000) }
        (match s.session? rx.sid with
          | some x => s.noteMember x
          | none => s).afterReply

/-- The ranges of an ACK as (high, low) (R64); none where a range falls below packet number 1. -/
def ackSpans : Int → List (Nat × Nat) → Option (List (Nat × Nat))
  | _, [] => some []
  | prev, (gap, len) :: r =>
    let hi := prev - gap - 2
    let lo := hi - len
    if lo < 1 then none
    else (ackSpans lo r).map fun l => (hi.toNat, lo.toNat) :: l

/-- The spans of an ACK of RWP v2; none where it is malformed (R64, Table 3.15). -/
def AckPkt.spans (a : AckPkt) : Option (List (Nat × Nat)) :=
  if a.ranges.isEmpty ∨ (a.ranges.head?.any fun r => r.1 != 0) = true then none
  else ackSpans ((a.largest : Int) + 2) a.ranges

/-- A number lies in a span. -/
def inSpans (l : List (Nat × Nat)) (n : Nat) : Bool := l.any fun x => decide (x.2 ≤ n ∧ n ≤ x.1)

/-- What an ACK says of the packets sent (R67, R68, R69): RTT sample, probe timeout, CE counts, acknowledged packets. -/
def State.ackPackets (s : State) (sid : Nat) (a : AckPkt) (l : List (Nat × Nat)) : State :=
  match s.session? sid with
  | none => s
  | some x =>
    let new := x.sent.filter fun y => !y.acked && inSpans l y.pn
    let largest := x.sent.find? (·.pn == a.largest)
    let sent := x.sent.map fun (y : Sent) => { y with acked := y.acked || inSpans l y.pn }
    let x := { x with sent := sent, unacked := x.unacked.filter fun u => !inSpans l u.pn }
    let x := (new.map (·.path)).eraseDups.foldl (fun x p => x.onPath p fun q =>
      { q with acked := q.acked + (new.filter (·.path == p)).length }) x
    let x := (((x.sent.filter fun y => inSpans l y.pn).map (·.path)).eraseDups).foldl (fun x p => x.onPath p fun q => { q with ptos := 0 }) x
    let x := match largest with
      | some y => x.onPath y.path fun q => q.sample (s.now - y.at_ - a.delayUs * 1000)
      | none => x
    let x := [0, 1, 2, 3].foldl (fun x i => x.onPath i fun q => { q with ceNow := max q.ceNow (a.ce.getD i 0) }) x
    let lost := x.unacked.filter fun u => new.any fun y => y.path == u.path && decide (u.pn + 3 ≤ y.pn)
    let s := (s.setSession x).lose sid lost
    match s.session? sid with
    | some x => (State.pump x.txq.length s sid).sendReleases sid
    | none => s

/-- The content is the response of a tag's command. -/
def PktBody.answers (tag inc : Nat) : PktBody → Bool
  | .resp _ _ t i _ => t == tag && i == inc
  | .redirect _ t i _ _ _ _ => t == tag && i == inc
  | _ => false

/-- One release entry of an ACK (R72 to R74): the context and the retained response are free, and with a SESSION_RESET the contexts
that it suppressed. -/
def State.release (s : State) (sid : Nat) (r : Nat × Nat) : State :=
  match s.session? sid with
  | none => s
  | some x => match x.tags.find? (·.tag == r.1) with
    | none => s.bump K.rxStaleIncarnation
    | some g =>
      if g.inc ≠ r.2 ∨ g.released = true then s.bump K.rxStaleIncarnation
      else if !g.ended then s.bump K.rxEarlyRelease
      else s.setSession { x with tags := x.tags.map (fun y => if y.tag = r.1 ∨ y.byReset = some r.1 then { y with released := true, byReset := none } else y),
                                 unacked := x.unacked.filter (fun u => !u.body.answers r.1 r.2), txq := x.txq.filter fun y => !y.2.2.answers r.1 r.2 }

/-- Replies that credit held go on (R80). -/
def State.resumeReplies (s : State) (sid : Nat) : State :=
  (s.kv.cmds.filter fun c => c.sid == sid && c.reply.isSome).foldl (fun s c =>
    State.sendReply ((match c.reply with | some r => r.1.length | none => 0) + 2) s sid c.pkt.tag) s

/-- ACK (R64, R67 to R69, R72 to R74, R80): spans, credit, release entries; the ACK of a CLOSE ends its session. -/
def execAck (t : Nat) (rx : Rx) (a : AckPkt) (s : State) : Host.Outcome State Fault Refusal :=
  let s := s.advance t
  match s.rxPacket rx 0 (!a.releases.isEmpty) with
  | (s, .dropped) => done s
  | (s, .taken) => match s.session? rx.sid with
    | none => done s
    | some x =>
      match (if x.v1 then some [] else a.spans) with
      | none => done (s.bump K.rxMalformed)
      | some l =>
        let s := s.ackPackets rx.sid a l
        if x.st = .closing then
          if x.closePn.any (inSpans l) = true then done (s.dropSession rx.sid) else done s
        else
          let s := s.onSession rx.sid fun x => { x with credit := a.credit, v1Data := 0 }
          let s := State.pump x.txq.length s rx.sid
          let s := match x.asHost with | some m => s.dispatchAll m | none => s
          let s := if x.asHost.isNone then a.releases.foldl (fun s r => s.release rx.sid r) s else s
          ((s.resumeReplies rx.sid).ackIfDue rx).afterReply

/-- ACK_DELAY_EXPIRY (R64): MaxAckDelay of 25 us. -/
def execAckDelayExpiry (t : Nat) (sid : Nat) (s : State) : Host.Outcome State Fault Refusal :=
  let s := s.advance t
  match s.session? sid with
  | some x => if 0 < x.ackOwed ∧ x.ackSince + 25000 ≤ s.now then (s.sendAck sid 0).afterReply else done s
  | none => done s

/-- A tag entry names the current, unreleased command of its tag (R73). -/
def Session.tagCurrent (x : Session) (tag inc : Nat) : Bool := x.tags.any fun g => g.tag == tag && g.inc == inc && !g.released

/-- NAK (R65 to R67, R73): GAP sends content again; a tag entry changes nothing, and a stale one is counted. -/
def execNak (t : Nat) (rx : Rx) (n : NakPkt) (s : State) : Host.Outcome State Fault Refusal :=
  let s := s.advance t
  match s.rxPacket rx 2 false with
  | (s, .dropped) => done s
  | (s, .taken) => match s.session? rx.sid with
    | none => done s
    | some x =>
      if n.reason = 1 then
        if n.gaps.isEmpty then done (s.bump K.rxMalformed)
        else if x.v1 then done s
        else (s.lose rx.sid (x.unacked.filter fun u => n.gaps.any fun g => decide (g.1 ≤ u.pn ∧ u.pn ≤ g.2))).afterReply
      else if n.tags.isEmpty then done (s.bump K.rxMalformed)
      else done (s.addTo K.rxStaleIncarnation (n.tags.filter fun e => !x.tagCurrent e.1 e.2.1).length)

/-- PTO_EXPIRY (R67, R68, R84): the unacknowledged packets of the path are lost and its PTO doubles; the third in a row fails
the path. The timeout runs from the oldest of them (DESIGN CHOICE, log 42). -/
def execPtoExpiry (t : Nat) (sid path : Nat) (s : State) : Host.Outcome State Fault Refusal :=
  let s := s.advance t
  match s.session? sid with
  | none => done s
  | some x => match x.path? path, x.unacked.find? (·.path == path) with
    | some q, some u =>
      if x.v1 = false ∧ q.st ≠ .failed ∧ u.at_ + q.pto ≤ s.now then
        let s := s.onSession sid fun x => x.onPath path fun q => { q with ptos := q.ptos + 1 }
        if 3 ≤ q.ptos + 1 then (s.pathFail sid path 2).afterReply
        else (s.lose sid (x.unacked.filter (·.path == path))).afterReply
      else done s
    | _, _ => done s

/-- alpha after an interval with CE fraction f (R69). -/
def alphaNext (alpha f : Rat) : Rat := alpha * 15 / 16 + f / 16

/-- cwnd after an interval (R69), rounded down to whole bytes (DESIGN CHOICE, log 43), with clean_rounds. -/
def cwndNext (cwnd clean mpb : Nat) (alpha f : Rat) : Nat × Nat :=
  if 0 < f then (boundCwnd mpb ((cwnd : Rat) * (1 - alpha / 2)).floor.toNat, 0)
  else
    let c := min (clean + 1) 8
    (boundCwnd mpb (cwnd + if c = 8 then 8 * mpb else mpb), c)

/-- CONGESTION_UPDATE (R69): once per SRTT; an interval without acknowledgements has no fraction and changes nothing. -/
def execCongestionUpdate (t : Nat) (sid path : Nat) (s : State) : Host.Outcome State Fault Refusal :=
  let s := s.advance t
  match s.session? sid with
  | none => done s
  | some x => match x.path? path with
    | none => done s
    | some q =>
      if x.v1 = true ∨ s.now < q.lastCong + q.srtt ∨ q.acked = 0 then done s
      else
        let f : Rat := min 1 (((q.ceNow - q.ceSeen : Nat) : Rat) / (q.acked : Rat))
        let alpha := alphaNext q.alpha f
        let (cwnd, clean) := cwndNext q.cwnd q.clean x.mpb alpha f
        let s := s.onSession sid fun x => x.onPath path fun q =>
          { q with alpha := alpha, cwnd := cwnd, clean := clean, ceSeen := q.ceNow, acked := 0, lastCong := s.now }
        done (State.pump x.txq.length s sid)

/-- The pieces of some bytes that a list of ranges does not hold. -/
def uncovered (got : List (Nat × Bytes)) (off : Nat) (b : Bytes) : List (Nat × Bytes) :=
  got.foldl (fun (l : List (Nat × Bytes)) g =>
    l.flatMap fun (p : Nat × Bytes) =>
      let hi := g.1 + g.2.length
      let left := (p.1, p.2.take (g.1 - p.1))
      let right := (max p.1 hi, p.2.drop (hi - p.1))
      (if left.2.isEmpty then [] else [left]) ++ (if right.2.isEmpty then [] else [right])) [(off, b)]

/-- Puts a range in order of its offset. -/
def insertRange (p : Nat × Bytes) : List (Nat × Bytes) → List (Nat × Bytes)
  | [] => [p]
  | q :: r => if p.1 ≤ q.1 then p :: q :: r else q :: insertRange p r

/-- Bytes received in a window. -/
def Window.bytes (w : Window) : Bytes := w.got.flatMap (·.2)

/-- The window is open: granted, and not all of its bytes are here (R78). -/
def Window.open (w : Window) : Bool := !w.complete

/-- A range lies wholly in a window. -/
def Window.holds (w : Window) (off n : Nat) : Bool := decide (w.off ≤ off ∧ off + n ≤ w.off + w.len)

/-- Bytes stored in an open window (R78); it is complete once all are here. -/
def Window.put (w : Window) (off : Nat) (b : Bytes) : Window :=
  let got := (uncovered w.got off b).foldl (fun l p => insertRange p l) w.got
  { w with got := got, complete := decide (w.len ≤ ((got.map (·.2.length)).sum)) }

/-- Whether a command is host-held (R129): an open, incomplete window, and every byte that arrived processed. -/
def CmdCtx.hostWaits (c : CmdCtx) : Bool := c.windows.any Window.open && c.windows.all fun w => w.drained || !w.complete

/-- Host-held time of a command begins or ends with its windows. -/
def State.noteHeld (s : State) (sid tag : Nat) : State :=
  match s.cmd? sid tag with
  | none => s
  | some c =>
    if c.hostWaits then (if c.heldSince.isSome then s else s.openHeld sid tag)
    else s.closeHeld c

/-- NAK of a DATA packet, which is acknowledged and discarded (Table 3.8). -/
def State.nakData (s : State) (rx : Rx) (reason tag inc off : Nat) : State :=
  (s.sendNow rx.sid rx.path (.nak reason [(tag, inc, off)])).bump K.nakTagSent

/-- The checks of R78 on DATA from a host, in their order, and its storage. -/
def State.takeData (s : State) (rx : Rx) (x : Session) (tag inc off : Nat) (b : Bytes) : State :=
  if !x.tagCurrent tag inc then s.bump K.rxStaleIncarnation
  else if b.isEmpty then s.nakData rx 2 tag inc off
  else
    let c? := s.cmd? rx.sid tag
    match c?.bind fun c => c.windows.find? fun w => w.open && w.holds off b.length with
    | none => s.nakData rx 3 tag inc off
    | some w =>
      let fresh := ((uncovered w.got off b).map (·.2.length)).sum
      let s := if fresh < b.length then s.bump K.rxDuplicate else s
      let s := s.onCmd rx.sid tag fun c => { c with lastData := s.now, windows := c.windows.map fun y => if y.off = w.off then y.put off b else y }
      s.noteHeld rx.sid tag

/-- DATA from a host (R78). On a session that this drive opened as host it is PEER_DATA's, and malformed here. -/
def execData (t : Nat) (rx : Rx) (tag inc off : Nat) (payload : Bytes) (s : State) : Host.Outcome State Fault Refusal :=
  let s := s.advance t
  match s.rxPacket rx 2 true with
  | (s, .dropped) => done s
  | (s, .taken) => match s.session? rx.sid with
    | none => done s
    | some x =>
      let s := if x.asHost.isSome then s.bump K.rxMalformed else s.takeData rx x tag inc off payload
      done (s.ackIfDue rx)

/-- WINDOW_DRAIN (R44, R78, R297): the first complete window drains in offset order, its space is free again; a peer's slice
is stored once its last window has drained (R212). -/
def execWindowDrain (t : Nat) (sid tag : Nat) (s : State) : Host.Outcome State Fault Refusal :=
  let s := s.advance t
  match s.cmd? sid tag with
  | none => done s
  | some c => match c.windows.find? fun w => !w.drained with
    | none => done s
    | some w =>
      if !w.complete then done s
      else
        let s := { s with media := { s.media with granted := s.media.granted - bufSpace w.len } }
        let s := s.onCmd sid tag fun c => { c with windows := c.windows.map fun y => if y.off = w.off then { y with drained := true } else y }
        match s.cmd? sid tag with
        | none => done s
        | some c' =>
          if writeOp c'.pkt.opcode then ((s.feed c' w.bytes).noteHeld sid tag).afterReply
          else if c'.pkt.valueLen ≤ w.off + w.len then (s.putSlice c' (c'.windows.flatMap Window.bytes)).afterReply
          else done (s.noteHeld sid tag)

/-- DATA_IDLE_TIMEOUT (R79). -/
def execDataIdleTimeout (t : Nat) (sid tag : Nat) (s : State) : Host.Outcome State Fault Refusal :=
  let s := s.advance t
  match s.cmd? sid tag with
  | none => done s
  | some c =>
    if c.windows.any Window.open = true ∧ c.lastData + s.num K.dataIdleMs * nsMs ≤ s.now then
      (s.abort c stLength 0 true).afterReply
    else done s

/-- A window that R77 allows next: its offset is where the last ended. -/
def windowOk (total off len : Nat) : Bool :=
  decide (0 < len ∧ len ≤ 1048576 ∧ off + len ≤ total) && (len % 65536 == 0 || off + len == total)

/-- Windows of the given lengths one after the other; none where R77 forbids one. -/
def windowsFrom (total : Nat) : Nat → List Nat → Option (List (Nat × Nat))
  | _, [] => some []
  | off, n :: r => if windowOk total off n then (windowsFrom total (off + n) r).map ((off, n) :: ·) else none

/-- The command takes a value by grants and has started (R77). -/
def CmdCtx.takesGrants (c : CmdCtx) : Bool :=
  (putOp c.pkt.opcode || c.pkt.opcode == 0x71) && c.st == .running && decide (0 < c.pkt.valueLen) && !c.pkt.immediate

/-- GRANT_WINDOW (R44, R77): the windows that the transport opens next, while their space is free; raw values retained for reads give way (R250). How much it opens at a time
the manual leaves to it: the operand. -/
def execGrantWindow (t : Nat) (sid tag : Nat) (lens : List Nat) (s : State) : Host.Outcome State Fault Refusal :=
  let s := s.advance t
  match s.cmd? sid tag with
  | none => done s
  | some c =>
    match windowsFrom c.pkt.valueLen c.granted lens with
    | none => done s
    | some l =>
      let n := lens.sum
      let space := (lens.map bufSpace).sum
      let s' := s.rawRoom space
      if l.isEmpty ∨ 32 < l.length ∨ c.takesGrants = false ∨ s'.bufSize < s'.bufUsed + space then done s
      else
        let s := s'
        let ws : List Window := l.map fun x => { off := x.1, len := x.2, got := [], complete := false, drained := false }
        let s := { s with media := { s.media with granted := s.media.granted + space } }
        let s := s.onCmd sid tag fun c => { c with windows := c.windows ++ ws, granted := c.granted + n, lastData := s.now }
        done ((s.send sid c.path false (.grant tag c.pkt.inc l)).noteHeld sid tag)

/-- READ_DATA_SEND (R80): DATA as far as RecvCredit allows, then the RESP. -/
def execReadDataSend (t : Nat) (sid tag : Nat) (s : State) : Host.Outcome State Fault Refusal :=
  let s := s.advance t
  match s.cmd? sid tag with
  | some c => match c.reply with
    | some r => (State.sendReply (r.1.length + 2) s sid tag).afterReply
    | none => done s
  | none => done s

/-- The port is one that the session's ACCEPT listed (R83). -/
def Session.listsPort (x : Session) (p : PortId) : Bool := bitAt (beAt x.accept 160 1) p.code

/-- KEEPALIVE_PROBE (R83): the ECHO, and for an unused index a new path with the drive's own PROBE, whose Stamp is the drive's
choice (free value). -/
def execKeepaliveProbe (t : Nat) (rx : Rx) (stamp : Nat) (s : State) : Host.Outcome State Fault Refusal :=
  let s := s.advance t
  match s.rxPacket rx 1 false with
  | (s, .dropped) => done s
  | (s, .taken) => match s.session? rx.sid with
    | none => done s
    | some x =>
      if (x.path? rx.path).isSome ∨ x.v1 = true then done (s.sendNow rx.sid rx.path (.keepalive true stamp))
      else if x.asHost.isSome ∨ x.listsPort rx.port = false then done s
      else
        let q : NetPath := { idx := rx.path, port := rx.port, addr := rx.addr, st := .validating, lastTx := s.now, lastRx := s.now, lastCong := s.now }
        let s := s.onSession rx.sid fun x => { x with paths := x.paths ++ [q] }
        let (d, s) := s.drawFree
        done ((s.sendNow rx.sid rx.path (.keepalive true stamp)).sendNow rx.sid rx.path (.keepalive false (d % 2 ^ 64)))

/-- KEEPALIVE_ECHO (R83, R84): a VALIDATING or FAILED path becomes ACTIVE. -/
def execKeepaliveEcho (t : Nat) (rx : Rx) (stamp : Nat) (s : State) : Host.Outcome State Fault Refusal :=
  let s := s.advance t
  let _ := stamp
  match s.rxPacket rx 2 false with
  | (s, .dropped) => done s
  | (s, .taken) =>
    match (s.session? rx.sid).bind fun x => x.path? rx.path with
    | some q => if q.st = .active then done s else (s.pathUp rx.sid rx.path).afterReply
    | none => done s

/-- KEEPALIVE_INTERVAL (R83, R84): a PROBE on an ACTIVE path that has been quiet, or on a FAILED one while its link is up. -/
def execKeepaliveInterval (t : Nat) (sid path : Nat) (s : State) : Host.Outcome State Fault Refusal :=
  let s := s.advance t
  match (s.session? sid).bind fun x => x.path? path with
  | none => done s
  | some q =>
    let due := decide (q.lastTx + s.num K.keepaliveIntervalMs * nsMs ≤ s.now)
    if due && (q.st == .active || (q.st == .failed && (s.port q.port).link == .up)) then
      let (d, s) := s.drawFree
      (s.sendNow sid path (.keepalive false (d % 2 ^ 64))).afterReply
    else done s

/-- PATH_DEAD_TIMEOUT (R84). -/
def execPathDeadTimeout (t : Nat) (sid path : Nat) (s : State) : Host.Outcome State Fault Refusal :=
  let s := s.advance t
  match s.session? sid with
  | none => done s
  | some x => match x.path? path with
    | some q =>
      if x.v1 = false ∧ q.st ≠ .failed ∧ q.lastRx + s.num K.pathDeadMs * nsMs ≤ s.now then (s.pathFail sid path 3).afterReply
      else done s
    | none => done s

/-- A host-role session from an ACCEPT with ACCEPTED (R58 to R61): its first packet opens it at the member. The private key goes as
soon as z is computed (R60). A full table takes none (R87). -/
def State.openAsHost (s : State) (a : AcceptPkt) (h : HelloOut) (k : Psk) : State :=
  let b := a.bytes
  let ctx := rwpCtx k.identity (padTo (Config.ecdhShared h.priv (sliceBytes b 48 97)) 48) h.nonce (sliceBytes b 16 32)
  let used := s.net.hellos.map fun (y : HelloOut) => if y.member = a.member then { y with priv := [] } else y
  let s := { s with net := { s.net with hellos := used } }
  if h.priv.isEmpty then s
  else if 65536 ≤ s.openSessions.length then s
  else if cmac16 (kdf k.psk "RWP2 confirm" ctx 32) (b.take 196) != sliceBytes b 196 16 then s.bump K.rxAuthFail
  else
    let sid := 2 ^ 32 * (a.member + 1) + beAt b 148 4
    let path : NetPath := { idx := 0, port := a.port, addr := a.addr, st := .active, lastTx := s.now, lastRx := s.now, lastCong := s.now }
    let x : Session :=
      { sid := sid, st := .open_, v1 := false, asHost := some a.member, identity := k.identity, policy := k.policy, mpb := beAt b 146 2,
        maxOut := beAt b 152 4, hostNonce := h.nonce, hostPub := h.pub, accept := b.take 212,
        h2dKey := kdf k.psk "RWP2 h2d key" ctx 32, h2dIv := kdf k.psk "RWP2 h2d iv" ctx 12,
        d2hKey := kdf k.psk "RWP2 d2h key" ctx 32, d2hIv := kdf k.psk "RWP2 d2h iv" ctx 12,
        openedAt := s.now, lastCmd := s.now, lastActive := s.now, paths := [path] }
    let s := { s with net := { s.net with sessions := s.net.sessions ++ [x], hellos := s.net.hellos.filter (·.member != a.member) } }
    ((((s.bump K.sessionsOpened).touch sid).noteMember x).dispatchAll a.member).askNamespaces a.member

/-- PEER_SESSION_ACCEPT (R58): the member's answer to this drive's HELLO. A refusal sets when the next HELLO may go. -/
def execPeerSessionAccept (t : Nat) (a : AcceptPkt) (s : State) : Host.Outcome State Fault Refusal :=
  let s := s.advance t
  let s := s.rxFrame a.port (s.frameBytes a.port a.addr a.bytes.length)
  let b := a.bytes
  if badHeader b 2 212 then done (s.bump K.rxMalformed)
  else match s.net.hellos.find? (·.member == a.member), (s.welt.cur.bind fun g => g.member? s.selfId).bind fun me => s.psk? me.identity with
    | some h, some k =>
      if beAt b 145 1 = 0 then (s.openAsHost a h k).afterReply
      else if cmac16 (kdf k.psk "RWP2 hello" k.identity 32) (b.take 196) != sliceBytes b 196 16 then done (s.bump K.rxAuthFail)
      else
        let h' : HelloOut := { h with sentAt := s.now + beAt b 156 4 * nsMs - nsSec }
        let hs := s.net.hellos.map fun (y : HelloOut) => if y.member = a.member then h' else y
        done { s with net := { s.net with hellos := hs } }
    | _, _ => done s

/-- PEER_GRANT (R77): the slice's bytes go into the granted windows. -/
def execPeerGrant (t : Nat) (rx : Rx) (tag inc : Nat) (windows : List (Nat × Nat)) (s : State) : Host.Outcome State Fault Refusal :=
  let s := s.advance t
  match s.rxPacket rx 2 true with
  | (s, .dropped) => done s
  | (s, .taken) =>
    let s := if windows.isEmpty then s.bump K.rxMalformed
      else match s.msgOn rx.sid tag with
        | none => s.bump K.rxStaleIncarnation
        | some m =>
          if m.pkt.inc ≠ inc then s.bump K.rxStaleIncarnation
          else if m.pkt.opcode ≠ 0x71 then s
          else
            let s := windows.foldl (fun s w =>
              State.sendData (w.2 + 1) s rx.sid rx.path tag inc w.1 (sliceBytes m.value w.1 w.2) false) s
            s.onMsg m.id fun m => { m with sent := m.sent + (windows.map (·.2)).sum, sentAt := s.now }
    done (s.ackIfDue rx)

/-- Bytes of a reply in offset order: the run from 0, and what lies beyond a gap. -/
def joinAhead : Bytes → List (Nat × Bytes) → Bytes × List (Nat × Bytes)
  | b, [] => (b, [])
  | b, (o, d) :: r => if o ≤ b.length then joinAhead (b ++ d.drop (b.length - o)) r else (b, (o, d) :: r)

/-- PEER_DATA (R73, R80): the bytes of a peer's reply. -/
def execPeerData (t : Nat) (rx : Rx) (tag inc off : Nat) (payload : Bytes) (last : Bool) (s : State) : Host.Outcome State Fault Refusal :=
  let s := s.advance t
  match s.rxPacket rx 2 true with
  | (s, .dropped) => done s
  | (s, .taken) =>
    let s := match s.msgOn rx.sid tag with
      | none => s.bump K.rxStaleIncarnation
      | some m =>
        if m.pkt.inc ≠ inc then s.bump K.rxStaleIncarnation
        else
          let j := joinAhead m.got (insertRange (off, payload) m.ahead)
          s.onMsg m.id fun m => { m with got := j.1, ahead := j.2, total := if last then some (off + payload.length) else m.total }
    done (s.ackIfDue rx)

end Sys2Proof.Machine
end

