-- ==== Sys2Proof/Machine/Nand.lean ====
section
/-! DEFINITION. Operations of the array and of DRAM: programs, erases, reads, calibration, errors (08 R238 to R258,
09 R265, R271 to R274, R277, 05 R133). -/

namespace Sys2Proof.Machine

/-- NAND_ZQ_RECAL (R238): every 10 minutes, and whenever the die temperature has moved 20 degrees; new operations are held for 2 us. -/
def execNandZqRecal (t : Nat) (temp : Int) (s : State) : Host.Outcome State Fault Refusal :=
  let s := s.advance t
  let moved := decide (20 ≤ temp - s.media.zqTemp) || decide (20 ≤ s.media.zqTemp - temp)
  done (if s.domOn .media && (moved || decide (s.media.zqAt + 600 * nsSec ≤ s.now)) then
      { s with media := { s.media with zqTemp := temp, zqAt := s.now, zqHold := s.now + 2000 } }
    else s)

/-- Programs all units of a stream that wait, in their order. -/
def State.programStream : Nat → State → Nat → State
  | 0, s, _ => s
  | fuel + 1, s, stream =>
    match (s.media.recs.find? fun r => r.stream == stream && !r.units.isEmpty).bind (·.units.head?) with
    | some u => State.programStream fuel (s.programUnit u) stream
    | none => s

/-- PROGRAM_COMPLETE (R242, R250): of a program that the sequencer has issued (R254). -/
def execProgramComplete (t : Nat) (stream : Nat) (place : UnitPlace) (s : State) : Host.Outcome State Fault Refusal :=
  let s := s.advance t
  let unit := place.unit stream
  if s.writable && s.unitPending unit && s.openLogged unit then
    let s := s.issueUnit unit
    (if s.issued unit then s.programUnit unit else s).afterReply
  else done s

/-- A destination of a relocation failed: event 0x080D with the victim (R273). -/
def State.noteDestFail (s : State) (u : UnitId) : State :=
  let hit := s.media.moves.find? fun m => match s.recAt m.new with | some r => r.units.contains u | none => false
  match hit with
  | some m => (s.bump K.gcDestinationFailures).event 0x080D [(4, u.ds), (4, u.slot), (4, u.sb), (4, m.sb)]
  | none => s

/-- PROGRAM_FAILURE (R250, R273, R274): the superblock is closed, its records are appended again, the block is retired and the
superblock becomes a forced victim. -/
def execProgramFailure (t : Nat) (unit : UnitId) (s : State) : Host.Outcome State Fault Refusal :=
  let s := s.advance t
  if !(s.writable && s.unitPending unit && s.openLogged unit) then done s
  else
    let s := s.issueUnit unit
    if !s.issued unit then s.afterReply
    else
    let slc := s.slcAt unit.ds unit.sb
    let s := (s.bump K.programFailures).noteDestFail unit
    let s := { s with media := { s.media with nProg := s.media.nProg + bit (!slc),
                                              notReady := s.media.notReady.filter fun x => !(x.1 == unit.ds && x.2.1 == unit.slot) } }
    let s := (s.useCounter (unitCws s.media.profile slc)).evacuate unit.ds unit.sb
    let s := (s.retireBlock unit.ds unit.slot unit.sb 1).force unit.ds unit.sb 1
    (((s.checkDieBlocks unit.ds unit.slot).settleMoves).checkShort).afterReply

/-- An erased superblock is FREE with its erase count raised, or UNUSABLE with fewer than 24 slots (Table 9.1, R274); the records
that were in it are gone. -/
def State.erased (s : State) (ds sb : Nat) (x : Superblock) : State :=
  let gone := s.recsOf ds sb
  let bytes := (gone.map fun r => s.recBytesOn r fun u => u.ds == ds && u.sb == sb).sum
  let s := { s with media := { s.media with
    recs := s.media.recs.filter (fun r => !(r.span.any fun u => u.ds == ds && u.sb == sb)),
    badAddrs := s.media.badAddrs.filter (fun a => !(gone.any fun r => r.addr == a)),
    erasing := s.media.erasing.filter (· != (ds, sb)),
    ops := s.media.ops.filter (fun o => match o.kind with | .erase a b _ => !(a == ds && b == sb) | _ => true),
    images := s.media.images.filter (fun i => !(i.ds == ds && i.sb == sb)),
    nErs := s.media.nErs + (if x.slc then 0 else x.slots.length),
    notReady := s.media.notReady.filter fun n => !(n.1 == ds && x.slots.contains n.2.1) } }
  let st := if 24 ≤ (s.slotsIn ds sb).length then SbState.free else SbState.unusable
  let s := (s.addTo K.orphanBytesReclaimed bytes).journal 32 (.sbState ds sb st (x.erases + 1))
  let s := s.setSb { ds := ds, sb := sb, st := st, erases := x.erases + 1, slc := x.slc }
  (((s.settleMoves).slcFollow).checkShort).stirred

/-- ERASE_COMPLETE (R271 step 5). -/
def execEraseComplete (t : Nat) (ds sb : Nat) (s : State) : Host.Outcome State Fault Refusal :=
  let s := s.advance t
  match s.sb? ds sb with
  | some x =>
    if s.writable && s.media.erasing.contains (ds, sb) then
      let s := s.runOps
      (if s.erasesIssued ds sb then s.erased ds sb x else s).afterReply
    else done s
  | none => done s

/-- ERASE_FAILURE (R274): the block is retired, and the superblock is FREE without that slot. -/
def execEraseFailure (t : Nat) (ds sb slot : Nat) (s : State) : Host.Outcome State Fault Refusal :=
  let s := s.advance t
  match s.sb? ds sb with
  | some x =>
    if s.writable && s.media.erasing.contains (ds, sb) then
      let s := s.runOps
      (if s.erasesIssued ds sb then ((s.retireBlock ds slot sb 2).erased ds sb x).checkDieBlocks ds slot else s).afterReply
    else done s
  | none => done s

/-- DIE_READY_TIMEOUT (R274): counted by die; the third operation in a row retires it. -/
def execDieReadyTimeout (t : Nat) (ds slot : Nat) (s : State) : Host.Outcome State Fault Refusal :=
  let s := s.advance t
  if !(s.domOn .media) || !(s.dieIn ds slot) || decide (s.dieSets ≤ ds) || decide (32 ≤ slot) then done s
  else
    let n := ((s.media.notReady.find? fun x => x.1 == ds && x.2.1 == slot).map (·.2.2)).getD 0 + 1
    let s := { s with media := { s.media with notReady := (ds, slot, n) :: s.media.notReady.filter fun x => !(x.1 == ds && x.2.1 == slot) } }
    if n < 3 then done s
    else (((s.retireDie ds slot 4).settleMoves).checkShort).afterReply

/-- CODEWORD_READ (R246, R254, R255): the codeword by its die set, superblock and number in it, how the ladder ended, and tag failures on the way. The read is given to its
sequencer, and does its work when it is issued. -/
def execCodewordRead (t : Nat) (ds : Nat) (sb : Nat) (cw : Nat) (outcome : ReadOutcome) (tagFails : Nat) (s : State) : Host.Outcome State Fault Refusal :=
  let s := s.advance t
  if !(s.domOn .media) || (s.sb? ds sb).isNone then done s
  else ((s.giveOp (.read (cwAddr ds sb cw) outcome tagFails)).runOps).afterReply

/-- The mark of an OPEN superblock: the lowest q that is not programmed (Table 9.3). -/
def State.markOf (s : State) (x : Superblock) : Nat :=
  let p := s.media.profile
  let pend := (s.media.recs.flatMap (·.units)) ++ (s.media.streams.flatMap (·.open_))
  let qs := (pend.filter fun u => u.ds == x.ds && u.sb == x.sb).map (unitQ p x.slc)
  qs.foldl min (profWordlines p * 32 * unitCws p x.slc)

/-- SB_PROGRESS_APPEND (R282): at most once per millisecond, when the mark has risen. -/
def execSbProgressAppend (t : Nat) (ds sb : Nat) (s : State) : Host.Outcome State Fault Refusal :=
  let s := s.advance t
  match s.sb? ds sb with
  | none => done s
  | some x =>
    let m := s.markOf x
    if s.writable && x.st == .open_ && decide (x.mark < m) && decide (x.markAt + nsMs ≤ s.now) then
      let s := s.setSb { x with mark := m, markAt := s.now }
      done (s.journal 32 (.sbProgress ds x.stream sb m))
    else done s

/-- DRAM_ECC_CORRECTED (R258). -/
def execDramEccCorrected (t : Nat) (addr dev : Nat) (s : State) : Host.Outcome State Fault Refusal :=
  let s := s.advance t
  done (if s.domOn .dram then (s.bump K.dramCorrected).event 0x0808 [(8, addr), (4, dev)] else s)

/-- Region and action codes of event 0x0809 (DESIGN CHOICE, log 47): actions 1 dropped, 2 write ended, 3 repair, 4 MUSTER, 5
reported. -/
def DramRegion.codes : DramRegion → Nat × Nat
  | .index => (1, 4) | .mediaTables => (2, 4) | .contexts => (3, 4) | .sessions => (4, 4)
  | .readCache _ => (5, 1) | .peerStaging => (6, 1) | .writeWindow _ _ => (7, 2) | .writeFrag _ _ => (8, 3) | .siteWindow => (9, 5)

/-- A fragment's bytes in the write buffer are bad (R258): the uncommitted write of this home ends INTERNAL_ERROR; a committed
fragment counts as bad and enters the repair queue. -/
def State.fragDamaged (s : State) (i : StripeId) (n : Nat) : State :=
  match s.kv.cmds.find? fun c => match c.write with | some w => w.stripe == i && w.commit.isNone && w.ending.isNone | none => false with
  | some c => s.abort c 0xFF 0x0809 true
  | none =>
    let s := match s.frag? i n with
      | some f => s.setFrag { f with slices := f.slices.map fun (x : Slice) => if s.onMedia x.addr then x else { x with bad := true } }
      | none => s
    match s.recOfStripe i with
    | some r => s.queueRepair r n false
    | none => s

/-- DRAM_ECC_UNCORRECTABLE (R258): event 0x0809 with its EMCY, then what its region asks for. -/
def execDramEccUncorrectable (t : Nat) (addr dev : Nat) (region : DramRegion) (s : State) : Host.Outcome State Fault Refusal :=
  let s := s.advance t
  let _ := dev
  if !(s.domOn .dram) then done s
  else
    let (r, a) := region.codes
    let s := (s.bump K.dramUncorrectable).eventEmcy 0x0809 [(8, addr), (4, Config.eventCode 0x0809 r), (4, Config.eventCode 0x0809 a)] 0x5020 false
    match region with
    | .readCache i => done { s with kv := { s.kv with cache := s.kv.cache.filter fun c => c.1 != i } }
    | .peerStaging => done s
    | .siteWindow => done s
    | .writeWindow sid tag => (match s.cmd? sid tag with
      | some c => (if c.st = .committed ∨ c.st = .releasing then s else s.abort c 0xFF 0x0809 true).afterReply
      | none => done s)
    | .writeFrag i n => (s.fragDamaged i n).afterReply
    | _ => done (s.resetFlush trDram)

/-- DRAM_PATROL_SCRUB (R258): once every DramScrubHours. -/
def execDramPatrolScrub (t : Nat) (s : State) : Host.Outcome State Fault Refusal :=
  let s := s.advance t
  done (if s.domOn .dram && decide (s.media.lastPatrol + s.num K.dramScrubHours * 3600 * nsSec ≤ s.now) then
      { s with media := { s.media with lastPatrol := s.now } }
    else s)

/-- WA_m in permille from program units, erases and user bytes (R256), rounded down; none where no user unit was written. -/
def waPermille (p : Bytes) (prog ers userBytes : Nat) : Option Nat :=
  let units := userBytes / max 1 (unitCap p false)
  let d := units * profTProg p
  if d = 0 then none else some (max 1000 ((prog * profTProg p + ers * profTBers p) * 1000 / d))

/-- WA_M_REPORT (R256): each minute of SERVE, over the past hour. With no user unit the quotient has no value: a free one of at
least 1.0. -/
def execWaMReport (t : Nat) (s : State) : Host.Outcome State Fault Refusal :=
  let s := s.advance t
  if !s.serving || decide (s.now < s.media.lastWam + 60 * nsSec) then done s
  else
    let h := ((s.media.nProg, s.media.nErs, s.media.nUserBytes) :: s.media.hour).take 60
    let s := { s with media := { s.media with hour := h, nProg := 0, nErs := 0, nUserBytes := 0, lastWam := s.now } }
    match waPermille s.media.profile (h.map (·.1)).sum (h.map (·.2.1)).sum (h.map (·.2.2)).sum with
    | some w => done { s with media := { s.media with wam := w } }
    | none =>
      let (d, s) := s.drawFree
      done { s with media := { s.media with wam := max 1000 (d % 2 ^ 16) } }

/-- RHO_UPDATE (R133): each minute. The percentile is taken over reports whose grouping the manual leaves open: with no retry it is
0, with every read retried 1, else a free value up to 1. -/
def execRhoUpdate (t : Nat) (s : State) : Host.Outcome State Fault Refusal :=
  let s := s.advance t
  if !s.serving || decide (s.now < s.shank.lastRho + 60 * nsSec) then done s
  else
    let m := s.media
    let floor_ := s.num K.ldpcRetryFloorPermille
    let (d, s) := s.drawFree
    let v := if m.pageRetries = 0 then 0 else if m.pageReads ≤ m.pageRetries then 1000 else min 1000 (d % 1001)
    done { s with shank := { s.shank with rho := max floor_ v, lastRho := s.now },
                  media := { s.media with pageReads := 0, pageRetries := 0 } }

end Sys2Proof.Machine
end

