-- ==== Sys2Proof/Machine/Reclaim.lean ====
section
/-! DEFINITION. Reclamation, wear, retention and checkpoints (09 R266 to R284, R285). -/

namespace Sys2Proof.Machine

/-- A tombstone's hold under R29 has run out. -/
def State.holdOver (s : State) (c : CommitRec) : Bool :=
  c.tombstone && (match s.ns? c.ns with
    | some x => decide (c.commitTime + x.hold * nsSec ≤ s.ptp)
    | none => true)

/-- A tombstone is discarded: REMOVE_LOG, and its stripe released (R29, R216, R268). -/
def State.discard (s : State) (r : MediaRec) : State :=
  match r.body with
  | .commit c =>
    if s.holdOver c then
      match s.idx.cells.find? fun x => x.2.kind != .link && x.2.loc == r.addr with
      | some x => (s.dropEntry ⟨x.1, x.2, c⟩).releaseStripe c 4
      | none => s
    else s
  | _ => s

/-- A victim's expired tombstones go, and the rest is relocated (R268, R271). -/
def State.takeVictim (s : State) (x : Superblock) : State :=
  (((s.recsOf x.ds x.sb).foldl State.discard s).relocate x).settleMoves

/-- The score of a superblock (R267); none where it is no candidate. -/
def scoreOf (c v age cap maxv : Nat) : Option Nat := if c * maxv < v * 1000 then none else some ((c - v) * min age cap / max 1 (c + v))

/-- The score of a CLOSED native superblock that is not SYSTEM's. -/
def State.sbScore (s : State) (x : Superblock) : Option Nat :=
  if x.st = SbState.closed ∧ x.slc = false ∧ x.stream ≠ 1 then
    scoreOf (s.sbCap x) (s.sbValid x.ds x.sb) ((s.now - x.closedAt) / nsSec) (s.num K.gcAgeCapSeconds) (s.num K.gcMaxValidPermille)
  else none

/-- The better of two scored superblocks: the higher score, then the lower erase count, then the lower number. -/
def betterScore (a b : Nat × Superblock) : Nat × Superblock :=
  if a.1 < b.1 ∨ (a.1 = b.1 ∧ (b.2.erases < a.2.erases ∨ (b.2.erases = a.2.erases ∧ b.2.sb < a.2.sb))) then b else a

/-- The scored victim of a die set (R266 point 3). -/
def State.scoredVictim (s : State) (ds : Nat) : Option Superblock :=
  if s.freeCount ds < s.num K.gcStartFree then
    match (s.media.sbs.filter (·.ds == ds)).filterMap fun x => (s.sbScore x).map fun n => (n, x) with
    | [] => none
    | a :: l => some (l.foldl betterScore a).2
  else none

/-- The more urgent of two forced superblocks: by kind, then the older request (R266 point 2). -/
def moreUrgent (a b : Superblock) : Superblock :=
  if b.forced < a.forced ∨ (b.forced = a.forced ∧ b.forcedAt < a.forcedAt) then b else a

/-- The forced victim of a die set. -/
def State.forcedVictim (s : State) (ds : Nat) : Option Superblock :=
  match s.media.sbs.filter fun x => x.ds == ds && x.st == .closed && x.forced != 0 with
  | [] => none
  | a :: l => some (l.foldl moreUrgent a)

/-- After a long time without power due scans come before all other PC3 work of Insole (R279). -/
def State.scansFirst (s : State) : Bool := s.media.scanFirst && s.media.sbs.any s.scanIsDue

/-- GC_VICTIM_SELECT (R266): empty ones wait for erase at once; then a forced, else a scored victim, one at a time. A fold does
not count as one. -/
def execGcVictimSelect (t : Nat) (ds : Nat) (s : State) : Host.Outcome State Fault Refusal :=
  let s := s.advance t
  if !s.writable || s.scansFirst then done s
  else
    let s := s.settleMoves
    let busy := s.media.sbs.any fun x => x.ds == ds && x.st == .victim && (x.stream != 0 || x.forced != 0)
    if busy then s.afterReply
    else match (s.forcedVictim ds).orElse fun _ => s.scoredVictim ds with
      | some x => (s.takeVictim x).afterReply
      | none => s.afterReply

/-- SUPERBLOCK_ERASE (R271 step 5): the erase of a PENDING_ERASE superblock is issued. A read takes what it needs from the
superblock in its own step, so that none refers to it later. -/
def execSuperblockErase (t : Nat) (ds sb : Nat) (s : State) : Host.Outcome State Fault Refusal :=
  let s := s.advance t
  match s.sb? ds sb with
  | some x =>
    if s.writable && !s.scansFirst && x.st == .pendingErase && !s.media.erasing.contains (ds, sb) then
      let s := { s with media := { s.media with erasing := s.media.erasing ++ [(ds, sb)] } }
      done ((s.slotsIn ds sb).foldl (fun s i => s.giveOp (.erase ds sb i)) s).runOps
    else done s
  | none => done s

/-- Lowest and highest erase count of a die set among superblocks that are not UNUSABLE (R276). One never used counts 0. -/
def State.eraseSpan (s : State) (ds : Nat) : Nat × Nat :=
  let listed := s.media.sbs.filter fun x => x.ds == ds
  let all := profBlocks s.media.profile - (if ds = 0 then 2 else 0)
  let counts := (listed.filter fun x => x.st != .unusable).map (·.erases)
  let counts := if listed.length < all then 0 :: counts else counts
  match counts with
  | [] => (0, 0)
  | c :: l => (l.foldl min c, l.foldl max c)

/-- The static victim of a die set: the CLOSED superblock of lowest erase count (R276). -/
def State.staticVictim (s : State) (ds : Nat) : Option Superblock :=
  match s.media.sbs.filter fun x => x.ds == ds && x.st == .closed with
  | [] => none
  | a :: l => some (l.foldl (fun (b x : Superblock) => if x.erases < b.erases ∨ (x.erases = b.erases ∧ x.sb < b.sb) then x else b) a)

/-- Wear is compared in one die set (R276). -/
def State.wearCheck (s : State) (ds : Nat) : State :=
  let (lo, hi) := s.eraseSpan ds
  let busy := s.media.sbs.any fun x => x.ds == ds && x.forced == 4 && (x.st == .closed || x.st == .victim)
  if busy || decide (hi - lo ≤ s.num K.wearSpreadLimit) then s
  else match s.staticVictim ds with
    | some x =>
      if x.forced = 0 then ((s.force ds x.sb 4).bump K.staticRelocations).event 0x080F [(4, ds), (4, x.sb), (4, hi - lo)] else s
    | none => s

/-- WEAR_STATIC_CHECK (R276): once every WearStaticIntervalSeconds, in every die set. -/
def execWearStaticCheck (t : Nat) (s : State) : Host.Outcome State Fault Refusal :=
  let s := s.advance t
  if s.writable && decide (s.media.lastStatic + s.num K.wearStaticIntervalSeconds * nsSec ≤ s.now) then
    let s := { s with media := { s.media with lastStatic := s.now } }
    done ((List.range s.dieSets).foldl State.wearCheck s)
  else done s

/-- 2^(i/10) in billionths, rounded down. -/
def tenthPow : List Nat :=
  [1000000000, 1071773462, 1148698354, 1231144413, 1319507910, 1414213562, 1515716566, 1624504792, 1741101126, 1866065983]

/-- The age that a second adds at a die temperature, in billionths: 2^((T − 40) ÷ 10) clamped to 0.25 and 16 (R278). -/
def ageFactor (temp : Int) : Nat :=
  let d := (temp - 20).toNat
  if temp ≤ 20 then 250000000
  else if 80 ≤ temp then 16000000000
  else tenthPow.getD (d % 10) 0 * 2 ^ (d / 10) / 4

/-- EFFECTIVE_AGE_TICK (R278): the seconds since the last one, at the highest die temperature of each die set. -/
def execEffectiveAgeTick (t : Nat) (temps : List Int) (s : State) : Host.Outcome State Fault Refusal :=
  let s := s.advance t
  let n := (s.now - s.media.ageAt) / nsSec
  if n = 0 ∨ s.domOn .core = false ∨ s.domOn .media = false then done s
  else
    let sbs := s.media.sbs.map fun (x : Superblock) =>
      if x.st = SbState.closed then { x with age := x.age + n * ageFactor (temps.getD x.ds 40) } else x
    done { s with media := { s.media with sbs := sbs, ageAt := s.media.ageAt + n * nsSec } }

/-- The retry step of a scan's worst page, none where that page needs no refresh (R279). -/
def State.weakStep (s : State) : ReadOutcome → Option Nat
  | .step n => if s.num K.retentionRefreshStep ≤ n then some n else none
  | .parity => some (profRetries s.media.profile)
  | .lost => some (profRetries s.media.profile)

/-- RETENTION_SCAN (R279): the due superblock of greatest effective age, with the worst page that its samples met and the page
reads that retries added in each slot. The next one waits until this one's bytes have passed at RetentionSweepMBps, but
in SWEEP (13 R374). -/
def execRetentionScan (t : Nat) (ds sb : Nat) (worst : ReadOutcome) (retries : List (Nat × Nat)) (s : State) : Host.Outcome State Fault Refusal :=
  let s := s.advance t
  let due := s.media.sbs.filter s.scanIsDue
  match s.sb? ds sb with
  | none => done s
  | some x =>
    if !(s.domOn .media) || (s.mode.mode != .sweep && decide (s.now < s.media.scanUntil)) || !(s.scanIsDue x) || due.any fun y => decide (x.age < y.age) then done s
    else
      let wls := profWordlines s.media.profile
      let slots := x.slots.filter (· != x.parity)
      let s := s.setSb { x with scanAge := x.age, scanDue := false }
      let bytes := slots.length * wls * 16384
      let s := s.addTo K.retentionBytesScanned bytes
      let s := { s with media := { s.media with scanUntil := s.now + ceilDiv (bytes * 1000) (max 1 (s.num K.retentionSweepMBps)) } }
      let s := slots.foldl (fun s i => s.countReads ds sb i (wls + (mapGet retries i).getD 0)) s
      let s := match s.weakStep worst with
        | some n => ((s.force ds sb 3).bump K.retentionRefreshes).event 0x0811 [(4, ds), (4, sb), (4, n)]
        | none => s
      let left := s.media.sbs.any s.scanIsDue
      done ({ s with media := { s.media with scanFirst := s.media.scanFirst && left } } : State).stirred

/-- SLC_FOLD (R269): the next superblock in ascending SuperblockSeq, while the stream is over its size or it is too old. -/
def execSlcFold (t : Nat) (s : State) : Host.Outcome State Fault Refusal :=
  let s := s.advance t
  match s.oldestSlc with
  | none => done s
  | some x =>
    if s.writable && !s.scansFirst && s.foldDue x then
      (s.takeVictim x).afterReply
    else done s

/-- CHECKPOINT_START (R284): on its period, or at the journal span. A die set short of space starts one itself (R270). -/
def execCheckpointStart (t : Nat) (s : State) : Host.Outcome State Fault Refusal :=
  let s := s.advance t
  done (if s.writable && s.cycleDue then s.startCycle else s)

/-- Data slots of an anchor superblock: slots whose blocks 0 and 1 are good, without the parity slot (R240, R285). -/
def State.anchorUnits (s : State) : Nat :=
  let good := (s.slotsIn 0 0).filter fun i => (s.slotsIn 0 1).contains i
  (good.length - 1) * profWordlines s.media.profile

/-- The die map of dies in service, by LUN (R285, log 115). -/
def State.dieBits (s : State) : List Nat :=
  (List.range 8).flatMap fun c => (List.range s.media.u).filterMap fun u =>
    match (s.media.dies.getD c [])[u]? with
    | some x => if s.dieIn (slotAt c u).1 (slotAt c u).2 then some (64 * c + 4 * x.1 + x.2) else none
    | none => none

/-- An anchor record is appended and programmed; a full anchor superblock is left for the other, which is erased first (R285). -/
def State.writeAnchor (s : State) : State :=
  let m := s.media
  let s := if m.anchorFill < s.anchorUnits then { s with media := { m with anchorSeq := m.anchorSeq + 1, anchorFill := m.anchorFill + 1 } }
    else { s with media := { m with anchorSeq := m.anchorSeq + 1, anchorSb := 1 - m.anchorSb, anchorFill := 1, anchorErases := m.anchorErases + 1 } }
  ({ s with media := { s.media with dieMap := s.dieBits } } : State).useCounter (unitCws s.media.profile true)

/-- Bytes of a cycle's sections by kind (Table 9.4): CKPT_INDEX and CKPT_OVERFLOW follow from the index; of CKPT_FRAG and
CKPT_TABLES the manual gives no length, a free value. -/
def State.sectionBytes (s : State) (c : Cycle) (kind free : Nat) : Nat :=
  let sections := max 1 (2 ^ s.idx.n / 65536)
  let main := (c.image.cells.filter fun x => decide (x.1 < 2 ^ 31)).length
  match kind with
  | 0x50 => sections * 32 + 2 ^ s.idx.n / 2 + 16 * main
  | 0x51 => pad16 (32 + 20 * (c.image.cells.length - main))
  | _ => 16 * (2 + free % 2 ^ 16)

/-- One kind of a cycle's sections is appended. -/
def State.writeSections (s : State) (c : Cycle) (kind : Nat) : State :=
  let (d, s) := s.drawFree
  (s.append 1 (s.sectionBytes c kind d) (.ckptSections c.no kind)).1

/-- What CKPT_TABLES says of the superblocks. -/
def State.sbLines (s : State) : List SbLine :=
  s.media.sbs.map fun x => { ds := x.ds, sb := x.sb, st := x.st, erases := x.erases, reads := x.reads, age := x.age, scanAge := x.scanAge }

/-- CHECKPOINT_END (R283 to R285): sections and CKPT_END are in the SYSTEM stream and programmed, an anchor record follows, and
what the cycle covers goes on to PENDING_ERASE. -/
def execCheckpointEnd (t : Nat) (s : State) : Host.Outcome State Fault Refusal :=
  let s := s.advance t
  match s.media.running with
  | none => done s
  | some c =>
    if !s.writable then done s
    else
      let s := [0x50, 0x51, 0x52, 0x53].foldl (fun s k => s.writeSections c k) s
      let sections := max 1 (2 ^ s.idx.n / 65536) + 3
      let c := { c with image := { c.image with tables := s.sbLines, bad := s.media.badBlocks, dies := s.media.retiredDies, sets := s.media.deadSets } }
      let (s, _) := s.append 1 (pad16 (40 + 5 * sections)) (.ckptEnd c.no c.start)
      let units := (s.media.recs.map fun r => r.units.length).sum
      let s := State.programStream (units + 1) s 1
      let s := ({ s with media := { s.media with running := none, cycles := c :: s.media.cycles.take 1, ckptRtc := s.rtc } } : State).writeAnchor
      ((s.bump K.checkpointCycles).settleMoves).stirred.afterReply

end Sys2Proof.Machine
end

