-- ==== Sys2Proof/Machine/Recover.lean ====
section
/-! DEFINITION. Recovery: journal replay, the tail scan, sealing, the boot horizon, and the end of MUSTER (09 R286 to R288,
R277, R278; 10 R301; 14 R418; 13 R371, R380; 06 R173). -/

namespace Sys2Proof.Machine

/-- An index entry as recovery holds it before the index is built anew: the place of its commit record, hash, version and
instance. -/
structure Item where
  loc : Nat
  hash : Nat
  version : Nat
  inst : Nat
  deriving DecidableEq, Repr

/-- What the journal replays into: index entries in order, the fragment table, superblock states with erase counts, retired
blocks, dies and die sets. -/
structure Replay where
  items : List Item := []
  frags : List FragLine := []
  sbs : List (Nat × Nat × SbState × Nat) := []
  bad : List (Nat × Nat × Nat) := []
  dies : List (Nat × Nat) := []
  sets : List Nat := []
  deriving DecidableEq, Repr

/-- A journal record that can be read. -/
def State.journalAt (s : State) (j : Nat) : Option MediaRec :=
  s.media.recs.find? fun r => r.jseq == some j && r.units.isEmpty && !s.media.badAddrs.contains r.addr

/-- Ranges that recoveries declared void (R287). -/
def State.voids (s : State) : List (Nat × Nat) :=
  s.media.recs.filterMap fun r => match r.body with
    | .recoveryMark _ a b _ => if a = 0 then none else some (a, b)
    | _ => none

/-- The records from a JSeq on, in order, up to the first gap, and the last JSeq before it (R286 step 4). -/
def State.readJournal : Nat → State → Nat → List MediaRec → List MediaRec × Nat
  | 0, _, j, l => (l, j - 1)
  | fuel + 1, s, j, l =>
    match s.voids.find? fun v => decide (v.1 ≤ j ∧ j ≤ v.2) with
    | some v => State.readJournal fuel s (v.2 + 1) l
    | none => match s.journalAt j with
      | some r => State.readJournal fuel s (j + 1) (l ++ [r])
      | none => (l, j - 1)

/-- The highest JSeq on media. -/
def State.topJSeq (s : State) : Nat := ((s.media.recs.filter (·.units.isEmpty)).filterMap (·.jseq)).foldl max 0

/-- Where a record has moved to in the end, by the moves that were replayed. -/
def chase : Nat → List (Nat × Nat) → Nat → Nat
  | 0, _, a => a
  | fuel + 1, l, a => match l.find? (·.1 == a) with
    | some m => chase fuel l m.2
    | none => a

/-- Moves that replayed MOVE_LOGs name. -/
def movesOf (l : List MediaRec) : List (Nat × Nat) := l.flatMap fun r => match r.body with | .moveLog _ _ m => m | _ => []

/-- The key of an entry's commit record, where that is still on media. -/
def State.itemKey (s : State) (moves : List (Nat × Nat)) (x : Item) : Option Bytes :=
  (s.commitAt (chase (moves.length + 1) moves x.loc)).map (·.key)

/-- Two entries are of one key. -/
def State.sameItem (s : State) (moves : List (Nat × Nat)) (x y : Item) : Bool :=
  x.inst == y.inst && x.hash == y.hash &&
    (match s.itemKey moves x, s.itemKey moves y with
     | some a, some b => a == b
     | _, _ => true)

/-- A COMMIT_LOG, or a commit record found by the tail scan: applied if the key's entry is absent or of a lower Version. -/
def State.putItem (s : State) (moves : List (Nat × Nat)) (l : List Item) (x : Item) : List Item :=
  if l.any fun y => s.sameItem moves x y && decide (x.version ≤ y.version) then l
  else (l.filter fun y => !s.sameItem moves x y) ++ [x]

/-- A FRAG_LOG: states only advance, and COMPLETE is only set. -/
def putLine (l : List FragLine) (x : FragLine) : List FragLine :=
  match l.find? fun y => y.stripe == x.stripe && y.index == x.index with
  | some y =>
    let z := { x with state := max x.state y.state, complete := x.complete || y.complete, dir := if x.dir = 0 then y.dir else x.dir }
    l.map fun w => if w.stripe = x.stripe ∧ w.index = x.index then z else w
  | none => l ++ [x]

/-- A superblock's line. -/
def putSb (l : List (Nat × Nat × SbState × Nat)) (ds sb : Nat) (st : SbState) (er : Option Nat) : List (Nat × Nat × SbState × Nat) :=
  let old := ((l.find? fun x => x.1 == ds && x.2.1 == sb).map (·.2.2.2)).getD 0
  (l.filter fun x => !(x.1 == ds && x.2.1 == sb)) ++ [(ds, sb, st, er.getD old)]

/-- A MOVE_LOG's entries change what still names the old address (R272). -/
def Replay.move (p : Replay) (m : Nat × Nat) : Replay :=
  { p with items := p.items.map fun (x : Item) => if x.loc = m.1 then { x with loc := m.2 } else x,
           frags := p.frags.map fun (x : FragLine) =>
             { x with hdr := if x.hdr = m.1 then m.2 else x.hdr, dir := if x.dir = m.1 then m.2 else x.dir } }

/-- One journal record is applied (Table 9.3). -/
def State.applyLog (s : State) (moves : List (Nat × Nat)) (p : Replay) (r : MediaRec) : Replay :=
  match r.body with
  | .commitLog h v e => { p with items := s.putItem moves p.items ⟨e.loc, h, v, e.inst⟩ }
  | .removeLog h v _ inst => { p with items := p.items.filter fun x => !(x.hash == h && x.version == v && x.inst == inst) }
  | .fragLog i n st complete hdr dir =>
    { p with frags := putLine p.frags { stripe := i, index := n, state := min st 2, complete := complete, hdr := hdr, dir := dir } }
  | .moveLog _ _ l => l.foldl Replay.move p
  | .sbOpen ds _ sb _ _ => { p with sbs := putSb p.sbs ds sb .open_ none }
  | .sbState ds sb st er => { p with sbs := putSb p.sbs ds sb st (some er) }
  | .retire ds slot b scope _ =>
    if scope = 1 then { p with bad := p.bad ++ [(ds, slot, b)] }
    else if scope = 2 then { p with dies := p.dies ++ [(ds, slot)] }
    else { p with sets := p.sets ++ [ds] }
  | _ => p

/-- The logs applied in order. A COMMIT_LOG that stands at the end while its record was not found programmed is undone, and what it
had replaced stands again (R286 step 6). -/
def State.replay : Nat → State → List (Nat × Nat) → Replay → List MediaRec → Replay
  | 0, s, moves, b, l => l.foldl (s.applyLog moves) b
  | fuel + 1, s, moves, b, l =>
    let p := l.foldl (s.applyLog moves) b
    let lost := p.items.filter fun x => (s.commitAt x.loc).isNone
    let undo (r : MediaRec) : Bool := match r.body with
      | .commitLog h v e => lost.any fun x => x.hash == h && x.version == v && x.inst == e.inst
      | _ => false
    if l.any undo then State.replay fuel s moves b (l.filter fun r => !undo r) else p

/-- A cycle's CKPT_END is on media and readable. -/
def State.endReadable (s : State) (c : Cycle) : Bool :=
  s.media.recs.any fun r => (match r.body with | .ckptEnd n _ => n == c.no | _ => false) && r.units.isEmpty && !s.media.badAddrs.contains r.addr

/-- The newest readable CKPT_END of the two that anchor records name (R285, R286 step 2). -/
def State.baseCycle (s : State) : Option Cycle := s.media.cycles.find? s.endReadable

/-- What the cycle that recovery starts from gives (R286 steps 2, 3 and 5). -/
def State.replayBase (s : State) (moves : List (Nat × Nat)) : Replay :=
  match s.baseCycle with
  | none => {}
  | some c =>
    { items := c.image.cells.filterMap fun x =>
        if x.2.kind = .link then none
        else (s.commitAt (chase (moves.length + 1) moves x.2.loc)).elim (some ⟨x.2.loc, 0, 0, x.2.inst⟩) fun r => some ⟨x.2.loc, r.hash, r.version, x.2.inst⟩
      frags := c.image.frags
      sbs := c.image.tables.map fun x => (x.ds, x.sb, x.st, x.erases)
      bad := c.image.bad, dies := c.image.dies, sets := c.image.sets }

/-- StartJSeq of that cycle. -/
def State.replayStart (s : State) : Nat := (s.baseCycle.map (·.start)).getD 1

/-- The state of a superblock after replay. -/
def Replay.sbSt (p : Replay) (ds sb : Nat) : SbState := ((p.sbs.find? fun x => x.1 == ds && x.2.1 == sb).map (·.2.2.1)).getD .free

/-- The tail scan finds a record that no replayed journal record names (R286 step 6). -/
def tailRec (last : Nat) (r : MediaRec) : Bool :=
  r.jseq.isNone && (match r.log with | none => true | some j => decide (last < j))

/-- Commit records of the tail, as if they had been logged. -/
def State.tailItems (s : State) (moves : List (Nat × Nat)) (last : Nat) (p : Replay) : Replay × List MediaRec :=
  (s.media.recs.filter (tailRec last)).foldl (fun (b : Replay × List MediaRec) r => match r.body with
    | .commit c =>
      match s.instOf c.ns c.gen with
      | none => b
      | some i =>
        let l := s.putItem moves b.1.items ⟨r.addr, c.hash, c.version, i⟩
        if l = b.1.items then b else ({ b.1 with items := l }, b.2 ++ [r])
    | _ => b) (p, [])

/-- An entry of the image goes into the index: its record is on media, and its instance is LIVE still (R163, R173). -/
def State.restores (s : State) (x : Item) : Option CommitRec :=
  (s.commitAt x.loc).filter fun c => s.instOf c.ns c.gen == some x.inst

/-- The index is built anew from the image, in order; IndexImageBytes counts its entries (R169, R173, Table 6.13). -/
def State.buildIndex (s : State) (l : List Item) : State :=
  let s := { s with idx := { s.idx with imageEntries := (l.filterMap s.restores).length } }
  l.foldl (fun s x => match s.restores x with
    | some c => s.insertEntry c.hash (entryFor c.hash x.inst x.loc c false)
    | none => s) s

/-- The commit record that the index names for a stripe of this drive. -/
def State.indexedStripe (s : State) (i : StripeId) : Option CommitRec :=
  match s.media.recs.find? fun r => (match r.body with | .commit c => c.stripe == i | _ => false) && s.recValid r with
  | some r => (match r.body with | .commit c => some c | _ => none)
  | none => none

/-- The slices of a fragment that are on media. -/
def State.slicesLeft (s : State) (f : Frag) : List Slice :=
  f.slices.filterMap fun x =>
    if (s.recAt x.addr).isSome then some x
    else (s.media.recs.find? fun r => r.body == .slice f.hdr.stripe f.hdr.index x.seg).map fun r => { x with addr := r.addr }

/-- A fragment as recovery finds it on media, if its header is there and its table line does not say released; its place, and
whether the tail scan found it. -/
def State.refindFrag (s : State) (last : Nat) (p : Replay) (f : Frag) : Option (Frag × Bool) :=
  let i := f.hdr.stripe
  let n := f.hdr.index
  let heads := s.media.recs.filter fun r => r.body == .header i n
  let line := p.frags.find? fun x => x.stripe == i && x.index == n
  match line, heads with
  | _, [] => none
  | none, h :: _ => if tailRec last h then some ({ f with hdrAddr := h.addr, committed := false, version := 0, copy := none }, true) else none
  | some l, h :: hs =>
    if l.state = 2 then none
    else
      let a := (((h :: hs).find? (·.addr == l.hdr)).getD h).addr
      let kept := s.media.recs.any fun r => match r.body with | .copy c m => c.stripe == i && m == n | _ => false
      if l.state = 1 ∧ kept = true then some ({ f with hdrAddr := a }, false)
      else some ({ f with hdrAddr := a, committed := false, version := 0, copy := none }, false)

/-- Its slices and directory, and whether it is COMPLETE. -/
def State.refindSlices (s : State) (p : Replay) (f : Frag) : Frag × Bool :=
  let slices := s.slicesLeft f
  let dirs := s.media.recs.filter fun r => r.body == .dir f.hdr.stripe f.hdr.index
  let want := ((p.frags.find? fun x => x.stripe == f.hdr.stripe && x.index == f.hdr.index).map (·.dir)).getD 0
  let dir := (dirs.find? (·.addr == want)).orElse fun _ => dirs.head?
  let all := decide (f.hdr.segments ≤ slices.length)
  if f.hdr.segments ≤ 1 then ({ f with slices := slices, dirAddr := (slices.head?.map (·.addr)).getD 0 }, all)
  else ({ f with slices := slices, dirAddr := (dir.map (·.addr)).getD 0 }, all && dir.isSome)

/-- A home's own fragment whose commit record is in the index is committed. -/
def State.ownCommitted (s : State) (f : Frag) : Frag :=
  if f.committed || f.hdr.stripe.home != s.selfId then f
  else match s.indexedStripe f.hdr.stripe with
    | some c => { f with committed := true, version := c.version, copy := some c }
    | none => f

/-- The fragment table after replay and tail scan: fragments held, those to release, and how many the tail gave. -/
def State.buildFrags (s : State) (last : Nat) (p : Replay) : List Frag × List (StripeId × Nat) × Nat :=
  let back := (s.welt.gone.filter fun x => decide (last < x.1)).map (·.2)
  (s.welt.frags ++ back).foldl (fun (b : List Frag × List (StripeId × Nat) × Nat) f =>
    match s.refindFrag last p f with
    | none => b
    | some (f, tail) =>
      let (f, complete) := s.refindSlices p f
      let f := s.ownCommitted f
      let drop := !complete || (!f.committed && f.hdr.stripe.home == s.selfId)
      (b.1 ++ [f], if drop then b.2.1 ++ [(f.hdr.stripe, f.hdr.index)] else b.2.1, b.2.2 + bit tail)) ([], [], 0)

/-- Page reads of a superblock's blocks after recovery: those of the last checkpoint, raised by a sixteenth of the limit (R277). -/
def State.raisedReads (s : State) (x : Superblock) (line : Option SbLine) : List (Nat × Nat) :=
  let old := match line with | some l => if l.erases = x.erases then l.reads else [] | none => []
  let add := s.num K.readDisturbLimit / 16
  (List.range 32).filterMap fun i => if (s.slotsIn x.ds x.sb).contains i then some (i, (mapGet old i).getD 0 + add) else none

/-- A superblock after replay: its state, and reads and age from the checkpoint with what the time since adds (R277, R278). -/
def State.refindSb (s : State) (p : Replay) (secs : Nat) (x : Superblock) : Superblock :=
  let e := p.sbs.find? fun y => y.1 == x.ds && y.2.1 == x.sb
  let st := (e.map (·.2.2.1)).getD .free
  let er := (e.map (·.2.2.2)).getD 0
  let used := !(s.recsOf x.ds x.sb).isEmpty
  let st := if st = .free ∧ used = true then SbState.pendingErase else st
  let line := (s.baseCycle.bind fun c => c.image.tables.find? fun l => l.ds == x.ds && l.sb == x.sb)
  let line := line.bind fun l => if l.erases = er then some l else none
  if st = .free then { ds := x.ds, sb := x.sb, st := .free, erases := er, slc := x.slc }
  else
    let x := if x.st = .free then { x with slots := s.slotsIn x.ds x.sb } else x
    { x with st := st, erases := er, reads := s.raisedReads { x with erases := er } line,
             age := (line.map (·.age)).getD 0 + secs * s.num K.dormantAgeFactor * nsSec, scanAge := (line.map (·.scanAge)).getD 0,
             forced := 0, forcedAt := 0, retireSlots := [], lastMove := min x.lastMove s.media.jseq, mark := 0, markAt := 0 }

/-- Blocks whose raised counter has reached its limit make forced victims (R277). -/
def State.forceDisturbed (s : State) : State :=
  s.media.sbs.foldl (fun s x =>
    let lim := if x.slc then s.num K.readDisturbLimitSlc else s.num K.readDisturbLimit
    match x.reads.find? fun r => decide (lim ≤ r.2) with
    | some r =>
      if x.st = SbState.free ∨ x.st = SbState.unusable then s
      else ((s.force x.ds x.sb 2).bump K.readDisturbRefreshes).event 0x0810 [(4, x.ds), (4, x.sb), (4, r.1), (4, r.2)]
    | none => s) s

/-- The boot horizon (R301): the next power cycle and the chunk past every reserved one. The last two sectors of 128 records
are kept; with no reservation found n_max counts as 0 (DESIGN CHOICE, log 81). -/
def State.bootHorizon (s : State) : State :=
  let key := s.keyBytes .horizonKey
  let head (h : Horizon) : Bytes := [1, 0, 0, 0] ++ leBytes 4 h.cycle ++ leBytes 8 h.chunk
  let good := s.fw.flash.horizons.filter fun h => cmac16 key (head h) == h.check
  let reserved := s.media.recs.filterMap fun r => match r.body with | .counterReserve c => if r.units.isEmpty then some c else none | _ => none
  let chunk := (reserved ++ good.map (·.chunk)).foldl max 0 + 1
  let cycle := (good.map (·.cycle)).foldl max s.sec.powerCycle + 1
  let h : Horizon := { cycle := cycle, chunk := chunk, check := [] }
  let h := { h with check := cmac16 key (head h) }
  let old := if 256 ≤ s.fw.flash.horizons.length then s.fw.flash.horizons.drop 128 else s.fw.flash.horizons
  { s with fw := { s.fw with flash := { s.fw.flash with horizons := old ++ [h] } },
           sec := { s.sec with powerCycle := cycle, chunk := chunk, counter := chunk * 2 ^ 24 } }

/-- Rows left short get their parity page, from the pages that are programmed (R242). -/
def State.sealRows (s : State) : State :=
  s.media.sbs.foldl (fun s x =>
    let s := x.rowDone.foldl (fun s r =>
      (if x.slc then s else { s with media := { s.media with nProg := s.media.nProg + 1 } }).putImage
        { ds := x.ds, sb := x.sb, wl := r.1, slot := x.parity, pages := r.2.acc }) s
    match s.sb? x.ds x.sb with
    | some y => s.setSb { y with rows := y.rows + y.rowDone.length, rowDone := [] }
    | none => s) s

/-- Seal (R286 step 7): OPEN superblocks are closed, RECOVERY_MARK and an anchor record programmed. -/
def State.seal (s : State) (last top : Nat) : State :=
  let s := ({ s with media := { s.media with wpN := true, jseq := max top last } } : State).sealRows
  let s := (s.media.sbs.filter (·.st == .open_)).foldl (fun s x => s.sbTo x.ds x.sb .closed) s
  let void := if last < top then (last + 1, top) else (0, 0)
  let s := s.journal 48 (.recoveryMark last void.1 void.2 s.sec.powerCycle)
  let units := (s.media.recs.map fun r => r.units.length).sum
  (State.programStream (units + 1) s 1).writeAnchor

/-- Resolve victims (R286 step 8). -/
def State.resolveVictims (s : State) : State :=
  (s.media.sbs.filter (·.st == .victim)).foldl (fun s x =>
    s.sbTo x.ds x.sb (if s.sbValid x.ds x.sb = 0 then .pendingErase else .closed)) s

/-- This drive's own stripes that a later state of their key has superseded are released (R216). -/
def State.releaseOld (s : State) : State :=
  s.welt.frags.foldl (fun s f => match f.copy with
    | some r =>
      if r.stripe.home = s.selfId ∧ s.isHome r.hash = true then
        match s.current r.ns r.gen r.hash r.key with
        | some (x, _) => if r.version < x.rec_.version then s.releaseStripe r 2 else s
        | none => s
      else s
    | none => s) s

/-- Events left unnumbered take the first numbers of this power cycle and are staged, after those that LULL-2 left in Heel (R418,
R419). The log holds what is programmed. -/
def State.numberEvents (s : State) : State :=
  let kept := s.media.recs.flatMap fun r => match r.body with | .events l => if r.units.isEmpty then l else [] | _ => []
  let log := s.evs.log.filter fun e => kept.contains e || s.evs.anchored.any (·.contains e)
  let top := (log.filterMap (·.seq)).foldl max 0
  let first := (top / 2 ^ 20 + 2) * 2 ^ 20
  let had := s.evs.ring.filter (·.seq.isSome)
  let new := s.evs.ring.filter (·.seq.isNone)
  let num := (List.range new.length).filterMap fun i => (new[i]?).map fun (e : EvRec) => { e with seq := some (first + i) }
  let lost := s.evs.lostRing
  let s := { s with evs := { s.evs with log := log, numbered := true, nextSeq := first + new.length, ring := had ++ num,
                                        staged := had ++ num, stagedAt := s.now, lostRing := 0 } }
  if 0 < lost then s.event 0x0B80 [(4, lost), (4, 1)] else s

/-- Age that time without a checkpoint adds, or the scans that an invalid RTC asks for (R278). -/
def State.ageGap (s : State) : Nat := if s.clk.rtcInvalid then 0 else s.rtc - s.media.ckptRtc

/-- With no valid time every closed superblock is due for a scan: event 0x0811 with VSTBY lost as its cause. -/
def State.scanAll (s : State) : State :=
  if s.clk.rtcInvalid then
    let sbs := s.media.sbs.map fun (x : Superblock) => if x.st = SbState.closed then { x with scanDue := true } else x
    ({ s with media := { s.media with sbs := sbs, scanFirst := true } } : State).event 0x0811 [(4, 0), (4, 0), (4, Config.eventCode 0x0811 0)]
  else s

/-- Superblocks that have fewer than 24 slots by the maker's marks are UNUSABLE (R240, Table 9.1). -/
def State.markUnusable (s : State) : State :=
  ((s.makerBad.map fun x => (x.1, x.2.2)).eraseDups).foldl (fun s x =>
    if 24 ≤ (s.slotsIn x.1 x.2).length ∨ (s.sb? x.1 x.2).any (·.st != .free) then s
    else s.setSb { ds := x.1, sb := x.2, st := .unusable, erases := s.erasesOf x.1 x.2 }) s

/-- Steps 3 to 6: tables, journal, index, fragments. Answers the counts of event 0x0813: replayed, found by the tail scan, and
what must be released. -/
def State.rebuildMaps (s : State) : State × Nat × Nat × List (StripeId × Nat) :=
  let (l, last) := State.readJournal (s.media.recs.length + s.voids.length + 1) s s.replayStart []
  let moves := movesOf l
  let p := State.replay l.length s moves (s.replayBase moves) l
  let (p, tail) := s.tailItems moves last p
  let s := { s with media := { s.media with badBlocks := (p.bad ++ s.makerBad).eraseDups, retiredDies := p.dies, deadSets := p.sets, streams := [] } }
  let sbs := s.media.sbs.map (s.refindSb p s.ageGap)
  let s := (({ s with media := { s.media with sbs := sbs, ageAt := s.now } } : State).markUnusable).buildIndex p.items
  let (frags, drop, n) := s.buildFrags last p
  let s := { s with welt := { s.welt with frags := frags, gone := [], released := s.welt.released.filter fun x =>
      !(frags.any fun f => f.hdr.stripe == x.1 && f.hdr.index == x.2) } }
  let top := s.topJSeq
  let s := if last < top then s.event 0x0814 [(8, last), (8, top)] else s
  let s := s.seal last top
  let s := tail.foldl (fun s r => match r.body with
    | .commit c => (match s.instOf c.ns c.gen with | some i => s.logCommit c i r.addr | none => s)
    | _ => s) s
  (s, l.length, tail.length + n, drop)

/-- Recovery (R286): steps 1 and 7 to 10 around the maps. -/
def State.recover (s : State) (durationMs : Nat) : State :=
  let s := s.bootHorizon
  let (s, replayed, tail, drop) := s.rebuildMaps
  let s := (s.resolveVictims).scanAll
  let s := drop.foldl (fun s x => s.releaseFrag x.1 x.2) s
  let s := (s.forceDisturbed).numberEvents
  let s := if s.mode.flushCut then ({ s with mode := { s.mode with flushCut := false } } : State).event 0x0807 [] else s
  let s := s.event 0x0813 [(4, durationMs), (4, replayed), (4, tail), (4, drop.length)]
  let s := s.media.missing.foldl (fun s d => s.retireDie d.1 d.2 4) s
  ((((s.releaseOld).settleMoves).openAll).slcResize).checkShort

/-- Recovery has failed: event 0x0812 with its EMCY, and HALT (R286, R375). -/
def State.recoverFailed (s : State) (step cause : Nat) : State :=
  (s.eventEmcy 0x0812 [(4, step), (4, Config.eventCode 0x0812 cause)] 0x6200 true).enterHalt .recovery

/-- The array holds anything that recovery would have to find. -/
def State.written (s : State) : Bool := !s.media.recs.isEmpty || !s.media.cycles.isEmpty

/-- The mode that a target of MUSTER leads to: a BLANK part, or one that needs a valid site image and has none, takes SERVE as
SWEEP (15 R442, R443). -/
def State.musterTarget (s : State) : Mode :=
  if s.mode.target = some .sweep ∨ s.life = 0 ∨ s.siteBars = true then .sweep else .serve

/-- The drive leaves MUSTER (R371, R380, R400; 05 R133, 08 R256). -/
def State.leaveMuster (s : State) : State :=
  let m := s.musterTarget
  let s := s.setNum K.lastWakeMs (min 0xFFFFFFFF ((s.now - s.mode.musterAt) / nsMs))
  let s := if m = .sweep then s.powerDowns [.welt] else s
  let s := (s.siteRelease).enterMode m trRecovered
  let s := { s with mode := { s.mode with target := none, recovering := false, idleSince := s.now },
                    media := { s.media with hour := [], nProg := 0, nErs := 0, nUserBytes := 0, wam := 1150, lastWam := s.now },
                    shank := { s.shank with rho := s.num K.ldpcRetryFloorPermille, lastRho := s.now } }
  let s := if m = .serve ∧ (s.welt.cur).isSome then s.queueMoves.noteMembers else s
  (s.startPass.takeWaiting).noteFaults

/-- RECOVERY_COMPLETE (R286, R371): recovery ends as the report says. A BLANK part recovers nothing; a RETIRED part, and one
without a readable seed, cannot read its media. No anchor record names a readable CKPT_END: the sections of older ones are not
retained (R284). -/
def execRecoveryComplete (t : Nat) (r : RecoveryReport) (s : State) : Host.Outcome State Fault Refusal :=
  let s := s.advance t
  if !(s.settled .muster) || !s.mode.recovering then done s
  else if s.life = 0 then (s.numberEvents.leaveMuster).afterReply
  else if s.life = 4 ∨ s.sec.seed = none then done (s.recoverFailed 2 0)
  else match r.failed with
    | some (step, cause) => done (s.recoverFailed step cause)
    | none =>
      if s.written && (!s.media.board.anchorOk || (!s.media.cycles.isEmpty && s.baseCycle.isNone)) then done (s.recoverFailed 2 1)
      else
        let s := (s.recover r.durationMs).setNum K.lastRecoveryMs (min 0xFFFFFFFF r.durationMs)
        (s.leaveMuster).afterReply

end Sys2Proof.Machine
end

