-- ==== Sys2Proof/Machine/Ethernet.lean ====
section
/-! DEFINITION. Links, receive checks, diagnostic frames, pause, preemption, PTP (11 R317 to R340) and the efficiency windows of
05 R156. -/

namespace Sys2Proof.Machine

/-- The port takes part in a link that is up. -/
def State.linkIsUp (s : State) (p : PortId) : Bool := (s.port p).link == .up

/-- The port could have trained to a mode and FEC (R317, R319): the forced mode, or one that it advertises. -/
def State.trainOk (s : State) (p : PortId) (mode fec : Nat) : Bool :=
  let m := s.num (K.portMode p.code)
  let f := s.num (K.fecMode p.code)
  let modeOk := decide (1 ≤ mode ∧ mode ≤ 11) && (if m = 0 then bitAt (s.num (K.anAdvertise p.code)) mode else mode == m)
  modeOk && decide (1 ≤ fec ∧ fec ≤ 4) && fecOk mode fec && (f == 0 || f == fec)

/-- Logical lanes of a mode (Table 11.1). -/
def modeLanes : Nat → Nat
  | 0 => 4 | 1 => 1 | 2 => 1 | 3 => 1 | 4 => 1 | 5 => 1 | 6 => 2 | 7 => 2 | _ => 4

/-- The physical lane that carries a logical one: field [2i+1:2i] of a lane map (R318). -/
def physLane (map i : Nat) : Nat := map / 4 ^ i % 4

/-- The physical lanes of a port that are powered, with whether their pair is inverted, transmit or receive: those of the mode that is
active or forced; all four while negotiation has not settled one (R317, R318, R320; DESIGN CHOICE, log 119). -/
def State.lanesOn (s : State) (p : PortId) (tx : Bool) : List (Nat × Bool) :=
  let x := s.port p
  let m := if x.activeMode = 0 then s.num (K.portMode p.code) else x.activeMode
  let map := s.num (if tx then K.txLaneMap p.code else K.rxLaneMap p.code)
  if x.link = .disabled then []
  else (List.range (modeLanes m)).map fun i =>
    let l := physLane map i
    (l, bitAt (s.num (K.lanePolarity p.code)) (if tx then l else 4 + l))

/-- TRAINING_TIMEOUT (R319): event 0x0202, and training starts again. -/
def execTrainingTimeout (t : Nat) (port : PortId) (mode lane : Nat) (s : State) : Host.Outcome State Fault Refusal :=
  let s := s.advance t
  done (if (s.port port).link = .training then (s.portStart port).event 0x0202 [(4, port.code), (1, mode), (4, lane)] else s)

/-- TRAINING_COMPLETE (R319, R335): the link-up hold starts. -/
def execTrainingComplete (t : Nat) (port : PortId) (mode fec : Nat) (s : State) : Host.Outcome State Fault Refusal :=
  let s := s.advance t
  let x := s.port port
  done (if x.link = .training ∧ s.trainOk port mode fec = true then
      s.setPort port { x with link := .hold, holdAt := s.now, activeMode := mode, activeFec := fec }
    else s)

/-- LINK_UP_HOLD_END (R335): reported up with event 0x0201; the recovered clock is valid (R340); the verify exchange starts
(R329). Paths return through probes (R84). -/
def execLinkUpHoldEnd (t : Nat) (port : PortId) (s : State) : Host.Outcome State Fault Refusal :=
  let s := s.advance t
  let x := s.port port
  if x.link = .hold ∧ x.holdAt + s.num K.linkUpHoldMs * nsMs ≤ s.now then
    let s := s.setPort port { x with link := .up, upAt := s.now, verifyFailed := false, preemptActive := false, recValid := true }
    let d := packDetail [(4, port.code), (4, Config.eventCode 0x0201 6), (4, Config.eventCode 0x0201 7), (1, x.activeMode), (1, x.activeFec)]
    let (s, seq) := s.eventSeq 0x0201 d
    let s := (s.linkCond 0x0201 seq (ofLE (padTo d 4))).srcTo (recOf port) .healthy 0
    (s.clkoutCheck).afterReply
  else done s

/-- LINK_DOWN (R333): causes 1 signal or CDR, 2 fault sequences, 3 lock or alignment, 4 uncorrectable codewords. -/
def execLinkDown (t : Nat) (port : PortId) (cause : Nat) (s : State) : Host.Outcome State Fault Refusal :=
  let s := s.advance t
  (s.linkDown port cause).afterReply

/-- The address of a port without its prefix length; none while it is all zero (R322). -/
def State.ipOf (s : State) (p : PortId) (v6 : Bool) : Option Bytes :=
  let b := if v6 then (s.str (K.ipv6Address p.code)).take 16 else (s.str (K.ipv4Address p.code)).take 4
  if allZero b then none else some b

/-- Two addresses of a family agree in their first bits. -/
def samePrefix (bits : Nat) (a b : Bytes) : Bool :=
  let sh := 8 * a.length - bits
  a.length == b.length && ofBE a / 2 ^ sh == ofBE b / 2 ^ sh

/-- Where a packet to an address goes next: the address itself within the port's prefix, else the gateway of the family (R322). -/
def State.nextHop (s : State) (p : PortId) (a : Bytes) : Bytes :=
  let v6 := a.length == 16
  let own := if v6 then s.str (K.ipv6Address p.code) else s.str (K.ipv4Address p.code)
  let gw := if v6 then s.str (K.ipv6Gateway p.code) else s.str (K.ipv4Gateway p.code)
  if samePrefix ((own.getD a.length 0).toNat) (own.take a.length) a then a else gw

/-- NEIGHBOUR_FRAME (R322): what asks for the port's own address is answered, with a frame as long as an echo request, or that an
ARP reply or neighbour advertisement takes; an echo's answer goes by the next hop. -/
def execNeighbourFrame (t : Nat) (port : PortId) (f : NeighbourFrame) (s : State) : Host.Outcome State Fault Refusal :=
  let s := s.advance t
  if !s.linkIsUp port then done s
  else
    let s := s.rxFrame port f.len
    let v6 := f.kind == 2 || f.kind == 4
    let tag := if s.num (K.vlanTag port.code) % 4096 = 0 then 0 else 4
    let len := match f.kind with | 1 => max 64 (46 + tag) | 2 => 90 + tag | _ => f.len
    if s.ipOf port v6 = some f.target ∧ 1 ≤ f.kind ∧ f.kind ≤ 4 then
      done ((s.txFrame port len).emitOn port (.answer port f.kind f.source (if 3 ≤ f.kind then s.nextHop port f.source else f.source) f.target (if 3 ≤ f.kind then f.payload else [])))
    else done s

/-- ICMP_PTB (R322). -/
def execIcmpPtb (t : Nat) (port : PortId) (len : Nat) (s : State) : Host.Outcome State Fault Refusal :=
  let s := s.advance t
  done (if s.linkIsUp port then (s.rxFrame port len).bump (K.cRxIcmpPtb port.code) else s)

/-- A port's MAC address (R321). -/
def State.macOf (s : State) (p : PortId) : Bytes := beBytes 6 (s.fw.otp.macBase + p.code)

/-- Multicast groups that every port accepts (Table 11.4). -/
def fixedGroups : List Bytes :=
  [[0x01, 0x80, 0xC2, 0x00, 0x00, 0x01], [0x01, 0x1B, 0x19, 0x00, 0x00, 0x00], [0x01, 0x80, 0xC2, 0x00, 0x00, 0x0E],
   [0x01, 0x00, 0x5E, 0x00, 0x01, 0x81], [0x01, 0x00, 0x5E, 0x00, 0x00, 0x6B], [0x33, 0x33, 0x00, 0x00, 0x01, 0x81],
   [0x33, 0x33, 0x00, 0x00, 0x00, 0x6B], [0x33, 0x33, 0x00, 0x00, 0x00, 0x01]]

/-- The last three bytes of the port's IPv6 address. -/
def State.nodeTail (s : State) (p : PortId) : Option Bytes := (s.ipOf p true).map fun b => b.drop 13

/-- Step 5: the destination address (Table 11.3). -/
def State.dstOk (s : State) (p : PortId) (d : Bytes) : Bool :=
  d == s.macOf p || d == List.replicate 6 0xFF || fixedGroups.contains d ||
    (match s.nodeTail p with | some l => d == [0x33, 0x33, 0xFF] ++ l | none => false)

/-- Step 6: the tag (R323). -/
def State.vlanOk (s : State) (p : PortId) (tci : Option Nat) : Bool :=
  let vid := s.num (K.vlanTag p.code) % 4096
  match tci with
  | none => vid == 0
  | some x => x % 4096 == vid

/-- IP groups that a port accepts (Table 11.4). -/
def State.ipGroups (s : State) (p : PortId) : List Bytes :=
  [[224, 0, 1, 129], [224, 0, 0, 107], [0xFF, 0x0E] ++ zeros 12 ++ [0x01, 0x81], [0xFF, 0x02] ++ zeros 13 ++ [0x6B],
   [0xFF, 0x02] ++ zeros 13 ++ [0x01]] ++
    (match s.nodeTail p with | some l => [[0xFF, 0x02] ++ zeros 9 ++ [0x01, 0xFF] ++ l] | none => [])

/-- Step 8's destination: the port's own address or a group. -/
def State.ipDstOk (s : State) (p : PortId) (d : Bytes) : Bool :=
  d.isEmpty || s.ipOf p (d.length == 16) == some d || (s.ipGroups p).contains d

/-- The largest frame of a port (R322). -/
def State.largest (s : State) (p : PortId) (f : FrameFacts) : Nat := s.num (K.ipMtu p.code) + (if f.tci.isSome then 22 else 18)

/-- The failures of steps 1 to 4. -/
def State.earlyFails (s : State) (p : PortId) (f : FrameFacts) : List Nat :=
  (if f.pcsError then [1] else []) ++ (if f.len < 64 then [2] else []) ++ (if s.largest p f < f.len then [3] else []) ++
    (if f.fcsOk then [] else [4])

/-- The class of a frame (R324, Table 11.2): EtherType, then IP protocol (UDP 17, TCP 6, ICMP 1, ICMPv6 58) with port or ICMP type (echo
8 and 0, 128 and 129; neighbour discovery 133 to 137). -/
def State.classOf (s : State) (f : FrameFacts) : FrameClass :=
  if f.etherType = 0x88F7 then .ptp
  else if f.etherType = 0x8808 then .pause
  else if f.etherType = 0x8809 then .slow
  else if f.etherType = 0x0806 then .neighbour
  else if f.etherType = 0x88B5 ∨ f.etherType = 0x88B6 then .diag
  else if f.etherType = 0x0800 ∨ f.etherType = 0x86DD then
    match f.l4 with
    | some (17, n) => if n = s.net.udpPort then .rwp else if n = 319 ∨ n = 320 then .ptp else .other
    | some (6, n) => if n = s.net.udpPort ∧ s.flag K.rwpV1Enable = true then .rwp else .other
    | some (1, n) => if n = 8 ∨ n = 0 then .neighbour else .other
    | some (58, n) => if n = 128 ∨ n = 129 ∨ (133 ≤ n ∧ n ≤ 137) then .neighbour else .other
    | _ => .other
  else .other

/-- The failures of steps 5 to 10; an IP fragment fails step 8 (03 R55). -/
def State.lateFails (s : State) (p : PortId) (f : FrameFacts) : List Nat :=
  (if s.dstOk p f.dst then [] else [5]) ++ (if s.vlanOk p f.tci then [] else [6]) ++
    (if s.classOf f = .other ∨ s.classOf f = .slow then [7] else []) ++
    (if f.ipOk && !f.fragment && s.ipDstOk p f.ipDst then [] else [8]) ++ (if f.l4Ok then [] else [9]) ++ (if f.room then [] else [10])

/-- The counter of a step (Table 11.3). -/
def stepCounter (p : PortId) : Nat → Nat
  | 1 => K.cRxPcsErrors p.code
  | 2 => K.cRxRunts p.code
  | 3 => K.cRxOversize p.code
  | 4 => K.cRxFcsErrors p.code
  | 8 => K.cRxIpErrors p.code
  | 9 => K.cRxL4ChecksumErrors p.code
  | 10 => K.cRxBufferOverflow p.code
  | _ => K.cRxFiltered p.code

/-- FEC codewords of a frame are counted (Table 11.9). -/
def State.countFec (s : State) (p : PortId) (f : FrameFacts) : State :=
  (s.addTo (K.cRxFecCorrected p.code) f.fecCorrected).addTo (K.cRxFecUncorrected p.code) f.fecUncorrected

/-- The header bytes before a diagnostic frame's payload. -/
def FrameFacts.headLen (f : FrameFacts) : Nat := if f.tci.isSome then 18 else 14

/-- A record enters the capture ring, or is dropped where it does not fit (R327). -/
def State.captureFrame (s : State) (p : PortId) (f : FrameFacts) (b : Bytes) (fails : List Nat) : State :=
  let most := s.largest p f
  let data := b.take (min f.len most)
  let has (n : Nat) : Nat := bit (fails.contains n)
  let flags := has 1 + 2 * has 2 + 4 * has 3 + 8 * has 4 + 16 * bit (decide (most < f.len))
  let r : CapRec := { seq := s.eth.nextCap, port := p, flags := flags, orig := f.len, ts := s.ptp, data := data }
  let held := ((s.eth.capture.filter (·.port == p)).map fun x => 24 + ceilDiv x.data.length 8 * 8).sum
  if held + 24 + ceilDiv data.length 8 * 8 ≤ s.eth.capKiB * 1024 then
    ({ s with eth := { s.eth with capture := s.eth.capture ++ [r], nextCap := s.eth.nextCap + 1 } } : State).bump (K.cDiagCaptured p.code)
  else s.bump (K.cDiagDropped p.code)

/-- The echoed frame (R328): addresses turned round, the port's tag as R323 has it, timestamps in payload bytes 0 to 15, FCS anew. -/
def State.echoBytes (s : State) (p : PortId) (f : FrameFacts) (b : Bytes) (txTs : Nat) : Bytes :=
  let tag : Bytes := match s.portTci p with | none => [] | some v => [0x81, 0x00] ++ beBytes 2 v
  let payload := (b.take (b.length - 4)).drop f.headLen
  let body := sliceBytes b 6 6 ++ s.macOf p ++ tag ++ [0x88, 0xB6] ++ beBytes 8 s.ptp ++ beBytes 8 txTs ++ payload.drop 16
  body ++ leBytes 4 (crc32 body)

/-- An echo is sent, while echoes take less than 1 % of the line rate over the last millisecond (R328). The transmit timestamp
lies a free latency after the receive one. -/
def State.echoFrame (s : State) (p : PortId) (f : FrameFacts) (b : Bytes) : State :=
  let x := s.port p
  let recent := x.echoes.filter fun e => decide (s.now < e.1 + nsMs)
  if b.length < f.headLen + 16 + 4 ∨ modeGbps x.activeMode * 1250 ≤ (recent.map (·.2)).sum then s.bump (K.cDiagDropped p.code)
  else
    let (d, s) := s.drawFree
    let e := s.echoBytes p f b (s.ptp + d)
    let s := s.setPort p { x with echoes := recent ++ [(s.now, e.length)] }
    ((s.txFrame p e.length).bump (K.cDiagEchoed p.code)).emitOn p (.frame p e)

/-- A diagnostic frame is handled as DiagControl says (R326). One too short to classify is a runt of the data class (R324). -/
def State.diagFrame (s : State) (p : PortId) (d : DiagFrame) : State :=
  let c := s.num K.diagControl
  let capture := bitAt c 0
  let deliver := bitAt c 1
  let f := { d.facts with etherType := if d.echo then 0x88B6 else 0x88B5 }
  let s := s.countFec p f
  match s.earlyFails p f with
  | n :: l =>
    if f.len < f.headLen ∨ deliver = false then s.bump (stepCounter p n)
    else if capture then s.captureFrame p f d.bytes (n :: l)
    else s.bump (K.cDiagDropped p.code)
  | [] =>
    if !(s.lateFails p f).isEmpty then s.bump (K.cDiagDropped p.code)
    else
      let s := s.rxFrame p f.len
      if d.echo then (if bitAt c 2 then s.echoFrame p f d.bytes else s.bump (K.cDiagDropped p.code))
      else if capture then s.captureFrame p f d.bytes []
      else s.bump (K.cDiagDropped p.code)

/-- FILTERED_FRAME (R325): the first check that fails counts. A frame too short to classify is a runt of the data class; a frame
that passes every check, and one of the diagnostic class, is none of this command's. -/
def execFilteredFrame (t : Nat) (port : PortId) (f : FrameFacts) (s : State) : Host.Outcome State Fault Refusal :=
  let s := s.advance t
  if !s.linkIsUp port || (s.classOf f == .diag && decide (f.headLen ≤ f.len)) then done s
  else
    let s := s.countFec port f
    if f.assemblyError then done (s.bump (K.cRxAssemblyErrors port.code))
    else match s.earlyFails port f ++ s.lateFails port f with
      | n :: _ => done (s.bump (stepCounter port n))
      | [] => done s

/-- DIAG_CAPTURE_FRAME (R326, R327): a capture frame, or an errored diagnostic frame of either kind. -/
def execDiagCaptureFrame (t : Nat) (port : PortId) (f : DiagFrame) (s : State) : Host.Outcome State Fault Refusal :=
  let s := s.advance t
  done (if s.linkIsUp port then s.diagFrame port f else s)

/-- DIAG_ECHO_FRAME (R326, R328). -/
def execDiagEchoFrame (t : Nat) (port : PortId) (f : DiagFrame) (s : State) : Host.Outcome State Fault Refusal :=
  let s := s.advance t
  done (if s.linkIsUp port then s.diagFrame port { f with echo := true } else s)

/-- Nanoseconds that a pause time in quanta of 512 bit times lasts. -/
def quantaNs (gbps q : Nat) : Nat := ceilDiv (512 * q) (max 1 gbps)

/-- One priority of a pause frame: time 0 resumes, another time stops from now on; a refresh keeps the first stop (R330, R332). -/
def State.pausePrio (s : State) (p : PortId) (prio q : Nat) : State :=
  let x := s.port p
  let rest := x.paused.filter (·.prio != prio)
  if q = 0 then (s.setPort p { x with paused := rest }).resumeTx p
  else
    let since := ((x.paused.find? (·.prio == prio)).map (·.since)).getD s.now
    s.setPort p { x with paused := rest ++ [{ prio := prio, until_ := s.now + quantaNs (modeGbps x.activeMode) q, since := since }] }

/-- The port obeys a pause frame of this kind now (R330, R332). -/
def State.obeysPause (s : State) (p : PortId) (pfc : Bool) : Bool :=
  (s.port p).ignoreUntil.isNone && s.num (K.pauseMode p.code) == (if pfc then 2 else 1)

/-- PAUSE_FRAME (R330). -/
def execPauseFrame (t : Nat) (port : PortId) (f : PauseFrame) (s : State) : Host.Outcome State Fault Refusal :=
  let s := s.advance t
  if !s.linkIsUp port then done s
  else
    let s := (s.rxFrame port 64).bump (K.cRxPauseFrames port.code)
    let l := f.times.filter fun x => if f.pfc then decide (x.1 < 8) else x.1 == 8
    done (if s.obeysPause port f.pfc then l.foldl (fun s x => s.pausePrio port x.1 x.2) s else s)

/-- PAUSE_TIME_EXPIRY (R330). -/
def execPauseTimeExpiry (t : Nat) (port : PortId) (prio : Nat) (s : State) : Host.Outcome State Fault Refusal :=
  let s := s.advance t
  let x := s.port port
  done (if x.paused.any fun h => h.prio == prio && decide (h.until_ ≤ s.now) then
      (s.setPort port { x with paused := x.paused.filter (·.prio != prio) }).resumeTx port
    else s)

/-- The port's share of the packet and burst buffer (R331). -/
abbrev bufShare : Nat := 8388608

/-- A pause frame of the port leaves: XOFF or XON, under PFC at the RWP priority (R330). -/
def State.sendPause (s : State) (p : PortId) (quanta : Nat) : State :=
  let prio := if s.num (K.pauseMode p.code) = 2 then s.rwpPrio p else 8
  (((s.txFrame p 64).bump (K.cTxPauseFrames p.code)).emit (.pause p prio quanta))

/-- PAUSE_TX_REPEAT (R330), with the bytes of its share that the port holds: XOFF once the share passes 7/8, again every half of
0xFFFF quanta while it stays above 1/2, and XON below that. -/
def execPauseTxRepeat (t : Nat) (port : PortId) (used : Nat) (s : State) : Host.Outcome State Fault Refusal :=
  let s := s.advance t
  let x := s.port port
  if !(s.linkIsUp port) || !(s.flag (K.pauseTxEnable port.code)) then done s
  else
    let x := { x with bufUsed := used }
    let half := quantaNs (modeGbps x.activeMode) 65535 / 2
    if !x.xoff then
      if 7 * bufShare < 8 * used then done ((s.setPort port { x with xoff := true, xoffAt := s.now }).sendPause port 0xFFFF)
      else done (s.setPort port x)
    else if 2 * used < bufShare then done ((s.setPort port { x with xoff := false }).sendPause port 0)
    else if bufShare < 2 * used ∧ x.xoffAt + half ≤ s.now then
      done ((s.setPort port { x with xoffAt := s.now }).sendPause port 0xFFFF)
    else done (s.setPort port x)

/-- PAUSE_WATCHDOG_TRIP (R332): the port, or under PFC the RWP priority, has been held without a break for PauseWatchdogMs. -/
def execPauseWatchdogTrip (t : Nat) (port : PortId) (s : State) : Host.Outcome State Fault Refusal :=
  let s := s.advance t
  let x := s.port port
  let w := s.num K.pauseWatchdogMs * nsMs
  match x.paused.find? fun h => (h.prio == 8 || h.prio == s.rwpPrio port) && decide (h.since + w ≤ s.now ∧ h.since + w ≤ h.until_) with
  | some h =>
    let s := s.setPort port { x with paused := [], ignoreUntil := some (s.now + s.num K.pauseIgnoreMs * nsMs) }
    let s := (s.bump (K.cPauseWatchdogTrips port.code)).event 0x0203 [(4, port.code), (4, h.prio), (4, (s.now - h.since) / 1000)]
    done (s.resumeTx port)
  | none => done s

/-- PAUSE_IGNORE_END (R332). -/
def execPauseIgnoreEnd (t : Nat) (port : PortId) (s : State) : Host.Outcome State Fault Refusal :=
  let s := s.advance t
  let x := s.port port
  done (match x.ignoreUntil with
    | some u => if u ≤ s.now then s.setPort port { x with ignoreUntil := none } else s
    | none => s)

/-- The verify exchange of a port runs (R329). -/
def State.verifying (s : State) (p : PortId) : Bool :=
  let x := s.port p
  x.link == .up && s.flag (K.preemptEnable p.code) && !x.preemptActive && !x.verifyFailed

/-- PREEMPT_VERIFY_RESPONSE (R329). -/
def execPreemptVerifyResponse (t : Nat) (port : PortId) (s : State) : Host.Outcome State Fault Refusal :=
  let s := s.advance t
  done (if s.verifying port then s.setPort port { s.port port with preemptActive := true } else s)

/-- PREEMPT_VERIFY_FAIL (R329): three verify mPackets 10 ms apart, none answered. -/
def execPreemptVerifyFail (t : Nat) (port : PortId) (s : State) : Host.Outcome State Fault Refusal :=
  let s := s.advance t
  let x := s.port port
  done (if s.verifying port && decide (x.upAt + 30 * nsMs ≤ s.now) then
      (s.setPort port { x with verifyFailed := true, verifySent := 3 }).event 0x0204 [(4, port.code)]
    else s)

/-- The better of two Announces: the smaller comparison value, then port A (R336). -/
def betterAnnounce (a b : Announce) : Announce :=
  if b.rank < a.rank ∨ (b.rank = a.rank ∧ b.port.code < a.port.code) then b else a

/-- An Announce feeds the best-master choice (R336). -/
def State.ptpAnnounce (s : State) (port : PortId) (gm : Bytes) (rank : Nat) : State :=
  let p := s.eth.ptp
  let l := (p.announces.filter fun a => !(a.port == port && a.gm == gm)) ++ [{ port := port, gm := gm, rank := rank }]
  let s := s.setPtp { p with announces := l }
  match l with
  | [] => s
  | a :: rest =>
    let b := rest.foldl betterAnnounce a
    if p.slave = some b.port ∧ p.gm = b.gm then s
    else
      let s := s.setPtp { s.eth.ptp with slave := some b.port, gm := b.gm, lastSync := s.now }
      if p.gm = b.gm ∧ p.st ≠ .listening then s else s.ptpTo .uncalibrated

/-- The correction that the servo makes for an offset: all of it in a step, else what 200 ppm allows since the last Sync (R337). -/
def State.servoStep (s : State) (offset : Int) : Int :=
  let most : Int := ((s.now - s.eth.ptp.lastSync) / 5000 : Nat)
  if (s.num K.ptpStepThresholdNs : Int) < offset.natAbs then offset else max (-most) (min most offset)

/-- A Sync from the master on the slave port (R336, R337): a step of more than 1 us is recorded (05 R124, R160). -/
def State.ptpSync (s : State) (port : PortId) (gm : Bytes) (offset : Option Int) : State :=
  let p := s.eth.ptp
  if p.slave ≠ some port ∨ p.gm ≠ gm then s
  else match offset with
    | none => s.setPtp { p with lastSync := s.now }
    | some o =>
      let step := s.servoStep o
      let s := (s.setPtp { p with offset := o, delta := p.delta - step, lastSync := s.now }).ptpTo .locked
      if o.natAbs = step.natAbs ∧ (s.num K.ptpStepThresholdNs : Int) < o.natAbs ∧ 1000 < step.natAbs then s.event 0x0505 [(8, step.natAbs)] else s

/-- PTP_MESSAGE (R336). -/
def execPtpMessage (t : Nat) (port : PortId) (m : PtpMsg) (s : State) : Host.Outcome State Fault Refusal :=
  let s := s.advance t
  if !s.linkIsUp port then done s
  else
    let s := (s.rxFrame port m.len).bump (K.cPtpMessagesRx port.code)
    if m.domain ≠ s.num K.ptpDomain ∨ m.transport ≠ s.num K.ptpTransport then done s
    else match m.what with
      | .announce gm rank => (s.ptpAnnounce port gm rank).afterReply
      | .sync gm o => (s.ptpSync port gm o).afterReply
      | .other => done s

/-- PTP_LOSS_TIMEOUT (R338). -/
def execPtpLossTimeout (t : Nat) (s : State) : Host.Outcome State Fault Refusal :=
  let s := s.advance t
  let p := s.eth.ptp
  if p.slave.isSome ∧ (p.st = .locked ∨ p.st = .uncalibrated) ∧ p.lastSync + s.num K.ptpLossTimeoutMs * nsMs ≤ s.now then
    (s.ptpHoldover none).afterReply
  else done s

/-- PTP_PPS_EDGE (R339): a rise within 10 ns of a second boundary, a fall after PpsWidthUs. -/
def execPtpPpsEdge (t : Nat) (rise : Bool) (s : State) : Host.Outcome State Fault Refusal :=
  let s := s.advance t
  let p := s.eth.ptp
  let off := s.ptp % nsSec
  if rise then
    if s.flag K.ppsEnable && p.everLocked && !p.pps && (decide (off ≤ 10) || decide (nsSec - 10 ≤ off)) then
      done ((s.setPtp { p with pps := true, ppsRoseAt := s.now }).emit (.pin pinPps true))
    else done s
  else if p.pps && decide (p.ppsRoseAt + s.num K.ppsWidthUs * 1000 ≤ s.now) then
    done ((s.setPtp { p with pps := false }).emit (.pin pinPps false))
  else done s

/-- A figure in ten-thousandths of a bound (R155, R156). -/
def effOf (bytes bound : Nat) : Nat := bytes * 10000 / max 1 bound

/-- A counted window enters last figure, mean and count of its kind (R156). -/
def State.countWindow (s : State) (sum fig last mean count : Nat) : State :=
  let n := s.num count + 1
  ((s.setNum last (min 65535 fig)).setNum mean (min 65535 ((sum + fig) / n))).setNum count n

/-- EFFICIENCY_WINDOW_END (R156): the figures of the kinds whose window counted. -/
def execEfficiencyWindowEnd (t : Nat) (w : EffWindow) (s : State) : Host.Outcome State Fault Refusal :=
  let s := s.advance t
  if decide (s.now < s.shank.lastEff + nsSec) then done s
  else
    let i := effOf s.shank.progBytes s.ingestBound
    let r := effOf s.shank.readBytes s.restoreBound
    let s := { s with shank := { s.shank with lastEff := s.now, progBytes := 0, readBytes := 0 } }
    let s := if w.ingestCounted then
        let x := s.countWindow s.shank.ingestSum i K.ingestEfficiency K.ingestEfficiencyMean K.ingestCountedWindows
        { x with shank := { x.shank with ingestSum := x.shank.ingestSum + i } }
      else s
    let s := if w.restoreCounted then
        let x := s.countWindow s.shank.restoreSum r K.restoreEfficiency K.restoreEfficiencyMean K.restoreCountedWindows
        { x with shank := { x.shank with restoreSum := x.shank.restoreSum + r } }
      else s
    done s

end Sys2Proof.Machine
end

