-- ==== Sys2Proof/Machine/Shelf.lean ====
section
/-! DEFINITION. The shelf bus: USDO transfers, NMT commands, TIME, waking, heartbeat, EMCY and the controller's error states
(12 R353 to R365). The byte layout of USDO frames is the model's (log 34). -/

namespace Sys2Proof.Machine

/-- A frame is received: it counts, and one addressed to this node holds off the idle stop (R364). -/
def State.canRx (s : State) (addressed : Bool) : State :=
  let s := s.bump K.canRxFrames
  if addressed then { s with shelf := { s.shelf with lastTraffic := s.now } } else s

/-- Bytes that one USDO frame carries besides its header (DESIGN CHOICE, log 34). -/
abbrev usdoSeg : Nat := 56

/-- The largest transfer: 256 bytes while Heel answers alone (R363). -/
def State.usdoMax (s : State) : Nat := if s.shelf.coreAnswers then 1048576 else 256

/-- An abort of a transfer, sent to the client. -/
def State.usdoAbort (s : State) (node idx sub code : Nat) : State :=
  s.canSend (0x580 + s.shelf.nodeId) (beBytes 1 node ++ [0x7F] ++ beBytes 2 idx ++ beBytes 1 sub ++ beBytes 4 code)

/-- The open transfer of a client. -/
def State.transfer? (s : State) (node : Nat) : Option Usdo := s.shelf.transfers.find? (·.node == node)

/-- Closes a client's transfer. -/
def State.dropTransfer (s : State) (node : Nat) : State :=
  { s with shelf := { s.shelf with transfers := s.shelf.transfers.filter fun (x : Usdo) => x.node != node } }

/-- Replaces a client's transfer. -/
def State.setTransfer (s : State) (x : Usdo) : State :=
  let s := s.dropTransfer x.node
  { s with shelf := { s.shelf with transfers := s.shelf.transfers ++ [x] } }

/-- Clients whose download waits for the settings store (R349). -/
def State.usdoWaiting (s : State) : List Nat :=
  s.dict.waits.filterMap fun w => match w.who with | .shelf node _ _ => some node | _ => none

/-- A new transfer is refused: four are open, or its client has one open (R363). -/
def State.usdoBusy (s : State) (node : Nat) : Bool :=
  let open_ := s.shelf.transfers.map (·.node) ++ s.usdoWaiting
  open_.contains node || decide (4 ≤ open_.length)

/-- The value an upload returns: a DOMAIN begins at the caller's ShelfReadOffset (R363). -/
def State.usdoValue (s : State) (node : Nat) (r : Option DictRow) (b : Bytes) : Except Nat Bytes :=
  match r with
  | some row =>
    if row.typ = .dom then
      let off := (s.sel (.shelf node)).off
      if b.length < off then .error 0x06090030 else .ok ((b.drop off).take 1048576)
    else .ok b
  | none => .ok b

/-- An upload is initiated: `seg` asks for segments; a value that one frame does not carry is segmented in any case
(R347, R363). -/
def State.usdoUpload (s : State) (node idx sub : Nat) (seg : Bool) : State :=
  if s.usdoBusy node then s.usdoAbort node idx sub 0x05040005
  else
    let x := s.dictGet (.shelf node) idx sub
    let s := x.1
    match x.2.2 with
    | .abort c => s.usdoAbort node idx sub c
    | .value b =>
      match s.usdoValue node x.2.1 b with
      | .error c => s.usdoAbort node idx sub c
      | .ok v =>
        if s.usdoMax < v.length then s.usdoAbort node idx sub 0x05040005
        else
          let head := beBytes 1 node ++ [if seg || decide (usdoSeg < v.length) then 0x41 else 0x43] ++ beBytes 2 idx ++ beBytes 1 sub
          if seg || decide (usdoSeg < v.length) then
            let s := s.setTransfer { node := node, upload := true, idx := idx, sub := sub, data := v, sent := 0, total := v.length, lastAt := s.now }
            s.canSend (0x580 + s.shelf.nodeId) (head ++ beBytes 4 v.length)
          else s.canSend (0x580 + s.shelf.nodeId) (head ++ v)

/-- A download's last byte has arrived: the write is applied, and answered once it has ended (R346, R347, R349). -/
def State.usdoApply (s : State) (node idx sub : Nat) (b : Bytes) : State :=
  let x := s.dictSet (.shelf node) idx sub b
  let s := x.1
  match x.2.2 with
  | .abort c => s.usdoAbort node idx sub c
  | .ok => s.canSend (0x580 + s.shelf.nodeId) (usdoOk node idx sub)
  | .stored => s.awaitStore (.shelf node idx sub)

/-- The next bytes of an upload; the last ones end the transfer. Without an open upload the request is refused (R363). -/
def State.usdoUploadSegment (s : State) (node : Nat) : State :=
  match s.transfer? node with
  | some x =>
    if x.upload then
      let part := (x.data.drop x.sent).take usdoSeg
      let n := x.sent + part.length
      let last := decide (x.data.length ≤ n)
      let s := if last then s.dropTransfer node else s.setTransfer { x with sent := n, lastAt := s.now }
      s.canSend (0x580 + s.shelf.nodeId) (beBytes 1 node ++ [if last then 0x45 else 0x44] ++ part)
    else (s.dropTransfer node).usdoAbort node x.idx x.sub 0x05040001
  | none => s.usdoAbort node 0 0 0x05040001

/-- A download in one frame (R363). -/
def State.usdoDownload (s : State) (node index sub : Nat) (bytes : Bytes) : State :=
  if s.usdoBusy node || decide (s.usdoMax < bytes.length) then s.usdoAbort node index sub 0x05040005
  else s.usdoApply node index sub bytes

/-- A segmented download begins: `total` is the length announced, `bytes` what the first frame carries (R363). -/
def State.usdoDownloadInit (s : State) (node index sub total : Nat) (bytes : Bytes) : State :=
  if s.usdoBusy node || decide (s.usdoMax < max total bytes.length) then s.usdoAbort node index sub 0x05040005
  else
    let s := s.setTransfer { node := node, upload := false, idx := index, sub := sub, data := bytes, sent := 0, total := total, lastAt := s.now }
    s.canSend (0x580 + s.shelf.nodeId) (beBytes 1 node ++ [0x61] ++ beBytes 2 index ++ beBytes 1 sub)

/-- A segment of a download is stored; the last one applies the write whole (R347). A length other than the one announced is
refused as a length that does not fit. -/
def State.usdoDownloadSegment (s : State) (node : Nat) (bytes : Bytes) (last : Bool) : State :=
  match s.transfer? node with
  | some x =>
    let b := x.data ++ bytes
    if x.upload then (s.dropTransfer node).usdoAbort node x.idx x.sub 0x05040001
    else if s.usdoMax < b.length then (s.dropTransfer node).usdoAbort node x.idx x.sub 0x05040005
    else if !last then
      (s.setTransfer { x with data := b, lastAt := s.now }).canSend (0x580 + s.shelf.nodeId) (beBytes 1 node ++ [0x62])
    else if b.length ≠ x.total then (s.dropTransfer node).usdoAbort node x.idx x.sub 0x06070010
    else (s.dropTransfer node).usdoApply node x.idx x.sub b
  | none => s.usdoAbort node 0 0 0x05040001

/-- A dictionary access acts. -/
def State.dictAct (s : State) : Delayed → State
  | .write client key bytes => s.dictWrite client key bytes
  | .otp client bytes progOk => s.otpApply client bytes progOk
  | .upload node idx sub segments => s.usdoUpload node idx sub segments
  | .uploadSegment node => s.usdoUploadSegment node
  | .download node idx sub bytes => s.usdoDownload node idx sub bytes
  | .downloadInit node idx sub total bytes => s.usdoDownloadInit node idx sub total bytes
  | .downloadSegment node bytes last => s.usdoDownloadSegment node bytes last
  | .close node => s.dropTransfer node

/-- What waited for the end of an execution pause acts, in order, and so do the site's messages (15 R435). -/
def State.resume (s : State) : State :=
  let l := s.shelf.delayed
  let s := { s with shelf := { s.shelf with delayed := [] } }
  State.mbxRejectBad 33 (l.foldl State.dictAct s)

/-- A USDO request arrives (R363); during an execution pause it waits (15 R435). -/
def State.usdo (s : State) (d : Delayed) : State :=
  if !s.shelf.running then s
  else
    let s := s.canRx true
    if s.paused then s.delay d else s.dictAct d

/-- USDO_EXPEDITED_UPLOAD (R363). -/
def execUsdoExpeditedUpload (t node index sub : Nat) (s : State) : Host.Outcome State Fault Refusal :=
  done ((s.advance t).usdo (.upload node index sub false))

/-- USDO_EXPEDITED_DOWNLOAD (R363). -/
def execUsdoExpeditedDownload (t node index sub : Nat) (bytes : Bytes) (s : State) : Host.Outcome State Fault Refusal :=
  done ((s.advance t).usdo (.download node index sub bytes))

/-- USDO_SEGMENTED_UPLOAD_INIT: the value is copied now, and every segment comes from the copy (R347). -/
def execUsdoSegmentedUploadInit (t node index sub : Nat) (s : State) : Host.Outcome State Fault Refusal :=
  done ((s.advance t).usdo (.upload node index sub true))

/-- USDO_UPLOAD_SEGMENT (R363). -/
def execUsdoUploadSegment (t node : Nat) (s : State) : Host.Outcome State Fault Refusal := done ((s.advance t).usdo (.uploadSegment node))

/-- USDO_SEGMENTED_DOWNLOAD_INIT (R363). -/
def execUsdoSegmentedDownloadInit (t node index sub total : Nat) (bytes : Bytes) (s : State) : Host.Outcome State Fault Refusal :=
  done ((s.advance t).usdo (.downloadInit node index sub total bytes))

/-- USDO_DOWNLOAD_SEGMENT (R347). -/
def execUsdoDownloadSegment (t node : Nat) (bytes : Bytes) (last : Bool) (s : State) : Host.Outcome State Fault Refusal :=
  done ((s.advance t).usdo (.downloadSegment node bytes last))

/-- USDO_ABORT: the client closes its transfer, which changes nothing. -/
def execUsdoAbort (t node : Nat) (s : State) : Host.Outcome State Fault Refusal := done ((s.advance t).usdo (.close node))

/-- USDO_TIMEOUT: no segment for UsdoTimeoutMs (R363). -/
def execUsdoTimeout (t node : Nat) (s : State) : Host.Outcome State Fault Refusal :=
  let s := s.advance t
  done (match s.transfer? node with
    | some x =>
      if x.lastAt + s.num K.usdoTimeoutMs * nsMs ≤ s.now then (s.dropTransfer node).usdoAbort node x.idx x.sub 0x05040000 else s
    | none => s)

/-- An NMT command arrives (R358, R373): on the way to HALT or during a flush it is ignored and counted; otherwise it ends
LULL and is acted on by `f`, which answers false where it ignores it. -/
def State.nmt (s : State) (node : Nat) (f : State → State × Bool) : State :=
  if !s.shelf.running then s
  else if node ≠ 0 ∧ node ≠ s.shelf.nodeId then s.canRx false
  else
    let s := s.canRx true
    if s.mode.target = some .halt ∨ s.inFlush = true then s.bump K.nmtIgnored
    else
      let s := ({ s with mode := { s.mode with nmtSinceWake := true } } : State).wakeLull
      let x := f s
      if x.2 then x.1 else x.1.bump K.nmtIgnored

/-- The controller is reset: open transfers end, bit timing and NodeId are applied, and the boot-up message goes (Table 12.6,
R353, R359). -/
def State.commReset (s : State) : State := (s.abortTransfers).bootUp

/-- NMT_START_REMOTE_NODE (Table 12.6). -/
def execNmtStartRemoteNode (t node : Nat) (s : State) : Host.Outcome State Fault Refusal :=
  let s := s.advance t
  done (s.nmt node fun s => s.requestMode .serve trNmt)

/-- NMT_STOP_REMOTE_NODE (Table 12.6). -/
def execNmtStopRemoteNode (t node : Nat) (s : State) : Host.Outcome State Fault Refusal :=
  let s := s.advance t
  done (s.nmt node fun s => s.requestMode .dormant trNmt)

/-- NMT_ENTER_PRE_OPERATIONAL (Table 12.6). -/
def execNmtEnterPreOperational (t node : Nat) (s : State) : Host.Outcome State Fault Refusal :=
  let s := s.advance t
  done (s.nmt node fun s => s.requestMode .sweep trNmt)

/-- NMT_RESET_NODE: the communication reset and, where the part is powered and not in HALT, the warm reset (Table 12.6,
R359). A flush that has ended already waits for the MUSTER or the fall of power that follows it. -/
def execNmtResetNode (t node : Nat) (s : State) : Host.Outcome State Fault Refusal :=
  let s := s.advance t
  done (s.nmt node fun s =>
    let s := s.commReset
    (match s.mode.phase with
     | .awaitPower _ => s
     | .resetHeld => s
     | _ => s.resetFlush trNmt, true))

/-- NMT_RESET_COMMUNICATION (Table 12.6): the mode is unchanged. -/
def execNmtResetCommunication (t node : Nat) (s : State) : Host.Outcome State Fault Refusal :=
  let s := s.advance t
  done (s.nmt node fun s => (s.commReset, true))

/-- TIME_FRAME (R362). -/
def execTimeFrame (t cobid ms days : Nat) (s : State) : Host.Outcome State Fault Refusal :=
  let s := s.advance t
  let c := s.num K.timeCobId
  done (if !s.shelf.running then s
    else if bitAt c 31 && cobid % 2048 == c % 2048 then
      let s := (s.canRx true).bump K.timeFramesRx
      if s.eth.ptp.st = PtpState.locked then s
      else
        let s := s.setRtc (days % 65536 * 86400 + ms % 2 ^ 28 / 1000 + 441763200 + s.num K.taiUtcOffset)
        { s with clk := { s.clk with rtcInvalid := false } }
    else s.canRx false)

/-- WAKE_FRAME: one that is received is ignored (R365). -/
def execWakeFrame (t : Nat) (s : State) : Host.Outcome State Fault Refusal :=
  let s := s.advance t
  done (if s.shelf.running then s.canRx false else s)

/-- CAN_WAKE_DOMINANT: 1 us or longer starts WOSC, shorter than 0.3 us never; `takes` says what the analogue filter makes of
a length between them (R364). After WOSC failed outside DORMANT the edge starts it too (13 Table 13.8). -/
def execCanWakeDominant (t durNs : Nat) (takes : Bool) (s : State) : Host.Outcome State Fault Refusal :=
  let s := s.advance t
  let woken := decide (1000 ≤ durNs) || (decide (300 ≤ durNs) && takes)
  done (if s.shelf.running = false ∧ s.shelf.bootOwed = false ∧ s.mode.vstby = true ∧ s.mode.porN = true ∧
      woken = true then
      let s := s.setSrc .wosc { st := .healthy }
      { s with shelf := { s.shelf with running := true, woscRestarts := 0, lastTraffic := s.now } }
    else s)

/-- WAKE_IDLE_TIMEOUT: WakeIdleMs without traffic, transfer or waiting frame stops WOSC and the controller (R364). -/
def execWakeIdleTimeout (t : Nat) (s : State) : Host.Outcome State Fault Refusal :=
  let s := s.advance t
  done (if s.mode.mode = .dormant ∧ s.shelf.running = true ∧ s.shelf.transfers = [] ∧ s.shelf.queue = [] ∧
      s.shelf.lastTraffic + s.num K.wakeIdleMs * nsMs ≤ s.now then
      let s := s.setSrc .wosc {}
      { s with shelf := { s.shelf with running := false } }
    else s)

/-- HEARTBEAT, every ProducerHeartbeatTime (R359). -/
def execHeartbeat (t : Nat) (s : State) : Host.Outcome State Fault Refusal :=
  let s := s.advance t
  done (if s.shelf.lastHeartbeat + s.num K.producerHeartbeatTime * nsMs ≤ s.now then s.heartbeatNow else s)

/-- The payload of an EMCY frame (Table 12.7). -/
def Emcy.bytes (e : Emcy) : Bytes :=
  beBytes 2 e.code ++ beBytes 1 e.reg ++ beBytes 1 e.mode ++ beBytes 2 e.evCode ++ [0, 0] ++ beBytes 8 e.evSeq ++ beBytes 4 e.detail

/-- EMCY_SEND: the oldest waiting frame, EmcyInhibitMs after the last (R360). -/
def execEmcySend (t : Nat) (s : State) : Host.Outcome State Fault Refusal :=
  let s := s.advance t
  let due := match s.shelf.lastEmcy with
    | some u => decide (u + s.num K.emcyInhibitMs * nsMs ≤ s.now)
    | none => true
  done (match s.shelf.queue with
    | [] => s
    | e :: rest =>
      if due && s.canReady then
        let s := s.canSend (0x080 + s.shelf.nodeId) e.bytes
        { s with shelf := { s.shelf with queue := rest, lastEmcy := some s.now } }
      else s)

/-- CAN_BUS_OFF_RECOVERY: after 128 occurrences of 11 recessive bits (R355). -/
def execCanBusOffRecovery (t : Nat) (s : State) : Host.Outcome State Fault Refusal :=
  let s := s.advance t
  done (if s.shelf.running then (s.bump K.canBusOffCount).emcy 0x8140 0 0 0 else s)

/-- CAN_ERROR_PASSIVE (R355, Table 12.8). -/
def execCanErrorPassive (t : Nat) (s : State) : Host.Outcome State Fault Refusal :=
  let s := s.advance t
  done (if s.shelf.running && !s.shelf.errPassive then
      (({ s with shelf := { s.shelf with errPassive := true } } : State).condOn 0x8120).emcy 0x8120 0 0 0
    else s)

/-- CAN_ERROR_PASSIVE_END (R360, R361). -/
def execCanErrorPassiveEnd (t : Nat) (s : State) : Host.Outcome State Fault Refusal :=
  let s := s.advance t
  done (if s.shelf.errPassive then ({ s with shelf := { s.shelf with errPassive := false } } : State).condOff 0x8120 else s)

end Sys2Proof.Machine
end

