-- ==== Sys2Proof/Machine/FwCmds.lean ====
section
/-! DEFINITION. Commands of live activation, the flash copy and Lace (15 R430, R433 to R439; 05 R150). -/

namespace Sys2Proof.Machine

/-- Where the state table and the VOL block of a handover lie in DRAM, and their lengths: free values (R434). -/
def State.handoverPlaces (s : State) : Handover × State :=
  let (a, s) := s.drawFree
  let (b, s) := s.drawFree
  let (c, s) := s.drawFree
  let (d, s) := s.drawFree
  ({ migrated := false, oldVersion := 0, newVersion := 0, format := 0, pauseStart := 0, stateTableAddr := a, stateTableLength := b,
     volBlockLength := c, volBlockAddr := d, eventNextSeq := 0, digest := [] }, s)

/-- ACTIVATION_PAUSE_START: the new firmware is ready and t_p has come; the VOL block and the handover record are written
(R150, R433 steps 4 and 5, R434, R441). The digest is over contents that the manual does not lay out: a free value. -/
def execActivationPauseStart (t : Nat) (s : State) : Host.Outcome State Fault Refusal :=
  let s := s.advance t
  done (if s.fw.act.phase = ActPhase.preparing ∧ s.pauseFits s.now (fun _ => true) = true then
      let b := s.fw.staged.image
      let old := s.fw.flash.format
      let s := s.migrate (imgFormat b)
      let (d, s) := s.drawFree
      let (x, s) := s.handoverPlaces
      let h : Handover := { x with migrated := old != s.fw.flash.format, oldVersion := s.fw.running, newVersion := imgVersion b,
                                   format := s.fw.flash.format, pauseStart := s.ptp, eventNextSeq := s.evs.nextSeq, digest := leBytes 48 d }
      { s with fw := { s.fw with act := { s.fw.act with phase := .pausing, pauseAt := s.now, handover := some h.bytes } } }
    else s)

/-- ACTIVATION_TAKEOVER: within 2 ms of the pause, with the digest and both versions right, the new firmware takes over; else
the activation fails (R433 step 6, R436). Causes of event 0x0A04: 3 digest or version, 4 no takeover in time (DESIGN CHOICE,
log 33). -/
def execActivationTakeover (t : Nat) (checks : Bool) (s : State) : Host.Outcome State Fault Refusal :=
  let s := s.advance t
  if s.fw.act.phase = ActPhase.pausing then
    (if s.fw.act.pauseAt + 2 * nsMs < s.now then s.actFail 6 4
     else if checks then s.handoverDone
     else s.actFail 6 3).resume.afterReply
  else done s

/-- ACTIVATION_REJOIN: cores 0 to 3 have joined; event 0x0A03 and ActivationCount (R433 step 7). -/
def execActivationRejoin (t : Nat) (s : State) : Host.Outcome State Fault Refusal :=
  let s := s.advance t
  done (if s.fw.act.phase = ActPhase.rejoining then
      let us := s.num K.lastActivationPauseUs
      let s := { s with fw := { s.fw with act := {} } }
      (s.event 0x0A03 [(4, s.fw.running), (4, us)]).bumpSys K.activationCount
    else s)

/-- ACTIVATION_FAILURE: after the commit point and before the handover has ended, the activation fails (R436). -/
def execActivationFailure (t step cause : Nat) (s : State) : Host.Outcome State Fault Refusal :=
  let s := s.advance t
  if s.fw.act.phase = ActPhase.preparing ∨ s.fw.act.phase = ActPhase.pausing then ((s.actFail step cause).resume).afterReply else done s

/-- FW_COPY_COMPLETE: the copy ends IN_FLASH, or FAILED with event 0x0A01; LaceMode 1 then forwards (R430, R438). -/
def execFwCopyComplete (t : Nat) (ok : Bool) (s : State) : Host.Outcome State Fault Refusal :=
  let s := s.advance t
  let x := s.fw.staged
  done (if x.copy = 1 then
      let b := x.image
      if ok then
        let s := (s.setSlot (s.slotFor b) (some b)).setStaged { x with copy := 2 }
        if s.num K.laceMode = 1 then s.laceOffer b else s
      else (s.setStaged { x with copy := 3 }).event 0x0A01 [(4, x.id), (1, x.st), (4, x.version)]
    else s)

/-- LACE_FORWARD: the next segment, or FW_ACTIVATE, goes to the successor (R438). -/
def execLaceForward (t : Nat) (s : State) : Host.Outcome State Fault Refusal := done (s.advance t).laceNext

/-- LACE_SKIP_TIMEOUT: the successor has not accepted the image within LaceSkipSeconds (R439). -/
def execLaceSkipTimeout (t : Nat) (s : State) : Host.Outcome State Fault Refusal :=
  let s := s.advance t
  let l := s.fw.lace
  done (if (l.st = .sending ∨ l.st = .waiting) ∧ l.activateSent = false ∧ l.offeredAt + s.num K.laceSkipSeconds * nsSec ≤ s.now then s.laceSkip 1
    else s)

/-- The successor's answer to a segment (R438, R439): the next one, skipping a rejected image, or the end; an answer other than
OK leaves the forward WAITING. -/
def State.laceSegment (s : State) (status : Nat) (body : Bytes) : State :=
  let l := s.fw.lace
  if status ≠ stOk then { s with fw := { s.fw with lace := { l with st := .waiting } } }
  else if 2 ≤ beAt body 4 1 then s.laceSkip 2
  else
    let sent := min l.image.length (l.sentBytes + 240)
    let fin := sent = l.image.length ∧ s.num K.laceMode ≠ 2
    let s := { s with fw := { s.fw with lace := { l with sentBytes := sent, st := if fin then .done else .sending } } }
    s.laceNext

/-- LACE_REPLY (R438, R439). -/
def execLaceReply (t : Nat) (r : PeerReply) (s : State) : Host.Outcome State Fault Refusal :=
  let s := s.advance t
  done (match s.peerReply r with
    | (s, none) => s
    | (s, some _) =>
      let l := s.fw.lace
      if l.st ≠ .sending ∧ l.st ≠ .waiting then s
      else if r.opcode = 0x50 then s.laceSegment r.status r.body
      else if r.opcode = 0x51 then { s with fw := { s.fw with lace := { l with st := if r.status = stOk then .done else .waiting } } }
      else s)

end Sys2Proof.Machine
end

