-- ==== Sys2Proof/Machine/Registers.lean ====
section
/-! DEFINITION. What a read of each register answers (00 R7; Tables 6.7 to 6.11, 13.10 to 13.13, 14.1, 14.2, 14.5, 14.6,
14.12). A read with an effect of its own is a command of its own. -/

namespace Sys2Proof.Machine

/-- 32-bit word `i` of a number. -/
def wordAt (v i : Nat) : Nat := fieldAt v (32 * i) 32

/-- The mailbox's registers. -/
def State.mbxReg (s : State) (o : Nat) : Nat :=
  let x := s.site
  match o with
  | 0x00 => x.s2cProd
  | 0x04 => x.s2cCons
  | 0x08 => x.c2sProd
  | 0x0C => x.c2sCons
  | 0x10 => bit (x.c2sProd != x.c2sCons) + 2 * bit x.overrun + 4 * bit x.c2sLost
  | 0x14 => bit x.mbxIrqEn
  | _ => 0

/-- The registers of DMA channel `n`. -/
def State.dmaReg (s : State) (n o : Nat) : Nat :=
  let c := s.ch n
  match o with
  | 0x00 => bit c.en + 2 * c.trig + 16 * c.chainSrc + 256 * c.prio + 1024 * bit c.doneIe + 2048 * bit c.errIe
  | 0x04 => c.st.code + 8 * bit c.done + 16 * bit c.err + 32 * bit c.pending + 256 * c.lastErr
  | 0x08 => wordAt c.ring 0
  | 0x0C => wordAt c.ring 1
  | 0x10 => c.ringSize
  | 0x14 => c.head
  | 0x1C => c.period
  | 0x20 => c.doneCount % 2 ^ 32
  | 0x24 => wordAt c.errAddr 0
  | 0x28 => wordAt c.errAddr 1
  | _ => 0

/-- Awl's site registers; AWL_SITE_STATUS.BUSY reads 0, since an operation's end lies in its own command (R192). -/
def State.awlReg (s : State) (o : Nat) : Nat :=
  let a := s.awl.at_ s.now
  let rows := s.awlRows partSite
  if o = 0x00 then rows % 65536 + 65536 * (rows / 4096)
  else if o = 0x08 then
    bit s.awlBusy + 2 * bit a.done + 4 * bit a.err + 8 * a.errCode + 128 * bit a.shadowLost + 256 * bit a.hit + 512 * bit a.multi +
      1024 * bit a.valid + 2048 * bit a.retried
  else if o = 0x0C then a.row + 65536 * a.dest
  else if o = 0x10 then a.result
  else if o = 0x14 then a.prio
  else if o = 0x18 then a.irqEn
  else if o = 0x1C then a.vfail
  else if 0x20 ≤ o ∧ o ≤ 0x3C then wordAt a.key ((o - 0x20) / 4)
  else if 0x40 ≤ o ∧ o ≤ 0x5C then wordAt a.mask ((o - 0x40) / 4)
  else if o = 0x60 ∨ o = 0x64 then wordAt a.data ((o - 0x60) / 4)
  else if 0x80 ≤ o ∧ o ≤ 0x9C then wordAt a.skey ((o - 0x80) / 4)
  else if o = 0xA0 ∨ o = 0xA4 then wordAt a.rdata ((o - 0xA0) / 4)
  else 0

/-- The recorder's registers. -/
def State.evrReg (s : State) (o : Nat) : Nat :=
  let e := s.evs
  if o = 0x00 then wordAt e.nextSeq 0
  else if o = 0x04 then e.nextHi.toNat
  else if o = 0x08 then e.fetchLo.toNat
  else if o = 0x0C then e.fetchHi.toNat
  else if o = 0x14 then bit e.busy + 2 * bit e.done + 4 * bit e.err + 8 * e.errCode + 64 * bit e.new
  else if o = 0x18 then e.irqEn.toNat
  else if 0x20 ≤ o ∧ o ≤ 0x3C then leAt e.rec_ (o - 0x20) 4
  else if o = 0x40 then e.postCode.toNat
  else if 0x44 ≤ o ∧ o ≤ 0x4C then leAt e.postDetail (o - 0x44) 4
  else 0

/-- The controller's registers. -/
def State.cpcReg (s : State) (o : Nat) : Nat :=
  match o with
  | 0x00 => s.mode.mode.code + 8 * (s.mode.target.map Mode.code).getD 7
  | 0x04 => s.domainWord
  | 0x08 => s.clockWord
  | 0x0C => bit s.clk.lullHold
  | 0x10 => s.clk.irqStatus.toNat
  | 0x14 => s.clk.irqEn.toNat
  | _ => 0

/-- The registers of counter 1. -/
def State.fmcReg (s : State) (o : Nat) : Nat :=
  let f := s.clk.fmc
  match o with
  | 0x00 => f.ctrl.toNat
  | 0x04 => f.window.toNat
  | 0x0C => bit f.busy + 2 * bit f.done + 4 * bit f.err + 8 * bit f.srcDead
  | 0x10 => wordAt f.count 0
  | 0x14 => fieldAt f.count 32 16
  | _ => 0

/-- The timer block's registers. -/
def State.tmrReg (s : State) (o : Nat) : Nat :=
  let x := s.site
  if o = 0x00 then wordAt s.ptp 0
  else if o = 0x04 then x.nowHi.toNat
  else if 0x10 ≤ o ∧ o ≤ 0x2C then wordAt (x.cmp.getD ((o - 0x10) / 8) 0) ((o - 0x10) / 4 % 2)
  else if o = 0x30 then x.cmpEn + 16 * x.tmrIrqEn
  else if o = 0x34 then x.fired
  else if o = 0x3C then if x.st = 1 then (x.wdogAt + s.num K.siteWatchdogMs * nsMs - s.now) / nsMs else s.num K.siteWatchdogMs
  else 0

/-- The 32-bit word that a read of a register answers; a write-only register reads 0 (R7). -/
def State.register (s : State) (addr : Nat) : Nat :=
  let o := addr % 0x1000
  match addr / 0x1000 with
  | 0x40000 => s.mbxReg o
  | 0x40010 => if o = 0 then 0xF0000010 else 0
  | 0x40011 => s.dmaReg (o / 0x100) (o % 0x100)
  | 0x40020 => s.awlReg o
  | 0x40030 => s.evrReg o
  | 0x40040 => s.cpcReg o
  | 0x40050 => s.fmcReg o
  | 0x40060 => s.tmrReg o
  | _ => 0

end Sys2Proof.Machine
end

