-- ==== Sys2Proof/Machine/Service.lean ====
section
/-! DEFINITION. Core firmware's periodic work and plain stores: event batches, OperatingSeconds, the SMBus poll, and writes of
registers that have no behaviour of their own (14 R418, R419, R399 to R406, R423; 16 R474; 00 R7; 06 R191; 13 R394,
R395). -/

namespace Sys2Proof.Machine

/-- EVENT_BATCH_APPEND: at 128 records, or 1 s after the oldest arrived (R419). -/
def execEventBatchAppend (t : Nat) (s : State) : Host.Outcome State Fault Refusal :=
  let s := s.advance t
  let n := s.evs.staged.length
  let due := decide (128 ≤ n) || (decide (0 < n) && decide (s.evs.stagedAt + nsSec ≤ s.now))
  if s.writable && s.evs.numbered && due then (s.appendBatch.logTrim).afterReply else done s

/-- OPERATING_SECONDS_SAVE, every 60 s (R418). -/
def execOperatingSecondsSave (t : Nat) (s : State) : Host.Outcome State Fault Refusal :=
  let s := s.advance t
  let secs := s.operatingSeconds
  done (if s.mode.mode.powered && decide (s.evs.lastSave + 60 * nsSec ≤ s.now) then
      { s with evs := { s.evs with secsSaved := secs, lastSave := s.now } }
    else s)

/-- The word of one polled target: a target without an acknowledgement, or out of time, reads 0xFFFF (R474). -/
def smbusWord (results : List (Nat × Nat)) (i : Nat) : Bool × Nat :=
  match results[i]? with
  | some (ack, w) => if ack = 1 then (true, w % 65536) else (false, 0xFFFF)
  | none => (false, 0xFFFF)

/-- SMBUS_POLL, each second: `results` holds for each entry 1 and the word read, or 0 (R474). -/
def execSmbusPoll (t : Nat) (results : List (Nat × Nat)) (s : State) : Host.Outcome State Fault Refusal :=
  let s := s.advance t
  let n := (s.str K.smbusPollList).length / 2
  let words := (List.range n).map (smbusWord results)
  let polls := s.shelf.coreAnswers && s.mode.mode != .halt && s.mode.mode != .dormant
  done (if polls && decide (s.mode.lastPoll + nsSec ≤ s.now) then
      let s := { s with mode := { s.mode with lastPoll := s.now } }
      let s := s.setStr K.smbusPollValues (words.flatMap fun w => beBytes 2 w.2)
      s.addTo K.smbusErrors (words.filter fun w => !w.1).length
    else s)

/-- Replaces 32-bit word `i` of a number. -/
def setWord (old i v : Nat) : Nat := old - wordAt old i * 2 ^ (32 * i) + v * 2 ^ (32 * i)

/-- Replaces 4 bytes at word `i` with a value's little-endian bytes. -/
def setBytes (b : Bytes) (i v : Nat) : Bytes := overlay b (4 * i) (leBytes 4 v)

/-- Mailbox registers (Table 14.2). -/
def State.mbxStore (s : State) (o v : Nat) : State :=
  match o with
  | 0x10 => { s with site := { s.site with overrun := s.site.overrun && !bitAt v 1, c2sLost := s.site.c2sLost && !bitAt v 2 } }
  | 0x14 => { s with site := { s.site with mbxIrqEn := bitAt v 0 } }
  | _ => s

/-- DMA channel registers (Table 14.6, R406); writing 1 to ERR leaves STATE DISABLED (R414). A write of DMA_CH_CTRL whose EN is set, or that clears EN, is a command of its
own. -/
def State.dmaStore (s : State) (n o v : Nat) : State :=
  let c := s.ch n
  match o with
  | 0x00 => if c.en || bitAt v 0 then s else s.setCh n (c.ctrlFields v)
  | 0x04 => s.setCh n { c with done := c.done && !bitAt v 3, err := c.err && !bitAt v 4,
                               st := if bitAt v 4 = true ∧ c.st = .error then .disabled else c.st }
  | 0x1C => s.setCh n { c with period := v }
  | _ => s

/-- An operation that AWL_SITE_CMD does not list: BUSY while one runs, otherwise BAD_OP (R192). -/
def State.awlBadOp (s : State) (v : Nat) : State :=
  if 1 ≤ v % 16 ∧ v % 16 ≤ 7 then s else if s.awlBusy then s.siteErr 5 else s.awlSettle.siteErr 1

/-- Awl's site registers (Tables 6.7 to 6.11). -/
def State.awlStore (s : State) (o v : Nat) : State :=
  let a := s.awl.at_ s.now
  if o = 0x04 then s.awlBadOp v
  else if o = 0x08 then
    let v := v - (v &&& s.awlEnds)
    { s with awl := { a with done := a.done && !bitAt v 1, err := a.err && !bitAt v 2, shadowLost := a.shadowLost && !bitAt v 7 } }
  else if o = 0x0C then { s with awl := { a with row := v % 65536, dest := v / 65536 } }
  else if o = 0x14 then { s with awl := { a with prio := v % 4096 } }
  else if o = 0x18 then { s with awl := { a with irqEn := v % 8 } }
  else if 0x20 ≤ o ∧ o ≤ 0x3C then { s with awl := { a with key := setWord a.key ((o - 0x20) / 4) v } }
  else if 0x40 ≤ o ∧ o ≤ 0x5C then { s with awl := { a with mask := setWord a.mask ((o - 0x40) / 4) v } }
  else if o = 0x60 ∨ o = 0x64 then { s with awl := { a with data := setWord a.data ((o - 0x60) / 4) v } }
  else if 0x80 ≤ o ∧ o ≤ 0x9C then { s with awl := { a with skey := setWord a.skey ((o - 0x80) / 4) v } }
  else s

/-- Event recorder registers (Table 14.12). -/
def State.evrStore (s : State) (o v : Nat) : State :=
  let e := s.evs
  match o with
  | 0x08 => { s with evs := { e with fetchLo := BitVec.ofNat 32 v } }
  | 0x0C => { s with evs := { e with fetchHi := BitVec.ofNat 32 v } }
  | 0x14 => { s with evs := { e with done := e.done && !bitAt v 1, err := e.err && !bitAt v 2, new := e.new && !bitAt v 6 } }
  | 0x18 => { s with evs := { e with irqEn := BitVec.ofNat 32 (v % 4) } }
  | 0x40 => { s with evs := { e with postCode := BitVec.ofNat 32 (v % 256) } }
  | 0x44 => { s with evs := { e with postDetail := setBytes e.postDetail 0 v } }
  | 0x48 => { s with evs := { e with postDetail := setBytes e.postDetail 1 v } }
  | 0x4C => { s with evs := { e with postDetail := setBytes e.postDetail 2 v } }
  | _ => s

/-- Controller registers (Table 13.13). -/
def State.cpcStore (s : State) (o v : Nat) : State :=
  match o with
  | 0x0C => { s with clk := { s.clk with lullHold := bitAt v 0 } }
  | 0x10 => { s with clk := { s.clk with irqStatus := s.clk.irqStatus &&& ~~~(BitVec.ofNat 32 (v % 8)) } }
  | 0x14 => { s with clk := { s.clk with irqEn := BitVec.ofNat 32 (v % 8) } }
  | _ => s

/-- Registers of counter 1 (Tables 13.10 to 13.12). -/
def State.fmcStore (s : State) (o v : Nat) : State :=
  let f := s.clk.fmc
  match o with
  | 0x00 => s.setFmc { f with ctrl := BitVec.ofNat 32 (v % 64) }
  | 0x04 => s.setFmc { f with window := BitVec.ofNat 32 v }
  | 0x0C => s.setFmc { f with done := f.done && !bitAt v 1, err := f.err && !bitAt v 2, srcDead := f.srcDead && !bitAt v 3 }
  | _ => s

/-- Timer registers (Table 14.5). -/
def State.tmrStore (s : State) (o v : Nat) : State :=
  match o with
  | 0x30 => { s with site := { s.site with cmpEn := v % 16, tmrIrqEn := v / 16 % 16 } }
  | 0x34 => { s with site := { s.site with fired := s.site.fired - (s.site.fired &&& v % 16) } }
  | _ => s

/-- A 32-bit store to memory: the local SRAM, the mailbox rings, the site DRAM window, or core firmware's own memory in the
domain of its address (DESIGN CHOICE, log 48: the table has no other command by which software stores to memory). -/
def State.memStore (s : State) (a v : Nat) : State :=
  let on := if inSram a 4 || decide (0x40001000 ≤ a ∧ a + 4 ≤ 0x40002000) then s.domOn .core
    else if s.inSiteDram a 4 then s.domOn .dram else s.domOn (chDom 0 a)
  if on && a % 4 == 0 then { s with mem := memWrite s.mem a (leBytes 4 v) } else s

/-- REGISTER_WRITE: a register without a behaviour of its own takes the value under its access codes; reserved bits are
ignored, and a bit that hardware sets in the same cycle is not cleared (R6, R7). Registers whose write is a command of its own are left to that command. -/
def execRegisterWrite (t addr value : Nat) (s : State) : Host.Outcome State Fault Refusal :=
  let s := s.advance t
  let v := s.clears addr (value % 2 ^ 32)
  let o := addr % 0x1000
  done (if !s.domOn .core then s
    else match addr / 0x1000 with
      | 0x40000 => s.mbxStore o v
      | 0x40010 => s
      | 0x40011 => s.dmaStore (o / 0x100) (o % 0x100) v
      | 0x40020 => if s.domOn .kv then s.awlStore o v else s
      | 0x40030 => s.evrStore o v
      | 0x40040 => s.cpcStore o v
      | 0x40050 => s.fmcStore o v
      | 0x40060 => s.tmrStore o v
      | _ => s.memStore addr v)

end Sys2Proof.Machine
end

