-- ==== Sys2Proof/Machine/Dispatch.lean ====
section
/-! DEFINITION. The dispatch of every command to its meaning: one arm per row of spec/opcode_table.json. -/

namespace Sys2Proof.Machine

/-- The effect of one command on everything but the queue. -/
def exec (i : Instr) (s : State) : Host.Outcome State Fault Refusal :=
  match i with
  | .hello t h => Sys2Proof.Machine.execHello t h s
  | .halfOpenTimeout t sid => Sys2Proof.Machine.execHalfOpenTimeout t sid s
  | .sessionLossTimeout t sid => Sys2Proof.Machine.execSessionLossTimeout t sid s
  | .idleTimeout t sid => Sys2Proof.Machine.execIdleTimeout t sid s
  | .closingTimeout t sid => Sys2Proof.Machine.execClosingTimeout t sid s
  | .close t rx reason detail => Sys2Proof.Machine.execClose t rx reason detail s
  | .ack t rx a => Sys2Proof.Machine.execAck t rx a s
  | .ackDelayExpiry t sid => Sys2Proof.Machine.execAckDelayExpiry t sid s
  | .nak t rx n => Sys2Proof.Machine.execNak t rx n s
  | .ptoExpiry t sid path => Sys2Proof.Machine.execPtoExpiry t sid path s
  | .congestionUpdate t sid path => Sys2Proof.Machine.execCongestionUpdate t sid path s
  | .cmdSeqHold t rx pkt plan => Sys2Proof.Machine.execCmdSeqHold t rx pkt plan s
  | .data t rx tag inc off payload => Sys2Proof.Machine.execData t rx tag inc off payload s
  | .windowDrain t sid tag => Sys2Proof.Machine.execWindowDrain t sid tag s
  | .dataIdleTimeout t sid tag => Sys2Proof.Machine.execDataIdleTimeout t sid tag s
  | .grantWindow t sid tag lens => Sys2Proof.Machine.execGrantWindow t sid tag lens s
  | .readDataSend t sid tag => Sys2Proof.Machine.execReadDataSend t sid tag s
  | .keepaliveProbe t rx stamp => Sys2Proof.Machine.execKeepaliveProbe t rx stamp s
  | .keepaliveEcho t rx stamp => Sys2Proof.Machine.execKeepaliveEcho t rx stamp s
  | .keepaliveInterval t sid path => Sys2Proof.Machine.execKeepaliveInterval t sid path s
  | .pathDeadTimeout t sid path => Sys2Proof.Machine.execPathDeadTimeout t sid path s
  | .tlsHandshake t h => Sys2Proof.Machine.execTlsHandshake t h s
  | .v1ConnectionClose t sid => Sys2Proof.Machine.execV1ConnectionClose t sid s
  | .get t rx pkt plan => Sys2Proof.Machine.execGet t rx pkt plan s
  | .getRange t rx pkt plan => Sys2Proof.Machine.execGetRange t rx pkt plan s
  | .stat t rx pkt plan => Sys2Proof.Machine.execStat t rx pkt plan s
  | .list t rx pkt plan => Sys2Proof.Machine.execList t rx pkt plan s
  | .put t rx pkt plan => Sys2Proof.Machine.execPut t rx pkt plan s
  | .putIf t rx pkt plan => Sys2Proof.Machine.execPutIf t rx pkt plan s
  | .delete t rx pkt plan => Sys2Proof.Machine.execDelete t rx pkt plan s
  | .deleteIf t rx pkt plan => Sys2Proof.Machine.execDeleteIf t rx pkt plan s
  | .flush t rx pkt plan => Sys2Proof.Machine.execFlush t rx pkt plan s
  | .flushEnd t sid tag => Sys2Proof.Machine.execFlushEnd t sid tag s
  | .nsCreate t rx pkt plan => Sys2Proof.Machine.execNsCreate t rx pkt plan s
  | .nsDelete t rx pkt plan => Sys2Proof.Machine.execNsDelete t rx pkt plan s
  | .nsQuery t rx pkt plan => Sys2Proof.Machine.execNsQuery t rx pkt plan s
  | .dictRead t rx pkt plan => Sys2Proof.Machine.execDictRead t rx pkt plan s
  | .dictWrite t rx pkt plan => Sys2Proof.Machine.execDictWrite t rx pkt plan s
  | .fwSegment t rx pkt plan => Sys2Proof.Machine.execFwSegment t rx pkt plan s
  | .fwActivate t rx pkt plan => Sys2Proof.Machine.execFwActivate t rx pkt plan s
  | .sessionReset t rx pkt plan => Sys2Proof.Machine.execSessionReset t rx pkt plan s
  | .fragReserve t rx pkt plan => Sys2Proof.Machine.execFragReserve t rx pkt plan s
  | .fragPut t rx pkt plan => Sys2Proof.Machine.execFragPut t rx pkt plan s
  | .fragGet t rx pkt plan => Sys2Proof.Machine.execFragGet t rx pkt plan s
  | .fragRelease t rx pkt plan => Sys2Proof.Machine.execFragRelease t rx pkt plan s
  | .stripeCommitCommit t rx pkt plan => Sys2Proof.Machine.execStripeCommitCommit t rx pkt plan s
  | .stripeCommitHolders t rx pkt plan => Sys2Proof.Machine.execStripeCommitHolders t rx pkt plan s
  | .stripeCommitHandoff t rx pkt plan => Sys2Proof.Machine.execStripeCommitHandoff t rx pkt plan s
  | .stripeCommitHandoffDone t rx pkt plan => Sys2Proof.Machine.execStripeCommitHandoffDone t rx pkt plan s
  | .stripeCommitHandoffPending t rx pkt plan => Sys2Proof.Machine.execStripeCommitHandoffPending t rx pkt plan s
  | .stripeCommitNsCreate t rx pkt plan => Sys2Proof.Machine.execStripeCommitNsCreate t rx pkt plan s
  | .stripeCommitNsDelete t rx pkt plan => Sys2Proof.Machine.execStripeCommitNsDelete t rx pkt plan s
  | .rebuildQueryHoldings t rx pkt plan => Sys2Proof.Machine.execRebuildQueryHoldings t rx pkt plan s
  | .rebuildQueryResolve t rx pkt plan => Sys2Proof.Machine.execRebuildQueryResolve t rx pkt plan s
  | .rebuildQueryKeyState t rx pkt plan => Sys2Proof.Machine.execRebuildQueryKeyState t rx pkt plan s
  | .rebuildQueryNamespaces t rx pkt plan => Sys2Proof.Machine.execRebuildQueryNamespaces t rx pkt plan s
  | .fragReserveReply t r => Sys2Proof.Machine.execFragReserveReply t r s
  | .phaseOneTimeout t sid tag => Sys2Proof.Machine.execPhaseOneTimeout t sid tag s
  | .fragPutReply t r => Sys2Proof.Machine.execFragPutReply t r s
  | .writeCommit t sid tag => Sys2Proof.Machine.execWriteCommit t sid tag s
  | .holderFailTimeout t sid tag member => Sys2Proof.Machine.execHolderFailTimeout t sid tag member s
  | .releaseAckWaitEnd t sid tag => Sys2Proof.Machine.execReleaseAckWaitEnd t sid tag s
  | .messageRepeat t msg => Sys2Proof.Machine.execMessageRepeat t msg s
  | .readTurn t sid tag => Sys2Proof.Machine.execReadTurn t sid tag s
  | .orderedStart t sid tag => Sys2Proof.Machine.execOrderedStart t sid tag s
  | .supersededRelease t stripe => Sys2Proof.Machine.execSupersededRelease t stripe s
  | .promiseBroken t sid tag => Sys2Proof.Machine.execPromiseBroken t sid tag s
  | .activationPauseStart t => Sys2Proof.Machine.execActivationPauseStart t s
  | .activationTakeover t checks => Sys2Proof.Machine.execActivationTakeover t checks s
  | .activationRejoin t => Sys2Proof.Machine.execActivationRejoin t s
  | .activationFailure t step cause => Sys2Proof.Machine.execActivationFailure t step cause s
  | .fwCopyComplete t ok => Sys2Proof.Machine.execFwCopyComplete t ok s
  | .powerTokenLimitEffective t => Sys2Proof.Machine.execPowerTokenLimitEffective t s
  | .rhoUpdate t => Sys2Proof.Machine.execRhoUpdate t s
  | .waMReport t => Sys2Proof.Machine.execWaMReport t s
  | .hotWindowClear t => Sys2Proof.Machine.execHotWindowClear t s
  | .awlScrubTick t found shadowOk => Sys2Proof.Machine.execAwlScrubTick t found shadowOk s
  | .purgePassEnd t => Sys2Proof.Machine.execPurgePassEnd t s
  | .awlPolicyWrite t client value => Sys2Proof.Machine.execAwlPolicyWrite t client value s
  | .awlPolicyDelete t client value => Sys2Proof.Machine.execAwlPolicyDelete t client value s
  | .awlPolicyInsert t client value => Sys2Proof.Machine.execAwlPolicyInsert t client value s
  | .awlPolicyCompact t client value => Sys2Proof.Machine.execAwlPolicyCompact t client value s
  | .awlBankMapWrite t client value => Sys2Proof.Machine.execAwlBankMapWrite t client value s
  | .awlSiteRead t took => Sys2Proof.Machine.execAwlSiteRead t took s
  | .awlSiteWrite t took shadowOk => Sys2Proof.Machine.execAwlSiteWrite t took shadowOk s
  | .awlSiteValidate t took shadowOk => Sys2Proof.Machine.execAwlSiteValidate t took shadowOk s
  | .awlSiteInvalidate t turn => Sys2Proof.Machine.execAwlSiteInvalidate t turn s
  | .awlSiteSearch t took facts => Sys2Proof.Machine.execAwlSiteSearch t took facts s
  | .awlSiteMove t took shadowOk => Sys2Proof.Machine.execAwlSiteMove t took shadowOk s
  | .awlSiteFindHole t took => Sys2Proof.Machine.execAwlSiteFindHole t took s
  | .awlSiteVfailRead t => Sys2Proof.Machine.execAwlSiteVfailRead t s
  | .groupMapWrite t client value => Sys2Proof.Machine.execGroupMapWrite t client value s
  | .epochActivate t => Sys2Proof.Machine.execEpochActivate t s
  | .handoffSend t ns hash => Sys2Proof.Machine.execHandoffSend t ns hash s
  | .handoffResolve t ns hash => Sys2Proof.Machine.execHandoffResolve t ns hash s
  | .memberLost t member => Sys2Proof.Machine.execMemberLost t member s
  | .stripeRepair t stripe index => Sys2Proof.Machine.execStripeRepair t stripe index s
  | .stripeRebalance t stripe index => Sys2Proof.Machine.execStripeRebalance t stripe index s
  | .orphanResolveTimer t stripe index => Sys2Proof.Machine.execOrphanResolveTimer t stripe index s
  | .orphanResolveAnswer t r => Sys2Proof.Machine.execOrphanResolveAnswer t r s
  | .nsDistributeTimeout t sid tag => Sys2Proof.Machine.execNsDistributeTimeout t sid tag s
  | .nsSync t => Sys2Proof.Machine.execNsSync t s
  | .nandZqRecal t temp => Sys2Proof.Machine.execNandZqRecal t temp s
  | .programComplete t stream place => Sys2Proof.Machine.execProgramComplete t stream place s
  | .programFailure t unit => Sys2Proof.Machine.execProgramFailure t unit s
  | .eraseComplete t ds sb => Sys2Proof.Machine.execEraseComplete t ds sb s
  | .eraseFailure t ds sb slot => Sys2Proof.Machine.execEraseFailure t ds sb slot s
  | .dieReadyTimeout t ds slot => Sys2Proof.Machine.execDieReadyTimeout t ds slot s
  | .codewordRead t ds sb cw outcome tagFails => Sys2Proof.Machine.execCodewordRead t ds sb cw outcome tagFails s
  | .sbProgressAppend t ds sb => Sys2Proof.Machine.execSbProgressAppend t ds sb s
  | .dramEccCorrected t addr dev => Sys2Proof.Machine.execDramEccCorrected t addr dev s
  | .dramEccUncorrectable t addr dev region => Sys2Proof.Machine.execDramEccUncorrectable t addr dev region s
  | .dramPatrolScrub t => Sys2Proof.Machine.execDramPatrolScrub t s
  | .holdupFlushEnd t => Sys2Proof.Machine.execHoldupFlushEnd t s
  | .holdupOkDeassert t => Sys2Proof.Machine.execHoldupOkDeassert t s
  | .holdupOkAssert t => Sys2Proof.Machine.execHoldupOkAssert t s
  | .gcVictimSelect t ds => Sys2Proof.Machine.execGcVictimSelect t ds s
  | .superblockErase t ds sb => Sys2Proof.Machine.execSuperblockErase t ds sb s
  | .wearStaticCheck t => Sys2Proof.Machine.execWearStaticCheck t s
  | .effectiveAgeTick t temps => Sys2Proof.Machine.execEffectiveAgeTick t temps s
  | .retentionScan t ds sb worst retries => Sys2Proof.Machine.execRetentionScan t ds sb worst retries s
  | .slcFold t => Sys2Proof.Machine.execSlcFold t s
  | .checkpointStart t => Sys2Proof.Machine.execCheckpointStart t s
  | .checkpointEnd t => Sys2Proof.Machine.execCheckpointEnd t s
  | .recoveryComplete t r => Sys2Proof.Machine.execRecoveryComplete t r s
  | .keyDerivationComplete t slot => Sys2Proof.Machine.execKeyDerivationComplete t slot s
  | .secretEraseComplete t => Sys2Proof.Machine.execSecretEraseComplete t s
  | .class1Alarm t src users => Sys2Proof.Machine.execClass1Alarm t src users s
  | .class2Alarm t src flushUs => Sys2Proof.Machine.execClass2Alarm t src flushUs s
  | .tamper t input level cycles => Sys2Proof.Machine.execTamper t input level cycles s
  | .portSettingWrite t client port sub value => Sys2Proof.Machine.execPortSettingWrite t client port sub value s
  | .trainingTimeout t port mode lane => Sys2Proof.Machine.execTrainingTimeout t port mode lane s
  | .trainingComplete t port mode fec => Sys2Proof.Machine.execTrainingComplete t port mode fec s
  | .linkUpHoldEnd t port => Sys2Proof.Machine.execLinkUpHoldEnd t port s
  | .linkDown t port cause => Sys2Proof.Machine.execLinkDown t port cause s
  | .neighbourFrame t port f => Sys2Proof.Machine.execNeighbourFrame t port f s
  | .icmpPtb t port len => Sys2Proof.Machine.execIcmpPtb t port len s
  | .filteredFrame t port f => Sys2Proof.Machine.execFilteredFrame t port f s
  | .diagCaptureFrame t port f => Sys2Proof.Machine.execDiagCaptureFrame t port f s
  | .diagEchoFrame t port f => Sys2Proof.Machine.execDiagEchoFrame t port f s
  | .diagCaptureRelease t client seq => Sys2Proof.Machine.execDiagCaptureRelease t client seq s
  | .pauseFrame t port f => Sys2Proof.Machine.execPauseFrame t port f s
  | .pauseTxRepeat t port used => Sys2Proof.Machine.execPauseTxRepeat t port used s
  | .pauseWatchdogTrip t port => Sys2Proof.Machine.execPauseWatchdogTrip t port s
  | .pauseIgnoreEnd t port => Sys2Proof.Machine.execPauseIgnoreEnd t port s
  | .preemptVerifyResponse t port => Sys2Proof.Machine.execPreemptVerifyResponse t port s
  | .preemptVerifyFail t port => Sys2Proof.Machine.execPreemptVerifyFail t port s
  | .ptpMessage t port m => Sys2Proof.Machine.execPtpMessage t port m s
  | .ptpLossTimeout t => Sys2Proof.Machine.execPtpLossTimeout t s
  | .usdoExpeditedUpload t node index sub => Sys2Proof.Machine.execUsdoExpeditedUpload t node index sub s
  | .usdoExpeditedDownload t node index sub bytes => Sys2Proof.Machine.execUsdoExpeditedDownload t node index sub bytes s
  | .usdoSegmentedUploadInit t node index sub => Sys2Proof.Machine.execUsdoSegmentedUploadInit t node index sub s
  | .usdoUploadSegment t node => Sys2Proof.Machine.execUsdoUploadSegment t node s
  | .usdoSegmentedDownloadInit t node index sub total bytes => Sys2Proof.Machine.execUsdoSegmentedDownloadInit t node index sub total bytes s
  | .usdoDownloadSegment t node bytes last => Sys2Proof.Machine.execUsdoDownloadSegment t node bytes last s
  | .usdoAbort t node => Sys2Proof.Machine.execUsdoAbort t node s
  | .usdoTimeout t node => Sys2Proof.Machine.execUsdoTimeout t node s
  | .nodeIdClaim t serial newId => Sys2Proof.Machine.execNodeIdClaim t serial newId s
  | .nodeIdEmcyRetry t => Sys2Proof.Machine.execNodeIdEmcyRetry t s
  | .nmtStartRemoteNode t node => Sys2Proof.Machine.execNmtStartRemoteNode t node s
  | .nmtStopRemoteNode t node => Sys2Proof.Machine.execNmtStopRemoteNode t node s
  | .nmtEnterPreOperational t node => Sys2Proof.Machine.execNmtEnterPreOperational t node s
  | .nmtResetNode t node => Sys2Proof.Machine.execNmtResetNode t node s
  | .nmtResetCommunication t node => Sys2Proof.Machine.execNmtResetCommunication t node s
  | .timeFrame t cobid ms days => Sys2Proof.Machine.execTimeFrame t cobid ms days s
  | .wakeFrame t => Sys2Proof.Machine.execWakeFrame t s
  | .canWakeDominant t durNs takes => Sys2Proof.Machine.execCanWakeDominant t durNs takes s
  | .wakeIdleTimeout t => Sys2Proof.Machine.execWakeIdleTimeout t s
  | .heartbeat t => Sys2Proof.Machine.execHeartbeat t s
  | .emcySend t => Sys2Proof.Machine.execEmcySend t s
  | .canBusOffRecovery t => Sys2Proof.Machine.execCanBusOffRecovery t s
  | .canErrorPassive t => Sys2Proof.Machine.execCanErrorPassive t s
  | .dictEntryWrite t client index sub bytes => Sys2Proof.Machine.execDictEntryWrite t client index sub bytes s
  | .storeAll t client value => Sys2Proof.Machine.execStoreAll t client value s
  | .restoreGroup t client sub value => Sys2Proof.Machine.execRestoreGroup t client sub value s
  | .pskEntryWrite t client bytes => Sys2Proof.Machine.execPskEntryWrite t client bytes s
  | .pskIdentityDelete t client bytes => Sys2Proof.Machine.execPskIdentityDelete t client bytes s
  | .powerTokensWrite t client value => Sys2Proof.Machine.execPowerTokensWrite t client value s
  | .powerTokenLimitWrite t client value => Sys2Proof.Machine.execPowerTokenLimitWrite t client value s
  | .lifeCycleProvision t client bytes => Sys2Proof.Machine.execLifeCycleProvision t client bytes s
  | .lifeCycleDeploy t client bytes => Sys2Proof.Machine.execLifeCycleDeploy t client bytes s
  | .lifeCycleReturn t client bytes => Sys2Proof.Machine.execLifeCycleReturn t client bytes s
  | .lifeCycleRetire t client bytes => Sys2Proof.Machine.execLifeCycleRetire t client bytes s
  | .otpSettingsWrite t client bytes progOk => Sys2Proof.Machine.execOtpSettingsWrite t client bytes progOk s
  | .tamperClear t client value => Sys2Proof.Machine.execTamperClear t client value s
  | .eventRateLimitWrite t client bytes => Sys2Proof.Machine.execEventRateLimitWrite t client bytes s
  | .eventSnapshotFromWrite t client slot value => Sys2Proof.Machine.execEventSnapshotFromWrite t client slot value s
  | .snapshotExpiry t slot => Sys2Proof.Machine.execSnapshotExpiry t slot s
  | .siteMessageWrite t client bytes => Sys2Proof.Machine.execSiteMessageWrite t client bytes s
  | .pwrGoodCoreRise t b => Sys2Proof.Machine.execPwrGoodCoreRise t b s
  | .pwrGoodCoreFall t => Sys2Proof.Machine.execPwrGoodCoreFall t s
  | .pwrGoodTimeout t => Sys2Proof.Machine.execPwrGoodTimeout t s
  | .pfailNLow t durNs => Sys2Proof.Machine.execPfailNLow t durNs s
  | .postFlushReassert t => Sys2Proof.Machine.execPostFlushReassert t s
  | .warmRstNLow t durNs => Sys2Proof.Machine.execWarmRstNLow t durNs s
  | .porNLow t durNs => Sys2Proof.Machine.execPorNLow t durNs s
  | .vstbyApply t => Sys2Proof.Machine.execVstbyApply t s
  | .vstbyLoss t => Sys2Proof.Machine.execVstbyLoss t s
  | .lull1Entry t => Sys2Proof.Machine.execLull1Entry t s
  | .lull2Entry t => Sys2Proof.Machine.execLull2Entry t s
  | .lullExit t trigger => Sys2Proof.Machine.execLullExit t trigger s
  | .sweepAutoEnd t => Sys2Proof.Machine.execSweepAutoEnd t s
  | .serveDrainEnd t => Sys2Proof.Machine.execServeDrainEnd t s
  | .thermalSample t temp => Sys2Proof.Machine.execThermalSample t temp s
  | .thermalStep t => Sys2Proof.Machine.execThermalStep t s
  | .wakeAlarm t => Sys2Proof.Machine.execWakeAlarm t s
  | .domainPowerUp t dom => Sys2Proof.Machine.execDomainPowerUp t dom s
  | .dmaQuiesceTimeout t ch dom => Sys2Proof.Machine.execDmaQuiesceTimeout t ch dom s
  | .dmaQuiesceRetry t ch dom bytes => Sys2Proof.Machine.execDmaQuiesceRetry t ch dom bytes s
  | .clockMonitorWindow t src count gap => Sys2Proof.Machine.execClockMonitorWindow t src count gap s
  | .pllLossOfLock t pll => Sys2Proof.Machine.execPllLossOfLock t pll s
  | .pllRelockTimeout t pll => Sys2Proof.Machine.execPllRelockTimeout t pll s
  | .clockSwitchTimeout t dom users => Sys2Proof.Machine.execClockSwitchTimeout t dom users s
  | .gateIdleClose t blk outstanding => Sys2Proof.Machine.execGateIdleClose t blk outstanding s
  | .gateDeferralTimeout t blk => Sys2Proof.Machine.execGateDeferralTimeout t blk s
  | .gateReopen t blk => Sys2Proof.Machine.execGateReopen t blk s
  | .fmcStart t => Sys2Proof.Machine.execFmcStart t s
  | .fmcStop t count => Sys2Proof.Machine.execFmcStop t count s
  | .fmcWindowEnd t count => Sys2Proof.Machine.execFmcWindowEnd t count s
  | .dmaDoorbell t ch => Sys2Proof.Machine.execDmaDoorbell t ch s
  | .dmaTimerTrigger t ch => Sys2Proof.Machine.execDmaTimerTrigger t ch s
  | .dmaEnable t ch value => Sys2Proof.Machine.execDmaEnable t ch value s
  | .dmaRingRegWrite t ch reg value => Sys2Proof.Machine.execDmaRingRegWrite t ch reg value s
  | .dmaDisable t ch bytes => Sys2Proof.Machine.execDmaDisable t ch bytes s
  | .dmaDescriptorComplete t ch => Sys2Proof.Machine.execDmaDescriptorComplete t ch s
  | .dmaBusError t ch addr bytes fetch => Sys2Proof.Machine.execDmaBusError t ch addr bytes fetch s
  | .eventBatchAppend t => Sys2Proof.Machine.execEventBatchAppend t s
  | .operatingSecondsSave t => Sys2Proof.Machine.execOperatingSecondsSave t s
  | .evrFetch t => Sys2Proof.Machine.execEvrFetch t s
  | .evrPost t => Sys2Proof.Machine.execEvrPost t s
  | .evrNextSeqRead t => Sys2Proof.Machine.execEvrNextSeqRead t s
  | .tmrNowRead t => Sys2Proof.Machine.execTmrNowRead t s
  | .tmrCmpWrite t n hi value => Sys2Proof.Machine.execTmrCmpWrite t n hi value s
  | .timerComparatorFire t n => Sys2Proof.Machine.execTimerComparatorFire t n s
  | .tmrWdogKick t => Sys2Proof.Machine.execTmrWdogKick t s
  | .siteWatchdogExpiry t bytes => Sys2Proof.Machine.execSiteWatchdogExpiry t bytes s
  | .siteAccessFault t core addr width => Sys2Proof.Machine.execSiteAccessFault t core addr width s
  | .mbxS2cProdWrite t value => Sys2Proof.Machine.execMbxS2cProdWrite t value s
  | .mbxC2sConsWrite t value => Sys2Proof.Machine.execMbxC2sConsWrite t value s
  | .mbxDictRead t => Sys2Proof.Machine.execMbxDictRead t s
  | .mbxSiteReport t => Sys2Proof.Machine.execMbxSiteReport t s
  | .mbxC2sFullTimeout t => Sys2Proof.Machine.execMbxC2sFullTimeout t s
  | .laceForward t => Sys2Proof.Machine.execLaceForward t s
  | .laceSkipTimeout t => Sys2Proof.Machine.execLaceSkipTimeout t s
  | .smbusPoll t results => Sys2Proof.Machine.execSmbusPoll t results s
  | .registerWrite t addr value => Sys2Proof.Machine.execRegisterWrite t addr value s
  | .peerSessionAccept t a => Sys2Proof.Machine.execPeerSessionAccept t a s
  | .peerGrant t rx tag inc windows => Sys2Proof.Machine.execPeerGrant t rx tag inc windows s
  | .peerData t rx tag inc off payload last => Sys2Proof.Machine.execPeerData t rx tag inc off payload last s
  | .fragGetReply t r => Sys2Proof.Machine.execFragGetReply t r s
  | .fragReleaseReply t r => Sys2Proof.Machine.execFragReleaseReply t r s
  | .stripeCommitReply t r => Sys2Proof.Machine.execStripeCommitReply t r s
  | .rebuildQueryReply t r => Sys2Proof.Machine.execRebuildQueryReply t r s
  | .laceReply t r => Sys2Proof.Machine.execLaceReply t r s
  | .fragFetchTimeout t sid tag index => Sys2Proof.Machine.execFragFetchTimeout t sid tag index s
  | .handoffPullTimeout t sid tag => Sys2Proof.Machine.execHandoffPullTimeout t sid tag s
  | .handoffFallbackTimeout t ns hash => Sys2Proof.Machine.execHandoffFallbackTimeout t ns hash s
  | .pauseTimeExpiry t port prio => Sys2Proof.Machine.execPauseTimeExpiry t port prio s
  | .canErrorPassiveEnd t => Sys2Proof.Machine.execCanErrorPassiveEnd t s
  | .porNRise t => Sys2Proof.Machine.execPorNRise t s
  | .warmRstNRise t => Sys2Proof.Machine.execWarmRstNRise t s
  | .xtal32kStable t => Sys2Proof.Machine.execXtal32kStable t s
  | .pllLock t pll => Sys2Proof.Machine.execPllLock t pll s
  | .haltDrainTimeout t => Sys2Proof.Machine.execHaltDrainTimeout t s
  | .settingsStoreComplete t => Sys2Proof.Machine.execSettingsStoreComplete t s
  | .efficiencyWindowEnd t w => Sys2Proof.Machine.execEfficiencyWindowEnd t w s
  | .ptpPpsEdge t rise => Sys2Proof.Machine.execPtpPpsEdge t rise s

end Sys2Proof.Machine
end

