-- ==== Sys2Proof/Safety.lean ====
section
/-! DEFINITION. What counts as a safe run: no command stops the block, the queue is served first in, first out, and memory
keeps its canonical form. -/

namespace Sys2Proof.Machine

/-- A step ends in a next state. -/
def Completes (s : State) : Prop := ∃ s', step s = .next s'

/-- The invariant that every step keeps: memory is in canonical form. -/
def Inv (s : State) : Prop := Memory.wf s.mem = true

/-- A step from `s` is safe: it completes, takes exactly the command at the front of the queue, and keeps the invariant. -/
def SafeStep (s : State) : Prop := ∃ s', step s = .next s' ∧ s'.pending = s.pending.tail ∧ (Inv s → Inv s')

/-- A dictionary write passes the checks made before its value is looked at: existence, rights, mode and length (12 R346). -/
def State.writePasses (s : State) (c : Client) (k : Nat) (b : Bytes) : Bool :=
  match dictRow? k with
  | some r => s.writeGuard c r b == 0
  | none => false

/-- A CMD's number is taken and its tag entered in the session's table (03 R70, R71). -/
def State.seqTaken (s : State) (x : Session) (rx : Rx) (p : CmdPkt) : State :=
  let s := s.setSession { x with nextSeq := (x.nextSeq + 1) % 2 ^ 32, lastCmd := s.now }
  let rest := (x.tags.filter (·.tag != p.tag)).map fun (g : TagRec) =>
    if g.byReset = some p.tag then { g with released := true, byReset := none } else g
  let g : TagRec := { tag := p.tag, inc := p.inc, seq := p.seq, ended := false, released := false, byReset := none }
  s.onSession rx.sid fun x => { x with tags := rest ++ [g] }

/-- A command that passed every check stands among the commands in flight, undecided (04 R98, 05 R135). -/
def State.joined (s : State) (rx : Rx) (p : CmdPkt) (plan : Plan) (hot : Option Nat) : State × CmdCtx :=
  let c : CmdCtx := { sid := rx.sid, pkt := p, path := rx.path, plan := plan, st := .undecided, ta := 0, bound := 0, deadline := 0, pos := 0,
                      epoch := s.epoch, size := 0, hot := hot.isSome, arrivedAt := s.now, ordered := p.ordered && p.opcode != 0x60 }
  let s := { s with kv := { s.kv with cmds := s.kv.cmds ++ [c] } }
  (s.confirmHot p hot, c)

/-- A command carries what its decision gave it (05 R127, R134). -/
def State.decided (s : State) (c : CmdCtx) (bound deadline critical size : Nat) : CmdCtx :=
  { s.withCovers c with ta := s.ptp, arrivedAt := s.now, bound := bound, deadline := deadline, critical := critical, size := size,
                        epoch := s.epoch, withAct := s.shank.actPending }

/-- An admitted command has taken its position; it starts now unless ORDERED or an execution pause holds it (02 R36, R39, 15 R435). -/
def State.positioned (s : State) (c : CmdCtx) : State × CmdCtx :=
  let s := s.setCmd c
  let w := c.write.map fun w => { w with reservedObject := putOp c.pkt.opcode && !s.liveNow c w }
  let c := { c with st := .waiting, pos := s.kv.nextPos, ordered := c.ordered && !(s.earlierInSession c).isEmpty, paused := s.paused, write := w }
  ((({ s with kv := { s.kv with nextPos := s.kv.nextPos + 1 } } : State).setCmd c).bump K.admittedCount, c)

/-- How the arrival of a CMD ends: held CMDs whose turn has come follow, commands that can go on do, LULL ends, an ACK that is
due goes, and a session out of packet numbers closes (03 R63, R64, R70, 13 R373). -/
def State.arrivalEnds (s : State) (x : Session) (rx : Rx) : State :=
  (((((State.drainHeld (x.held.length + 1) s rx.sid).settle).wakeLull).ackIfDue rx).checkPns)

end Sys2Proof.Machine
end

