-- ==== Sys2Proof/WellFormed.lean ====
section
/-! DEFINITION. Commands whose operands fit the fields that carry them on the wire, the bus or a register, and name objects
the part has (03 R59, Tables 3.6 to 3.14; 04 Table 4.1; 07 R206; 12 R353 to R363; 14 R399 to R406). A command that does not
fit cannot be sent; the machine gives every command a meaning all the same. -/

namespace Sys2Proof
open Machine

/-- A number lies below a bound. -/
def below (v n : Nat) : Bool := decide (v < n)

/-- An address with its UDP port, as one number (`Rx`). -/
def addrFits (a : Nat) : Bool := decide (a < 2 ^ 145)

/-- The fields of a StripeId (R206). -/
def Machine.StripeId.fits (i : StripeId) : Bool := below i.home 65536 && below i.boot (2 ^ 32) && below i.serial (2 ^ 64)

/-- How a packet came in: one of four paths, a packet number of 64 bits. -/
def Machine.Rx.fits (r : Rx) : Bool := below r.path 4 && below r.pn (2 ^ 64) && addrFits r.addr

/-- The fields of a CMD (Table 3.10). -/
def Machine.CmdPkt.fits (p : CmdPkt) : Bool :=
  below p.opcode 256 && below p.flags 256 && below p.tag 65536 && below p.cls 4 && below p.inc 16 && below p.ns 65536 &&
    below p.gen (2 ^ 32) && below p.seq (2 ^ 32) && below p.keyLen 65536 && below p.paramLen 65536 && below p.valueLen (2 ^ 64)

/-- The fields of an ACK (Table 3.6). -/
def Machine.AckPkt.fits (a : AckPkt) : Bool :=
  below a.largest (2 ^ 64) && below a.delayUs (2 ^ 32) && below a.credit (2 ^ 32) && below a.ranges.length 256 &&
    below a.releases.length 256

/-- The fields of a NAK (Table 3.7). -/
def Machine.NakPkt.fits (n : NakPkt) : Bool := below n.reason 256 && below (n.gaps.length + n.tags.length) 256

/-- The fields of a RESP (Table 3.11). -/
def Machine.PeerReply.fits (r : PeerReply) : Bool :=
  r.rx.fits && below r.opcode 256 && below r.status 256 && below r.tag 65536 && below r.inc 16 && below r.body.length 65536

/-- A UDP or TCP destination port, where one is named. -/
def portFits (p : Option Nat) : Bool := p.all fun n => below n 65536

/-- A TLS client hello: code points of 16 bits, PSK modes of 8 (RFC 8446). -/
def Machine.TlsHello.fits (h : TlsHello) : Bool :=
  addrFits h.addr && portFits h.dst && (h.suites ++ h.groups).all (fun n => below n 65536) && h.modes.all fun n => below n 256

/-- The facts of a frame: a destination of 6 bytes, a TCI and an EtherType of 16 bits, a protocol of 8 with its port or type, and no
IP destination or one of 4 or 16 bytes. -/
def Machine.FrameFacts.fits (f : FrameFacts) : Bool :=
  f.dst.length == 6 && f.tci.all (fun t => below t 65536) && below f.etherType 65536 &&
    f.l4.all (fun x => below x.1 256 && below x.2 65536) && decide (f.ipDst.length ∈ [0, 4, 16])

/-- A pause frame: times of 16 bits, for the port or for priorities below 8 (R330). -/
def Machine.PauseFrame.fits (f : PauseFrame) : Bool := f.times.all fun x => below x.2 65536 && (if f.pfc then below x.1 8 else x.1 == 8)

/-- A command's operands fit. -/
def Instr.wf : Instr → Bool
  | .hello _ h => addrFits h.addr && portFits h.dst
  | .halfOpenTimeout _ _ => true
  | .sessionLossTimeout _ _ => true
  | .idleTimeout _ _ => true
  | .closingTimeout _ _ => true
  | .close _ rx reason detail => rx.fits && below reason 256 && below detail (2 ^ 32)
  | .ack _ rx a => rx.fits && a.fits
  | .ackDelayExpiry _ _ => true
  | .nak _ rx n => rx.fits && n.fits
  | .ptoExpiry _ _ path => below path 4
  | .congestionUpdate _ _ path => below path 4
  | .cmdSeqHold _ rx pkt _ => rx.fits && pkt.fits
  | .data _ rx tag inc off _ => rx.fits && below tag 65536 && below inc 16 && below off (2 ^ 32)
  | .windowDrain _ _ tag => below tag 65536
  | .dataIdleTimeout _ _ tag => below tag 65536
  | .grantWindow _ _ tag _ => below tag 65536
  | .readDataSend _ _ tag => below tag 65536
  | .keepaliveProbe _ rx stamp => rx.fits && below stamp (2 ^ 64)
  | .keepaliveEcho _ rx stamp => rx.fits && below stamp (2 ^ 64)
  | .keepaliveInterval _ _ path => below path 4
  | .pathDeadTimeout _ _ path => below path 4
  | .tlsHandshake _ h => h.fits
  | .v1ConnectionClose _ _ => true
  | .get _ rx pkt _ => rx.fits && pkt.fits
  | .getRange _ rx pkt _ => rx.fits && pkt.fits
  | .stat _ rx pkt _ => rx.fits && pkt.fits
  | .list _ rx pkt _ => rx.fits && pkt.fits
  | .put _ rx pkt _ => rx.fits && pkt.fits
  | .putIf _ rx pkt _ => rx.fits && pkt.fits
  | .delete _ rx pkt _ => rx.fits && pkt.fits
  | .deleteIf _ rx pkt _ => rx.fits && pkt.fits
  | .flush _ rx pkt _ => rx.fits && pkt.fits
  | .flushEnd _ _ tag => below tag 65536
  | .nsCreate _ rx pkt _ => rx.fits && pkt.fits
  | .nsDelete _ rx pkt _ => rx.fits && pkt.fits
  | .nsQuery _ rx pkt _ => rx.fits && pkt.fits
  | .dictRead _ rx pkt _ => rx.fits && pkt.fits
  | .dictWrite _ rx pkt _ => rx.fits && pkt.fits
  | .fwSegment _ rx pkt _ => rx.fits && pkt.fits
  | .fwActivate _ rx pkt _ => rx.fits && pkt.fits
  | .sessionReset _ rx pkt _ => rx.fits && pkt.fits
  | .fragReserve _ rx pkt _ => rx.fits && pkt.fits
  | .fragPut _ rx pkt _ => rx.fits && pkt.fits
  | .fragGet _ rx pkt _ => rx.fits && pkt.fits
  | .fragRelease _ rx pkt _ => rx.fits && pkt.fits
  | .stripeCommitCommit _ rx pkt _ => rx.fits && pkt.fits
  | .stripeCommitHolders _ rx pkt _ => rx.fits && pkt.fits
  | .stripeCommitHandoff _ rx pkt _ => rx.fits && pkt.fits
  | .stripeCommitHandoffDone _ rx pkt _ => rx.fits && pkt.fits
  | .stripeCommitHandoffPending _ rx pkt _ => rx.fits && pkt.fits
  | .stripeCommitNsCreate _ rx pkt _ => rx.fits && pkt.fits
  | .stripeCommitNsDelete _ rx pkt _ => rx.fits && pkt.fits
  | .rebuildQueryHoldings _ rx pkt _ => rx.fits && pkt.fits
  | .rebuildQueryResolve _ rx pkt _ => rx.fits && pkt.fits
  | .rebuildQueryKeyState _ rx pkt _ => rx.fits && pkt.fits
  | .rebuildQueryNamespaces _ rx pkt _ => rx.fits && pkt.fits
  | .fragReserveReply _ r => r.fits
  | .phaseOneTimeout _ _ tag => below tag 65536
  | .fragPutReply _ r => r.fits
  | .writeCommit _ _ tag => below tag 65536
  | .holderFailTimeout _ _ tag member => below tag 65536 && below member 65535
  | .releaseAckWaitEnd _ _ tag => below tag 65536
  | .messageRepeat _ _ => true
  | .readTurn _ _ tag => below tag 65536
  | .orderedStart _ _ tag => below tag 65536
  | .supersededRelease _ stripe => stripe.fits
  | .promiseBroken _ _ tag => below tag 65536
  | .activationPauseStart _ => true
  | .activationTakeover _ _ => true
  | .activationRejoin _ => true
  | .activationFailure _ _ _ => true
  | .fwCopyComplete _ _ => true
  | .powerTokenLimitEffective _ => true
  | .rhoUpdate _ => true
  | .waMReport _ => true
  | .hotWindowClear _ => true
  | .awlScrubTick _ _ _ => true
  | .purgePassEnd _ => true
  | .awlPolicyWrite _ _ _ => true
  | .awlPolicyDelete _ _ _ => true
  | .awlPolicyInsert _ _ _ => true
  | .awlPolicyCompact _ _ _ => true
  | .awlBankMapWrite _ _ value => below value (2 ^ 32)
  | .awlSiteRead _ _ => true
  | .awlSiteWrite _ _ _ => true
  | .awlSiteValidate _ _ _ => true
  | .awlSiteInvalidate _ _ => true
  | .awlSiteSearch _ _ _ => true
  | .awlSiteMove _ _ _ => true
  | .awlSiteFindHole _ _ => true
  | .awlSiteVfailRead _ => true
  | .groupMapWrite _ _ _ => true
  | .epochActivate _ => true
  | .handoffSend _ ns hash => below ns 4096 && below hash (2 ^ 64)
  | .handoffResolve _ ns hash => below ns 4096 && below hash (2 ^ 64)
  | .memberLost _ member => below member 65535
  | .stripeRepair _ stripe index => stripe.fits && below index 256
  | .stripeRebalance _ stripe index => stripe.fits && below index 256
  | .orphanResolveTimer _ stripe index => stripe.fits && below index 256
  | .orphanResolveAnswer _ r => r.fits
  | .nsDistributeTimeout _ _ tag => below tag 65536
  | .nsSync _ => true
  | .nandZqRecal _ _ => true
  | .programComplete _ _ place => below place.slot 256
  | .programFailure _ unit => below unit.slot 256
  | .eraseComplete _ _ _ => true
  | .eraseFailure _ _ _ slot => below slot 256
  | .dieReadyTimeout _ _ slot => below slot 256
  | .codewordRead _ _ sb cw _ _ => below sb 8192 && below cw (2 ^ 21)
  | .sbProgressAppend _ _ _ => true
  | .dramEccCorrected _ _ _ => true
  | .dramEccUncorrectable _ _ _ _ => true
  | .dramPatrolScrub _ => true
  | .holdupFlushEnd _ => true
  | .holdupOkDeassert _ => true
  | .holdupOkAssert _ => true
  | .gcVictimSelect _ _ => true
  | .superblockErase _ _ _ => true
  | .wearStaticCheck _ => true
  | .effectiveAgeTick _ _ => true
  | .retentionScan _ _ _ _ _ => true
  | .slcFold _ => true
  | .checkpointStart _ => true
  | .checkpointEnd _ => true
  | .recoveryComplete _ _ => true
  | .keyDerivationComplete _ slot => below slot 256
  | .secretEraseComplete _ => true
  | .class1Alarm _ _ _ => true
  | .class2Alarm _ _ _ => true
  | .tamper _ _ _ _ => true
  | .portSettingWrite _ _ _ sub _ => below sub 256
  | .trainingTimeout _ _ mode lane => below mode 12 && below lane 4
  | .trainingComplete _ _ mode fec => below mode 12 && below fec 5
  | .linkUpHoldEnd _ _ => true
  | .linkDown _ _ _ => true
  | .neighbourFrame _ _ f => decide (1 ≤ f.kind) && below f.kind 5
  | .icmpPtb _ _ _ => true
  | .filteredFrame _ _ f => f.fits
  | .diagCaptureFrame _ _ f => f.facts.fits
  | .diagEchoFrame _ _ f => f.facts.fits
  | .diagCaptureRelease _ _ seq => below seq (2 ^ 32)
  | .pauseFrame _ _ f => f.fits
  | .pauseTxRepeat _ _ _ => true
  | .pauseWatchdogTrip _ _ => true
  | .pauseIgnoreEnd _ _ => true
  | .preemptVerifyResponse _ _ => true
  | .preemptVerifyFail _ _ => true
  | .ptpMessage _ _ m => below m.domain 256 && below m.transport 3
  | .ptpLossTimeout _ => true
  | .usdoExpeditedUpload _ node index sub => decide (1 ≤ node) && below node 128 && below index 65536 && below sub 256
  | .usdoExpeditedDownload _ node index sub _ => decide (1 ≤ node) && below node 128 && below index 65536 && below sub 256
  | .usdoSegmentedUploadInit _ node index sub => decide (1 ≤ node) && below node 128 && below index 65536 && below sub 256
  | .usdoUploadSegment _ node => decide (1 ≤ node) && below node 128
  | .usdoSegmentedDownloadInit _ node index sub total _ => decide (1 ≤ node) && below node 128 && below index 65536 && below sub 256 && below total (2 ^ 32)
  | .usdoDownloadSegment _ node _ _ => decide (1 ≤ node) && below node 128
  | .usdoAbort _ node => decide (1 ≤ node) && below node 128
  | .usdoTimeout _ node => decide (1 ≤ node) && below node 128
  | .nodeIdClaim _ serial newId => below serial (2 ^ 32) && below newId 256
  | .nodeIdEmcyRetry _ => true
  | .nmtStartRemoteNode _ node => below node 128
  | .nmtStopRemoteNode _ node => below node 128
  | .nmtEnterPreOperational _ node => below node 128
  | .nmtResetNode _ node => below node 128
  | .nmtResetCommunication _ node => below node 128
  | .timeFrame _ cobid ms days => below cobid 2048 && below ms (2 ^ 28) && below days 65536
  | .wakeFrame _ => true
  | .canWakeDominant _ _ _ => true
  | .wakeIdleTimeout _ => true
  | .heartbeat _ => true
  | .emcySend _ => true
  | .canBusOffRecovery _ => true
  | .canErrorPassive _ => true
  | .dictEntryWrite _ _ index sub _ => below index 65536 && below sub 256
  | .storeAll _ _ value => below value (2 ^ 32)
  | .restoreGroup _ _ sub value => below sub 256 && below value (2 ^ 32)
  | .pskEntryWrite _ _ _ => true
  | .pskIdentityDelete _ _ _ => true
  | .powerTokensWrite _ _ value => below value 65536
  | .powerTokenLimitWrite _ _ value => below value 65536
  | .lifeCycleProvision _ _ _ => true
  | .lifeCycleDeploy _ _ _ => true
  | .lifeCycleReturn _ _ _ => true
  | .lifeCycleRetire _ _ _ => true
  | .otpSettingsWrite _ _ _ _ => true
  | .tamperClear _ _ value => below value 256
  | .eventRateLimitWrite _ _ _ => true
  | .eventSnapshotFromWrite _ _ slot value => decide (1 ≤ slot ∧ slot ≤ 4) && below value (2 ^ 64)
  | .snapshotExpiry _ slot => decide (1 ≤ slot ∧ slot ≤ 4)
  | .siteMessageWrite _ _ _ => true
  | .pwrGoodCoreRise _ b => below b.bootMode 4
  | .pwrGoodCoreFall _ => true
  | .pwrGoodTimeout _ => true
  | .pfailNLow _ _ => true
  | .postFlushReassert _ => true
  | .warmRstNLow _ _ => true
  | .porNLow _ _ => true
  | .vstbyApply _ => true
  | .vstbyLoss _ => true
  | .lull1Entry _ => true
  | .lull2Entry _ => true
  | .lullExit _ _ => true
  | .sweepAutoEnd _ => true
  | .serveDrainEnd _ => true
  | .thermalSample _ _ => true
  | .thermalStep _ => true
  | .wakeAlarm _ => true
  | .domainPowerUp _ _ => true
  | .dmaQuiesceTimeout _ ch _ => below ch 16
  | .dmaQuiesceRetry _ ch _ _ => below ch 16
  | .clockMonitorWindow _ _ _ _ => true
  | .pllLossOfLock _ _ => true
  | .pllRelockTimeout _ _ => true
  | .clockSwitchTimeout _ _ _ => true
  | .gateIdleClose _ _ _ => true
  | .gateDeferralTimeout _ _ => true
  | .gateReopen _ _ => true
  | .fmcStart _ => true
  | .fmcStop _ _ => true
  | .fmcWindowEnd _ _ => true
  | .dmaDoorbell _ ch => below ch 16
  | .dmaTimerTrigger _ ch => below ch 16
  | .dmaEnable _ ch value => below ch 16 && below value (2 ^ 32)
  | .dmaRingRegWrite _ ch reg value => below ch 16 && decide (reg = 0x08 ∨ reg = 0x0C ∨ reg = 0x10) && below value (2 ^ 32)
  | .dmaDisable _ ch _ => below ch 16
  | .dmaDescriptorComplete _ ch => below ch 16
  | .dmaBusError _ ch addr _ _ => below ch 16 && below addr (2 ^ 64)
  | .eventBatchAppend _ => true
  | .operatingSecondsSave _ => true
  | .evrFetch _ => true
  | .evrPost _ => true
  | .evrNextSeqRead _ => true
  | .tmrNowRead _ => true
  | .tmrCmpWrite _ n _ value => below n 4 && below value (2 ^ 32)
  | .timerComparatorFire _ n => below n 4
  | .tmrWdogKick _ => true
  | .siteWatchdogExpiry _ _ => true
  | .siteAccessFault _ core addr width => decide (core = 6 ∨ core = 7) && below addr (2 ^ 64) && decide (width = 8 ∨ width = 16 ∨ width = 32 ∨ width = 64)
  | .mbxS2cProdWrite _ value => below value (2 ^ 32)
  | .mbxC2sConsWrite _ value => below value (2 ^ 32)
  | .mbxDictRead _ => true
  | .mbxSiteReport _ => true
  | .mbxC2sFullTimeout _ => true
  | .laceForward _ => true
  | .laceSkipTimeout _ => true
  | .smbusPoll _ _ => true
  | .registerWrite _ addr value => below addr (2 ^ 64) && below value (2 ^ 32)
  | .peerSessionAccept _ a => below a.member 65535 && addrFits a.addr
  | .peerGrant _ rx tag inc _ => rx.fits && below tag 65536 && below inc 16
  | .peerData _ rx tag inc off _ _ => rx.fits && below tag 65536 && below inc 16 && below off (2 ^ 32)
  | .fragGetReply _ r => r.fits
  | .fragReleaseReply _ r => r.fits
  | .stripeCommitReply _ r => r.fits
  | .rebuildQueryReply _ r => r.fits
  | .laceReply _ r => r.fits
  | .fragFetchTimeout _ _ tag index => below tag 65536 && below index 256
  | .handoffPullTimeout _ _ tag => below tag 65536
  | .handoffFallbackTimeout _ ns hash => below ns 4096 && below hash (2 ^ 64)
  | .pauseTimeExpiry _ _ prio => below prio 9
  | .canErrorPassiveEnd _ => true
  | .porNRise _ => true
  | .warmRstNRise _ => true
  | .xtal32kStable _ => true
  | .pllLock _ _ => true
  | .haltDrainTimeout _ => true
  | .settingsStoreComplete _ => true
  | .efficiencyWindowEnd _ _ => true
  | .ptpPpsEdge _ _ => true

/-- The time at which a command happens. -/
def Instr.time : Instr → Nat
  | .hello t _ => t
  | .halfOpenTimeout t _ => t
  | .sessionLossTimeout t _ => t
  | .idleTimeout t _ => t
  | .closingTimeout t _ => t
  | .close t _ _ _ => t
  | .ack t _ _ => t
  | .ackDelayExpiry t _ => t
  | .nak t _ _ => t
  | .ptoExpiry t _ _ => t
  | .congestionUpdate t _ _ => t
  | .cmdSeqHold t _ _ _ => t
  | .data t _ _ _ _ _ => t
  | .windowDrain t _ _ => t
  | .dataIdleTimeout t _ _ => t
  | .grantWindow t _ _ _ => t
  | .readDataSend t _ _ => t
  | .keepaliveProbe t _ _ => t
  | .keepaliveEcho t _ _ => t
  | .keepaliveInterval t _ _ => t
  | .pathDeadTimeout t _ _ => t
  | .tlsHandshake t _ => t
  | .v1ConnectionClose t _ => t
  | .get t _ _ _ => t
  | .getRange t _ _ _ => t
  | .stat t _ _ _ => t
  | .list t _ _ _ => t
  | .put t _ _ _ => t
  | .putIf t _ _ _ => t
  | .delete t _ _ _ => t
  | .deleteIf t _ _ _ => t
  | .flush t _ _ _ => t
  | .flushEnd t _ _ => t
  | .nsCreate t _ _ _ => t
  | .nsDelete t _ _ _ => t
  | .nsQuery t _ _ _ => t
  | .dictRead t _ _ _ => t
  | .dictWrite t _ _ _ => t
  | .fwSegment t _ _ _ => t
  | .fwActivate t _ _ _ => t
  | .sessionReset t _ _ _ => t
  | .fragReserve t _ _ _ => t
  | .fragPut t _ _ _ => t
  | .fragGet t _ _ _ => t
  | .fragRelease t _ _ _ => t
  | .stripeCommitCommit t _ _ _ => t
  | .stripeCommitHolders t _ _ _ => t
  | .stripeCommitHandoff t _ _ _ => t
  | .stripeCommitHandoffDone t _ _ _ => t
  | .stripeCommitHandoffPending t _ _ _ => t
  | .stripeCommitNsCreate t _ _ _ => t
  | .stripeCommitNsDelete t _ _ _ => t
  | .rebuildQueryHoldings t _ _ _ => t
  | .rebuildQueryResolve t _ _ _ => t
  | .rebuildQueryKeyState t _ _ _ => t
  | .rebuildQueryNamespaces t _ _ _ => t
  | .fragReserveReply t _ => t
  | .phaseOneTimeout t _ _ => t
  | .fragPutReply t _ => t
  | .writeCommit t _ _ => t
  | .holderFailTimeout t _ _ _ => t
  | .releaseAckWaitEnd t _ _ => t
  | .messageRepeat t _ => t
  | .readTurn t _ _ => t
  | .orderedStart t _ _ => t
  | .supersededRelease t _ => t
  | .promiseBroken t _ _ => t
  | .activationPauseStart t => t
  | .activationTakeover t _ => t
  | .activationRejoin t => t
  | .activationFailure t _ _ => t
  | .fwCopyComplete t _ => t
  | .powerTokenLimitEffective t => t
  | .rhoUpdate t => t
  | .waMReport t => t
  | .hotWindowClear t => t
  | .awlScrubTick t _ _ => t
  | .purgePassEnd t => t
  | .awlPolicyWrite t _ _ => t
  | .awlPolicyDelete t _ _ => t
  | .awlPolicyInsert t _ _ => t
  | .awlPolicyCompact t _ _ => t
  | .awlBankMapWrite t _ _ => t
  | .awlSiteRead t _ => t
  | .awlSiteWrite t _ _ => t
  | .awlSiteValidate t _ _ => t
  | .awlSiteInvalidate t _ => t
  | .awlSiteSearch t _ _ => t
  | .awlSiteMove t _ _ => t
  | .awlSiteFindHole t _ => t
  | .awlSiteVfailRead t => t
  | .groupMapWrite t _ _ => t
  | .epochActivate t => t
  | .handoffSend t _ _ => t
  | .handoffResolve t _ _ => t
  | .memberLost t _ => t
  | .stripeRepair t _ _ => t
  | .stripeRebalance t _ _ => t
  | .orphanResolveTimer t _ _ => t
  | .orphanResolveAnswer t _ => t
  | .nsDistributeTimeout t _ _ => t
  | .nsSync t => t
  | .nandZqRecal t _ => t
  | .programComplete t _ _ => t
  | .programFailure t _ => t
  | .eraseComplete t _ _ => t
  | .eraseFailure t _ _ _ => t
  | .dieReadyTimeout t _ _ => t
  | .codewordRead t _ _ _ _ _ => t
  | .sbProgressAppend t _ _ => t
  | .dramEccCorrected t _ _ => t
  | .dramEccUncorrectable t _ _ _ => t
  | .dramPatrolScrub t => t
  | .holdupFlushEnd t => t
  | .holdupOkDeassert t => t
  | .holdupOkAssert t => t
  | .gcVictimSelect t _ => t
  | .superblockErase t _ _ => t
  | .wearStaticCheck t => t
  | .effectiveAgeTick t _ => t
  | .retentionScan t _ _ _ _ => t
  | .slcFold t => t
  | .checkpointStart t => t
  | .checkpointEnd t => t
  | .recoveryComplete t _ => t
  | .keyDerivationComplete t _ => t
  | .secretEraseComplete t => t
  | .class1Alarm t _ _ => t
  | .class2Alarm t _ _ => t
  | .tamper t _ _ _ => t
  | .portSettingWrite t _ _ _ _ => t
  | .trainingTimeout t _ _ _ => t
  | .trainingComplete t _ _ _ => t
  | .linkUpHoldEnd t _ => t
  | .linkDown t _ _ => t
  | .neighbourFrame t _ _ => t
  | .icmpPtb t _ _ => t
  | .filteredFrame t _ _ => t
  | .diagCaptureFrame t _ _ => t
  | .diagEchoFrame t _ _ => t
  | .diagCaptureRelease t _ _ => t
  | .pauseFrame t _ _ => t
  | .pauseTxRepeat t _ _ => t
  | .pauseWatchdogTrip t _ => t
  | .pauseIgnoreEnd t _ => t
  | .preemptVerifyResponse t _ => t
  | .preemptVerifyFail t _ => t
  | .ptpMessage t _ _ => t
  | .ptpLossTimeout t => t
  | .usdoExpeditedUpload t _ _ _ => t
  | .usdoExpeditedDownload t _ _ _ _ => t
  | .usdoSegmentedUploadInit t _ _ _ => t
  | .usdoUploadSegment t _ => t
  | .usdoSegmentedDownloadInit t _ _ _ _ _ => t
  | .usdoDownloadSegment t _ _ _ => t
  | .usdoAbort t _ => t
  | .usdoTimeout t _ => t
  | .nodeIdClaim t _ _ => t
  | .nodeIdEmcyRetry t => t
  | .nmtStartRemoteNode t _ => t
  | .nmtStopRemoteNode t _ => t
  | .nmtEnterPreOperational t _ => t
  | .nmtResetNode t _ => t
  | .nmtResetCommunication t _ => t
  | .timeFrame t _ _ _ => t
  | .wakeFrame t => t
  | .canWakeDominant t _ _ => t
  | .wakeIdleTimeout t => t
  | .heartbeat t => t
  | .emcySend t => t
  | .canBusOffRecovery t => t
  | .canErrorPassive t => t
  | .dictEntryWrite t _ _ _ _ => t
  | .storeAll t _ _ => t
  | .restoreGroup t _ _ _ => t
  | .pskEntryWrite t _ _ => t
  | .pskIdentityDelete t _ _ => t
  | .powerTokensWrite t _ _ => t
  | .powerTokenLimitWrite t _ _ => t
  | .lifeCycleProvision t _ _ => t
  | .lifeCycleDeploy t _ _ => t
  | .lifeCycleReturn t _ _ => t
  | .lifeCycleRetire t _ _ => t
  | .otpSettingsWrite t _ _ _ => t
  | .tamperClear t _ _ => t
  | .eventRateLimitWrite t _ _ => t
  | .eventSnapshotFromWrite t _ _ _ => t
  | .snapshotExpiry t _ => t
  | .siteMessageWrite t _ _ => t
  | .pwrGoodCoreRise t _ => t
  | .pwrGoodCoreFall t => t
  | .pwrGoodTimeout t => t
  | .pfailNLow t _ => t
  | .postFlushReassert t => t
  | .warmRstNLow t _ => t
  | .porNLow t _ => t
  | .vstbyApply t => t
  | .vstbyLoss t => t
  | .lull1Entry t => t
  | .lull2Entry t => t
  | .lullExit t _ => t
  | .sweepAutoEnd t => t
  | .serveDrainEnd t => t
  | .thermalSample t _ => t
  | .thermalStep t => t
  | .wakeAlarm t => t
  | .domainPowerUp t _ => t
  | .dmaQuiesceTimeout t _ _ => t
  | .dmaQuiesceRetry t _ _ _ => t
  | .clockMonitorWindow t _ _ _ => t
  | .pllLossOfLock t _ => t
  | .pllRelockTimeout t _ => t
  | .clockSwitchTimeout t _ _ => t
  | .gateIdleClose t _ _ => t
  | .gateDeferralTimeout t _ => t
  | .gateReopen t _ => t
  | .fmcStart t => t
  | .fmcStop t _ => t
  | .fmcWindowEnd t _ => t
  | .dmaDoorbell t _ => t
  | .dmaTimerTrigger t _ => t
  | .dmaEnable t _ _ => t
  | .dmaRingRegWrite t _ _ _ => t
  | .dmaDisable t _ _ => t
  | .dmaDescriptorComplete t _ => t
  | .dmaBusError t _ _ _ _ => t
  | .eventBatchAppend t => t
  | .operatingSecondsSave t => t
  | .evrFetch t => t
  | .evrPost t => t
  | .evrNextSeqRead t => t
  | .tmrNowRead t => t
  | .tmrCmpWrite t _ _ _ => t
  | .timerComparatorFire t _ => t
  | .tmrWdogKick t => t
  | .siteWatchdogExpiry t _ => t
  | .siteAccessFault t _ _ _ => t
  | .mbxS2cProdWrite t _ => t
  | .mbxC2sConsWrite t _ => t
  | .mbxDictRead t => t
  | .mbxSiteReport t => t
  | .mbxC2sFullTimeout t => t
  | .laceForward t => t
  | .laceSkipTimeout t => t
  | .smbusPoll t _ => t
  | .registerWrite t _ _ => t
  | .peerSessionAccept t _ => t
  | .peerGrant t _ _ _ _ => t
  | .peerData t _ _ _ _ _ _ => t
  | .fragGetReply t _ => t
  | .fragReleaseReply t _ => t
  | .stripeCommitReply t _ => t
  | .rebuildQueryReply t _ => t
  | .laceReply t _ => t
  | .fragFetchTimeout t _ _ _ => t
  | .handoffPullTimeout t _ _ => t
  | .handoffFallbackTimeout t _ _ => t
  | .pauseTimeExpiry t _ _ => t
  | .canErrorPassiveEnd t => t
  | .porNRise t => t
  | .warmRstNRise t => t
  | .xtal32kStable t => t
  | .pllLock t _ => t
  | .haltDrainTimeout t => t
  | .settingsStoreComplete t => t
  | .efficiencyWindowEnd t _ => t
  | .ptpPpsEdge t _ => t

end Sys2Proof
end

