-- ==== Sys2Proof/Certificates/Slice0/Obligations.lean ====
section
/-! DEFINITION. The statements for the provers. A state hypothesis is put on `a := s.advance t`, the state at the command's own time,
where it may depend on time; `State.goneOn` is what follows a command after which waiting commands may go on. -/

open Sys2Proof Sys2Proof.Machine

/-- A step serves the queue: it runs the command at the front with the queue's rest, and on an empty queue the block idles (the
model's choice, log 1). -/
def Obligations.StepServesQueue : Prop :=
  (∀ (s : State) (c : Instr), step { s with pending := c :: s.pending } = exec c s) ∧ (∀ s : State, s.pending = [] → step s = .next s)

/-- Every command of the table completes from every state: it answers a next state, leaves the waiting queue as it found it,
never sets time back, takes back nothing that has left the part, and draws free values in order. -/
def Obligations.EveryCommandCompletes : Prop :=
  ∀ (i : Instr) (s : State), ∃ u, exec i s = .next u ∧ u.pending = s.pending ∧ s.now ≤ u.now ∧ s.out <+: u.out ∧ s.free ≤ u.free

/-- Every step keeps the invariant: memory stays in its canonical form. -/
def Obligations.InvariantKept : Prop :=
 ∀ s u : State, Inv s → step s = .next u → Inv u

/-- Cells of OTP never lose a bit, whatever the step: identity cells stand, the life-cycle and rollback thermometers only rise,
a revoked seed slot stays revoked, and settings generations are only added. -/
def Obligations.OtpOnlyGains : Prop :=
  ∀ s u : State, step s = .next u →
    u.fw.otp.serial = s.fw.otp.serial ∧ u.fw.otp.macBase = s.fw.otp.macBase ∧ u.fw.otp.noncePrefix = s.fw.otp.noncePrefix ∧
    (∀ i, s.fw.otp.life.testBit i = true → u.fw.otp.life.testBit i = true) ∧ s.fw.otp.rollback ≤ u.fw.otp.rollback ∧
    (∀ i : Nat, s.fw.otp.seeds[i]? = some .revoked → u.fw.otp.seeds[i]? = some .revoked) ∧ s.fw.otp.gens <+: u.fw.otp.gens

/-- The part right after POR_N rises with VSTBY present: DORMANT, its queue, outputs and memory empty, only PD_AON powered,
XTAL32K and WOSC starting, PWR_REQ low, the RTC invalid, every DMA channel DISABLED; the invariant holds. The factory-blank OTP
and flash and the high handshake pins are the model's choice (log 49). -/
def Obligations.ResetMachine : Prop :=
  let s := State.reset
  Inv s ∧ s.pending = [] ∧ s.out = [] ∧ s.mode.mode = .dormant ∧ s.mode.phase = .idle ∧ s.mode.pwrReq = false ∧
    (∀ d, s.domOn d = true ↔ d = .aon) ∧ (∀ x, (s.src x).st = .starting ↔ x = .xtal32k ∨ x = .wosc) ∧ s.clk.rtcInvalid = true ∧
    (∀ n, n < 16 → (s.ch n).st = .disabled ∧ (s.ch n).en = false) ∧ s.evs.numbered = false ∧ s.net.sessions = [] ∧ s.kv.cmds = [] ∧
    s.life = 0 ∧ (∀ a, memGet s.mem a = 0)

/-- ErrorRegister, which a read of 0x1001 answers, holds the bit of every persistent condition that stands, and bit 0 whenever
any other is set; bits 1, 5 and 6 are always 0; a condition that is not persistent sends its EMCY and leaves the register
unchanged. -/
def Obligations.ErrorRegisterBits : Prop :=
  (∀ (s : State) (c : Client), s.modeServes c K.errorRegister false = true →
    (s.dictGet c 0x1001 0).2.2 = .value (beBytes 1 s.errorRegister)) ∧
  (∀ (s : State) (i : Nat), 0 < i → (bitAt s.errorRegister i = true ↔ ∃ c ∈ s.shelf.conds, bitAt (emcyBit c) i = true)) ∧
  (∀ s : State, bitAt s.errorRegister 0 = true ↔ ∃ i, 0 < i ∧ bitAt s.errorRegister i = true) ∧
  (∀ s : State, bitAt s.errorRegister 1 = false ∧ bitAt s.errorRegister 5 = false ∧ bitAt s.errorRegister 6 = false) ∧
  (∀ (s : State) ev fields em, (s.eventEmcy ev fields em false).errorRegister = s.errorRegister ∧
    (s.shelf.queue.length < 16 → ∃ e, (s.eventEmcy ev fields em false).shelf.queue = s.shelf.queue ++ [e] ∧ e.code = em ∧ e.evCode = ev))

/-- A RetentionClass from 8 to 0xFE ends a well-formed PUT or PUT_IF at step 8 with INVALID_FIELD and its FieldOffset. -/
def Obligations.RetentionClassRange : Prop :=
  ∀ (s : State) (x : Session) (rx : Rx) (p : CmdPkt) (f : AwlFacts) (hot : Option Nat), p.shape x.v1 = none →
    (p.opcode = 0x10 → 8 ≤ p.param 0 1 → p.param 0 1 ≤ 0xFE → s.checks x rx p f hot = (s, some (.field 44))) ∧
    (p.opcode = 0x11 → 8 ≤ p.param 8 1 → p.param 8 1 ≤ 0xFE → s.checks x rx p f hot = (s, some (.field 52))) ∧
    (∀ off, s.reject rx.sid rx.path p (.field off) = s.answer rx.sid rx.path p 0x31 (beBytes 2 off ++ zeros 2 ++ zeros 4))

/-- A write's WriteStamp is the greater of the decision time and the key's previous stamp + 1, so that stamps on one key rise
strictly whatever PTP time does. -/
def Obligations.WriteStampsRise : Prop :=
  ∀ (s : State) (p : CmdPkt) (x : Ns) (inst hash : Nat) (cur : Option CommitRec),
    let last := ((s.welt.stamps.find? fun y => y.1 == inst && y.2.1 == hash).map (·.2.2)).getD 0
    let w := s.newWrite p x inst hash cur
    (last = 0 ∨ ∃ y ∈ s.welt.stamps, y = (inst, hash, last)) ∧
    (∀ r, cur = some r → w.stamp = max s.ptp (max last r.stamp + 1) ∧ r.stamp < w.stamp) ∧
    (cur = none → w.stamp = max s.ptp (last + 1)) ∧ last < w.stamp ∧ s.ptp ≤ w.stamp

/-- What the shared operations leave alone: making an event record changes only the recorder, its register's set bits and
counters, and with an EMCY frame the shelf bus's queue; a session's change only sessions; sending a packet only sessions,
counters, the count of ended promises and what has left the part; booking only bookings; a command's change only commands. -/
def Obligations.OperationFrames : Prop :=
  (∀ (s : State) code d fl, let u := (s.eventSeq code d fl).1; u = { s with evs := u.evs, dict := u.dict, sets := u.sets }) ∧
  (∀ (s : State) code f em p, let u := s.eventEmcy code f em p; u = { s with evs := u.evs, dict := u.dict, sets := u.sets, shelf := u.shelf }) ∧
  (∀ (s : State) k n, let u := s.addTo k n; u = { s with dict := { s.dict with vals := u.dict.vals } }) ∧
  (∀ (s : State) x, let u := s.setSession x; u = { s with net := u.net }) ∧
  (∀ (s : State) x q pref r b, let u := s.txOn x q pref r b; u = { s with net := u.net, dict := u.dict, out := u.out, shank := u.shank }) ∧
  (∀ (s : State) sid path r b, let u := s.send sid path r b; u = { s with net := u.net, dict := u.dict, out := u.out, shank := u.shank } ∧
    u.shank = { s.shank with lifeEnded := u.shank.lifeEnded, lifeBroken := u.shank.lifeBroken }) ∧
  (∀ (s : State) sid path b, let u := s.sendNow sid path b; u = { s with net := u.net, dict := u.dict, out := u.out, shank := u.shank }) ∧
  (∀ (s : State) o d w, let u := s.book o d w; u = { s with shank := { s.shank with books := u.shank.books } } ∧ s.shank.books <+: u.shank.books) ∧
  (∀ (s : State) sid tag f, let u := s.onCmd sid tag f; u = { s with kv := { s.kv with cmds := u.kv.cmds } } ∧
    ∀ c ∈ s.kv.cmds, ¬ (c.sid = sid ∧ c.pkt.tag = tag) → c ∈ u.kv.cmds)

/-- Which protected packets the block takes. One for another UDP port, with a bad header, that names no session, fails its
record protection, comes for a CLOSING session without being ACK or CLOSE, has a number 4,096 or more below the highest or one
that has arrived, or comes by another address pair than its path's, is dropped, counted once in the counter of its reason, and
changes no session. Every other one is taken, and the first one opens a HALF_OPEN session with path 0 ACTIVE. -/
def Obligations.PacketReceipt : Prop :=
  ∀ (s : State) (rx : Rx) (kind : Nat) (elicits : Bool), let r := s.receive rx kind elicits
    let f := s.rxFrame rx.port rx.len
    (s.otherPort rx.dst = true → r = (s.bump (K.cRxFiltered rx.port.code), .dropped)) ∧
    (s.otherPort rx.dst = false → rx.badHeader = true → r = (f.bump K.rxMalformed, .dropped)) ∧
    (s.otherPort rx.dst = false → rx.badHeader = false → s.session? rx.sid = none → r = (f.bump K.rxUnknownSession, .dropped)) ∧
    (∀ x, s.otherPort rx.dst = false → rx.badHeader = false → s.session? rx.sid = some x → x.v1 = false → let q := x.path? rx.path
      (rx.tagOk = false → r = (f.bump K.rxAuthFail, .dropped)) ∧
      (rx.tagOk = true → x.st = .closing → kind ≠ 0 → r = (f.bump K.rxUnknownSession, .dropped)) ∧
      (rx.tagOk = true → (x.st ≠ .closing ∨ kind = 0) →
        (rx.pn + 4096 ≤ x.rxHigh ∨ (∃ y ∈ x.rxSeen, y.1 = rx.pn) → r = (f.bump K.rxReplay, .dropped)) ∧
        (x.rxHigh < rx.pn + 4096 → (∀ y ∈ x.rxSeen, y.1 ≠ rx.pn) →
          (∀ p, q = some p → ¬ (p.port = rx.port ∧ p.addr = rx.addr) → r = (f.bump K.rxPathMismatch, .dropped)) ∧
          (q = none → kind ≠ 1 ∨ 4 ≤ rx.path → r = (f.bump K.rxPathMismatch, .dropped)) ∧
          (∀ p, q = some p → p.port = rx.port → p.addr = rx.addr → r.2 = .taken ∧
            ∃ y, r.1.session? rx.sid = some y ∧ y.rxHigh = max x.rxHigh rx.pn ∧
              (x.st = .halfOpen → y.st = .open_ ∧ ∀ z, y.path? 0 = some z → z.st = .active) ∧ (x.st ≠ .halfOpen → y.st = x.st)))))

/-- Opening sessions: a HELLO for another UDP port is filtered; one below its fixed form is malformed; one whose identity is
unknown or whose MAC fails is dropped and counted; a drive outside SERVE and LULL refuses with NOT_SERVING, and a serving one
goes on; a TLS handshake that verifies opens an RWP v1 session; an ACCEPT refused by the member sets when the next HELLO may go,
and an accepted one opens this drive's session. -/
def Obligations.SessionsOpen : Prop :=
  ∀ (s : State) (t : Nat), let a := s.advance t
    (∀ h : HelloPkt, let b := a.rxFrame h.port (a.frameBytes h.port h.addr h.bytes.length)
      (a.otherPort h.dst = true → exec (.hello t h) s = .next (a.bump (K.cRxFiltered h.port.code))) ∧
      (a.otherPort h.dst = false → badHeader h.bytes 1 232 = true ∨ beAt h.bytes 146 2 < 1232 → exec (.hello t h) s = .next (b.bump K.rxMalformed)) ∧
      (a.otherPort h.dst = false → badHeader h.bytes 1 232 = false → 1232 ≤ beAt h.bytes 146 2 →
        let id := sliceBytes h.bytes 152 (beAt h.bytes 148 1)
        (b.psk? id = none → exec (.hello t h) s = .next (b.bump K.rxAuthFail)) ∧
        (∀ k, b.psk? id = some k → let hk := kdf k.psk "RWP2 hello" id 32
          let mpb := min (beAt h.bytes 146 2) (b.portMpb h.port)
          (cmac16 hk (h.bytes.take 216) ≠ sliceBytes h.bytes 216 16 → exec (.hello t h) s = .next (b.bump K.rxAuthFail)) ∧
          (cmac16 hk (h.bytes.take 216) = sliceBytes h.bytes 216 16 →
            (b.serving = true → exec (.hello t h) s = .next (b.newHello h k hk mpb).wakeLull) ∧
            (b.serving = false → exec (.hello t h) s = .next (b.drawFree.2.refuseHello h hk 2 mpb (b.drawFree.1 % 2 ^ 32))))))) ∧
    (∀ (s : State) h k hk mpb, (s.net.sessions.find? fun x => x.st == .halfOpen && x.hostNonce == sliceBytes h.bytes 16 32 && x.hostPub == sliceBytes h.bytes 48 97) = none →
      (s.net.sessions.filter (·.st == .halfOpen)).length < 1024 →
      (∀ b, s.makeRoom = some b → s.newHello h k hk mpb = b.acceptHello h k mpb) ∧
      (s.makeRoom = none → s.newHello h k hk mpb = s.refuseHello h hk 1 mpb s.tableRetry)) ∧
    (∀ (h : TlsHello) k b, s.serving = true → s.flag K.rwpV1Enable = true → s.psk? h.identity = some k → h.accepted = true →
      a.otherPort h.dst = false → a.makeRoom = some b →
      ∃ u c sid x, exec (.tlsHandshake t h) s = .next u ∧ b.newSid = (sid, c) ∧ x.sid = sid ∧ x.v1 = true ∧ x.st = .open_ ∧ x.maxOut = c.num K.maxOutstanding ∧
        x.identity = k.identity ∧ x.policy = k.policy ∧
        x.accept = v1Accept 0 sid x.maxOut 0 ∧
        u = ((((({ c with net := { c.net with sessions := c.net.sessions ++ [x] } } : State).touch sid).bump K.sessionsOpened).emitOn h.port
          (.accept h.port ect0 (c.portTci h.port) x.accept))).wakeLull) ∧
    (∀ (p : AcceptPkt), let b := a.rxFrame p.port (a.frameBytes p.port p.addr p.bytes.length)
      (badHeader p.bytes 2 212 = true → exec (.peerSessionAccept t p) s = .next (b.bump K.rxMalformed)) ∧
      (∀ h g me k, badHeader p.bytes 2 212 = false → b.net.hellos.find? (·.member == p.member) = some h → b.welt.cur = some g →
        g.member? b.selfId = some me → b.psk? me.identity = some k →
        (beAt p.bytes 145 1 = 0 → exec (.peerSessionAccept t p) s = .next (b.openAsHost p h k).goneOn) ∧
        (beAt p.bytes 145 1 ≠ 0 → cmac16 (kdf k.psk "RWP2 hello" k.identity 32) (p.bytes.take 196) = sliceBytes p.bytes 196 16 →
          let h' : HelloOut := { h with sentAt := b.now + beAt p.bytes 156 4 * nsMs - nsSec }
          exec (.peerSessionAccept t p) s
            = .next { b with net := { b.net with hellos := b.net.hellos.map fun (y : HelloOut) => if y.member = p.member then h' else y } })))

/-- A session's timers, once each is due: a HALF_OPEN session is discarded after 1 s; a silent one is LOST; an idle one is
closed; a CLOSING one ends; a closed RWP v1 connection is LOST or over; an ACK that is owed for 25 us goes; a PTO doubles and
its packets are lost, and the third fails the path; a congestion interval adjusts cwnd; a quiet path gets a PROBE; a path
without reception fails. -/
def Obligations.SessionTimers : Prop :=
  ∀ (s : State) (t sid : Nat) (x : Session), s.session? sid = some x → let a := s.advance t; let now := max s.now t
    (x.st = .halfOpen → x.openedAt + nsSec ≤ now → exec (.halfOpenTimeout t sid) s = .next (a.dropSession sid)) ∧
    (x.st = .open_ → a.sessionSilent x = true → exec (.sessionLossTimeout t sid) s = .next (a.loseSession sid).goneOn) ∧
    (x.st = .open_ → x.asHost = none → x.unreleased = 0 → x.lastCmd + s.num K.idleTimeoutSeconds * nsSec ≤ now →
      exec (.idleTimeout t sid) s = .next (a.closeSession sid 1 0).goneOn) ∧
    (∀ c, x.st = .closing → x.closeAt = some c → c ≤ now → exec (.closingTimeout t sid) s = .next (a.dropSession sid)) ∧
    (x.v1 = true → (x.st = .open_ → exec (.v1ConnectionClose t sid) s = .next (a.loseSession sid).goneOn) ∧
      (x.st ≠ .open_ → exec (.v1ConnectionClose t sid) s = .next (a.dropSession sid))) ∧
    (0 < x.ackOwed → x.ackSince + 25000 ≤ now → exec (.ackDelayExpiry t sid) s = .next (a.sendAck sid 0).goneOn) ∧
    (∀ path q, x.path? path = some q →
      (∀ u, x.v1 = false → q.st ≠ .failed → x.unacked.find? (·.path == path) = some u → u.at_ + q.pto ≤ now →
        let b := a.onSession sid fun x => x.onPath path fun q => { q with ptos := q.ptos + 1 }
        (q.ptos < 2 → exec (.ptoExpiry t sid path) s = .next (b.lose sid (x.unacked.filter (·.path == path))).goneOn) ∧
        (2 ≤ q.ptos → exec (.ptoExpiry t sid path) s = .next (b.pathFail sid path 2).goneOn)) ∧
      (x.v1 = false → q.lastCong + q.srtt ≤ now → q.acked ≠ 0 →
        let f : Rat := min 1 (((q.ceNow - q.ceSeen : Nat) : Rat) / (q.acked : Rat))
        let al := alphaNext q.alpha f
        let w := cwndNext q.cwnd q.clean x.mpb al f
        let b := a.onSession sid fun x => x.onPath path fun q => { q with alpha := al, cwnd := w.1, clean := w.2, ceSeen := q.ceNow, acked := 0, lastCong := now }
        exec (.congestionUpdate t sid path) s = .next (State.pump x.txq.length b sid)) ∧
      (q.lastTx + s.num K.keepaliveIntervalMs * nsMs ≤ now → q.st = .active ∨ (q.st = .failed ∧ (s.port q.port).link = .up) →
        exec (.keepaliveInterval t sid path) s = .next (a.drawFree.2.sendNow sid path (.keepalive false (a.drawFree.1 % 2 ^ 64))).goneOn) ∧
      (x.v1 = false → q.st ≠ .failed → q.lastRx + s.num K.pathDeadMs * nsMs ≤ now →
        exec (.pathDeadTimeout t sid path) s = .next (a.pathFail sid path 3).goneOn))

/-- What the block does with a packet that it has taken: ACK, NAK, CLOSE, PROBE and ECHO, and on its own host-role sessions
GRANT and DATA from a member; a CMD ahead of its turn is held. -/
def Obligations.PacketsTaken : Prop :=
  ∀ (s : State) (t : Nat) (rx : Rx) (b : State) (x : Session), let a := s.advance t; b.session? rx.sid = some x →
    (∀ p : AckPkt, a.rxPacket rx 0 (!p.releases.isEmpty) = (b, .taken) → let sp := if x.v1 then some [] else p.spans
      (sp = none → exec (.ack t rx p) s = .next (b.bump K.rxMalformed)) ∧
      (∀ l, sp = some l → let c := b.ackPackets rx.sid p l
        (x.st = .closing → x.closePn.any (inSpans l) = true → exec (.ack t rx p) s = .next (c.dropSession rx.sid)) ∧
        (x.st ≠ .closing → let d := State.pump x.txq.length (c.onSession rx.sid fun x => { x with credit := p.credit, v1Data := 0 }) rx.sid
          (x.asHost = none → let e := p.releases.foldl (fun s r => s.release rx.sid r) d
            exec (.ack t rx p) s = .next ((e.resumeReplies rx.sid).ackIfDue rx).goneOn) ∧
          (∀ m, x.asHost = some m → exec (.ack t rx p) s = .next (((d.dispatchAll m).resumeReplies rx.sid).ackIfDue rx).goneOn)))) ∧
    (∀ n : NakPkt, a.rxPacket rx 2 false = (b, .taken) → x.v1 = false →
      (n.reason = 1 → n.gaps ≠ [] →
        exec (.nak t rx n) s = .next (b.lose rx.sid (x.unacked.filter fun u => n.gaps.any fun g => decide (g.1 ≤ u.pn ∧ u.pn ≤ g.2))).goneOn) ∧
      (n.reason ≠ 1 → n.tags ≠ [] →
        exec (.nak t rx n) s = .next (b.addTo K.rxStaleIncarnation (n.tags.filter fun e => !x.tagCurrent e.1 e.2.1).length))) ∧
    (∀ reason detail, a.rxPacket rx 0 true = (b, .taken) →
      (x.st = .closing → exec (.close t rx reason detail) s = .next (b.sendAck rx.sid rx.path)) ∧
      (x.st ≠ .closing → reason ≠ 6 →
        let c := ((if reason = 5 then b.event 0x0304 [(4, rx.sid), (4, x.direction false)] else b).endSessionCmds rx.sid).sendAck rx.sid rx.path
        let d := ({ c with net := { c.net with ends := c.net.ends.filter (·.sid != rx.sid) } } : State).onSession rx.sid fun x => { x with st := .closing, unacked := [], txq := [], held := [], closeAt := some (c.now + 3 * ((x.path? 0).map (·.pto)).getD 150000) }
        ∀ y, d.session? rx.sid = some y → exec (.close t rx reason detail) s = .next (d.noteMember y).goneOn)) ∧
    (∀ stamp, a.rxPacket rx 1 false = (b, .taken) →
      ((x.path? rx.path).isSome = true ∨ x.v1 = true → exec (.keepaliveProbe t rx stamp) s = .next (b.sendNow rx.sid rx.path (.keepalive true stamp))) ∧
      (x.path? rx.path = none → x.v1 = false → x.asHost = none → x.listsPort rx.port = true →
        let q : NetPath := { idx := rx.path, port := rx.port, addr := rx.addr, st := .validating, lastTx := b.now, lastRx := b.now, lastCong := b.now }
        let c := (b.onSession rx.sid fun x => { x with paths := x.paths ++ [q] }).drawFree
        exec (.keepaliveProbe t rx stamp) s
          = .next ((c.2.sendNow rx.sid rx.path (.keepalive true stamp)).sendNow rx.sid rx.path (.keepalive false (c.1 % 2 ^ 64))))) ∧
    (∀ stamp q, a.rxPacket rx 2 false = (b, .taken) → x.path? rx.path = some q →
      (q.st = .active → exec (.keepaliveEcho t rx stamp) s = .next b) ∧
      (q.st ≠ .active → exec (.keepaliveEcho t rx stamp) s = .next (b.pathUp rx.sid rx.path).goneOn)) ∧
    (a.rxPacket rx 2 true = (b, .taken) →
      (∀ tag inc ws m, ws ≠ [] → b.msgOn rx.sid tag = some m → m.pkt.inc = inc → m.pkt.opcode = 0x71 →
        let c := ws.foldl (fun s w => State.sendData (w.2 + 1) s rx.sid rx.path tag inc w.1 (sliceBytes m.value w.1 w.2) false) b
        exec (.peerGrant t rx tag inc ws) s
          = .next ((c.onMsg m.id fun m => { m with sent := m.sent + (ws.map (·.2)).sum, sentAt := c.now }).ackIfDue rx)) ∧
      (∀ tag inc off d last m, b.msgOn rx.sid tag = some m → m.pkt.inc = inc → let j := joinAhead m.got (insertRange (off, d) m.ahead)
        exec (.peerData t rx tag inc off d last) s
          = .next ((b.onMsg m.id fun m => { m with got := j.1, ahead := j.2, total := if last then some (off + d.length) else m.total }).ackIfDue rx)) ∧
      (∀ p plan, let q := p.norm; let d := (q.seq + 2 ^ 32 - x.nextSeq) % 2 ^ 32
        60 ≤ q.pktLen → x.asHost = none → d ≠ 0 → d < 2 ^ 31 → d < x.maxOut → (x.held.any fun h => h.pkt.seq == q.seq) = false →
        exec (.cmdSeqHold t rx p plan) s
          = .next (((((b.setSession { x with held := x.held ++ [{ rx := rx, pkt := q, plan := plan }] }).settle).wakeLull).ackIfDue rx).checkPns)))

/-- Values of granted commands: DATA that lies wholly in an open window joins what the window has, so that bytes it had not got
are there and none is lost; DATA that names no current command is counted, empty DATA and DATA outside the windows are NAKed;
windows are opened where their space is free, and not otherwise; a complete window drains and frees its space; a command whose
open window has had no DATA for DataIdleMs ends LENGTH_ERROR; a reply goes on, and waits where its credit is used up. -/
def Obligations.ValueTransfers : Prop :=
  (∀ (w : Window) (off : Nat) (d : Bytes), d ≠ [] → (∀ g ∈ w.got, off + d.length ≤ g.1 ∨ g.1 + g.2.length ≤ off) →
    (off, d) ∈ (w.put off d).got ∧ ∀ g ∈ w.got, g ∈ (w.put off d).got) ∧
  ∀ (s : State) (t sid tag : Nat) (c : CmdCtx), s.cmd? sid tag = some c → let a := s.advance t
    (∀ rx inc off d b x, rx.sid = sid → a.rxPacket rx 2 true = (b, .taken) → b.session? sid = some x → x.asHost = none →
      (x.tagCurrent tag inc = false → exec (.data t rx tag inc off d) s = .next ((b.bump K.rxStaleIncarnation).ackIfDue rx)) ∧
      (x.tagCurrent tag inc = true → d = [] → exec (.data t rx tag inc off d) s = .next ((b.nakData rx 2 tag inc off).ackIfDue rx)) ∧
      (x.tagCurrent tag inc = true → d ≠ [] → ∀ c', b.cmd? sid tag = some c' →
        ((c'.windows.find? fun w => w.open && w.holds off d.length) = none →
          exec (.data t rx tag inc off d) s = .next ((b.nakData rx 3 tag inc off).ackIfDue rx)) ∧
        (∀ w, (c'.windows.find? fun w => w.open && w.holds off d.length) = some w →
          let e := if ((uncovered w.got off d).map (·.2.length)).sum < d.length then b.bump K.rxDuplicate else b
          exec (.data t rx tag inc off d) s
            = .next (((e.onCmd sid tag fun c => { c with lastData := e.now, windows := c.windows.map fun y => if y.off = w.off then y.put off d else y }).noteHeld sid tag).ackIfDue rx)))) ∧
    (∀ w, (c.windows.find? fun w => !w.drained) = some w → w.complete = true →
      let b : State := { a with media := { s.media with granted := s.media.granted - bufSpace w.len } }
      let e := b.onCmd sid tag fun c => { c with windows := c.windows.map fun y => if y.off = w.off then { y with drained := true } else y }
      ∀ c', e.cmd? sid tag = some c' →
        (writeOp c'.pkt.opcode = true → exec (.windowDrain t sid tag) s = .next ((e.feed c' w.bytes).noteHeld sid tag).goneOn) ∧
        (writeOp c'.pkt.opcode = false → c'.pkt.valueLen ≤ w.off + w.len →
          exec (.windowDrain t sid tag) s = .next (e.putSlice c' (c'.windows.flatMap Window.bytes)).goneOn) ∧
        (writeOp c'.pkt.opcode = false → w.off + w.len < c'.pkt.valueLen → exec (.windowDrain t sid tag) s = .next (e.noteHeld sid tag))) ∧
    (c.windows.any Window.open = true → c.lastData + s.num K.dataIdleMs * nsMs ≤ max s.now t →
      exec (.dataIdleTimeout t sid tag) s = .next (a.abort c stLength 0 true).goneOn) ∧
    (∀ lens l, windowsFrom c.pkt.valueLen c.granted lens = some l → l ≠ [] → l.length ≤ 32 → c.takesGrants = true →
      let n := (lens.map bufSpace).sum; let b := a.rawRoom n
      (b.bufSize < b.bufUsed + n → exec (.grantWindow t sid tag lens) s = .next a) ∧
      (b.bufUsed + n ≤ b.bufSize →
      let ws : List Window := l.map fun x => { off := x.1, len := x.2, got := [], complete := false, drained := false }
      let d := (({ b with media := { b.media with granted := b.media.granted + n } } : State).onCmd sid tag fun c =>
        { c with windows := c.windows ++ ws, granted := c.granted + lens.sum, lastData := b.now })
      exec (.grantWindow t sid tag lens) s = .next ((d.send sid c.path false (.grant tag c.pkt.inc l)).noteHeld sid tag))) ∧
    (∀ r, c.reply = some r → exec (.readDataSend t sid tag) s = .next (State.sendReply (r.1.length + 2) a sid tag).goneOn ∧
      ∀ x, a.session? sid = some x → x.credit ≤ x.dataInFlight → c.replySent < r.1.length → c.suppressed = false →
        exec (.readDataSend t sid tag) s = .next (a.openHeld sid tag).goneOn)

/-- A CMD of any row that is received in its turn with a tag that no command holds is checked; one that fails a check of Table
4.3 ends with the answer of that check, and one that passes joins the commands in flight and is decided. -/
def Obligations.CommandArrivals : Prop :=
  ∀ (s : State) (t : Nat) (rx : Rx) (pkt : CmdPkt) (plan : Plan) (b : State) (x : Session), let a := s.advance t
    let k (o n : Nat) : CmdPkt := { pkt with opcode := o, params := beBytes 1 n ++ pkt.params.drop 1 }
    a.rxPacket rx 2 true = (b, .taken) → b.session? rx.sid = some x → x.asHost = none →
    (∀ i p, (i, p) ∈ [(Instr.get t rx pkt plan, { pkt with opcode := 0x01 }), (.getRange t rx pkt plan, { pkt with opcode := 0x02 }),
        (.stat t rx pkt plan, { pkt with opcode := 0x03 }), (.list t rx pkt plan, { pkt with opcode := 0x04 }),
        (.put t rx pkt plan, { pkt with opcode := 0x10 }), (.putIf t rx pkt plan, { pkt with opcode := 0x11 }),
        (.delete t rx pkt plan, { pkt with opcode := 0x12 }), (.deleteIf t rx pkt plan, { pkt with opcode := 0x13 }),
        (.flush t rx pkt plan, { pkt with opcode := 0x20 }), (.nsCreate t rx pkt plan, { pkt with opcode := 0x30 }),
        (.nsDelete t rx pkt plan, { pkt with opcode := 0x31 }), (.nsQuery t rx pkt plan, { pkt with opcode := 0x32 }),
        (.dictRead t rx pkt plan, { pkt with opcode := 0x40 }), (.dictWrite t rx pkt plan, { pkt with opcode := 0x41 }),
        (.fwSegment t rx pkt plan, { pkt with opcode := 0x50 }), (.fwActivate t rx pkt plan, { pkt with opcode := 0x51 }),
        (.sessionReset t rx pkt plan, { pkt with opcode := 0x60 }), (.fragReserve t rx pkt plan, { pkt with opcode := 0x70 }),
        (.fragPut t rx pkt plan, { pkt with opcode := 0x71 }), (.fragGet t rx pkt plan, { pkt with opcode := 0x72 }),
        (.fragRelease t rx pkt plan, { pkt with opcode := 0x73 }), (.stripeCommitCommit t rx pkt plan, k 0x74 1),
        (.stripeCommitHolders t rx pkt plan, k 0x74 2), (.stripeCommitHandoff t rx pkt plan, k 0x74 3),
        (.stripeCommitHandoffDone t rx pkt plan, k 0x74 4), (.stripeCommitHandoffPending t rx pkt plan, k 0x74 5),
        (.stripeCommitNsCreate t rx pkt plan, k 0x74 0x10), (.stripeCommitNsDelete t rx pkt plan, k 0x74 0x11),
        (.rebuildQueryHoldings t rx pkt plan, k 0x75 1), (.rebuildQueryResolve t rx pkt plan, k 0x75 2),
        (.rebuildQueryKeyState t rx pkt plan, k 0x75 3), (.rebuildQueryNamespaces t rx pkt plan, k 0x75 4),
        (.cmdSeqHold t rx pkt plan, pkt)] →
      let q := p.norm
      60 ≤ q.pktLen → q.seq = x.nextSeq → (∀ g ∈ x.tags, g.tag ≠ q.tag) → q.inc = 0 → (x.tags.filter fun g => !g.released).length < x.maxOut →
      let h := (b.seqTaken x rx q).parseKey q plan.awl
      (∀ d r, h.1.checks x rx q plan.awl h.2 = (d, some r) → exec i s = .next ((d.reject rx.sid rx.path q r).arrivalEnds x rx)) ∧
      (∀ d, h.1.checks x rx q plan.awl h.2 = (d, none) →
        exec i s = .next (((d.joined rx q plan h.2).1.decideCmd rx.sid q.tag).arrivalEnds x rx)))

/-- What a decision leads to. With no earlier command on its key undecided and its key's state here, a command without a promise
enters at once, and a promised one enters with its bound booked where the test of R134 passes, and is refused with its retry
time and limiter where it does not; a read, or a command without a key, then starts with the effect of its row unless ORDERED or
an execution pause holds it, and a write reserves its holders; SESSION_RESET starts whatever its class; a peer's command starts
without a test, a FRAG_RESERVE after its own. -/
def Obligations.CommandDecisions : Prop :=
  ∀ (s : State) (sid tag : Nat) (c : CmdCtx), s.cmd? sid tag = some c → c.sid = sid → c.pkt.tag = tag → c.st = .undecided → s.keyUndecided c = false →
    s.pullState c = .none_ → let p := c.pkt
    (p.opcode = 0x60 → s.decideCmd sid tag = (s.bump K.admittedCount).runReset c) ∧
    (p.opcode ≠ 0x60 → 262144 < s.contexts → s.decideCmd sid tag = s.refuseCmd c s.contextRetry 7) ∧
    (s.contexts ≤ 262144 → s.noInst p = true → p.opcode ≠ 0x60 → s.decideCmd sid tag = s.refuseCmd c s.instRetryUs 4) ∧
    (s.contexts ≤ 262144 → s.noInst p = false →
      (∀ op (run : State → CmdCtx → State), (op, run) ∈ [(0x01, State.startRead), (0x02, State.startRead), (0x03, State.startRead), (0x04, State.runList),
          (0x20, fun s c => s.onCmd c.sid c.pkt.tag fun c => { c with st := .running }), (0x31, State.runNsDelete),
          (0x32, State.runNsQuery), (0x40, State.runDictRead), (0x41, State.runDictWrite)] → p.opcode = op → c.write = none →
        let begin_ (e : State × CmdCtx) : State := if e.2.ordered || e.2.paused then e.1 else run e.1 e.2
        (p.cls = 3 → s.decideCmd sid tag = begin_ (s.positioned (s.decided c 0 0 1 (s.sizeOf c)))) ∧
        (p.cls ≠ 3 → s.pc3Before c = false → let n := s.sizeOf c; let e := s.boundEnd c n; let w := s.workOf c n
          (∀ us lim, s.judge e (s.margin (s.factsOf c)) w (max (s.predEnd c).1 (s.mediaEnd c)) (s.predEnd c).2 = .refuse us lim →
            s.decideCmd sid tag = s.refuseCmd c us lim) ∧
          (∀ d crit, s.judge e (s.margin (s.factsOf c)) w (max (s.predEnd c).1 (s.mediaEnd c)) (s.predEnd c).2 = .pass d crit →
            let u := s.book (.cmd sid tag) d w
            s.decideCmd sid tag = begin_ (u.positioned (u.decided c (u.ptp + (e - u.now)) d crit n))))) ∧
      (p.opcode = 0x30 → c.write = none → s.rngOk = true → s.freeInst.isSome = true → p.cls = 3 →
        let e := s.positioned (s.decided c 0 0 1 (s.sizeOf c))
        s.decideCmd sid tag = if e.2.ordered || e.2.paused then e.1 else e.1.runNsCreate e.2) ∧
      (p.opcode = 0x50 → c.write = none → s.segmentBusy p = false → p.cls = 3 →
        let e := s.positioned (s.decided c 0 0 1 (s.sizeOf c))
        s.decideCmd sid tag = if e.2.ordered || e.2.paused then e.1 else e.1.runSegment e.2) ∧
      (∀ u, p.opcode = 0x51 → c.write = none → p.cls = 3 → s.decideActivate p none = (u, .go) →
        let e := u.positioned (u.decided c 0 0 1 0)
        s.decideCmd sid tag = if e.2.ordered || e.2.paused then e.1 else e.1.runActivate e.2) ∧
      (∀ v w inst, writeOp p.opcode = true → s.withWrite c = v → v.write = some w → s.instOf p.ns p.gen = some inst → p.cls = 3 →
        let e := s.decided v 0 0 1 (s.sizeOf v)
        s.decideCmd sid tag = (s.setCmd e).beginPhaseOne e w inst) ∧
      (∀ op (run : State → CmdCtx → State), (op, run) ∈ [(0x71, State.runPut), (0x72, State.runGet), (0x73, State.runRelease),
          (0x74, State.runStripeCommit), (0x75, State.runQuery)] → p.opcode = op → c.write = none →
        let e := s.positioned (s.decided c 0 0 1 0)
        s.decideCmd sid tag = if e.2.ordered || e.2.paused then e.1 else run e.1 e.2) ∧
      (p.opcode = 0x70 → c.write = none → (FragHdr.ofBytes p.params p.key).epoch ≤ s.epoch → (FragHdr.ofBytes p.params p.key).deadline = 0 →
        let e := s.positioned (s.decided c 0 0 1 0)
        s.decideCmd sid tag = if e.2.ordered || e.2.paused then e.1 else e.1.runReserve e.2))

/-- The later events of a command's life: a FLUSH ends OK once what it covers is media-durable; an ORDERED command starts,
unless execution is paused, once every earlier command of its session has ended; a read takes its turn once no write before it
is without commit; a write commits in its turn; a promise whose time has passed is broken, also while its response still waits
for the MAC. -/
def Obligations.CommandLives : Prop :=
  (∀ (s : State) (t sid tag : Nat) (c : CmdCtx), s.cmd? sid tag = some c → let a := s.advance t
    (c.pkt.opcode = 0x20 → c.st = .running → a.flushReady c = true →
      let b : State := { a with kv := { s.kv with sessWrites := s.kv.sessWrites.filter fun w => !a.writeOnMedia w } }
      exec (.flushEnd t sid tag) s = .next (b.finish c stOk []).goneOn) ∧
    (c.ordered = true → c.st = .waiting → s.earlierInSession c = [] →
      (s.paused = false → exec (.orderedStart t sid tag) s = .next ((a.setCmd { c with ordered := false, paused := false }).startCmd { c with ordered := false, paused := false }).goneOn) ∧
      (s.paused = true → exec (.orderedStart t sid tag) s = .next (a.setCmd { c with ordered := false, paused := true }).goneOn)) ∧
    (readOp c.pkt.opcode = true → c.st = .waiting → c.ordered = false → c.paused = false → s.paused = false → s.writesBefore c = [] →
      exec (.readTurn t sid tag) s = .next (a.readTurn c).goneOn) ∧
    (∀ w inst, c.write = some w → c.st = .running → s.writesBefore c = [] → s.instOf c.pkt.ns c.pkt.gen = some inst → s.repairRuns inst w.hash = false →
      let cur := (a.lookup inst w.hash c.pkt.key).map (·.rec_)
      (∀ st, commitCondition c.pkt.opcode c.pkt.expected cur = some st →
        exec (.writeCommit t sid tag) s = .next ((a.undoWrite c w).finish c st (metaBody cur)).goneOn) ∧
      (commitCondition c.pkt.opcode c.pkt.expected cur = none → segmentsOf w.striped c.pkt.valueLen w.k ≤ w.segmentsDone →
        w.quorum ≤ (a.durableIndices c w).length → exec (.writeCommit t sid tag) s = .next (a.commitWrite c w inst cur).goneOn) ∧
      (commitCondition c.pkt.opcode c.pkt.expected cur = none → (a.durableIndices c w).length < w.quorum →
        exec (.writeCommit t sid tag) s = .next a.goneOn)) ∧
    (c.promised = true → c.admitted = true → a.worstEnd c < max s.now t → exec (.promiseBroken t sid tag) s = .next (a.breakPromise c).goneOn) ∧
    (c.promised = true → c.admitted = true → max s.now t ≤ a.worstEnd c → exec (.promiseBroken t sid tag) s = .next a)) ∧
  (∀ (s : State) (t sid tag : Nat) (e : DueEnd), s.cmd? sid tag = none →
    (s.net.ends.find? fun e => e.sid == sid && e.tag == tag && !e.broken && decide (e.due < max s.now t)) = some e →
    exec (.promiseBroken t sid tag) s = .next ((s.advance t).breakEnding e))

/-- Peers' answers, once taken: a reservation's answer is noted and phase one goes on; a slice's answer is noted, or fails its
holder; a fetched piece comes or is missing; a release is acknowledged; a commit's, a query's and an orphan's answers have the
effect of their kind. An answer that is not taken, or that no message of this drive awaits, has no other effect than its
receipt. -/
def Obligations.PeerAnswers : Prop :=
  ∀ (s : State) (t : Nat) (r : PeerReply), let a := s.advance t
    (∀ b, a.peerReply r = (b, none) → exec (.fragReserveReply t r) s = .next b ∧ exec (.fragPutReply t r) s = .next b ∧
      exec (.fragGetReply t r) s = .next b ∧ exec (.fragReleaseReply t r) s = .next b ∧ exec (.stripeCommitReply t r) s = .next b ∧
      exec (.rebuildQueryReply t r) s = .next b ∧ exec (.orphanResolveAnswer t r) s = .next b) ∧
    (∀ b m, a.peerReply r = (b, some m) → m.repair = false →
      (∀ c w, (b.reserveAnswer m r.status r.body).writeOf m = some (c, w) →
        exec (.fragReserveReply t r) s = .next ((b.reserveAnswer m r.status r.body).phaseOne c).goneOn) ∧
      ((b.reserveAnswer m r.status r.body).writeOf m = none →
        exec (.fragReserveReply t r) s = .next (b.reserveAnswer m r.status r.body).goneOn) ∧
      (r.status ≠ stOk → exec (.fragPutReply t r) s = .next ((b.holderFails m).failRepair m).goneOn) ∧
      (r.status = stOk → b.writeOf m = none → exec (.fragPutReply t r) s = .next (b.noteLate m).goneOn) ∧
      (∀ c w, r.status = stOk → b.writeOf m = some (c, w) →
        exec (.fragPutReply t r) s = .next ((b.noteLate m).onHolder c.sid c.pkt.tag m.index fun h =>
          { h with confirmed := m.seg :: h.confirmed, onMedia := if beAt r.body 0 1 = 2 then m.seg :: h.onMedia else h.onMedia, mediaBy := beAt r.body 8 8 }).goneOn) ∧
      (∀ sid tag d, m.cmd = some (sid, tag) → (b.cmd? sid tag).bind (·.read) = some d →
        (r.status = stNotFound ∨ r.status = stMedia → b.recOfStripe m.stripe = none) →
        let off := if d.rec_.striped then m.pkt.param 20 4 - m.seg * chunkC else m.pkt.param 20 4
        exec (.fragGetReply t r) s = .next (b.pieceCame sid tag m.index m.seg off (m.pkt.param 24 4) (fetched m r.status)).goneOn)) ∧
    (∀ b m q x, a.peerReply r = (b, some m) → m.repair = true → b.repairOf m = some (q, x) →
      exec (.fragReserveReply t r) s = .next (b.repairReserved q x (r.status == stOk)).goneOn ∧
      exec (.fragPutReply t r) s = .next (b.repairPut q x m.seg (r.status == stOk)).goneOn ∧
      exec (.fragGetReply t r) s = .next (b.repairGot q x m.seg (fetched m r.status) (r.status == stNotFound || r.status == stMedia)).goneOn) ∧
    (∀ b m, a.peerReply r = (b, some m) →
      (∀ c w, b.writeOf m = some (c, w) →
        exec (.fragReleaseReply t r) s = .next (b.onHolder c.sid c.pkt.tag m.index fun h => { h with releaseAcked := true }).goneOn) ∧
      (b.writeOf m = none → exec (.fragReleaseReply t r) s = .next b.goneOn) ∧
      exec (.stripeCommitReply t r) s = .next (b.commitAnswer m r.status).goneOn ∧
      exec (.rebuildQueryReply t r) s = .next (b.queryAnswered m r.status r.body).goneOn ∧
      exec (.orphanResolveAnswer t r) s = .next (b.queryAnswered m r.status r.body).goneOn)

/-- Welt's own timers, once due: phase one that has taken PeerReserveWaitUs refuses the write; a slice without answer fails its
holder; a write whose releases wait ends; an unanswered message goes again at the doubled interval; a late piece counts as
missing; an orphan asks the home of its stripe; a namespace distribution times out; members are asked for their namespaces; a
member is lost, and the time that the drive spends idle starts again. -/
def Obligations.WeltTimers : Prop :=
  ∀ (s : State) (t : Nat), let a := s.advance t; let now := max s.now t
    (∀ sid tag c w, s.cmd? sid tag = some c → c.write = some w →
      (c.st = .phaseOne → c.arrivedAt + s.num K.peerReserveWaitUs * 1000 ≤ now →
        exec (.phaseOneTimeout t sid tag) s = .next (a.refusePhaseOne c w).goneOn) ∧
      exec (.releaseAckWaitEnd t sid tag) s = .next (a.releaseDone c (decide (w.releaseAt ≤ now))).goneOn) ∧
    (∀ sid tag mem m, (s.welt.msgs.find? fun m => m.cmd == some (sid, tag) && m.member == mem && a.putLate m) = some m →
      exec (.holderFailTimeout t sid tag mem) s = .next ((a.holderFails m).failRepair m).goneOn) ∧
    (∀ id m, s.welt.msgs.find? (·.id == id) = some m → m.repeats = true →
      (s.welt.lost.contains m.member = true ∨ s.member? m.member = none → exec (.messageRepeat t id) s = .next (a.dropMsg id)) ∧
      (s.welt.lost.contains m.member = false → (s.member? m.member).isSome = true → m.sentAt + m.interval ≤ now →
        let also := match m.on with | some o => (o.1, o.2, m.pkt.inc) :: m.also | none => m.also
        exec (.messageRepeat t id) s
          = .next ((a.onMsg id fun m => { m with on := none, also := also, sentAt := now, interval := min nsSec (2 * m.interval) }).dispatch id))) ∧
    (∀ sid tag index d, (s.cmd? sid tag).bind (·.read) = some d →
      let late := d.chunks.filter fun e => e.index == index && e.data.isNone && !e.missing && decide (e.askedAt + s.fragTimeout + s.lineNs e.len ≤ now)
      let b : State := { a with welt := { s.welt with msgs := s.welt.msgs.filter fun m => !(m.pkt.opcode == 0x72 && m.cmd == some (sid, tag) && m.index == index && late.any fun e => e.seg == m.seg) } }
      exec (.fragFetchTimeout t sid tag index) s = .next (late.foldl (fun s e => s.pieceCame sid tag e.index e.seg e.off e.len none) b).goneOn) ∧
    (∀ i k f, s.frag? i k = some f → f.committed = false → f.resolveAt ≤ a.ptp →
      let b := a.setFrag { f with resolveAt := a.ptp + a.num K.orphanHoldSeconds * nsSec }
      ∀ h, (if b.maps.any fun g => (g.member? i.home).isSome then some i.home else b.homeOf f.hdr.hash) = some h → h ≠ b.selfId →
      let c : State := { b with welt := { b.welt with msgs := b.welt.msgs.filter fun x => !(x.pkt.opcode == 0x75 && x.pkt.param 0 1 == 2 && x.subject == i && x.index == k) } }
      exec (.orphanResolveTimer t i k) s = .next (c.sendQuery h 2 i.bytes 0 0 fun x => { x with index := k })) ∧
    (∀ sid tag c, s.cmd? sid tag = some c → c.pkt.opcode = 0x30 ∨ c.pkt.opcode = 0x31 → c.awaiting ≠ [] → c.awaitUntil ≤ now →
      exec (.nsDistributeTimeout t sid tag) s = .next (a.nsTimeout c).goneOn) ∧
    (s.serving = true → s.welt.lastSync + s.num K.nsSyncSeconds * nsSec ≤ now →
      exec (.nsSync t) s = .next (s.otherMembers.foldl State.askNamespaces { a with welt := { s.welt with lastSync := now } })) ∧
    (∀ mem x, s.welt.noPath.find? (·.1 == mem) = some x → s.welt.lost.contains mem = false → s.serving = true →
      x.2 + s.num K.memberLostSeconds * nsSec ≤ now →
      let b : State := { a with welt := { s.welt with lost := s.welt.lost ++ [mem], msgs := s.welt.msgs.filter fun m => !(m.member == mem && (m.pkt.opcode == 0x73 || m.pkt.opcode == 0x74)) } }
      exec (.memberLost t mem) s = .next ((b.eventEmcy 0x0703 [(2, mem), (4, Config.eventCode 0x0703 1)] 0xFF02 true).queueMoves).stirred.goneOn)

/-- The group's epochs: a write of GroupMap goes to the dictionary, an epoch whose time has come is activated, and keys that
move are handed off by their old home once its earlier commands on them have ended, or by the next holder after
PeerFragTimeoutUs for each one before it; what a new home pulls is resolved when all of it has come, or the command that waits
for it is refused. -/
def Obligations.EpochsAndHandoff : Prop :=
  ∀ (s : State) (t : Nat), let a := s.advance t; let now := max s.now t
    (∀ c b, exec (.groupMapWrite t c b) s = .next (a.dictApply c K.groupMap b).goneOn) ∧
    (∀ g, s.welt.pendingMap = some g → (g.activation ≤ a.ptp → exec (.epochActivate t) s = .next (a.activateMap g).goneOn) ∧
      (a.ptp < g.activation → exec (.epochActivate t) s = .next a)) ∧
    (∀ ns hash o, (s.welt.owed.find? fun o => o.ns == ns && o.hash == hash && !o.sent && o.rank == 0) = some o →
      (s.earlierRuns o = false → exec (.handoffSend t ns hash) s = .next (a.sendOwed o).goneOn) ∧
      (s.earlierRuns o = true → exec (.handoffSend t ns hash) s = .next a)) ∧
    (∀ ns hash o, (s.welt.owed.find? fun o => o.ns == ns && o.hash == hash && !o.sent && decide (0 < o.rank)) = some o →
      o.since + o.rank * s.fragTimeout ≤ now → exec (.handoffFallbackTimeout t ns hash) s = .next (a.sendOwed o).goneOn) ∧
    (∀ sid tag c, s.cmd? sid tag = some c → c.st = .undecided → keyOp c.pkt.opcode = true →
      ∀ g, s.gather? c.pkt.ns c.pkt.gen (s.hashes c.pkt.ns c.pkt.gen c.pkt.key).1 = some g → g.awaiting ≠ [] → g.since + s.fragTimeout ≤ now →
      let here := g.awaiting.filter fun m => s.welt.cur.any fun x => (x.member? m).isSome
      (here = [] → exec (.handoffPullTimeout t sid tag) s = .next (((a.setGather { g with awaiting := [] }).adoptGather g.ns g.gen g.hash).goneOn)) ∧
      (here ≠ [] → let b : State := { a with welt := { s.welt with gathers := s.welt.gathers.filter fun x => !(x.ns == g.ns && x.gen == g.gen && x.hash == g.hash) } }
      exec (.handoffPullTimeout t sid tag) s = .next (b.refuseCmd c (s.num K.peerFragTimeoutUs) 6).goneOn)) ∧
    (∀ ns hash g inst, (s.welt.gathers.find? fun g => g.ns == ns && g.hash == hash && g.awaiting.isEmpty && !g.pending.isEmpty) = some g →
      s.instOf g.ns g.gen = some inst →
      let b := g.copies.foldl (fun s r => if g.pending.any fun p => p.hdr.stripe == r.stripe then s else s.adopt r) a
      let prior := (b.lookup inst hash ((g.pending.head?.map (·.hdr.key)).getD [])).map (·.rec_)
      let l := ((g.pending.map (·.hdr)).filter fun (h : FragHdr) => decide ((prior.map (·.stamp)).getD 0 < h.stamp)).foldl (fun acc h => insertStamp h acc) []
      exec (.handoffResolve t ns hash) s
        = .next ((l.foldl (fun (x : State × Option CommitRec) h => x.1.resolveOne g inst x.2 h) (b, prior)).1.setGather { g with pending := [] }).goneOn) ∧
    (∀ stripe r pos, (s.kv.superseded.find? (·.1.stripe == stripe)) = some (r, pos) →
      (∀ c ∈ s.kv.cmds, readOp c.pkt.opcode = true → c.admitted = true → c.pos < pos →
        ¬ (c.pkt.ns = r.ns ∧ c.pkt.gen = r.gen ∧ c.pkt.key = r.key)) →
      let b : State := { a with kv := { s.kv with superseded := s.kv.superseded.filter fun x => x.1.stripe != stripe } }
      exec (.supersededRelease t stripe) s = .next (b.releaseStripe r 2).goneOn)

/-- The timer block: a read of TMR_NOW_LO latches the upper half of PTP time; a write of a comparator's half clears its FIRED
bit and no other, unless the comparator fires in the same cycle, when the set wins; a comparator that is enabled and reached
sets its FIRED bit and no other; a write to TMR_WDOG restarts the watchdog. Nothing else changes. The site's registers of the
recorder: a read of EVR_NEXT_SEQ_LO latches the upper half of the next Seq; FETCH copies the record from the ring, or answers
NOT_HELD (1); POST makes a record with code 0x0D00 + LOW, SITE set and the 12 detail bytes, or answers BAD_CODE (3) for LOW 0
and SUPPRESSED (2) for an empty bucket. -/
def Obligations.TimersAndRecorder : Prop :=
  (∀ (s : State) (t : Nat), s.domOn .core = true →
      exec (.tmrNowRead t) s
        = .next { s.advance t with site := { s.site with nowHi := BitVec.ofNat 32 ((s.advance t).ptp / 2 ^ 32) } } ∧
      exec (.tmrWdogKick t) s = .next { s.advance t with site := { s.site with wdogAt := max s.now t } } ∧
      (∀ n hi v, n < 4 → v < 2 ^ 32 →
        let old := s.site.cmp.getD n 0
        let new := if hi then v * 2 ^ 32 + old % 2 ^ 32 else old / 2 ^ 32 * 2 ^ 32 + v
        ∃ u, exec (.tmrCmpWrite t n hi v) s = .next u ∧
          u = { s.advance t with site := { s.site with cmp := s.site.cmp.setIfInBounds n new, fired := u.site.fired } } ∧
          (s.sets.at_ ≠ max s.now t → ∀ i, bitAt u.site.fired i = (decide (i ≠ n) && bitAt s.site.fired i)) ∧
          (s.sets = { at_ := max s.now t, bits := [(0x40060034, 2 ^ n)] } → u.site.fired = s.site.fired)) ∧
      (∀ n, n < 4 → bitAt s.site.cmpEn n = true → s.site.cmp.getD n 0 ≤ (s.advance t).ptp →
        ∃ u, exec (.timerComparatorFire t n) s = .next u ∧
          (bitAt s.site.fired n = true → u = s.advance t) ∧
          (bitAt s.site.fired n = false →
            u = ({ s.advance t with site := { s.site with fired := u.site.fired } } : State).hwSet 0x40060034 (2 ^ n) ∧
            ∀ i, bitAt u.site.fired i = (decide (i = n) || bitAt s.site.fired i)))) ∧
  (∀ (s : State) (t : Nat), s.domOn .core = true →
      exec (.evrNextSeqRead t) s
        = .next { s.advance t with evs := { s.evs with nextHi := BitVec.ofNat 32 (s.evs.nextSeq / 2 ^ 32) } } ∧
      (s.evs.busy = false →
        let want := s.evs.fetchHi.toNat * 2 ^ 32 + s.evs.fetchLo.toNat
        let low := s.evs.postCode.toNat % 256
        (∀ r, s.evs.ring.find? (·.seq == some want) = some r →
          exec (.evrFetch t) s = .next (({ s.advance t with evs := { s.evs with rec_ := r.bytes, done := true } } : State).hwSet 0x40030014 2)) ∧
        (s.evs.ring.find? (·.seq == some want) = none →
          exec (.evrFetch t) s = .next ((s.advance t).evrErr 1)) ∧
        (low = 0 →
          exec (.evrPost t) s = .next ((s.advance t).evrErr 3)) ∧
        (low ≠ 0 →
          let u := ((s.advance t).eventSeq (0x0D00 + low) (padTo s.evs.postDetail 12) 2).1
          ((s.advance t).hasToken (0x0D00 + low) = true →
            exec (.evrPost t) s = .next (({ u with evs := { u.evs with done := true } } : State).hwSet 0x40030014 2)) ∧
          ((s.advance t).hasToken (0x0D00 + low) = false →
            exec (.evrPost t) s = .next (u.evrErr 2)))) ∧
      (∀ e, (s.evrErr e).evs = { s.evs with done := true, err := true, errCode := e }))

/-- The mailbox registers: a producer value in the free range posts its messages, any other sets OVERRUN and is ignored; a
consumer value returns slots, whose waiting messages then go; messages without a slot for 100 ms are dropped with C2S_LOST.
SITE_REPORT takes the payload as SiteReport and answers with abort code 0. -/
def Obligations.MailboxCommands : Prop :=
  (∀ (s : State) (t : Nat), s.domOn .core = true →
      (∀ v, let step := (v % 32 + 32 - s.site.s2cProd) % 32
            let free := (s.site.s2cCons + 31 - s.site.s2cProd) % 32
        (1 ≤ step → step ≤ free →
          exec (.mbxS2cProdWrite t v) s
            = .next (State.mbxRejectBad 33 { s.advance t with site := { s.site with s2cProd := v % 32 } })) ∧
        (step = 0 ∨ free < step →
          exec (.mbxS2cProdWrite t v) s
            = .next (({ s.advance t with site := { s.site with overrun := true } } : State).hwSet 0x40000010 2))) ∧
      (∀ v, exec (.mbxC2sConsWrite t v) s
        = .next (State.mbxRejectBad 33 (State.c2sDrain 64 { s.advance t with site := { s.site with c2sCons := v % 32 } }))) ∧
      (let late := s.site.waiting.filter fun m => decide (m.since + 100 * nsMs ≤ max s.now t)
       let kept := s.site.waiting.filter fun m => decide (max s.now t < m.since + 100 * nsMs)
       late ≠ [] →
        ∃ u, exec (.mbxC2sFullTimeout t) s = .next u ∧ u.site.c2sLost = true ∧
          u = State.mbxRejectBad 33 (late.foldl State.c2sGone
            (({ s.advance t with site := { s.site with waiting := kept, c2sLost := true } } : State).hwSet 0x40000010 4)))) ∧
  (∀ (s : State) (t : Nat), s.domOn .core = true →
      (∀ len token p, s.mbxRequest = some (2, len, token, p) → len ≤ 56 →
        exec (.mbxSiteReport t) s
          = .next (State.mbxRejectBad 33 (((s.advance t).setStr K.siteReport (p.take len)).mbxReply token 0 0 []))))

/-- What the mailbox does with messages: a good request that waits is left for its handler, a bad one is answered with abort
code 0x08000000; a message with a free slot is written at the producer's slot, 64 bytes little-endian, and the producer moves
on; every byte of memory outside that slot reads as before. -/
def Obligations.MailboxMessages : Prop :=
  (∀ type token : Nat, ∀ p : Bytes, p.length ≤ 56 → (slotBytes type token p).length = 64) ∧
  (∀ (s : State) (m : MbxMsg),
    (s.c2sPut m).site.c2sProd = (s.site.c2sProd + 1) % 32 ∧
    ∀ a, a < c2sBase + 64 * s.site.c2sProd ∨ c2sBase + 64 * s.site.c2sProd + 8 + max m.payload.length 56 ≤ a →
      Memory.wf s.mem = true → memGet (s.c2sPut m).mem a = memGet s.mem a) ∧
  (∀ (n : Nat) (s : State) (type len token : Nat) (p : Bytes), s.mbxRequest = some (type, len, token, p) →
    State.mbxRejectBad (n + 1) s
      = if requestOk type len then s else State.mbxRejectBad n (s.mbxReply token 0x08000000 0 []))

/-- The sandbox: an access outside the map is counted and recorded as event 0x0B03 with the core and the address; the watchdog's
expiry disables channels 12 to 15, counts, records 0x0B04 with the expiries of the past hour, and releases the cores with memory
reloaded, or holds them in reset with event 0x0B05 at the third. -/
def Obligations.SandboxFaults : Prop :=
  ∀ (s : State) (t : Nat), s.site.st = 1 →
    (∀ core addr width, core = 6 ∨ core = 7 → (s.advance t).siteAccessOk addr width = false →
      exec (.siteAccessFault t core addr width) s
        = .next (((s.advance t).bump K.siteAccessFaults).event 0x0B03 [(4, core), (4, addr)])) ∧
    (∀ bytes : List Nat, s.site.wdogAt + s.num K.siteWatchdogMs * nsMs ≤ max s.now t →
      let past := (s.site.expiries ++ [max s.now t]).filter fun x => decide (max s.now t < x + 3600 * nsSec)
      let d := [12, 13, 14, 15].foldl (fun s n => s.dmaForce n (bytes.getD (n - 12) 0) 2) (s.advance t)
      let u := (d.bump K.siteWatchdogResets).event 0x0B04 [(4, past.length)]
      (past.length < 3 →
        exec (.siteWatchdogExpiry t bytes) s
          = .next (({ u with site := { u.site with expiries := past, st := 1, wdogAt := u.now } } : State).loadSite false)) ∧
      (3 ≤ past.length →
        exec (.siteWatchdogExpiry t bytes) s
          = .next (({ u with site := { u.site with expiries := past, st := 3 } } : State).event 0x0B05 [])))

/-- Register writes while PD_CORE is powered: a flag is cleared by writing 1 to it, unless hardware sets it in the same cycle,
and kept by writing 0; DMA_CH_CTRL fields are written while EN is 0; a reserved address changes nothing; a word stored to local
SRAM reads back, and no other byte of memory changes. -/
def Obligations.RegisterWrites : Prop :=
  ∀ (s : State) (t v : Nat), s.domOn .core = true → v < 2 ^ 32 → let a := s.advance t
    let c (x : Nat) : Nat := a.clears x v
    (∀ x, s.sets.at_ ≠ max s.now t ∨ (∀ q ∈ s.sets.bits, q.1 ≠ x) → c x = v) ∧
    (∀ x m, s.sets.at_ = max s.now t → (x, m) ∈ s.sets.bits → c x &&& m = 0) ∧
    exec (.registerWrite t 0x40000010 v) s
      = .next { a with site := { s.site with overrun := s.site.overrun && !bitAt (c 0x40000010) 1, c2sLost := s.site.c2sLost && !bitAt (c 0x40000010) 2 } } ∧
    exec (.registerWrite t 0x40000014 v) s = .next { a with site := { s.site with mbxIrqEn := bitAt (c 0x40000014) 0 } } ∧
    (∀ n, n < 16 → let x := 0x40011000 + 0x100 * n
      (s.ch n).en = false → bitAt (c x) 0 = false → exec (.registerWrite t x v) s = .next (a.setCh n ((s.ch n).ctrlFields (c x)))) ∧
    (let w := c 0x40030014
     exec (.registerWrite t 0x40030014 v) s
      = .next { a with evs := { s.evs with done := s.evs.done && !bitAt w 1, err := s.evs.err && !bitAt w 2, new := s.evs.new && !bitAt w 6 } }) ∧
    exec (.registerWrite t 0x40040010 v) s
      = .next { a with clk := { s.clk with irqStatus := s.clk.irqStatus &&& ~~~(BitVec.ofNat 32 (c 0x40040010 % 8)) } } ∧
    exec (.registerWrite t 0x40050004 v) s = .next (a.setFmc { s.clk.fmc with window := BitVec.ofNat 32 (c 0x40050004) }) ∧
    exec (.registerWrite t 0x40060034 v) s
      = .next { a with site := { s.site with fired := s.site.fired - (s.site.fired &&& c 0x40060034 % 16) } } ∧
    (s.domOn .kv = true → exec (.registerWrite t 0x4002000C v) s
      = .next { a with awl := { s.awl.at_ (max s.now t) with row := c 0x4002000C % 65536, dest := c 0x4002000C / 65536 } }) ∧
    exec (.registerWrite t 0x40000FFC v) s = .next a ∧
    (∀ x, x % 4 = 0 → inSram x 4 = true → Memory.wf s.mem = true → ∃ m, exec (.registerWrite t x v) s = .next { a with mem := m } ∧
      memRead m x 4 = leBytes 4 (c x) ∧ (∀ y, y < x ∨ x + 4 ≤ y → memGet m y = memGet s.mem y) ∧ Memory.wf m = true)

/-- Periodic work of core firmware: a batch of events that is full or a second old joins the log; OperatingSeconds is saved
every 60 s; the SMBus list is polled every second, and a target that does not answer reads 0xFFFF and is counted. -/
def Obligations.PeriodicWork : Prop :=
  ∀ (s : State) (t : Nat), let a := s.advance t
    (s.writable = true → s.evs.numbered = true →
      128 ≤ s.evs.staged.length ∨ (0 < s.evs.staged.length ∧ s.evs.stagedAt + nsSec ≤ max s.now t) →
      exec (.eventBatchAppend t) s = .next (a.appendBatch.logTrim).goneOn) ∧
    (s.mode.mode.powered = true → s.evs.lastSave + 60 * nsSec ≤ max s.now t →
      exec (.operatingSecondsSave t) s
        = .next { a with evs := { s.evs with secsSaved := s.evs.secsBase + (max s.now t - s.evs.secsAt) / nsSec, lastSave := max s.now t } }) ∧
    (∀ res, s.shelf.coreAnswers = true → s.mode.mode ≠ .halt → s.mode.mode ≠ .dormant → s.mode.lastPoll + nsSec ≤ max s.now t →
      let w := (List.range ((s.str K.smbusPollList).length / 2)).map (smbusWord res)
      exec (.smbusPoll t res) s
        = .next ((({ a with mode := { s.mode with lastPoll := max s.now t } } : State).setStr K.smbusPollValues (w.flatMap fun x => beBytes 2 x.2)).addTo
            K.smbusErrors (w.filter fun x => !x.1).length)) ∧
    (∀ res i v, res[i]? = some (1, v) → smbusWord res i = (true, v % 65536)) ∧
    (∀ res i, (∀ v, res[i]? ≠ some (1, v)) → smbusWord res i = (false, 0xFFFF))

/-- Setting up a DMA channel: EN is accepted with a ring size that is a power of two from 4 to 4,096 and an allowed CHAIN_SRC,
and refused otherwise with ERR and ERR_FIELD (3); TRIG and CHAIN_SRC are locked while EN is set; a ring register write while EN
is clear sets the base or the size and sets HEAD to 0. -/
def Obligations.DmaChannelSetup : Prop :=
  ∀ (s : State) (t n : Nat), s.domOn .core = true → n < 16 →
    (∀ v, (s.ch n).en = false →
      let c : DmaCh := { s.ch n with trig := fieldAt v 1 2, chainSrc := fieldAt v 4 4, prio := fieldAt v 8 2, doneIe := bitAt v 10, errIe := bitAt v 11 }
      let good := (s.ch n).ringSize ∈ [4, 8, 16, 32, 64, 128, 256, 512, 1024, 2048, 4096] ∧ fieldAt v 4 4 ≠ n ∧ (12 ≤ n → 12 ≤ fieldAt v 4 4)
      (good → exec (.dmaEnable t n v) s = .next ((s.advance t).setCh n { c with en := true, st := .idle, enAt := max s.now t, ticks := 0 })) ∧
      (¬ good → exec (.dmaEnable t n v) s
        = .next (((s.advance t).setCh n { c with st := .disabled, err := true, lastErr := 3 }).hwSet (dmaStatusAt n) 0x10))) ∧
    (∀ v, (s.ch n).en = true → exec (.dmaEnable t n v) s
      = .next ((s.advance t).setCh n { s.ch n with prio := fieldAt v 8 2, doneIe := bitAt v 10, errIe := bitAt v 11 })) ∧
    (∀ v, v < 2 ^ 32 → (s.ch n).en = false →
      exec (.dmaRingRegWrite t n 0x08 v) s
        = .next ((s.advance t).setCh n { s.ch n with ring := (s.ch n).ring / 2 ^ 32 * 2 ^ 32 + v / 64 * 64, head := 0 }) ∧
      exec (.dmaRingRegWrite t n 0x0C v) s
        = .next ((s.advance t).setCh n { s.ch n with ring := (if 12 ≤ n then 0 else v) * 2 ^ 32 + (s.ch n).ring % 2 ^ 32, head := 0 }) ∧
      exec (.dmaRingRegWrite t n 0x10 v) s = .next ((s.advance t).setCh n { s.ch n with ringSize := v % 2 ^ 13, head := 0 })) ∧
    (∀ reg v, (s.ch n).en = true → exec (.dmaRingRegWrite t n reg v) s = .next (s.advance t))

/-- Triggers, disable, completion and bus errors of a channel. A trigger that finds a run sets PENDING; one that finds the
channel IDLE starts a run at the descriptor of HEAD. A disable ends the current descriptor with ABORTED (2) after a multiple of
64 destination bytes, or all of them; a completion moves every byte, writes back OK (0) or NOOP (1) and counts; a bus error
writes back ERR_BUS (4), while a failed fetch writes nothing and leaves HEAD. -/
def Obligations.DmaRuns : Prop :=
  ∀ (s : State) (t n : Nat), s.domOn .core = true → n < 16 → (∀ k, k < 16 → (s.ch k).st ≠ .parked) →
    let a := s.advance t
    let c := s.ch n
    (c.st = .running → exec (.dmaDoorbell t n) s = .next (a.setCh n { c with pending := true })) ∧
    (∀ d, c.st = .idle → a.ringReadable n c.descAddr = true → readDesc s.mem c.descAddr = d → bitAt d.ctrl 0 = true →
      d.lineCount ≠ 0 → d.fieldOk = true → (12 ≤ n → a.sandboxOk d = true) → a.descDomsOn n d = true →
      exec (.dmaDoorbell t n) s = .next (a.setCh n { c with st := .running, runCount := 1, curAt := max s.now t, cur := some d })) ∧
    (c.st = .idle → c.en = true → c.trig = 1 → c.period ≠ 0 → c.enAt + (c.ticks + 1) * c.period * 1000 ≤ max s.now t →
      exec (.dmaTimerTrigger t n) s = .next ((a.setCh n { c with ticks := c.ticks + 1 }).dmaTrigger n)) ∧
    (∀ d bytes, c.en = true → c.cur = some d →
      exec (.dmaDisable t n bytes) s
        = .next ((a.dmaFinish n d 2 (min d.bytes (ceilDiv bytes 64 * 64))).setCh n
            { c with head := c.nextHead, cur := none, en := false, st := .disabled, pending := false }).settleQuiesce) ∧
    (∀ d addr bytes, c.st = .running → c.cur = some d → 0 < c.runCount →
      (let e := a.dmaError n c 6 addr
       exec (.dmaBusError t n addr bytes true) s = .next (State.triggers 256 e (e.chainedTo n)).settleQuiesce) ∧
      (let f := a.dmaFinish n d 4 (min d.bytes bytes)
       let e := f.dmaError n (f.ch n) 4 addr
       exec (.dmaBusError t n addr bytes false) s = .next (State.triggers 256 e (e.chainedTo n)).settleQuiesce)) ∧
    (∀ d, c.st = .running → c.cur = some d → c.pending = false → (siteCh n = true → (a.siteRate c d.bytes).1 = true) →
      let b : State := if siteCh n then { a with site := { a.site with dmaWindow := a.now / nsMs, dmaSpent := (a.siteRate c d.bytes).2 } } else a
      let f := b.dmaFinish n d (if d.lineCount = 0 then 1 else 0) d.bytes
      let c' : DmaCh := { c with head := c.nextHead, cur := none, done := c.done || bitAt d.ctrl 4, doneCount := (c.doneCount + 1) % 2 ^ 32 }
      let g := (if bitAt d.ctrl 4 then (f.setCh n c').hwSet (dmaStatusAt n) 8 else f.setCh n c').bump K.dmaDescriptorsCompleted
      (bitAt d.ctrl 6 = true → s.chainedTo n = [] →
        exec (.dmaDescriptorComplete t n) s = .next (g.setCh n { c' with st := .idle }).settleQuiesce) ∧
      (bitAt d.ctrl 6 = false → (g.takeDesc n).2 = false →
        exec (.dmaDescriptorComplete t n) s = .next (g.takeDesc n).1.settleQuiesce))

/-- The reshuffle modes are permutations: INTERLEAVE and DEINTERLEAVE, and BITPLANE_SPLIT and BITPLANE_MERGE, undo each other on
every descriptor length that their MODE allows. -/
def Obligations.ReshuffleModesInvert : Prop :=
  (∀ w g n k, 0 < w → 0 < g → n % (w * g) = 0 → k < n →
    interleaveDst w g n k < n ∧ interleaveSrc w g n (interleaveDst w g n k) = k ∧
    interleaveSrc w g n k < n ∧ interleaveDst w g n (interleaveSrc w g n k) = k) ∧
  (∀ (x y : DmaDesc) (src : Nat → Byte) (k : Nat), x.mode = 3 → y.mode = 4 → x.param = y.param → 0 < x.plane →
    y.destByte (x.destByte src) k = src k ∧ x.destByte (y.destByte src) k = src k)

/-- What a descriptor does to memory: every byte that no destination line holds reads as before; where no two destination bytes
share an address, each holds the reshuffled source byte. -/
def Obligations.DescriptorMovesBytes : Prop :=
  ∀ (m : List Host.Cell) (x : DmaDesc) (n : Nat), Memory.wf m = true →
    let at_ := lineByte x.dst x.dstStride x.lineLen
    (∀ a, (∀ d, d < n → at_ d ≠ a) → memGet (moveBytes m x n) a = memGet m a) ∧
    ((∀ i j, i < n → j < n → at_ i = at_ j → i = j) → ∀ d, d < n →
      memGet (moveBytes m x n) (at_ d) = x.destByte (fun k => memGet m (lineByte x.src x.srcStride x.lineLen k)) d)

/-- The power handshake: main power that comes up in DORMANT starts MUSTER, toward SERVE where none was asked for; its fall
makes the drive DORMANT, with event 0x0104 where PWR_REQ is high and no flush has run since PFAIL_N fell; PWR_REQ falls with
event 0x0103 where power does not come; a filtered PFAIL_N starts the flush, and power that stays after it brings MUSTER. -/
def Obligations.PowerHandshake : Prop :=
  ∀ (s : State) (t : Nat), let a := s.advance t
    (∀ b, s.mode.mode = .dormant → s.mode.vstby = true → s.mode.porN = true →
      let up : State := { a with mode := { s.mode with pwrGoodCore := true, pwrGoodIo := true, leaving := .dormant }, media := { s.media with board := b } }
      (s.mode.pwrReq = true → exec (.pwrGoodCoreRise t b) s = .next (up.musterEntry trPower)) ∧
      (s.mode.pwrReq = false →
        let v := up.event 0x0105 [(1, 1), (1, bit s.mode.pfailN)]
        exec (.pwrGoodCoreRise t b) s
          = .next (({ v with mode := { v.mode with target := some .serve } } : State).musterEntry trPower))) ∧
    (s.mode.mode.powered = true → s.mode.held = none → s.inFlush = false →
      let down := ({ a with mode := { s.mode with pwrReq := false, pwrGoodCore := false, pwrGoodIo := false } } : State).enterDormant
      ((s.mode.pwrReq = true ∧ s.mode.flushedSincePfail = false) →
        exec (.pwrGoodCoreFall t) s = .next (down.event 0x0104 [(1, s.mode.mode.code)])) ∧
      (¬ (s.mode.pwrReq = true ∧ s.mode.flushedSincePfail = false) → exec (.pwrGoodCoreFall t) s = .next down)) ∧
    (s.mode.mode = .dormant → s.mode.pwrReq = true → s.mode.pwrGoodCore = false →
      s.mode.pwrReqAt + s.num K.pwrGoodTimeoutMs * nsMs ≤ max s.now t →
      exec (.pwrGoodTimeout t) s
        = .next (({ a with mode := { s.mode with pwrReq := false, target := none, alarmWake := false } } : State).event 0x0103
            [(2, s.num K.pwrGoodTimeoutMs), (1, bit s.mode.pwrGoodIo)])) ∧
    (∀ d, d < 300 → exec (.pfailNLow t d) s = .next a ∧ exec (.warmRstNLow t d) s = .next a ∧ exec (.porNLow t d) s = .next a) ∧
    (∀ d, 1000 ≤ d → s.mode.phase = .idle ∨ s.mode.phase = .draining →
      s.mode.mode = .serve ∨ s.mode.mode = .lull1 ∨ s.mode.mode = .sweep →
      exec (.pfailNLow t d) s
        = .next (({ a with mode := { s.mode with pfailN := false, flushedSincePfail := false, leaving := s.mode.mode } } : State).startFlush .pfail)) ∧
    (s.mode.phase = .awaitPower true → s.mode.pwrGoodCore = true → s.mode.warmRstN = true →
      exec (.postFlushReassert t) s
        = .next (({ a with mode := { s.mode with pfailN := true, pwrReq := true, pwrReqAt := max s.now t } } : State).warmMuster trReturn))

/-- Resets and standby power: a filtered WARM_RST_N starts the flush, and its rise releases the reset once the flush has ended;
POR_N resets everything at once with no flush; after it rises, and when VSTBY comes up, Heel starts XTAL32K and WOSC and owes
the boot-up message; VSTBY's loss takes what Heel holds; a stable XTAL32K starts the CAN controller and leaves a trim held for
WOSC. -/
def Obligations.ResetsAndStandby : Prop :=
  ∀ (s : State) (t : Nat), let a := s.advance t
    (∀ d, 1000 ≤ d → exec (.warmRstNLow t d) s = .next (({ a with mode := { s.mode with warmRstN := false } } : State).resetFlush trWarm)) ∧
    (s.mode.phase = .resetHeld → s.mode.held ≠ some .dormant →
      exec (.warmRstNRise t) s = .next (({ a with mode := { s.mode with warmRstN := true } } : State).warmMuster s.mode.trig)) ∧
    (∀ d, 1000 ≤ d →
      let u := a.aonReset false
      exec (.porNLow t d) s = .next { u with mode := { u.mode with porN := false } }) ∧
    (s.mode.porN = false → s.mode.vstby = true →
      exec (.porNRise t) s = .next ({ a with mode := { s.mode with porN := true } } : State).heelStart) ∧
    (s.mode.vstby = false → s.mode.porN = true →
      let l := s.dict.vals.filter fun x => x.1 / 256 != 0x2003
      exec (.vstbyApply t) s
        = .next ({ a with mode := { s.mode with vstby := true }, dict := { s.dict with vals := l } } : State).heelStart) ∧
    (s.mode.vstby = true → exec (.vstbyLoss t) s = .next (a.aonReset true)) ∧
    ((s.src .xtal32k).st = .starting →
      let v := (a.srcTo .xtal32k .healthy 0).srcTo .wosc .healthy 0
      let u := { v with clk := { v.clk with woscTrimHeld := true } }
      (u.shelf.bootOwed = true → exec (.xtal32kStable t) s = .next u.bootUp) ∧
      (u.shelf.bootOwed = false → exec (.xtal32kStable t) s
        = .next { u with shelf := { u.shelf with running := true, lastTraffic := u.now } })) ∧
    (∀ power, let u := a.aonReset power
      u.mode.mode = .dormant ∧ u.mode.phase = .idle ∧ u.mode.pwrReq = false ∧ u.shelf.queue = [] ∧ u.evs.heel = [] ∧ u.dict.heel = [] ∧
      u.clk.rtcInvalid = true ∧ u.net.sessions = [] ∧ u.kv.cmds = [] ∧ u.site.st = 0 ∧ u.fw.flash = s.fw.flash ∧ u.fw.otp = s.fw.otp)

/-- LULL, draining and the end of a flush: an idle drive enters LULL-1 and, with nothing holding it, LULL-2; an exit trigger
ends LULL; a drain that is done goes on to its target; a wake alarm's SWEEP ends by itself; the end of the hold-up flush is
recorded and the transition goes on; HOLDUP_OK's levels are recorded with EMCY 0x3300 standing while it is low, and every
running write then waits for the media. -/
def Obligations.LullAndFlush : Prop :=
  ∀ (s : State) (t : Nat), let a := s.advance t
    (s.mode.mode = .serve → a.idle = true → s.mode.idleSince + s.num K.lullEnterMs * nsMs ≤ max s.now t →
      let u := (((a.modeNotice .lull1 0).bump K.lullEntries).enterMode .lull1 trIdle)
      exec (.lull1Entry t) s
        = .next { u with mode := { u.mode with lull1At := u.now }, clk := { u.clk with coreRamp := 1, kvRamp := 1, gatedDoms := [.media, .welt] } }) ∧
    (s.mode.mode = .lull1 → a.idle = true → s.clk.lullHold = false → a.dmaHolds .dram = false → a.dmaHolds .media = false →
      a.dmaHolds .welt = false → s.mode.lull1At + s.num K.lull2EnterMs * nsMs ≤ max s.now t →
      ∃ u, exec (.lull2Entry t) s = .next u ∧ u.mode.mode = .lull2 ∧ u.media.wpN = false ∧ u.mem = (a.modeNotice .lull2 0).mem) ∧
    (∀ trig, s.mode.mode = .lull1 ∨ s.mode.mode = .lull2 →
      exec (.lullExit t trig) s = .next ((a.modeNotice .serve 0).lullExit trExit)) ∧
    (s.settled .sweep = true → s.mode.alarmWake = true → s.mode.nmtSinceWake = false →
      (∀ ds, ds < a.dieSets → a.num K.gcStartFree ≤ a.freeCount ds) → a.media.sbs.any a.scanIsDue = false →
      exec (.sweepAutoEnd t) s = .next (a.requestMode .dormant trSweepEnd).1) ∧
    (s.mode.phase = .draining → s.kv.cmds = [] → exec (.serveDrainEnd t) s = .next a.drainDone) ∧
    (∀ u, s.mode.drainUntil = some u → s.mode.phase = .draining → s.mode.target = some .halt → u ≤ max s.now t →
      exec (.haltDrainTimeout t) s = .next a.drainDone) ∧
    (s.mode.phase = .flushing .trip →
      let w := a.writeOut
      let r := w.1.flushReport w.2 ((max s.now t - s.mode.flushAt) / 1000)
      exec (.holdupFlushEnd t) s
        = .next { r with mode := { r.mode with flushedSincePfail := true, phase := .awaitPower false, pwrReq := false } }) ∧
    (s.mode.phase = .flushing .pfail →
      let w := a.writeOut
      let r := w.1.flushReport w.2 ((max s.now t - s.mode.flushAt) / 1000)
      exec (.holdupFlushEnd t) s
        = .next { r with mode := { r.mode with flushedSincePfail := true, phase := .awaitPower true, pwrReq := false } }) ∧
    (s.mode.holdupOk = false → s.mode.mode.powered = true →
      exec (.holdupOkAssert t) s
        = .next ((({ a with mode := { s.mode with holdupOk := true } } : State).event 0x080A [(1, 1)]).condOff 0x3300)) ∧
    (s.mode.holdupOk = true → s.mode.mode.powered = true → (∀ r ∈ s.media.recs, r.units = []) →
      let e := ({ a with mode := { s.mode with holdupOk := false } } : State).eventEmcy 0x080A [(1, 0)] 0x3300 true
      exec (.holdupOkDeassert t) s = .next { e with kv := { e.kv with
        cmds := e.kv.cmds.map fun (c : CmdCtx) => { c with write := c.write.map fun w => { w with mediaFirst := true } } } }) ∧
    (s.mode.holdupOk = true → s.mode.mode.powered = true →
      ∃ u, exec (.holdupOkDeassert t) s = .next u ∧ ∀ c ∈ u.kv.cmds, ∀ w, c.write = some w → w.mediaFirst = true)

/-- Thermal control and the wake alarm: a sample below the trip point is kept and counts the seconds of a standing cap; at the
trip point in SERVE the drive records event 0x0107 and flushes toward DORMANT; every 100 ms a hot drive's cap falls by
ThermalStepTokens, not below 16, and a cool one's rises until it is removed; the alarm asks for power with target SWEEP. Domains
and refused power-downs: a waiting domain whose clock runs comes up; a descriptor not done 1 ms after the request refuses the
power-down, counted with event 0x0102; after 10 ms it is tried again, and after 100 refusals the channel is disabled. -/
def Obligations.ThermalAndDomains : Prop :=
  (∀ (s : State) (t : Nat), let a := s.advance t
      (∀ temp : Int, s.mode.mode.powered = true → temp < signed16 (s.num K.thermalTripC) →
        let c := if s.mode.cap.isSome then a.addTo K.thermalCapSeconds (max s.now t / nsSec - s.mode.sampleAt / nsSec) else a
        let cool := if temp < signed16 (s.num K.thermalThrottleC) - 5 then some (s.mode.coolSince.getD (max s.now t)) else none
        exec (.thermalSample t temp) s = .next { c with mode := { s.mode with tempC := temp, sampleAt := max s.now t, coolSince := cool } }) ∧
      (∀ temp : Int, s.mode.mode = .serve → s.mode.phase = .idle → s.mode.cap = none → signed16 (s.num K.thermalTripC) ≤ temp →
        signed16 (s.num K.thermalThrottleC) ≤ temp →
        let e := ({ a with mode := { s.mode with tempC := temp, sampleAt := max s.now t, coolSince := none } } : State).event 0x0107 [(2, (temp % 65536).toNat)]
        exec (.thermalSample t temp) s
          = .next (({ e with mode := { e.mode with leaving := e.mode.mode, target := some .dormant, trig := trTrip } } : State).startFlush .trip)) ∧
      (s.mode.mode.powered = true → s.mode.lastThermalStep + 100 * nsMs ≤ max s.now t →
        let b : State := { a with mode := { s.mode with lastThermalStep := max s.now t } }
        (signed16 (s.num K.thermalThrottleC) ≤ s.mode.tempC →
          exec (.thermalStep t) s = .next (b.capTo (some (max 16 (s.mode.cap.getD b.tokenLimit - s.num K.thermalStepTokens))) true)) ∧
        (∀ c u, s.mode.tempC < signed16 (s.num K.thermalThrottleC) → s.mode.cap = some c → s.mode.coolSince = some u → u + nsSec ≤ max s.now t →
          exec (.thermalStep t) s
            = .next (b.capTo (if s.num K.powerTokenLimit ≤ c + s.num K.thermalStepTokens then none else some (c + s.num K.thermalStepTokens)) false))) ∧
      (s.mode.mode = .dormant → s.num K.wakeIntervalHours ≠ 0 → s.mode.pwrReq = false →
        s.mode.dormantRtc + (s.mode.alarmsUsed + 1) * s.num K.wakeIntervalHours * 3600 ≤ a.rtc →
        let e := a.event 0x0108 [(8, a.rtc), (2, s.num K.wakeIntervalHours)]
        exec (.wakeAlarm t) s
          = .next (({ e with mode := { e.mode with alarmsUsed := e.mode.alarmsUsed + 1, alarmWake := true, nmtSinceWake := false } } : State).askPower .sweep trAlarm))) ∧
  (∀ (s : State) (t : Nat), let a := s.advance t
      (∀ d, s.clk.upWaiting.contains d = true → a.clockOk d = true → s.clk.quiesce.any (·.1 == d) = false → d ≠ .netA → d ≠ .netB →
        exec (.domainPowerUp t d) s
          = .next (({ a with clk := { s.clk with upWaiting := s.clk.upWaiting.filter (· != d) } } : State).domTo d .on).dmaResume) ∧
      (∀ ch d at_ k, s.clk.quiesce.find? (·.1 == d) = some (d, at_, k) → s.dom d = .changing → at_ + nsMs ≤ max s.now t →
        (a.dmaBusy d).contains ch = true →
        let e := (a.bump K.domainPowerDownsRefused).event 0x0102 [(4, d.idx), (4, ch), (8, (s.ch ch).descAddr)]
        let rest := e.clk.quiesce.filter (·.1 != d)
        let l := if e.quiesceRepeats then rest ++ [(d, e.now, k + 1)] else rest
        let q : State := { e with clk := { e.clk with quiesce := l }, mode := { e.mode with lull1At := e.now } }
        exec (.dmaQuiesceTimeout t ch d) s = .next (q.domTo d .on).dmaResume) ∧
      (∀ ch d bytes at_ k, s.clk.quiesce.find? (·.1 == d) = some (d, at_, k) → s.dom d = .on → at_ + 10 * nsMs ≤ max s.now t →
        let f := if 100 ≤ k ∧ (a.dmaBusy d).contains ch = true then a.dmaForce ch bytes 2 else a
        let l := f.clk.quiesce.map fun (x : Dom × Nat × Nat) => if x.1 = d then (d, f.now, x.2.2) else x
        let q : State := { f with clk := { f.clk with quiesce := l } }
        exec (.dmaQuiesceRetry t ch d bytes) s = .next (q.domTo d .changing).settleQuiesce))

/-- Source monitoring: a HEALTHY source that gives no edge in 64 reference cycles, or that lies outside five percent in a second
window in a row, becomes DEAD; a DEAD one becomes HEALTHY at its sixteenth window in a row within five percent; other windows
only count. Entering DEAD records event 0x0C01 and sends EMCY 0x5030. Clock commands: a monitor window is judged and NPLL,
CLKOUT and the faults follow; a clock stop that does not complete is forced, unless FSO is DEAD; a loss of lock is recorded with
event 0x0C02, CPLL then flushing and the others relocking; a relock within its time ends it, and one beyond 100 us makes the
PLL's domain switch by force. -/
def Obligations.SourcesAndPlls : Prop :=
  (∀ (s : State) (x : Source) (count : Nat), let v := s.src x
      (v.st = .healthy →
        s.monitor x count true = s.srcTo x .dead count ∧
        (x.within count = true → s.monitor x count false = s.setSrc x { v with bad := 0, good := v.good + 1, lastCount := count }) ∧
        (x.within count = false → v.bad = 1 → s.monitor x count false = s.srcTo x .dead count) ∧
        (x.within count = false → v.bad = 0 → s.monitor x count false = s.setSrc x { v with bad := 1, good := 0, lastCount := count })) ∧
      (v.st = .dead →
        (∀ gap, gap = true ∨ x.within count = false → s.monitor x count gap = s.setSrc x { v with good := 0, lastCount := count }) ∧
        (x.within count = true → v.good ≠ 15 → s.monitor x count false = s.setSrc x { v with good := v.good + 1, lastCount := count }) ∧
        (x.within count = true → v.good = 15 → s.monitor x count false = s.srcTo x .healthy count)) ∧
      (v.st = .off → s.monitor x count true = s ∧ s.monitor x count false = s) ∧
      (v.st ≠ .dead → x ≠ .xtal32k → (s.clk.fmc.busy = false) →
        let n := (s.setSrc x { v with st := .dead, bad := 0, good := 0, edges := 0, lastCount := count }).cpcIrq 4
        s.srcTo x .dead count
          = ((n.bump K.sourceDeadEvents).eventEmcy 0x0C01 [(4, x.idx), (4, v.st.code), (4, 2 + 1), (4, count)] 0x5030 false).pllsFollow) ∧
      (s.mode.mode = .dormant → (s.src .xtal32k).st ≠ .dead → (s.srcTo .xtal32k .dead count).clk.rtcInvalid = true) ∧
      (∀ c, Source.xtal25.within c = decide (244 ≤ c ∧ c ≤ 268)) ∧ (∀ c, Source.fso.within c = decide (3892 ≤ c ∧ c ≤ 4300)) ∧
      (∀ c, Source.wosc.within c = decide (390 ≤ c ∧ c ≤ 430)) ∧ (∀ c, Source.ethRefclk.within c = decide (1520 ≤ c ∧ c ≤ 1680))) ∧
  (∀ (s : State) (t : Nat), let a := s.advance t
      (∀ x count gap, exec (.clockMonitorWindow t x count gap) s
        = .next ((((a.monitor x count gap).npllReturn).clkoutCheck).noteFaults)) ∧
      (∀ d users, (s.src .fso).st ≠ .dead → s.dom d ≠ .off ∨ d = .aon → exec (.clockSwitchTimeout t d users) s = .next (a.forcedSwitch d users)) ∧
      (∀ d users, (s.src .fso).st = .dead → exec (.clockSwitchTimeout t d users) s = .next a) ∧
      (∀ p, (s.pll p).locked = true →
        let e := a.event 0x0C02 [(4, p.idx), (4, refCode (s.pll p).ref), (4, refCode (s.pll p).ref)]
        (p ≠ .cpll → exec (.pllLossOfLock t p) s
          = .next (e.setPll p { s.pll p with locked := false, relockSince := some e.now })) ∧
        (p = .cpll →
          let f := e.setPll .cpll { s.pll .cpll with locked := false, failed := true }
          exec (.pllLossOfLock t .cpll) s
            = .next (({ f with clk := { f.clk with onFso := [.core, .kv, .media, .welt, .sec] } } : State).resetFlush trCpll))) ∧
      (∀ p u, (s.pll p).relockSince = some u →
        exec (.pllLock t p) s = .next (a.setPll p { s.pll p with locked := true, relockSince := none }) ∧
        (u + 100000 ≤ max s.now t →
          let f := a.setPll p { s.pll p with relockSince := none, failed := true }
          exec (.pllRelockTimeout t p) s
            = .next (match p with | .mpll => f.forcedSwitch .dram [] | .fpll => f.forcedSwitch .media [] | _ => f))))

/-- Clock gates and counter 1: a gate closes only with no transaction outstanding, a request deferred for 1,024 network cycles
is abandoned and counted, and an access reopens the gate; a measurement starts, is refused with DONE and ERR, and ends early or
at its window's end with the edges counted, modulo 2^48. -/
def Obligations.GatesAndCounter : Prop :=
  ∀ (s : State) (t : Nat), let a := s.advance t
    (∀ b n, s.domOn .core = true → (s.gate b).closed = false →
      exec (.gateIdleClose t b n) s
        = .next (a.setGate (if n = 0 then { s.gate b with closed := true, pending := none, outstanding := 0 }
            else { s.gate b with pending := some ((s.gate b).pending.getD (max s.now t)), outstanding := n }))) ∧
    (∀ b u, (s.gate b).pending = some u → u + gateDeferNs ≤ max s.now t →
      exec (.gateDeferralTimeout t b) s
        = .next (((a.setGate { s.gate b with pending := none, outstanding := 0 }).bump K.gateDeferralsAbandoned).event 0x0C04
            [(4, b), (4, (s.gate b).outstanding)])) ∧
    (∀ b, (s.gate b).closed = true → exec (.gateReopen t b) s = .next (a.setGate { s.gate b with closed := false })) ∧
    (s.domOn .core = true → s.clk.fmc.busy = false →
      (s.fmcRefused = true → exec (.fmcStart t) s
        = .next ((a.setFmc { s.clk.fmc with done := true, err := true }).hwSet fmcStatusAt 6)) ∧
      (s.fmcRefused = false →
        let dead := match fmcSrc s.clk.fmc.src with | some x => (s.src x).st == .dead | none => false
        let u := a.setFmc { s.clk.fmc with busy := true, count := 0, srcDead := s.clk.fmc.srcDead || dead }
        exec (.fmcStart t) s = .next (if dead then u.hwSet fmcStatusAt 8 else u))) ∧
    (s.domOn .core = true → s.clk.fmc.busy = true → ∀ count,
      let u := (a.setFmc { s.clk.fmc with busy := false, done := true, count := count % 2 ^ 48 }).hwSet fmcStatusAt 2
      exec (.fmcStop t count) s = .next u ∧ exec (.fmcWindowEnd t count) s = .next u ∧ exec (.fmcStart t) s = .next a) ∧
    (s.clk.fmc.window = 0 → s.fmcRefused = true)

/-- USDO uploads: a value that fits one frame is answered with it; a longer one, or one asked for in segments, is copied and its
length answered; each segment carries the next 56 bytes of the copy and the last ends the transfer; an abort code of the
dictionary ends the request. During an execution pause a request waits for its end. The frame layout is the model's (log 34).
USDO downloads: one frame's value is applied at once; a segmented one is collected and applied whole with its last segment, if
its length is the one announced; the end is answered, or waits for the settings store; an abort or a timeout closes the transfer
and changes nothing. -/
def Obligations.UsdoTransfers : Prop :=
  (∀ (s : State) (t node idx sub : Nat), s.shelf.running = true →
      let a := (s.advance t).canRx true
      (s.paused = true → exec (.usdoExpeditedUpload t node idx sub) s = .next (a.delay (.upload node idx sub false)) ∧
        exec (.usdoSegmentedUploadInit t node idx sub) s = .next (a.delay (.upload node idx sub true)) ∧
        exec (.usdoUploadSegment t node) s = .next (a.delay (.uploadSegment node))) ∧
      (s.paused = false →
      let g := a.dictGet (.shelf node) idx sub
      let id := 0x580 + g.1.shelf.nodeId
      (a.usdoBusy node = false →
        (∀ b v, g.2.2 = .value b → g.1.usdoValue node g.2.1 b = .ok v → v.length ≤ g.1.usdoMax →
          let copied := (g.1.setTransfer { node := node, upload := true, idx := idx, sub := sub, data := v, sent := 0, total := v.length, lastAt := g.1.now }).canSend id (beBytes 1 node ++ [0x41] ++ beBytes 2 idx ++ beBytes 1 sub ++ beBytes 4 v.length)
          (v.length ≤ 56 → exec (.usdoExpeditedUpload t node idx sub) s
            = .next (g.1.canSend id (beBytes 1 node ++ [0x43] ++ beBytes 2 idx ++ beBytes 1 sub ++ v))) ∧
          (56 < v.length → exec (.usdoExpeditedUpload t node idx sub) s = .next copied) ∧
          exec (.usdoSegmentedUploadInit t node idx sub) s = .next copied) ∧
        (∀ c, g.2.2 = .abort c →
          exec (.usdoExpeditedUpload t node idx sub) s = .next (g.1.usdoAbort node idx sub c) ∧
          exec (.usdoSegmentedUploadInit t node idx sub) s = .next (g.1.usdoAbort node idx sub c))) ∧
      (a.usdoBusy node = true → exec (.usdoExpeditedUpload t node idx sub) s = .next (a.usdoAbort node idx sub 0x05040005)) ∧
      (∀ x, a.transfer? node = some x → x.upload = true →
        let part := (x.data.drop x.sent).take 56
        (x.sent + part.length < x.data.length →
          exec (.usdoUploadSegment t node) s
            = .next ((a.setTransfer { x with sent := x.sent + part.length, lastAt := a.now }).canSend (0x580 + s.shelf.nodeId)
                (beBytes 1 node ++ [0x44] ++ part))) ∧
        (x.data.length ≤ x.sent + part.length →
          exec (.usdoUploadSegment t node) s
            = .next ((a.dropTransfer node).canSend (0x580 + s.shelf.nodeId) (beBytes 1 node ++ [0x45] ++ part)))))) ∧
  (∀ (s : State) (t node idx sub : Nat), s.shelf.running = true → s.paused = false →
      let a := (s.advance t).canRx true
      (∀ b, a.usdoBusy node = false → b.length ≤ a.usdoMax →
        let w := a.dictSet (.shelf node) idx sub b
        (∀ c, w.2.2 = .abort c → exec (.usdoExpeditedDownload t node idx sub b) s = .next (w.1.usdoAbort node idx sub c)) ∧
        (w.2.2 = .ok → exec (.usdoExpeditedDownload t node idx sub b) s
          = .next (w.1.canSend (0x580 + w.1.shelf.nodeId) (usdoOk node idx sub))) ∧
        (w.2.2 = .stored → exec (.usdoExpeditedDownload t node idx sub b) s = .next (w.1.awaitStore (.shelf node idx sub)))) ∧
      (∀ total b, a.usdoBusy node = false → max total b.length ≤ a.usdoMax →
        exec (.usdoSegmentedDownloadInit t node idx sub total b) s
          = .next ((a.setTransfer { node := node, upload := false, idx := idx, sub := sub, data := b, sent := 0, total := total, lastAt := a.now }).canSend
              (0x580 + s.shelf.nodeId) (beBytes 1 node ++ [0x61] ++ beBytes 2 idx ++ beBytes 1 sub))) ∧
      (∀ x b, a.transfer? node = some x → x.upload = false → (x.data ++ b).length ≤ a.usdoMax →
        exec (.usdoDownloadSegment t node b false) s
          = .next ((a.setTransfer { x with data := x.data ++ b, lastAt := a.now }).canSend (0x580 + s.shelf.nodeId) (beBytes 1 node ++ [0x62])) ∧
        ((x.data ++ b).length = x.total →
          exec (.usdoDownloadSegment t node b true) s = .next ((a.dropTransfer node).usdoApply node x.idx x.sub (x.data ++ b))) ∧
        ((x.data ++ b).length ≠ x.total →
          exec (.usdoDownloadSegment t node b true) s = .next ((a.dropTransfer node).usdoAbort node x.idx x.sub 0x06070010))) ∧
      exec (.usdoAbort t node) s = .next (a.dropTransfer node) ∧
      (∀ x, (s.advance t).transfer? node = some x → x.lastAt + s.num K.usdoTimeoutMs * nsMs ≤ max s.now t →
        exec (.usdoTimeout t node) s = .next (((s.advance t).dropTransfer node).usdoAbort node x.idx x.sub 0x05040000)))

/-- NMT commands addressed to this node, or to all, ask for SERVE, DORMANT or SWEEP, or reset the controller, and with Reset
node flush and reset the part unless it has flushed already; on the way to HALT or during a flush each is ignored and counted,
and so is a request that the mode does not allow; one for another node only counts as received. -/
def Obligations.NmtCommands : Prop :=
  ∀ (s : State) (t node : Nat), s.shelf.running = true →
    let r := (s.advance t).canRx true
    let w := ({ r with mode := { r.mode with nmtSinceWake := true } } : State).wakeLull
    (node ≠ 0 → node ≠ s.shelf.nodeId → ∀ i, i ∈ [Instr.nmtStartRemoteNode t node, .nmtStopRemoteNode t node,
        .nmtEnterPreOperational t node, .nmtResetNode t node, .nmtResetCommunication t node] →
      exec i s = .next ((s.advance t).canRx false)) ∧
    (node = 0 ∨ node = s.shelf.nodeId → s.mode.target = some .halt ∨ s.inFlush = true → ∀ i, i ∈ [Instr.nmtStartRemoteNode t node,
        .nmtStopRemoteNode t node, .nmtEnterPreOperational t node, .nmtResetNode t node, .nmtResetCommunication t node] →
      exec i s = .next (r.bump K.nmtIgnored)) ∧
    (node = 0 ∨ node = s.shelf.nodeId → s.mode.target ≠ some .halt → s.inFlush = false →
      (let go (m : Mode) : State := if (w.requestMode m trNmt).2 then (w.requestMode m trNmt).1 else (w.requestMode m trNmt).1.bump K.nmtIgnored
       exec (.nmtStartRemoteNode t node) s = .next (go .serve) ∧ exec (.nmtStopRemoteNode t node) s = .next (go .dormant) ∧
       exec (.nmtEnterPreOperational t node) s = .next (go .sweep)) ∧
      (let c := w.commReset
       ((∀ b, c.mode.phase ≠ .awaitPower b) → c.mode.phase ≠ .resetHeld → exec (.nmtResetNode t node) s = .next (c.resetFlush trNmt)) ∧
       ((∃ b, c.mode.phase = .awaitPower b) ∨ c.mode.phase = .resetHeld → exec (.nmtResetNode t node) s = .next c)) ∧
      exec (.nmtResetCommunication t node) s = .next w.commReset)

/-- TIME, heartbeat and EMCY: a TIME frame under TimeCobId sets the RTC from days and milliseconds unless PTP is LOCKED; a
heartbeat carries the byte of the mode and restarts its period; the oldest EMCY frame goes EmcyInhibitMs after the last. Waking
and the controller's error states: a dominant level of 1 us or longer starts WOSC and a controller that is stopped, one shorter
than 0.3 us never; WakeIdleMs without traffic stops them; a wake frame received is ignored; bus-off recovery and error-passive
are counted and reported, error-passive standing until it ends. -/
def Obligations.ShelfBus : Prop :=
  (∀ (s : State) (t : Nat), let a := s.advance t
      (∀ cobid ms days, s.shelf.running = true → bitAt (s.num K.timeCobId) 31 = true → cobid % 2048 = s.num K.timeCobId % 2048 →
        ms < 2 ^ 28 → days < 2 ^ 16 → s.eth.ptp.st ≠ .locked →
        let r := (a.canRx true).bump K.timeFramesRx
        exec (.timeFrame t cobid ms days) s
          = .next { r with shelf := { r.shelf with rtcBase := days * 86400 + ms / 1000 + 441763200 + r.num K.taiUtcOffset, rtcAt := r.now },
                           clk := { r.clk with rtcInvalid := false } }) ∧
      (∀ cobid ms days, s.shelf.running = true → bitAt (s.num K.timeCobId) 31 = true → cobid % 2048 = s.num K.timeCobId % 2048 →
        s.eth.ptp.st = .locked → exec (.timeFrame t cobid ms days) s = .next ((a.canRx true).bump K.timeFramesRx)) ∧
      (s.num K.producerHeartbeatTime ≠ 0 → a.canReady = true → s.shelf.lastHeartbeat + s.num K.producerHeartbeatTime * nsMs ≤ max s.now t →
        let r := a.canSend (0x700 + s.shelf.nodeId) [BitVec.ofNat 8 s.mode.mode.heartbeat]
        exec (.heartbeat t) s = .next { r with shelf := { s.shelf with lastHeartbeat := r.now } }) ∧
      (∀ e rest, s.shelf.queue = e :: rest → a.canReady = true →
        (∀ u, s.shelf.lastEmcy = some u → u + s.num K.emcyInhibitMs * nsMs ≤ max s.now t) →
        let r := a.canSend (0x080 + s.shelf.nodeId) e.bytes
        exec (.emcySend t) s = .next { r with shelf := { s.shelf with queue := rest, lastEmcy := some r.now } }) ∧
      (∀ e : Emcy, e.bytes.length = 20)) ∧
  (∀ (s : State) (t : Nat), let a := s.advance t
      (∀ dur takes, s.shelf.running = false → s.shelf.bootOwed = false → s.mode.vstby = true → s.mode.porN = true →
        let u := a.setSrc .wosc { st := .healthy }
        (1000 ≤ dur ∨ (300 ≤ dur ∧ takes = true) → exec (.canWakeDominant t dur takes) s
          = .next { u with shelf := { s.shelf with running := true, woscRestarts := 0, lastTraffic := max s.now t } }) ∧
        (dur < 300 → exec (.canWakeDominant t dur takes) s = .next a)) ∧
      (s.mode.mode = .dormant → s.shelf.running = true → s.shelf.transfers = [] → s.shelf.queue = [] →
        s.shelf.lastTraffic + s.num K.wakeIdleMs * nsMs ≤ max s.now t →
        let u := a.setSrc .wosc {}
        exec (.wakeIdleTimeout t) s = .next { u with shelf := { s.shelf with running := false } }) ∧
      (s.shelf.running = true → exec (.wakeFrame t) s = .next (a.canRx false) ∧
        exec (.canBusOffRecovery t) s = .next ((a.bump K.canBusOffCount).emcy 0x8140 0 0 0)) ∧
      (s.shelf.running = true → s.shelf.errPassive = false → exec (.canErrorPassive t) s
        = .next ((({ a with shelf := { s.shelf with errPassive := true } } : State).condOn 0x8120).emcy 0x8120 0 0 0)) ∧
      (s.shelf.errPassive = true → exec (.canErrorPassiveEnd t) s
        = .next (({ a with shelf := { s.shelf with errPassive := false } } : State).condOff 0x8120)))

/-- What stops a dictionary write: an unknown index, an unknown subindex, missing rights, a mode that does not serve the client
or a wrong length answers its abort code and changes nothing; no client of the site writes anything; a numeric value outside its
range or constraints is refused too. -/
def Obligations.DictWriteRefused : Prop :=
  (∀ (s : State) (t : Nat) (c : Client) (idx sub : Nat) (b : Bytes), sub < 256 → s.writePasses c (idx * 256 + sub) b = false →
    (∃ x code, (s.dictSet c idx sub b) = (s, x, .abort code)) ∧
    (s.paused = false → (s.advance t).writePasses c (idx * 256 + sub) b = false → exec (.dictEntryWrite t c idx sub b) s = .next (s.advance t))) ∧
  (∀ (s : State) (idx sub : Nat) (b : Bytes) (r : DictRow), sub < 256 → dictRow? (idx * 256 + sub) = some r →
    s.dictSet .site idx sub b = (s, some r, .abort 0x06010002)) ∧
  (∀ (s : State) (c : Client) (r : DictRow) (n : Nat), r.key / 256 ≠ 0x1011 → r.key ≠ K.storeAll → r.key ≠ K.lifeCycleRequest →
    s.numOk r (maskReserved r.key n) = false → s.writeNum c r n = (s, .abort 0x06090030))

/-- Writes of settings: an accepted value is in effect at once, and a SYS value's write ends with the settings store; StoreAll
ends when the store holds what waits; a restore group is marked; PowerTokens carries PowerTokenLimit with it; a lowered limit
acts at its time; a port setting restarts the link. During an execution pause a write waits for its end. -/
def Obligations.SettingsWrites : Prop :=
  (∀ (s : State) (t : Nat) (c : Client) (idx sub : Nat) (b : Bytes), s.paused = true →
    exec (.dictEntryWrite t c idx sub b) s = .next ((s.advance t).delay (.write c (idx * 256 + sub) b))) ∧
  ∀ (s : State) (t : Nat) (c : Client), s.paused = false → let a := s.advance t
    (∀ idx sub b r w, sub < 256 → dictRow? (idx * 256 + sub) = some r → a.writeGuard c r b = 0 → r.typ.size = some w →
      let x := a.writeNum c r (ofBE b)
      exec (.dictEntryWrite t c idx sub b) s = .next (match x.2 with | .stored => x.1.awaitStore .none | _ => x.1)) ∧
    (a.writePasses c K.storeAll (beBytes 4 0x73617665) = true →
      (s.dict.waits = [] → exec (.storeAll t c 0x73617665) s = .next a) ∧
      (s.dict.waits ≠ [] → exec (.storeAll t c 0x73617665) s = .next (a.awaitStore .none))) ∧
    (∀ sub, 1 ≤ sub → sub ≤ 3 → a.writePasses c (0x101100 + sub) (beBytes 4 0x6C6F6164) = true → sub ∉ s.dict.restore →
      exec (.restoreGroup t c sub 0x6C6F6164) s = .next { a with dict := { s.dict with restore := s.dict.restore ++ [sub] } }) ∧
    (∀ v, 16 ≤ v → v ≤ s.num K.powerTokens → v < 2 ^ 16 →
      a.writePasses c K.powerTokenLimit (beBytes 2 v) = true →
      exec (.powerTokenLimitWrite t c v) s
        = .next ((a.setNum K.powerTokenLimit v).limitChanged a.tokenLimit)) ∧
    (∀ v, v < 2 ^ 16 → s.mode.mode.powered = true → a.writePasses c K.powerTokens (beBytes 2 v) = true →
      (∀ r, dictRow? K.powerTokens = some r → a.numOk r v = true) →
      let u := a.setNum K.powerTokens v
      exec (.powerTokensWrite t c v) s
        = .next (((u.setNum K.powerTokenLimit (u.num K.powerTokens)).limitChanged a.tokenLimit).awaitStore .none)) ∧
    (∀ old, s.shank.oldLimit = some old → s.shank.effectiveAt ≤ a.ptp →
      exec (.powerTokenLimitEffective t) s = .next { a with shank := { s.shank with oldLimit := none } }) ∧
    (∀ port sub b r w, 1 ≤ sub → sub ≤ 7 → dictRow? (0x220100 + 256 * port.code + sub) = some r → a.writeGuard c r b = 0 →
      r.typ.size = some w → a.numOk r (ofBE b) = true → maskReserved r.key (ofBE b) = ofBE b → r.persist = .sys → s.mode.mode.powered = true →
      exec (.portSettingWrite t c port sub b) s
        = .next (((a.setVal r.key (.num (ofBE b))).portRestart port).awaitStore .none))

/-- Writes that act on secrets, life cycle and OTP: a PSK of a new identity joins the table; a deleted identity's table copy and
sessions follow; a life-cycle request in SWEEP starts the flush toward MUSTER with the wipe it asks for; a settings generation
is programmed; TamperClear in HALT by tamper leads to MUSTER. -/
def Obligations.SecretAndLifeWrites : Prop :=
  ∀ (s : State) (t : Nat) (c : Client), s.paused = false → let a := s.advance t
    (∀ b, a.writePasses c K.pskEntryWrite b = true → a.strOk K.pskEntryWrite b = true →
      let n := beAt b 0 1
      let e : Psk := { identity := sliceBytes b 1 n, psk := sliceBytes b (1 + n) 32, policy := beAt b (33 + n) 2 }
      (s.sec.psks.any (·.identity == e.identity) = false → s.sec.psks.length < 1024 →
        exec (.pskEntryWrite t c b) s = .next ({ a with sec := { s.sec with psks := s.sec.psks ++ [e] } } : State).tableCopy)) ∧
    (∀ b, a.writePasses c K.pskIdentityDelete b = true → b.length ≤ 64 →
      exec (.pskIdentityDelete t c b) s = .next (a.pskDelete b)) ∧
    (∀ bit i, (bit, i) ∈ [(0, Instr.lifeCycleProvision t c (beBytes 4 0x4C430001)), (1, .lifeCycleDeploy t c (beBytes 4 0x4C430002)),
        (2, .lifeCycleReturn t c (beBytes 4 0x4C430003)), (3, .lifeCycleRetire t c (beBytes 4 0x4C430004))] →
      a.writePasses c K.lifeCycleRequest (beBytes 4 (0x4C430001 + bit)) = true → s.settled .sweep = true → a.lifeAllowed bit = true →
      exec i s = .next (({ a with fw := { s.fw with wipe := some bit } } : State).resetFlush trLife)) ∧
    (∀ b ok, a.writePasses c K.otpSettings b = true → b.length = 64 → s.life = 1 ∨ s.life = 2 → s.fw.otp.gens.length < 4 →
      a.genOk b = true →
      let otp := { s.fw.otp with gens := s.fw.otp.gens ++ [if ok then some b else none] }
      exec (.otpSettingsWrite t c b ok) s
        = .next (({ a with fw := { s.fw with otp := otp } } : State).event 0x0A0B [(1, s.fw.otp.gens.length)])) ∧
    (a.writePasses c K.tamperClear [0xA5] = true → s.mode.mode = .halt → s.mode.halt = some .tamper →
      let u := a.condOff 0x9000
      exec (.tamperClear t c 0xA5) s
        = .next (({ u with sec := { u.sec with tampered := false }, mode := { u.mode with halt := none } } : State).warmMuster trClear))

/-- Writes that act on the recorder and the site: a rate limit replaces its code's settings and keeps the bucket's tokens,
capped; FromSeq 0 closes a snapshot slot, another opens it; an open slot expires at its time, with event 0x0B81; a site message
goes to the mailbox; a capture release drops the records up to its sequence number. The node-ID, the mailbox's dictionary and
the settings store: a claim with this part's serial number stores the node-ID and boots up under it; an unassigned node repeats
EMCY 0xFF01; DICT_READ answers with up to 48 bytes or an abort code; a programmed copy ends the writes it holds. -/
def Obligations.RecorderNodeAndStore : Prop :=
  (∀ (s : State) (t : Nat) (c : Client), s.paused = false → let a := s.advance t
      (∀ b, a.writePasses c K.eventRateLimit b = true → catalogue.contains (beAt b 0 2) = true →
        exec (.eventRateLimitWrite t c b) s = .next ((a.rateLimit b).awaitStore .none)) ∧
      (∀ slot v, 1 ≤ slot → slot ≤ 4 → v < 2 ^ 64 → a.writePasses c (0x2B0200 + slot) (beBytes 8 v) = true →
        exec (.eventSnapshotFromWrite t c slot v) s = .next ((a.setNum (0x2B0200 + slot) v).snapshotFrom (slot - 1) v)) ∧
      (∀ i, i < 4 → ((a.snapshotFrom i 0).evs.snaps.getD i {} = {}) ∧
        (∀ v, a.evs.nextSeq ≤ v → 0 < v → (a.snapshotFrom i v).evs.snaps.getD i {}
          = { st := .open_, first := v, last := v - 1, count := 0, expiresAt := a.ptp + a.num K.eventSnapshotHoldSeconds * nsSec })) ∧
      (∀ slot, 1 ≤ slot → slot ≤ 4 → (s.evs.snaps.getD (slot - 1) {}).st = .open_ → (s.evs.snaps.getD (slot - 1) {}).expiresAt ≤ a.ptp →
        let x := s.evs.snaps.getD (slot - 1) {}
        let u : State := { a with evs := { s.evs with snaps := s.evs.snaps.setIfInBounds (slot - 1) { x with st := .expired, count := 0 } } }
        exec (.snapshotExpiry t slot) s = .next (u.event 0x0B81 [(4, slot), (8, x.first), (4, 1)]).logTrim) ∧
      (∀ b, a.writePasses c K.siteMessage b = true → s.site.st = 1 → s.c2sFull = false →
        exec (.siteMessageWrite t c b) s = .next (a.mbxSend 0x83 0 b)) ∧
      (∀ b, s.site.st ≠ 1 ∨ s.c2sFull = true → exec (.siteMessageWrite t c b) s = .next a) ∧
      (∀ v, v < 2 ^ 32 → a.writePasses c K.diagCaptureRelease (beBytes 4 v) = true →
        exec (.diagCaptureRelease t c v) s
          = .next { a with eth := { s.eth with capture := s.eth.capture.filter fun (x : CapRec) => decide (v < x.seq) } })) ∧
  (∀ (s : State) (t : Nat), let a := s.advance t
      (∀ new, s.shelf.running = true → 1 ≤ new → new ≤ 127 →
        let u := ({ a with shelf := { s.shelf with lastTraffic := max s.now t } } : State).bump K.canRxFrames
        exec (.nodeIdClaim t s.fw.otp.serial new) s = .next (u.setSys K.nodeId (.num new)).bootUp ∧
        (∀ serial, serial ≠ s.fw.otp.serial → exec (.nodeIdClaim t serial new) s = .next u)) ∧
      (s.shelf.running = true → s.shelf.nodeId = 127 →
        exec (.nodeIdEmcyRetry t) s
          = .next (({ a with shelf := { s.shelf with idAttempts := s.shelf.idAttempts + 1 } } : State).emcy 0xFF01 0 0 s.fw.otp.serial)) ∧
      (∀ token p, s.domOn .core = true → s.mbxRequest = some (1, 8, token, p) →
        let x := a.dictGet .site (leAt p 0 2) (leAt p 2 1)
        (∀ code, x.2.2 = .abort code → exec (.mbxDictRead t) s = .next (State.mbxRejectBad 33 (x.1.mbxReply token code 0 []))) ∧
        (∀ v, x.2.2 = .value v → leAt p 4 4 ≤ v.length →
          exec (.mbxDictRead t) s = .next (State.mbxRejectBad 33 (x.1.mbxReply token 0 v.length (sliceBytes v (leAt p 4 4) 48))))) ∧
      (s.dict.programming = true →
        let n := s.fw.flash.copySeq + 1
        let flash := { s.fw.flash with copySeq := n }
        let kept := s.dict.waits.filter fun w => !w.inCopy
        let u : State := { a with fw := { s.fw with flash := flash }, dict := { s.dict with programming := false, stored := s.dict.copy, waits := kept } }
        let v := if s.serving || s.mode.mode == .sweep then (u.append 1 (pad16 (1 + settingsLen s.dict.copy)) (.settings n)).1 else u
        exec (.settingsStoreComplete t) s = .next ((s.dict.waits.filter (·.inCopy)).foldl (fun s w => s.storeAnswer w.who) v).storeKick))

/-- Awl's policy table and bank map: WRITE sets a row, DELETE clears it, INSERT makes room up to the nearest free row, COMPACT
spreads the entries; a table that fits is in effect at once and its write ends with the store; a bank map waits for MUSTER. -/
def Obligations.AwlPolicyWrites : Prop :=
  ∀ (s : State) (t : Nat) (c : Client) (b : Bytes), s.paused = false → let a := s.advance t
    let addr := beAt b 2 2
    let e : AwlEntry := { key := beAt b 8 32, mask := beAt b 40 32, prio := beAt b 4 2, data := beAt b 72 8 }
    (a.writePasses c K.awlPolicyEntry b = true → policyReservedOk b = true →
      (beAt b 0 1 = 0 → addr < s.policyLimit →
        exec (.awlPolicyWrite t c b) s = .next ((a.setPolicy (mapPut s.awl.policy addr (some e))).awaitStore .none)) ∧
      (beAt b 0 1 = 1 → addr < s.policyLimit →
        exec (.awlPolicyDelete t c b) s = .next ((a.setPolicy (mapPut s.awl.policy addr none)).awaitStore .none)) ∧
      (∀ f, beAt b 0 1 = 2 → addr < s.policyLimit → freeRow s.awl.policy addr s.policyLimit = some f →
        exec (.awlPolicyInsert t c b) s = .next ((a.setPolicy (insertRow s.awl.policy addr f e)).awaitStore .none)) ∧
      (beAt b 0 1 = 3 → addr = 0 → allZero (b.drop 4) = true →
        compactNeed s.awl.policy.length (s.num K.policyHoleInterval) ≤ s.policyLimit →
        exec (.awlPolicyCompact t c b) s
          = .next ((a.setPolicy (compactRows s.awl.policy (s.num K.policyHoleInterval))).awaitStore .none))) ∧
    (∀ v, v < 2 ^ 32 → a.writePasses c K.awlBankMap (beBytes 4 v) = true → s.bankMapOk v = true → s.mode.mode.powered = true →
      exec (.awlBankMapWrite t c v) s = .next ((a.setNum K.awlBankMap v).awaitStore .none))

/-- Links: training that times out starts again with event 0x0202; training that completes in a mode and FEC of the settings
starts the link-up hold; a link that has held for LinkUpHoldMs is up, with event 0x0201 and its recovered clock valid; a link
that goes down is handled by cause. -/
def Obligations.LinkCommands : Prop :=
  ∀ (s : State) (t : Nat) (p : PortId), let a := s.advance t
    let x := s.port p
    (∀ mode lane, x.link = .training →
      exec (.trainingTimeout t p mode lane) s = .next ((a.portStart p).event 0x0202 [(4, p.code), (1, mode), (4, lane)])) ∧
    (∀ mode fec, x.link = .training → s.trainOk p mode fec = true →
      exec (.trainingComplete t p mode fec) s
        = .next (a.setPort p { x with link := .hold, holdAt := max s.now t, activeMode := mode, activeFec := fec })) ∧
    (x.link = .hold → x.holdAt + s.num K.linkUpHoldMs * nsMs ≤ max s.now t →
      let u := a.setPort p { x with link := .up, upAt := max s.now t, verifyFailed := false, preemptActive := false, recValid := true }
      let d := packDetail [(4, p.code), (4, Config.eventCode 0x0201 6), (4, Config.eventCode 0x0201 7), (1, x.activeMode), (1, x.activeFec)]
      let e := u.eventSeq 0x0201 d
      exec (.linkUpHoldEnd t p) s
        = .next ((((e.1.linkCond 0x0201 e.2 (ofLE (padTo d 4))).srcTo (recOf p) .healthy 0).clkoutCheck).goneOn)) ∧
    (x.link = .hold → max s.now t < x.holdAt + s.num K.linkUpHoldMs * nsMs → exec (.linkUpHoldEnd t p) s = .next a) ∧
    (∀ cause, x.link = .up → exec (.linkDown t p cause) s = .next (a.linkDown p cause).goneOn) ∧
    (∀ cause, x.link = .disabled ∨ x.link = .down → a.linkDown p cause = a)

/-- Received frames on a link that is up: neighbour and echo requests for the port's own address are answered; a packet-too-big
message only counts; a frame that fails a check counts at the first that fails, in the order of Table 11.3, but for one of the
diagnostic class, which has commands of its own. -/
def Obligations.ReceivedFrames : Prop :=
  ∀ (s : State) (t : Nat) (p : PortId), (s.port p).link = .up → let a := s.advance t
    (∀ f, 1 ≤ f.kind → f.kind ≤ 4 → let r := a.rxFrame p f.len
      let tag := if r.num (K.vlanTag p.code) % 4096 = 0 then 0 else 4
      let len := match f.kind with | 1 => max 64 (46 + tag) | 2 => 90 + tag | _ => f.len
      r.ipOf p (f.kind == 2 || f.kind == 4) = some f.target →
      exec (.neighbourFrame t p f) s
        = .next ((r.txFrame p len).emitOn p (.answer p f.kind f.source (if 3 ≤ f.kind then r.nextHop p f.source else f.source) f.target
          (if 3 ≤ f.kind then f.payload else [])))) ∧
    (∀ len, exec (.icmpPtb t p len) s = .next ((a.rxFrame p len).bump (K.cRxIcmpPtb p.code))) ∧
    (∀ f n l, f.assemblyError = false → s.classOf f ≠ .diag ∨ f.len < f.headLen → (a.countFec p f).earlyFails p f ++ (a.countFec p f).lateFails p f = n :: l →
      exec (.filteredFrame t p f) s = .next ((a.countFec p f).bump (stepCounter p n))) ∧
    (∀ f, s.classOf f = .diag → f.headLen ≤ f.len → exec (.filteredFrame t p f) s = .next a) ∧
    (∀ f, f.assemblyError = true → s.classOf f ≠ .diag → exec (.filteredFrame t p f) s = .next ((a.countFec p f).bump (K.cRxAssemblyErrors p.code))) ∧
    (∀ f : FrameFacts, (s.earlyFails p f ++ s.lateFails p f).Pairwise (· < ·)) ∧
    (∀ f : FrameFacts, f.pcsError = true → ∃ l, s.earlyFails p f = 1 :: l) ∧
    (∀ f : FrameFacts, f.pcsError = false → f.len < 64 → ∃ l, s.earlyFails p f = 2 :: l) ∧
    (∀ f : FrameFacts, f.pcsError = false → 64 ≤ f.len → f.len ≤ s.largest p f → f.fcsOk = true → s.earlyFails p f = [])

/-- Diagnostic frames: with capture set in DiagControl a good capture frame enters the ring if it fits; an errored one is
captured only where DiagControl delivers errors; an echo frame is sent back while echoes are enabled. -/
def Obligations.DiagnosticFrames : Prop :=
  ∀ (s : State) (t : Nat) (p : PortId), (s.port p).link = .up → let a := s.advance t
    (∀ d : DiagFrame, d.echo = false →
      let f : FrameFacts := { d.facts with etherType := 0x88B5 }
      let r := a.countFec p f
      (r.earlyFails p f = [] → r.lateFails p f = [] →
        (bitAt (r.num K.diagControl) 0 = true →
          exec (.diagCaptureFrame t p d) s = .next ((r.rxFrame p f.len).captureFrame p f d.bytes [])) ∧
        (bitAt (r.num K.diagControl) 0 = false →
          exec (.diagCaptureFrame t p d) s = .next ((r.rxFrame p f.len).bump (K.cDiagDropped p.code)))) ∧
      (∀ n l, r.earlyFails p f = n :: l → f.headLen ≤ f.len → bitAt (r.num K.diagControl) 1 = true →
        bitAt (r.num K.diagControl) 0 = true →
        exec (.diagCaptureFrame t p d) s = .next (r.captureFrame p f d.bytes (n :: l)))) ∧
    (∀ d : DiagFrame,
      let f : FrameFacts := { d.facts with etherType := 0x88B6 }
      let r := a.countFec p f
      r.earlyFails p f = [] → r.lateFails p f = [] → bitAt (r.num K.diagControl) 2 = true →
        exec (.diagEchoFrame t p d) s = .next ((r.rxFrame p f.len).echoFrame p f d.bytes)) ∧
    (∀ (f : FrameFacts) b l, let data := b.take (min f.len (s.largest p f))
      ((s.eth.capture.filter (·.port == p)).map fun x => 24 + ceilDiv x.data.length 8 * 8).sum + 24 + ceilDiv data.length 8 * 8 ≤ s.eth.capKiB * 1024 →
      ∃ r : CapRec, r.seq = s.eth.nextCap ∧ r.port = p ∧ r.orig = f.len ∧ r.data = data ∧
        s.captureFrame p f b l
          = ({ s with eth := { s.eth with capture := s.eth.capture ++ [r], nextCap := s.eth.nextCap + 1 } } : State).bump (K.cDiagCaptured p.code))

/-- Flow control and preemption on a link that is up: an obeyed pause holds its priority until its time runs out or a time of 0
comes; XOFF goes out above 7/8 of the port's share and XON below 1/2; a hold of PauseWatchdogMs trips the watchdog, and received
pause is ignored for PauseIgnoreMs; a verify response activates preemption, and three unanswered ones record event 0x0204. -/
def Obligations.FlowControl : Prop :=
  ∀ (s : State) (t : Nat) (p : PortId), (s.port p).link = .up → let a := s.advance t
    let x := s.port p
    (∀ f : PauseFrame, let r := (a.rxFrame p 64).bump (K.cRxPauseFrames p.code)
      (r.obeysPause p f.pfc = false → exec (.pauseFrame t p f) s = .next r) ∧
      (∀ prio q, r.obeysPause p f.pfc = true → f.times = [(prio, q)] → (if f.pfc then prio < 8 else prio = 8) →
        exec (.pauseFrame t p f) s = .next (r.pausePrio p prio q))) ∧
    (∀ prio q, q ≠ 0 → (∀ h ∈ x.paused, h.prio ≠ prio) →
      a.pausePrio p prio q = a.setPort p { x with paused := x.paused ++
        [{ prio := prio, until_ := max s.now t + quantaNs (modeGbps x.activeMode) q, since := max s.now t }] }) ∧
    (∀ prio, (∃ h ∈ x.paused, h.prio = prio ∧ h.until_ ≤ max s.now t) →
      exec (.pauseTimeExpiry t p prio) s = .next ((a.setPort p { x with paused := x.paused.filter (·.prio != prio) }).resumeTx p)) ∧
    (s.flag (K.pauseTxEnable p.code) = true → ∀ used,
      (x.xoff = false → 7 * 8388608 < 8 * used → exec (.pauseTxRepeat t p used) s
        = .next ((a.setPort p { x with bufUsed := used, xoff := true, xoffAt := max s.now t }).sendPause p 0xFFFF)) ∧
      (x.xoff = false → 8 * used ≤ 7 * 8388608 → exec (.pauseTxRepeat t p used) s = .next (a.setPort p { x with bufUsed := used })) ∧
      (x.xoff = true → 2 * used < 8388608 → exec (.pauseTxRepeat t p used) s
        = .next ((a.setPort p { x with bufUsed := used, xoff := false }).sendPause p 0))) ∧
    (∀ h, x.paused = [h] → h.prio = 8 → h.since + s.num K.pauseWatchdogMs * nsMs ≤ max s.now t →
      h.since + s.num K.pauseWatchdogMs * nsMs ≤ h.until_ →
      let u := a.setPort p { x with paused := [], ignoreUntil := some (max s.now t + s.num K.pauseIgnoreMs * nsMs) }
      exec (.pauseWatchdogTrip t p) s
        = .next (((u.bump (K.cPauseWatchdogTrips p.code)).event 0x0203 [(4, p.code), (4, 8), (4, (max s.now t - h.since) / 1000)]).resumeTx p)) ∧
    (∀ u, x.ignoreUntil = some u → u ≤ max s.now t → exec (.pauseIgnoreEnd t p) s = .next (a.setPort p { x with ignoreUntil := none })) ∧
    (s.verifying p = true →
      exec (.preemptVerifyResponse t p) s = .next (a.setPort p { x with preemptActive := true }) ∧
      (x.upAt + 30 * nsMs ≤ max s.now t → exec (.preemptVerifyFail t p) s
        = .next ((a.setPort p { x with verifyFailed := true, verifySent := 3 }).event 0x0204 [(4, p.code)])))

/-- PTP and its pin: messages of the drive's domain and transport feed the best-master choice and the servo, which steps beyond
PtpStepThresholdNs and otherwise slews; a Sync that stays away for PtpLossTimeoutMs brings holdover; the PPS pin rises at a
second boundary and falls after PpsWidthUs; an efficiency window counts at most once a second. -/
def Obligations.PtpCommands : Prop :=
  ∀ (s : State) (t : Nat) (p : PortId), let a := s.advance t
    let r (m : PtpMsg) := (a.rxFrame p m.len).bump (K.cPtpMessagesRx p.code)
    ((s.port p).link = .up → ∀ m : PtpMsg, m.domain = (r m).num K.ptpDomain → m.transport = (r m).num K.ptpTransport →
      (∀ gm rank, m.what = .announce gm rank → exec (.ptpMessage t p m) s = .next ((r m).ptpAnnounce p gm rank).goneOn) ∧
      (∀ gm o, m.what = .sync gm o → exec (.ptpMessage t p m) s = .next ((r m).ptpSync p gm o).goneOn) ∧
      (m.what = .other → exec (.ptpMessage t p m) s = .next (r m))) ∧
    (∀ gm, s.eth.ptp.slave = some p → s.eth.ptp.gm = gm → ∀ o : Int,
      (s.num K.ptpStepThresholdNs : Int) < o.natAbs → (a.ptpSync p gm (some o)).eth.ptp.delta = s.eth.ptp.delta - o) ∧
    (∀ gm, s.eth.ptp.slave = some p → s.eth.ptp.gm = gm → ∀ o : Int, (o.natAbs : Int) ≤ s.num K.ptpStepThresholdNs →
      let d := (a.ptpSync p gm (some o)).eth.ptp.delta - s.eth.ptp.delta
      d.natAbs * 5000 ≤ max s.now t - s.eth.ptp.lastSync) ∧
    (∀ q, s.eth.ptp.slave = some q → s.eth.ptp.st = .locked ∨ s.eth.ptp.st = .uncalibrated →
      s.eth.ptp.lastSync + s.num K.ptpLossTimeoutMs * nsMs ≤ max s.now t →
      exec (.ptpLossTimeout t) s = .next (a.ptpHoldover none).goneOn) ∧
    (s.flag K.ppsEnable = true → s.eth.ptp.everLocked = true → s.eth.ptp.pps = false →
      (a.ptp % nsSec ≤ 10 ∨ nsSec - 10 ≤ a.ptp % nsSec) →
      exec (.ptpPpsEdge t true) s = .next ((a.setPtp { s.eth.ptp with pps := true, ppsRoseAt := max s.now t }).emit (.pin pinPps true))) ∧
    (s.eth.ptp.pps = true → s.eth.ptp.ppsRoseAt + s.num K.ppsWidthUs * 1000 ≤ max s.now t →
      exec (.ptpPpsEdge t false) s = .next ((a.setPtp { s.eth.ptp with pps := false }).emit (.pin pinPps false))) ∧
    (s.shank.lastEff + nsSec ≤ max s.now t →
      let b : State := { a with shank := { s.shank with lastEff := max s.now t, progBytes := 0, readBytes := 0 } }
      let i := s.shank.progBytes * 10000 / max 1 a.ingestBound
      let r := s.shank.readBytes * 10000 / max 1 a.restoreBound
      let v := b.countWindow s.shank.ingestSum i K.ingestEfficiency K.ingestEfficiencyMean K.ingestCountedWindows
      let y := b.countWindow s.shank.restoreSum r K.restoreEfficiency K.restoreEfficiencyMean K.restoreCountedWindows
      exec (.efficiencyWindowEnd t { ingestCounted := false, restoreCounted := false }) s = .next b ∧
      exec (.efficiencyWindowEnd t { ingestCounted := true, restoreCounted := false }) s
        = .next { v with shank := { v.shank with ingestSum := v.shank.ingestSum + i } } ∧
      exec (.efficiencyWindowEnd t { ingestCounted := false, restoreCounted := true }) s
        = .next { y with shank := { y.shank with restoreSum := y.shank.restoreSum + r } })

/-- Programs of the array: a unit that waits, in a superblock whose SB_OPEN is programmed, is programmed once the sequencer has
issued it, and what waited for it goes on; a failure closes the superblock, appends its records again, retires the block and
forces reclamation; a superblock whose mark has risen gets an SB_PROGRESS at most once a millisecond; ZQ calibration follows 10
minutes or 20 degrees and holds new operations for 2 us. Erases and dies: an erase under way whose every block is issued ends
with the superblock FREE, or UNUSABLE with fewer than 24 slots, its count raised; a failed one retires the block first; the
third operation in a row that a die does not end in time retires it. -/
def Obligations.ArrayOperations : Prop :=
  (∀ (s : State) (t : Nat), let a := s.advance t
      (∀ u, s.writable = true → s.unitPending u = true → s.openLogged u = true → (a.issueUnit u).issued u = true →
        let b := a.issueUnit u
        exec (.programComplete t u.stream u.place) s = .next (b.programUnit u).goneOn ∧
        (let slc := b.slcAt u.ds u.sb
         let f := (b.bump K.programFailures).noteDestFail u
         let g : State := { f with media := { f.media with nProg := f.media.nProg + bit (!slc),
                                                           notReady := f.media.notReady.filter fun x => !(x.1 == u.ds && x.2.1 == u.slot) } }
         let h := (((g.useCounter (unitCws g.media.profile slc)).evacuate u.ds u.sb).retireBlock u.ds u.slot u.sb 1).force u.ds u.sb 1
         exec (.programFailure t u) s = .next (((h.checkDieBlocks u.ds u.slot).settleMoves).checkShort).goneOn)) ∧
      (∀ u, s.unitPending u = false → exec (.programComplete t u.stream u.place) s = .next a ∧ exec (.programFailure t u) s = .next a) ∧
      (∀ ds sb x, s.sb? ds sb = some x → s.writable = true → x.st = .open_ → x.mark < a.markOf x → x.markAt + nsMs ≤ max s.now t →
        exec (.sbProgressAppend t ds sb) s
          = .next ((a.setSb { x with mark := a.markOf x, markAt := max s.now t }).journal 32 (.sbProgress ds x.stream sb (a.markOf x)))) ∧
      (∀ temp : Int, s.domOn .media = true →
        20 ≤ (temp - s.media.zqTemp).natAbs ∨ s.media.zqAt + 600 * nsSec ≤ max s.now t →
        exec (.nandZqRecal t temp) s
          = .next { a with media := { s.media with zqTemp := temp, zqAt := max s.now t, zqHold := max s.now t + 2000 } }) ∧
      (∀ temp : Int, (temp - s.media.zqTemp).natAbs < 20 → max s.now t < s.media.zqAt + 600 * nsSec →
        exec (.nandZqRecal t temp) s = .next a)) ∧
  (∀ (s : State) (t : Nat), let a := s.advance t
      (∀ ds sb x, s.sb? ds sb = some x → s.writable = true → s.media.erasing.contains (ds, sb) = true → a.runOps.erasesIssued ds sb = true →
        exec (.eraseComplete t ds sb) s = .next (a.runOps.erased ds sb x).goneOn ∧
        ∀ slot, exec (.eraseFailure t ds sb slot) s
          = .next (((a.runOps.retireBlock ds slot sb 2).erased ds sb x).checkDieBlocks ds slot).goneOn) ∧
      (∀ ds sb, s.media.erasing.contains (ds, sb) = false →
        exec (.eraseComplete t ds sb) s = .next a ∧ ∀ slot, exec (.eraseFailure t ds sb slot) s = .next a) ∧
      (∀ (b : State) ds sb x, ∃ v : State, b.erased ds sb x = (((v.settleMoves).slcFollow).checkShort).stirred ∧
        v.sb? ds sb = some { ds := ds, sb := sb, st := if 24 ≤ (b.slotsIn ds sb).length then .free else .unusable,
                             erases := x.erases + 1, slc := x.slc }) ∧
      (∀ ds slot, s.domOn .media = true → s.dieIn ds slot = true → ds < s.dieSets → slot < 32 →
        let n := ((s.media.notReady.find? fun x => x.1 == ds && x.2.1 == slot).map (·.2.2)).getD 0
        let l := (ds, slot, n + 1) :: s.media.notReady.filter fun x => !(x.1 == ds && x.2.1 == slot)
        let u : State := { a with media := { s.media with notReady := l } }
        (n < 2 → exec (.dieReadyTimeout t ds slot) s = .next u) ∧
        (2 ≤ n → exec (.dieReadyTimeout t ds slot) s
          = .next ((((u.retireDie ds slot 4).settleMoves).checkShort).goneOn))))

/-- A codeword read is given to its sequencer; when it is issued it reports whether it needed a retry step, counts its tag
failures and the page read, and does what its outcome asks for; a block's counter stops at 2^32 - 1, and at its limit the
superblock becomes a forced victim with event 0x0810. DRAM errors: a corrected burst is counted with event 0x0808; an
uncorrectable one is counted with event 0x0809 and EMCY 0x5020, then drops a read-cache value, ends a write, repairs a fragment,
or sends the drive through MUSTER, by its region; the patrol scrub runs once in DramScrubHours. -/
def Obligations.ReadsAndDram : Prop :=
  ((∀ (s : State) (t ds sb cw : Nat) (o : ReadOutcome) (tags : Nat), s.domOn .media = true → (s.sb? ds sb).isSome = true →
      exec (.codewordRead t ds sb cw o tags) s = .next (((s.advance t).giveOp (.read (cwAddr ds sb cw) o tags)).runOps).goneOn) ∧
    (∀ (s : State) (addr : Nat) (o : ReadOutcome) (tags : Nat), let p := addrParts (addr * 4096)
      let b := s.addTo K.codewordTagFail tags
      let die := b.slotOf (addr * 4096)
      let c := if o = .step 0 then b else b.bump K.pagesRetried
      let got := if o = .lost then 0 else c.cwDataBytes p.1 p.2.1 p.2.2
      let u : State := { c with
        shank := { c.shank with readBytes := c.shank.readBytes + got },
        media := { c.media with pageReads := c.media.pageReads + 1, pageRetries := c.media.pageRetries + (if o = .step 0 then 0 else 1),
                                notReady := c.media.notReady.filter fun n => !(n.1 == die.1 && n.2.1 == die.2) } }
      s.readIssued addr o tags = u.readOutcome p.1 p.2.1 p.2.2 o) ∧
    (∀ (s : State) (ds sb slot n : Nat) (x : Superblock), s.sb? ds sb = some x →
      let old := (mapGet x.reads slot).getD 0
      let new := min (old + n) (2 ^ 32 - 1)
      let lim := if x.slc then s.num K.readDisturbLimitSlc else s.num K.readDisturbLimit
      let u := s.setSb { x with reads := mapPut x.reads slot (some new) }
      (new < lim ∨ lim ≤ old → s.countReads ds sb slot n = u) ∧
      (old < lim → lim ≤ new →
        s.countReads ds sb slot n = ((u.force ds sb 2).bump K.readDisturbRefreshes).event 0x0810 [(4, ds), (4, sb), (4, slot), (4, new)]))) ∧
  (∀ (s : State) (t addr dev : Nat), s.domOn .dram = true → let a := s.advance t
      let u (r : DramRegion) := (a.bump K.dramUncorrectable).eventEmcy 0x0809 [(8, addr), (4, Config.eventCode 0x0809 r.codes.1), (4, Config.eventCode 0x0809 r.codes.2)] 0x5020 false
      exec (.dramEccCorrected t addr dev) s = .next ((a.bump K.dramCorrected).event 0x0808 [(8, addr), (4, dev)]) ∧
      (∀ r, r = .index ∨ r = .mediaTables ∨ r = .contexts ∨ r = .sessions →
        exec (.dramEccUncorrectable t addr dev r) s = .next ((u r).resetFlush trDram)) ∧
      (∀ i, let v := u (.readCache i)
        exec (.dramEccUncorrectable t addr dev (.readCache i)) s
          = .next { v with kv := { v.kv with cache := v.kv.cache.filter fun c => c.1 != i } }) ∧
      (∀ r, r = .peerStaging ∨ r = .siteWindow → exec (.dramEccUncorrectable t addr dev r) s = .next (u r)) ∧
      (∀ sid tag c, let v := u (.writeWindow sid tag)
        v.cmd? sid tag = some c → c.st ≠ .committed → c.st ≠ .releasing →
        exec (.dramEccUncorrectable t addr dev (.writeWindow sid tag)) s = .next (v.abort c 0xFF 0x0809 true).goneOn) ∧
      (∀ i n, exec (.dramEccUncorrectable t addr dev (.writeFrag i n)) s = .next ((u (.writeFrag i n)).fragDamaged i n).goneOn) ∧
      (s.media.lastPatrol + s.num K.dramScrubHours * 3600 * nsSec ≤ max s.now t →
        exec (.dramPatrolScrub t) s = .next { a with media := { s.media with lastPatrol := max s.now t } }))

/-- Each minute of SERVE: WA_m is the array time of all programs and erases of the past hour over that of the user's units, in
permille and at least 1,000; rho lies between LdpcRetryFloorPermille and 1,000, at the floor where no read needed a retry. -/
def Obligations.MinuteReports : Prop :=
  ∀ (s : State) (t : Nat), s.serving = true → let a := s.advance t
    (s.media.lastWam + 60 * nsSec ≤ max s.now t →
      let h := ((s.media.nProg, s.media.nErs, s.media.nUserBytes) :: s.media.hour).take 60
      let prog := (h.map (·.1)).sum
      let ers := (h.map (·.2.1)).sum
      let units := (h.map (·.2.2)).sum / max 1 (unitCap s.media.profile false)
      let p := s.media.profile
      let m : Media := { s.media with hour := h, nProg := 0, nErs := 0, nUserBytes := 0, lastWam := max s.now t }
      let w := max 1000 ((prog * profTProg p + ers * profTBers p) * 1000 / (units * profTProg p))
      (units * profTProg p ≠ 0 → exec (.waMReport t) s = .next { a with media := { m with wam := w } }) ∧
      (units * profTProg p = 0 → ∃ w, 1000 ≤ w ∧ exec (.waMReport t) s = .next { a with media := { m with wam := w }, free := s.free + 1 })) ∧
    (s.shank.lastRho + 60 * nsSec ≤ max s.now t →
      let floor_ := s.num K.ldpcRetryFloorPermille
      ∃ v, (s.media.pageRetries = 0 → v = 0) ∧ (s.media.pageRetries ≠ 0 → s.media.pageReads ≤ s.media.pageRetries → v = 1000) ∧ v ≤ 1000 ∧
        let m : Media := { s.media with pageReads := 0, pageRetries := 0 }
        exec (.rhoUpdate t) s
          = .next { a with shank := { s.shank with rho := max floor_ v, lastRho := max s.now t }, media := m, free := s.free + 1 })

/-- Reclamation: a die set's forced victim, or else its scored one, is relocated, one at a time; the erases of a PENDING_ERASE
superblock's blocks are given to the sequencers once; the oldest SLC superblock is folded when it is due; a checkpoint cycle
starts when it is due. -/
def Obligations.Reclamation : Prop :=
  ∀ (s : State) (t : Nat), s.writable = true → let a := s.advance t
    (a.scansFirst = false → ∀ ds, let b := a.settleMoves
      (b.media.sbs.any fun x => x.ds == ds && x.st == .victim && (x.stream != 0 || x.forced != 0)) = false →
      (∀ x, b.forcedVictim ds = some x → exec (.gcVictimSelect t ds) s = .next (b.takeVictim x).goneOn) ∧
      (∀ x, b.forcedVictim ds = none → b.scoredVictim ds = some x → exec (.gcVictimSelect t ds) s = .next (b.takeVictim x).goneOn) ∧
      (b.forcedVictim ds = none → b.scoredVictim ds = none → exec (.gcVictimSelect t ds) s = .next b.goneOn)) ∧
    (a.scansFirst = false → ∀ ds sb x, s.sb? ds sb = some x → x.st = .pendingErase →
      s.media.erasing.contains (ds, sb) = false →
      let b : State := { a with media := { s.media with erasing := s.media.erasing ++ [(ds, sb)] } }
      exec (.superblockErase t ds sb) s = .next ((s.slotsIn ds sb).foldl (fun s i => s.giveOp (.erase ds sb i)) b).runOps) ∧
    (∀ ds sb, s.media.erasing.contains (ds, sb) = true → exec (.superblockErase t ds sb) s = .next a) ∧
    (a.scansFirst = false → ∀ x, s.oldestSlc = some x → a.foldDue x = true → exec (.slcFold t) s = .next (a.takeVictim x).goneOn) ∧
    (a.cycleDue = true → exec (.checkpointStart t) s = .next a.startCycle) ∧
    (a.cycleDue = false → exec (.checkpointStart t) s = .next a)

/-- Which superblock is reclaimed: the score of a CLOSED one is (c - v) × min(age, cap) ÷ (c + v), and one whose valid bytes
exceed GcMaxValidPermille is no candidate; the scored victim has the highest score, then the lowest erase count, then the lowest
number; the forced victim has the most urgent reason, then the oldest request. -/
def Obligations.VictimChoice : Prop :=
  (∀ c v age cap maxv, v ≤ c → 0 < c → (v * 1000 ≤ c * maxv → scoreOf c v age cap maxv = some ((c - v) * min age cap / (c + v))) ∧
    (c * maxv < v * 1000 → scoreOf c v age cap maxv = none)) ∧
  (∀ (s : State) (ds : Nat) (x : Superblock), s.scoredVictim ds = some x →
    x ∈ s.media.sbs ∧ x.ds = ds ∧ ∃ n, s.sbScore x = some n ∧ ∀ y ∈ s.media.sbs, y.ds = ds → ∀ k, s.sbScore y = some k →
      k < n ∨ (k = n ∧ (x.erases < y.erases ∨ (x.erases = y.erases ∧ x.sb ≤ y.sb)))) ∧
  (∀ (s : State) (ds : Nat) (x : Superblock), s.forcedVictim ds = some x →
    x ∈ s.media.sbs ∧ x.ds = ds ∧ x.st = .closed ∧ x.forced ≠ 0 ∧ ∀ y ∈ s.media.sbs, y.ds = ds → y.st = .closed → y.forced ≠ 0 →
      x.forced < y.forced ∨ (x.forced = y.forced ∧ x.forcedAt ≤ y.forcedAt))

/-- Wear and retention: wear is compared in every die set once an interval; effective age grows with the seconds passed at the
die temperature's factor; the scan of the due superblock of greatest age counts its reads and, where a page needed a weak step,
forces its refresh with event 0x0811. -/
def Obligations.WearAndRetention : Prop :=
  ∀ (s : State) (t : Nat), let a := s.advance t
    (s.writable = true → s.media.lastStatic + s.num K.wearStaticIntervalSeconds * nsSec ≤ max s.now t →
      exec (.wearStaticCheck t) s
        = .next ((List.range s.dieSets).foldl State.wearCheck { a with media := { s.media with lastStatic := max s.now t } })) ∧
    (∀ temps, let n := (max s.now t - s.media.ageAt) / nsSec
      n ≠ 0 → s.domOn .core = true → s.domOn .media = true →
      let sbs := s.media.sbs.map fun (x : Superblock) => if x.st = SbState.closed then { x with age := x.age + n * ageFactor (temps.getD x.ds 40) } else x
      exec (.effectiveAgeTick t temps) s = .next { a with media := { s.media with sbs := sbs, ageAt := s.media.ageAt + n * nsSec } }) ∧
    (∀ ds sb x worst retries, s.domOn .media = true → s.mode.mode = .sweep ∨ s.media.scanUntil ≤ max s.now t →
      s.sb? ds sb = some x → a.scanIsDue x = true →
      (∀ y ∈ s.media.sbs, a.scanIsDue y = true → y.age ≤ x.age) →
      let wls := profWordlines s.media.profile
      let slots := x.slots.filter (· != x.parity)
      let b := (a.setSb { x with scanAge := x.age, scanDue := false }).addTo K.retentionBytesScanned (slots.length * wls * 16384)
      let u : State := { b with media := { b.media with
        scanUntil := max s.now t + ceilDiv (slots.length * wls * 16384 * 1000) (max 1 (b.num K.retentionSweepMBps)) } }
      let c := slots.foldl (fun s i => s.countReads ds sb i (wls + (mapGet retries i).getD 0)) u
      let d := match c.weakStep worst with
        | some n => ((c.force ds sb 3).bump K.retentionRefreshes).event 0x0811 [(4, ds), (4, sb), (4, n)]
        | none => c
      exec (.retentionScan t ds sb worst retries) s
        = .next ({ d with media := { d.media with scanFirst := d.media.scanFirst && d.media.sbs.any d.scanIsDue } } : State).stirred) ∧
    ageFactor 40 = 1000000000 ∧ (∀ T : Int, T ≤ 20 → ageFactor T = 250000000) ∧ (∀ T : Int, 80 ≤ T → ageFactor T = 16000000000) ∧
    (∀ T : Int, 20 ≤ T → T ≤ 70 → ageFactor (T + 10) ≤ 2 * ageFactor T + 1 ∧ 2 * ageFactor T ≤ ageFactor (T + 10) + 1)

/-- Recovery, checkpoints, purge and windows: the end of a running cycle writes its sections and CKPT_END, programs what waits
in the SYSTEM stream, and writes an anchor record with the two latest cycles, counted; recovery on a BLANK part ends MUSTER, on
a RETIRED part or one without a seed fails, and otherwise ends MUSTER with what it found, or fails where it stopped, where the
anchor area cannot be read or where no checkpoint is whole; the purge pass removes its instances, and the next pass starts; the
hot window clears the promotion counters. Repair and rebalance of committed stripes: the next stripe of its queue, while its
window's allowance lasts, asks its target what it holds, or starts at once where this drive is the target; one that another
comes before, or that finds no allowance, waits; a stripe that has its answers reads its next part; a stripe whose record is
gone leaves the queue. -/
def Obligations.PassesAndRepair : Prop :=
  (∀ (s : State) (t : Nat), let a := s.advance t
      (∀ c, s.media.running = some c → s.writable = true →
        let u := [0x50, 0x51, 0x52, 0x53].foldl (fun s k => s.writeSections c k) a
        let d := { c with image := { c.image with tables := u.sbLines, bad := u.media.badBlocks, dies := u.media.retiredDies, sets := u.media.deadSets } }
        let v := (u.append 1 (pad16 (40 + 5 * (max 1 (2 ^ u.idx.n / 65536) + 3))) (.ckptEnd c.no c.start)).1
        let w := State.programStream ((v.media.recs.map fun r => r.units.length).sum + 1) v 1
        let y := ({ w with media := { w.media with running := none, cycles := d :: w.media.cycles.take 1, ckptRtc := w.rtc } } : State).writeAnchor
        exec (.checkpointEnd t) s = .next ((y.bump K.checkpointCycles).settleMoves).stirred.goneOn) ∧
      (s.media.running = none → exec (.checkpointEnd t) s = .next a) ∧
      (∀ r, s.settled .muster = true → s.mode.recovering = true →
        (s.life = 0 → exec (.recoveryComplete t r) s = .next (a.numberEvents.leaveMuster).goneOn) ∧
        (s.life = 4 ∨ (s.life ≠ 0 ∧ s.sec.seed = none) → exec (.recoveryComplete t r) s = .next (a.recoverFailed 2 0)) ∧
        (s.life ≠ 0 → s.life ≠ 4 → s.sec.seed ≠ none →
          (∀ step cause, r.failed = some (step, cause) → exec (.recoveryComplete t r) s = .next (a.recoverFailed step cause)) ∧
          (r.failed = none → a.written = true → s.media.board.anchorOk = false ∨ (s.media.cycles ≠ [] ∧ a.baseCycle = none) →
            exec (.recoveryComplete t r) s = .next (a.recoverFailed 2 1)) ∧
          (r.failed = none → a.written = false ∨ (s.media.board.anchorOk = true ∧ (s.media.cycles = [] ∨ a.baseCycle ≠ none)) →
            exec (.recoveryComplete t r) s
              = .next (((a.recover r.durationMs).setNum K.lastRecoveryMs (min 0xFFFFFFFF r.durationMs)).leaveMuster).goneOn))) ∧
      (∀ e, s.idx.passEnd = some e → e ≤ max s.now t → s.kvUp = true →
        let l := s.idx.insts.filter fun i => i.st == .purging && s.idx.passSet.contains i.slot
        let u := l.foldl State.purgeOne a
        exec (.purgePassEnd t) s = .next ({ u with idx := { u.idx with passEnd := none, passSet := [] } } : State).startPass.takeWaiting.stirred) ∧
      (s.kvUp = true → s.awl.lastClear + s.num K.hotWindowMs * nsMs ≤ max s.now t →
        exec (.hotWindowClear t) s = .next { a with awl := { s.awl with promo := [], lastClear := max s.now t } })) ∧
  (∀ (s : State) (t : Nat) (i : StripeId) (idx : Nat) (q : Repair), s.serving = true → (s.advance t).repair? i idx = some q →
      let b := (s.advance t).rateWindow
      let first := b.repairable q = true ∧ b.repairNext q = true ∧ 0 < b.rateLeft q.rebalance
      let does (u : State) : Prop := (q.rebalance = false → exec (.stripeRepair t i idx) s = .next u.settle) ∧
        (q.rebalance = true → exec (.stripeRebalance t i idx) s = .next u.settle)
      (∀ r, b.recOfStripe i = some r → q.st = .queued → first → does (b.repairStart q r)) ∧
      (∀ r, b.recOfStripe i = some r → q.st = .queued → ¬ first → does b) ∧
      (∀ r, b.recOfStripe i = some r → q.st = .reading → b.welt.lost.contains q.target = false → b.repairAsks q = false → does (b.repairMore q r)) ∧
      (b.recOfStripe i = none → does (b.dropRepair q)))

/-- Alarms: a class-1 alarm erases every slot, derives the device keys again and ends the commands whose slot was erased, and
one that follows another within 10 ms, or the glitch that fills GlitchAlarmCount, goes on to class 2; class 2 as `State.class2`
has it; a tamper input at its armed level for 4 cycles is held for the next wake in DORMANT, and otherwise zeroises everything,
wipes where TamperPolicy asks for it, and leads to HALT; a derivation that ends makes its slot READY; an ended copy of secrets
is reported, and removals that came meanwhile take one further copy. -/
def Obligations.AlarmsAndKeys : Prop :=
  ∀ (s : State) (t : Nat), let a := s.advance t
    (s.domOn .sec = true →
      (∀ src users,
        let e := a.alarmErase.1.keyLost users
        let b := (e.1.bump K.class1Alarms).eventEmcy 0x0901 [(4, Config.eventCode 0x0901 src), (4, s.sec.slots.length), (4, e.2)] 0x3200 false
        let gl := (if isGlitch src then [b.now] else []) ++ b.sec.glitchTimes.filter fun x => decide (b.now < x + nsSec)
        let c : State := { b with sec := { b.sec with lastClass1 := some b.now, glitchTimes := gl } }
        let many := isGlitch src = true ∧ c.num K.glitchAlarmCount ≤ gl.length
        let near := ∃ x, b.sec.lastClass1 = some x ∧ b.now < x + 10 * nsMs
        (¬ near → ¬ many → exec (.class1Alarm t src users) s = .next c) ∧
        (many → exec (.class1Alarm t src users) s = .next (c.drawFree.2.class2 1 (c.drawFree.1 % 2 ^ 32))) ∧
        (near → ¬ many → exec (.class1Alarm t src users) s = .next (c.drawFree.2.class2 4 (c.drawFree.1 % 2 ^ 32)))) ∧
      (∀ src us, exec (.class2Alarm t src us) s = .next (a.class2 src us)) ∧
      (∀ src us, s.mode.mode = .dormant → exec (.class2Alarm t src us) s = .next a)) ∧
    (∀ input level cycles, s.tamperActive input level = true → 4 ≤ cycles →
      let d := [(1, input), (1, bit level), (1, s.mode.mode.code), (1, s.num K.tamperPolicy)]
      let b := a.bumpSys K.tamperAlarms
      (s.mode.mode = .dormant → exec (.tamper t input level cycles) s
        = .next (({ b with sec := { b.sec with tamperHeld := true } } : State).eventEmcy 0x0903 d 0x9000 true)) ∧
      (s.mode.mode ≠ .dormant →
        let z := ({ b.zeroise with sec := { b.zeroise.sec with tampered := true } } : State).eventEmcy 0x0903 d 0x9000 true
        let w := if s.num K.tamperPolicy = 1 then z.doWipe tamperWipe else z
        (w.mode.mode = .halt → exec (.tamper t input level cycles) s
          = .next (({ w with mode := { w.mode with halt := some .tamper } } : State).setNum K.haltCause HaltCause.tamper.code)) ∧
        (w.mode.mode ≠ .halt → exec (.tamper t input level cycles) s
          = .next ((({ w with mode := { w.mode with halt := some .tamper, leaving := w.mode.mode } } : State).dropSessions).enterHalt .tamper)))) ∧
    (∀ input level cycles, cycles < 4 → exec (.tamper t input level cycles) s = .next a) ∧
    (∀ slot x, s.sec.slots.find? (·.slot == slot) = some x → x.st = .deriving_ →
      let l := s.sec.slots.map fun (y : KeySlot) => if y.slot = slot then { y with st := .ready } else y
      exec (.keyDerivationComplete t slot) s = .next (({ a with sec := { s.sec with slots := l } } : State).bump K.keyDerivations)) ∧
    (s.sec.erasing ≠ [] → let b := s.sec.erasing.foldl (fun s e => s.event 0x0905 (e.fields s.now)) a
      let c : State := { b with sec := { b.sec with erasing := b.sec.eraseNext, eraseNext := [], copies := b.sec.copies.drop (b.sec.copies.length - 1) } }
      (b.sec.eraseNext = [] → exec (.secretEraseComplete t) s = .next c) ∧
      (b.sec.eraseNext ≠ [] → exec (.secretEraseComplete t) s = .next c.tableCopy))

/-- Live activation and Lace: once the new firmware is ready and the pause fits, the handover record is written and the pause
begins; a takeover within 2 ms with its checks right ends it, and otherwise the activation fails; either way what waited for it
is taken up; the cores' rejoining is recorded and counted; a failure of the running activation leads to HALT; an ended flash
copy is IN_FLASH or FAILED; a forward sends its next piece, skips a successor after LaceSkipSeconds, and follows the successor's
answers. -/
def Obligations.ActivationAndLace : Prop :=
  ∀ (s : State) (t : Nat), let a := s.advance t
    (s.fw.act.phase = .preparing → a.pauseFits a.now (fun _ => true) = true →
      let b := a.migrate (imgFormat s.fw.staged.image)
      let d := b.drawFree
      let x := d.2.handoverPlaces
      let h : Handover := { x.1 with
        migrated := s.fw.flash.format != x.2.fw.flash.format, oldVersion := x.2.fw.running, newVersion := imgVersion s.fw.staged.image,
        format := x.2.fw.flash.format, pauseStart := x.2.ptp, eventNextSeq := x.2.evs.nextSeq, digest := leBytes 48 d.1 }
      exec (.activationPauseStart t) s
        = .next { x.2 with fw := { x.2.fw with act := { x.2.fw.act with phase := .pausing, pauseAt := x.2.now, handover := some h.bytes } } }) ∧
    (s.fw.act.phase = .pausing →
      (max s.now t ≤ s.fw.act.pauseAt + 2 * nsMs → exec (.activationTakeover t true) s = .next a.handoverDone.resume.goneOn ∧
        exec (.activationTakeover t false) s = .next (a.actFail 6 3).resume.goneOn) ∧
      (s.fw.act.pauseAt + 2 * nsMs < max s.now t → ∀ ok, exec (.activationTakeover t ok) s = .next (a.actFail 6 4).resume.goneOn)) ∧
    (s.fw.act.phase = .rejoining → exec (.activationRejoin t) s
      = .next ((({ a with fw := { s.fw with act := {} } } : State).event 0x0A03 [(4, s.fw.running), (4, s.num K.lastActivationPauseUs)]).bumpSys K.activationCount)) ∧
    (∀ step cause, s.fw.act.phase = .preparing ∨ s.fw.act.phase = .pausing →
      exec (.activationFailure t step cause) s = .next (a.actFail step cause).resume.goneOn) ∧
    (s.fw.staged.copy = 1 → let x := s.fw.staged; let b := x.image
      let c := (a.setSlot (a.slotFor b) (some b)).setStaged { x with copy := 2 }
      (c.num K.laceMode ≠ 1 → exec (.fwCopyComplete t true) s = .next c) ∧
      (c.num K.laceMode = 1 → exec (.fwCopyComplete t true) s = .next (c.laceOffer b)) ∧
      exec (.fwCopyComplete t false) s = .next ((a.setStaged { x with copy := 3 }).event 0x0A01 [(4, x.id), (1, x.st), (4, x.version)])) ∧
    (s.fw.lace.st = .sending ∨ s.fw.lace.st = .waiting → s.laceBusy = false → let l := s.fw.lace
      (l.sentBytes < l.image.length → let b := sliceBytes l.image l.sentBytes 240
        exec (.laceForward t) s = .next (({ a with fw := { s.fw with lace := { l with st := .sending } } } : State).peerCmd l.successor 0x50 0 0 3
          (beBytes 4 (laceId l.image) ++ beBytes 4 l.image.length ++ beBytes 4 l.sentBytes ++ beBytes 2 b.length ++ zeros 2 ++ b) [] [] id)) ∧
      (l.image.length ≤ l.sentBytes →
        exec (.laceForward t) s = .next (({ a with fw := { s.fw with lace := { l with st := .waiting, activateSent := true } } } : State).peerCmd
          l.successor 0x51 0 0 3 (beBytes 4 (laceId l.image) ++ zeros 4) [] [] id))) ∧
    (s.fw.lace.st = .sending ∨ s.fw.lace.st = .waiting → s.fw.lace.activateSent = false →
      s.fw.lace.offeredAt + s.num K.laceSkipSeconds * nsSec ≤ max s.now t → exec (.laceSkipTimeout t) s = .next (a.laceSkip 1)) ∧
    (∀ r b m, a.peerReply r = (b, some m) → b.fw.lace.st = .sending ∨ b.fw.lace.st = .waiting →
      (r.opcode = 0x50 → exec (.laceReply t r) s = .next (b.laceSegment r.status r.body)) ∧
      (r.opcode = 0x51 → exec (.laceReply t r) s
        = .next { b with fw := { b.fw with lace := { b.fw.lace with st := if r.status = stOk then .done else .waiting } } }))

/-- Awl's site interface: while PD_KV is powered and no operation runs, a site operation has its effect and runs for the cycles
that it took, at most those of Table 6.10; it then ends with DONE, and with ERR and the error code of R192 where it was refused;
one given while another runs ends with BUSY; a scrub tick that is due moves on by one row; VFAIL clears when it is read. -/
def Obligations.AwlSiteCommands : Prop :=
  (∀ (a : Awl) (n : Nat), (∀ c, a.pend = some c → a.busyUntil ≤ n →
      a.at_ n = { a with pend := none, done := true, err := a.err || c != 0, errCode := if c = 0 then a.errCode else c }) ∧
    (a.pend = none ∨ n < a.busyUntil → a.at_ n = a)) ∧
  ∀ (s : State) (t took : Nat), s.domOn .kv = true → let a := s.advance t
    (a.awlBusy = false → let b := a.awlSettle
      let runs (n : Nat) (u : State) (code : Nat) : State :=
        { u with awl := { u.awl with busyUntil := max s.now t + ceilDiv (2 * min took n) 3, pend := some code } }
      let row := b.awl.row
      let g := b.awlGlobal partSite row
      let hole := (List.range (b.awlRows partSite - row)).find? fun i => !b.awlValid (b.awlGlobal partSite (row + i))
      (b.siteRowOk row = true →
        (∀ r, b.awlRow? g = some r → exec (.awlSiteRead t took) s = .next (runs 16 { b with awl := { b.awl with
          key := r.entry.key, mask := r.entry.mask, prio := r.entry.prio, data := r.entry.data, valid := r.valid } } 0)) ∧
        (b.awlValid g = false → exec (.awlSiteWrite t took true) s
          = .next (runs 24 (b.setRow { addr := g, valid := false, entry := b.awl.staged }) 0)) ∧
        (b.awlValid g = true → ∀ k, exec (.awlSiteWrite t took k) s = .next (runs 24 b 3)) ∧
        (∀ r, b.awlRow? g = some r → exec (.awlSiteValidate t took true) s = .next (runs 8 (b.setRow { r with valid := true }) 0) ∧
          exec (.awlSiteValidate t took false) s = .next (runs 8 (b.rowInvalidate r.addr) 7)) ∧
        (b.awlRow? g = none → ∀ k, exec (.awlSiteValidate t took k) s = .next (runs 8 b 4)) ∧
        exec (.awlSiteInvalidate t ⟨took, true⟩) s = .next (runs 8 (b.rowInvalidate g) 0) ∧
        exec (.awlSiteInvalidate t ⟨took, false⟩) s = .next (runs 8 (b.rowInvalidate g) 7) ∧
        (∀ r, b.siteRowOk b.awl.dest = true → b.awlRow? g = some r → r.valid = true → b.awlValid (b.awlGlobal partSite b.awl.dest) = false →
          exec (.awlSiteMove t took true) s
            = .next (runs 48 ((b.rowWrite (b.awlGlobal partSite b.awl.dest) r.entry).rowInvalidate g) 0)) ∧
        (∀ i, hole = some i → exec (.awlSiteFindHole t took) s = .next (runs 272 { b with awl := { b.awl with result := row + i } } 0)) ∧
        (hole = none → exec (.awlSiteFindHole t took) s = .next (runs 272 b 6))) ∧
      (b.siteRowOk row = false →
        exec (.awlSiteRead t took) s = .next (runs 16 b 2) ∧ (∀ k, exec (.awlSiteWrite t took k) s = .next (runs 24 b 2)) ∧
        (∀ k, exec (.awlSiteValidate t took k) s = .next (runs 8 b 2)) ∧ (∀ k, exec (.awlSiteInvalidate t ⟨took, k⟩) s = .next (runs 8 b 2)) ∧
        (∀ k, exec (.awlSiteMove t took k) s = .next (runs 48 b 2)) ∧ exec (.awlSiteFindHole t took) s = .next (runs 272 b 2)) ∧
      (∀ f, let h := b.awlSearch partSite b.awl.skey f
        let c : State := { h.1 with awl := { h.1.awl with hit := h.2.row.isSome, multi := h.2.multi, retried := h.2.retried } }
        let n := if h.2.retried then 120 else 60
        (h.2.row = none → exec (.awlSiteSearch t took f) s = .next (runs n c 0)) ∧
        (∀ r, h.2.row = some r → exec (.awlSiteSearch t took f) s
          = .next (runs n { c with awl := { c.awl with result := c.awlLocal r.addr, rdata := r.entry.data } } 0)))) ∧
    (a.awlBusy = true → exec (.awlSiteRead t took) s = .next (a.siteErr 5)) ∧
    (s.awl.lastScrub + s.scrubPeriod ≤ max s.now t →
      let n : State := { a with awl := { s.awl with scrubAt := (s.awl.scrubAt + 1) % 65536, lastScrub := max s.now t } }
      exec (.awlScrubTick t none true) s = .next n ∧ (∀ f, exec (.awlScrubTick t f false) s = .next (n.shadowLost s.awl.scrubAt))) ∧
    exec (.awlSiteVfailRead t) s = .next { a with awl := { s.awl with vfail := 0 } }

/-- The channel sequencers: the operation that is issued next could run and has its tokens free; no operation whose die and
tokens are free has an earlier deadline than one that went ahead without waiting; an issued operation takes its tokens and its
wait for them is counted; a suspended erase gives them back, keeps what it still needs and is counted, and without ERASE_SUSPEND
or after four suspensions no erase is suspended. -/
def Obligations.SequencerOrder : Prop :=
  (∀ (s : State) (t : Nat) (o : ArrayOp), s.nextOp t = some o →
    o ∈ s.media.ops ∧ s.opReady t o = true ∧ s.opCost o.kind ≤ s.freeTokens t ∧
    ((∀ x ∈ s.media.ops, s.opReady t x = true → s.opCost x.kind ≤ s.freeTokens t) →
      ∀ x ∈ s.media.ops, s.opReady t x = true → s.opRank o.kind ≤ s.opRank x.kind)) ∧
  (∀ (s : State) (t : Nat), s.nextOp t = none → ∀ x ∈ s.media.ops, s.opReady t x = true →
    ∃ y ∈ s.media.ops, s.opReady t y = true ∧ s.freeTokens t < s.opCost y.kind) ∧
  (∀ (s : State) (o : ArrayOp) (t : Nat), (∀ a out tags, o.kind ≠ .read a out tags) → o ∈ s.media.ops →
    let u := s.issueOp o t
    (∃ x ∈ u.media.ops, x.no = o.no ∧ x.issuedAt = some t) ∧
    ∀ w, o.tokenWait = some w → u.num K.tokenWaitNs = min (2 ^ 64 - 1) (s.num K.tokenWaitNs + (t - w))) ∧
  (∀ (s : State) (o : ArrayOp) (t : Nat), o ∈ s.media.ops →
    ∃ x ∈ (s.suspendOp o t).media.ops, x.no = o.no ∧ x.issuedAt = none ∧ x.left = some (s.opBusy o - (t - o.issuedAt.getD t))) ∧
  (∀ (s : State) (t : Nat) (e : ArrayOp), s.eraseInWay t = some e → profSuspend s.media.profile = true ∧ e ∈ s.media.ops ∧ e.suspends < 4) ∧
  (∀ (s : State), s.inFlush = true → s.opLimit = s.media.flushTokens)
end

