-- ==== Sys2Proof/Laws/Memory.lean ====
section
/-! SUPPORT. Memory and sparse maps: a read after a write, and the canonical form that every memory operation keeps. -/

namespace Sys2Proof.Machine

/-- Every address of `m` lies above `a`, rising, and no byte is 0. -/
abbrev memFrom (a : Nat) (m : List Host.Cell) : Bool := memAbove (some a) m

theorem memAbove_cons (lo : Option Nat) (k : Nat) (v : Byte) (r : List Host.Cell) :
    memAbove lo ((k, v) :: r) = true ↔ (∀ l, lo = some l → l < k) ∧ v ≠ 0 ∧ memFrom k r = true := by
  cases lo <;> simp [memAbove, and_assoc]

/-- A lower bound may be lowered. -/
theorem memAbove_mono {lo lo' : Option Nat} {m : List Host.Cell} (h : ∀ l, lo' = some l → ∃ l', lo = some l' ∧ l ≤ l')
    (hm : memAbove lo m = true) : memAbove lo' m = true := by
  cases m with
  | nil => rfl
  | cons c r =>
    obtain ⟨k, v⟩ := c
    rw [memAbove_cons] at hm ⊢
    refine ⟨fun l hl => ?_, hm.2⟩
    obtain ⟨l', h1, h2⟩ := h l hl
    exact Nat.lt_of_le_of_lt h2 (hm.1 l' h1)

/-- A write keeps the canonical form above any bound that the address lies above. -/
theorem memPut_above (m : List Host.Cell) (lo : Option Nat) (a : Nat) (b : Byte) (hlo : ∀ l, lo = some l → l < a)
    (hm : memAbove lo m = true) : memAbove lo (memPut m a b) = true := by
  induction m generalizing lo with
  | nil =>
    unfold memPut
    split
    · rfl
    · rw [memAbove_cons]; exact ⟨hlo, ‹_›, rfl⟩
  | cons c r ih =>
    obtain ⟨k, v⟩ := c
    have hm' := hm
    rw [memAbove_cons] at hm
    obtain ⟨h1, h2, h3⟩ := hm
    unfold memPut
    split
    · rename_i hak
      split
      · exact hm'
      · rw [memAbove_cons]
        refine ⟨hlo, ‹_›, ?_⟩
        rw [memFrom, memAbove_cons]
        exact ⟨fun l hl => by cases hl; exact hak, h2, h3⟩
    · split
      · rename_i hak
        subst hak
        split
        · exact memAbove_mono (fun l hl => ⟨a, rfl, Nat.le_of_lt (h1 l hl)⟩) h3
        · rw [memAbove_cons]; exact ⟨h1, ‹_›, h3⟩
      · rw [memAbove_cons]
        exact ⟨h1, h2, ih (some k) (fun l hl => by cases hl; omega) h3⟩

/-- Writing a byte keeps the canonical form. -/
theorem memPut_wf {m : List Host.Cell} (a : Nat) (b : Byte) (h : Memory.wf m = true) : Memory.wf (memPut m a b) = true :=
  memPut_above m none a b (fun _ h => by cases h) h

/-- Writing bytes keeps the canonical form. -/
theorem memWrite_wf {m : List Host.Cell} (a : Nat) (b : Bytes) (h : Memory.wf m = true) : Memory.wf (memWrite m a b) = true := by
  induction b generalizing m a with
  | nil => exact h
  | cons x bs ih => exact ih (a + 1) (memPut_wf a x h)

/-- Dropping entries keeps the canonical form above any bound. -/
theorem memFilter_above (p : Host.Cell → Bool) (m : List Host.Cell) (lo : Option Nat) (h : memAbove lo m = true) :
    memAbove lo (m.filter p) = true := by
  induction m generalizing lo with
  | nil => rfl
  | cons c r ih =>
    obtain ⟨k, v⟩ := c
    rw [memAbove_cons] at h
    obtain ⟨h1, h2, h3⟩ := h
    rw [List.filter_cons]
    split
    · rw [memAbove_cons]; exact ⟨h1, h2, ih _ h3⟩
    · exact memAbove_mono (fun l hl => ⟨k, rfl, Nat.le_of_lt (h1 l hl)⟩) (ih _ h3)

/-- Clearing a range keeps the canonical form. -/
theorem memClear_wf {m : List Host.Cell} (lo hi : Nat) (h : Memory.wf m = true) : Memory.wf (memClear m lo hi) = true :=
  memFilter_above _ m none h

/-- An address below every entry reads 0. -/
theorem memGet_below {m : List Host.Cell} {k a : Nat} (h : memFrom k m = true) (ha : a ≤ k) : memGet m a = 0 := by
  cases m with
  | nil => rfl
  | cons c r =>
    obtain ⟨k', v⟩ := c
    rw [memFrom, memAbove_cons] at h
    have := h.1 k rfl
    unfold memGet
    rw [if_neg (by omega), if_pos (by omega)]

/-- The written byte reads back. -/
theorem memGet_memPut_same {m : List Host.Cell} (h : Memory.wf m = true) (a : Nat) (b : Byte) : memGet (memPut m a b) a = b := by
  have main : ∀ (m : List Host.Cell) (lo : Option Nat), memAbove lo m = true → memGet (memPut m a b) a = b := by
    intro m
    induction m with
    | nil =>
      intro lo _
      unfold memPut
      split
      · rename_i hb; rw [hb]; rfl
      · simp [memGet]
    | cons c r ih =>
      intro lo hm
      obtain ⟨k, v⟩ := c
      rw [memAbove_cons] at hm
      unfold memPut
      split
      · rename_i hak
        split
        · rename_i hb
          rw [memGet, if_neg (by omega), if_pos hak, hb]
        · simp [memGet]
      · split
        · rename_i hak
          subst hak
          split
          · rename_i hb
            rw [memGet_below hm.2.2 (Nat.le_refl _), hb]
          · simp [memGet]
        · rw [memGet, if_neg (by omega), if_neg (by omega)]
          exact ih _ hm.2.2
  exact main m none h

/-- Every other byte reads as before. -/
theorem memGet_memPut_other {m : List Host.Cell} (h : Memory.wf m = true) {a x : Nat} (b : Byte) (hx : x ≠ a) :
    memGet (memPut m a b) x = memGet m x := by
  have main : ∀ (m : List Host.Cell) (lo : Option Nat), memAbove lo m = true → memGet (memPut m a b) x = memGet m x := by
    intro m
    induction m with
    | nil =>
      intro lo _
      unfold memPut
      split
      · rfl
      · simp [memGet, hx]
    | cons c r ih =>
      intro lo hm
      obtain ⟨k, v⟩ := c
      rw [memAbove_cons] at hm
      unfold memPut
      split
      · rename_i hak
        split
        · rfl
        · rw [memGet, if_neg hx]
          split
          · rw [memGet, if_neg (by omega), if_pos (by omega)]
          · rfl
      · split
        · rename_i hak
          subst hak
          split
          · rw [memGet, if_neg hx]
            split
            · exact memGet_below hm.2.2 (by omega)
            · rfl
          · rw [memGet, memGet, if_neg hx, if_neg hx]
        · rw [memGet, memGet]
          split
          · rfl
          · split
            · rfl
            · exact ih _ hm.2.2
  exact main m none h

/-- Bytes outside the written range read as before. -/
theorem memGet_memWrite_other {m : List Host.Cell} (h : Memory.wf m = true) {a x : Nat} (b : Bytes)
    (hx : x < a ∨ a + b.length ≤ x) : memGet (memWrite m a b) x = memGet m x := by
  induction b generalizing m a with
  | nil => rfl
  | cons y bs ih =>
    simp only [List.length_cons] at hx
    rw [memWrite, ih (memPut_wf a y h) (by omega), memGet_memPut_other h y (by omega)]

/-- Every key of a map lies above `lo`, rising. -/
def mapAbove {α : Type} (lo : Option Nat) : List (Nat × α) → Prop
  | [] => True
  | (k, _) :: r => (∀ l, lo = some l → l < k) ∧ mapAbove (some k) r

/-- Setting a key keeps keys strictly rising. -/
theorem mapPut_above {α : Type} (m : List (Nat × α)) (lo : Option Nat) (a : Nat) (x : Option α) (hlo : ∀ l, lo = some l → l < a)
    (hm : mapAbove lo m) : mapAbove lo (mapPut m a x) := by
  induction m generalizing lo with
  | nil => cases x <;> simp_all [mapPut, mapAbove]
  | cons c r ih =>
    obtain ⟨k, v⟩ := c
    obtain ⟨h1, h2⟩ := hm
    unfold mapPut
    split
    · cases x with
      | none => exact ⟨h1, h2⟩
      | some w => exact ⟨hlo, fun l hl => by cases hl; assumption, h2⟩
    · split
      · rename_i hak
        subst hak
        cases x with
        | some w => exact ⟨h1, h2⟩
        | none =>
          cases r with
          | nil => trivial
          | cons d r' => exact ⟨fun l hl => Nat.lt_trans (h1 l hl) (h2.1 a rfl), h2.2⟩
      · exact ⟨h1, ih _ (fun l hl => by cases hl; omega) h2⟩

/-- A key below every entry has no value. -/
theorem mapGet_below {α : Type} {m : List (Nat × α)} {k a : Nat} (h : mapAbove (some k) m) (ha : a ≤ k) : mapGet m a = none := by
  cases m with
  | nil => rfl
  | cons c r =>
    obtain ⟨k', v⟩ := c
    have := h.1 k rfl
    unfold mapGet
    rw [if_neg (by omega), if_pos (by omega)]

/-- The value set is the value read. -/
theorem mapGet_mapPut_same {α : Type} (m : List (Nat × α)) (lo : Option Nat) (a : Nat) (x : Option α) (hm : mapAbove lo m) :
    mapGet (mapPut m a x) a = x := by
  induction m generalizing lo with
  | nil => cases x <;> simp [mapPut, mapGet]
  | cons c r ih =>
    obtain ⟨k, v⟩ := c
    obtain ⟨h1, h2⟩ := hm
    unfold mapPut
    split
    · cases x with
      | none => rw [mapGet, if_neg (by omega), if_pos ‹_›]
      | some w => simp [mapGet]
    · split
      · rename_i hak
        subst hak
        cases x with
        | some w => simp [mapGet]
        | none => exact mapGet_below h2 (Nat.le_refl _)
      · rw [mapGet, if_neg (by omega), if_neg (by omega)]
        exact ih _ h2

end Sys2Proof.Machine
end

