-- ==== Sys2Proof/Laws/Onward.lean ====
section
/-! SUPPORT. What every operation of the model leaves alone: a step only goes onward. -/

namespace Sys2Proof.Machine

/-- OTP cells only gain bits (15 R442, R443, 10 R293): identity cells stay, the thermometers never lose a bit, a revoked seed
slot stays revoked, and settings generations are only added. -/
structure OtpOnward (a b : Otp) : Prop where
  serial : b.serial = a.serial
  macBase : b.macBase = a.macBase
  noncePrefix : b.noncePrefix = a.noncePrefix
  life : ∀ i, a.life.testBit i = true → b.life.testBit i = true
  rollback : a.rollback ≤ b.rollback
  seeds : ∀ i : Nat, a.seeds[i]? = some .revoked → b.seeds[i]? = some .revoked
  gens : a.gens <+: b.gens

/-- What any operation does between two states: time and the queue stand, memory keeps its canonical form, outputs and free
values are only added, OTP cells only gain bits. -/
structure Onward (s u : State) : Prop where
  now : u.now = s.now
  pending : u.pending = s.pending
  mem : Memory.wf s.mem = true → Memory.wf u.mem = true
  out : s.out <+: u.out
  free : s.free ≤ u.free
  otp : OtpOnward s.fw.otp u.fw.otp

/-- An outcome is a next state that lies onward. -/
def Goes (s : State) (o : Host.Outcome State Fault Refusal) : Prop := ∃ u, o = .next u ∧ Onward s u

theorem OtpOnward.refl (a : Otp) : OtpOnward a a := ⟨rfl, rfl, rfl, fun _ => id, Nat.le_refl _, fun _ => id, List.prefix_rfl⟩

theorem OtpOnward.trans {a b c : Otp} (h : OtpOnward a b) (k : OtpOnward b c) : OtpOnward a c :=
  ⟨k.serial.trans h.serial, k.macBase.trans h.macBase, k.noncePrefix.trans h.noncePrefix, fun i x => k.life i (h.life i x),
    Nat.le_trans h.rollback k.rollback, fun i x => k.seeds i (h.seeds i x), h.gens.trans k.gens⟩

theorem Onward.refl (s : State) : Onward s s := ⟨rfl, rfl, id, List.prefix_rfl, Nat.le_refl _, .refl _⟩

theorem Onward.trans {s u v : State} (a : Onward s u) (b : Onward u v) : Onward s v :=
  ⟨b.now.trans a.now, b.pending.trans a.pending, b.mem ∘ a.mem, a.out.trans b.out, Nat.le_trans a.free b.free, a.otp.trans b.otp⟩

/-- A record update of fields other than time, queue, outputs, memory and the free-value counter. -/
theorem Onward.upd {s v : State} (h : Onward s v) {mode clk eth shelf dict evs site dma fw sec net kv shank idx awl welt media sets}
    (hf : fw.otp = v.fw.otp) :
    Onward s ⟨v.now, v.pending, v.out, v.mem, mode, clk, eth, shelf, dict, evs, site, dma, fw, sec, net, kv, shank, idx, awl, welt, media, sets, v.free⟩ :=
  h.trans ⟨rfl, rfl, id, List.prefix_rfl, Nat.le_refl _, by rw [hf]; exact .refl _⟩

/-- A record update of any fields other than time, queue and the free-value counter. -/
theorem Onward.updAll {s v : State} (h : Onward s v) {out mem mode clk eth shelf dict evs site dma fw sec net kv shank idx awl welt media sets}
    (ho : v.out <+: out) (hm : Memory.wf v.mem = true → Memory.wf mem = true) (hf : OtpOnward v.fw.otp fw.otp) :
    Onward s ⟨v.now, v.pending, out, mem, mode, clk, eth, shelf, dict, evs, site, dma, fw, sec, net, kv, shank, idx, awl, welt, media, sets, v.free⟩ :=
  h.trans ⟨rfl, rfl, hm, ho, Nat.le_refl _, hf⟩

/-- A record update of memory and of fields without a rule of their own. -/
theorem Onward.updMem {s v : State} (h : Onward s v) {mem mode clk eth shelf dict evs site dma fw sec net kv shank idx awl welt media sets}
    (hm : Memory.wf v.mem = true → Memory.wf mem = true) (hf : fw.otp = v.fw.otp) :
    Onward s ⟨v.now, v.pending, v.out, mem, mode, clk, eth, shelf, dict, evs, site, dma, fw, sec, net, kv, shank, idx, awl, welt, media, sets, v.free⟩ :=
  h.updAll List.prefix_rfl hm (by rw [hf]; exact .refl _)

theorem foldl_memWf {α : Type _} {f : List Host.Cell → α → List Host.Cell} (hf : ∀ m x, Memory.wf m = true → Memory.wf (f m x) = true) (l : List α) :
    ∀ m, Memory.wf m = true → Memory.wf (l.foldl f m) = true := by
  induction l with
  | nil => exact fun _ h => h
  | cons a l ih => exact fun m h => ih _ (hf m a h)

theorem freeSeed_some {l : List SeedSlot} {i : Nat} (h : freeSeed l = some i) : l[i]? = some .unprogrammed := by
  have k := List.find?_some h
  simpa using k

theorem revokeLower_keeps (l : List SeedSlot) (i : Nat) (h : l[i]? = some .revoked) : (revokeLower l)[i]? = some .revoked := by
  induction l generalizing i with
  | nil => simp at h
  | cons x l ih =>
    cases i with
    | zero =>
      simp only [List.getElem?_cons_zero, Option.some.injEq] at h
      simp [revokeLower, h]
    | succ n =>
      simp only [List.getElem?_cons_succ] at h
      simp only [revokeLower, List.getElem?_cons_succ]
      exact ih n h

theorem wipeSeeds_keeps (l : List SeedSlot) (code : Nat) (retire : Bool) (fresh : Bytes) (i : Nat) (h : l[i]? = some .revoked) :
    (wipeSeeds l code retire fresh)[i]? = some .revoked := by
  have hi : i < l.length := by
    rcases Nat.lt_or_ge i l.length with a | a
    · exact a
    · rw [List.getElem?_eq_none a] at h; simp at h
  have hn : ¬ some i = freeSeed l := by
    intro e
    have := freeSeed_some e.symm
    rw [h] at this
    simp at this
  have hl : ((List.range l.length).map fun i => if some i = freeSeed l then SeedSlot.generated fresh else l.getD i .unprogrammed)[i]? =
      some .revoked := by
    have he : l[i] = .revoked := by
      rw [List.getElem?_eq_getElem hi] at h
      exact Option.some.inj h
    simp [hi, hn, he]
  unfold wipeSeeds
  split
  · rw [List.getElem?_map, h]; rfl
  · split
    · exact hl
    · exact revokeLower_keeps _ _ hl

/-- A record update of the OTP cells and of fields without a rule of their own. -/
theorem Onward.updOtp {s v : State} (h : Onward s v) {mode clk eth shelf dict evs site dma fw sec net kv shank idx awl welt media sets}
    (hf : OtpOnward v.fw.otp fw.otp) :
    Onward s ⟨v.now, v.pending, v.out, v.mem, mode, clk, eth, shelf, dict, evs, site, dma, fw, sec, net, kv, shank, idx, awl, welt, media, sets, v.free⟩ :=
  h.updAll List.prefix_rfl id hf

theorem OtpOnward.wipe (a : Otp) (code : Nat) (retire : Bool) (fresh : Bytes) (b : Nat) :
    OtpOnward a { a with seeds := wipeSeeds a.seeds code retire fresh, life := a.life ||| b } :=
  ⟨rfl, rfl, rfl, fun i h => by simp [h], Nat.le_refl _, wipeSeeds_keeps _ _ _ _, List.prefix_rfl⟩
theorem OtpOnward.revoke (a : Otp) : OtpOnward a { a with seeds := revokeLower a.seeds } :=
  ⟨rfl, rfl, rfl, fun _ => id, Nat.le_refl _, revokeLower_keeps _, List.prefix_rfl⟩
theorem OtpOnward.setLife (a : Otp) (b : Nat) : OtpOnward a { a with life := a.life ||| b } :=
  ⟨rfl, rfl, rfl, fun i h => by simp [h], Nat.le_refl _, fun _ => id, List.prefix_rfl⟩
theorem OtpOnward.setRollback (a : Otp) {n : Nat} (h : a.rollback < n) : OtpOnward a { a with rollback := n } :=
  ⟨rfl, rfl, rfl, fun _ => id, Nat.le_of_lt h, fun _ => id, List.prefix_rfl⟩
theorem OtpOnward.addGen (a : Otp) (g : Option Bytes) : OtpOnward a { a with gens := a.gens ++ [g] } :=
  ⟨rfl, rfl, rfl, fun _ => id, Nat.le_refl _, fun _ => id, List.prefix_append _ _⟩

theorem Onward.foldl {α : Type _} {f : State → α → State} (h : ∀ s x, Onward s (f s x)) (l : List α) (s : State) :
    Onward s (l.foldl f s) := by
  induction l generalizing s with
  | nil => exact .refl s
  | cons a l ih => exact (h s a).trans (ih _)

theorem Onward.foldr {α : Type _} {f : α → State → State} (h : ∀ x s, Onward s (f x s)) (l : List α) (s : State) :
    Onward s (l.foldr f s) := by
  induction l with
  | nil => exact .refl s
  | cons a l ih => exact ih.trans (h a _)

/-- A fold that carries a state beside something else. -/
theorem Onward.foldl_fst {α β : Type _} {f : State × β → α → State × β} (h : ∀ a x, Onward a.1 (f a x).1) (l : List α) (a : State × β) :
    Onward a.1 (l.foldl f a).1 := by
  induction l generalizing a with
  | nil => exact .refl _
  | cons x l ih => exact (h a x).trans (ih _)

theorem Onward.fst_mk {β : Type _} {s u : State} {b : β} (h : Onward s u) : Onward s (u, b).1 := h
theorem Onward.snd_mk {β : Type _} {s u : State} {b : β} (h : Onward s u) : Onward s (b, u).2 := h

theorem Onward.ite {c : Prop} [Decidable c] {s u v : State} (h : Onward s u) (k : Onward s v) : Onward s (if c then u else v) := by
  split <;> assumption
theorem Onward.ite_fst {β : Type _} {c : Prop} [Decidable c] {s : State} {u v : State × β} (h : Onward s u.1) (k : Onward s v.1) :
    Onward s (if c then u else v).1 := by
  split <;> assumption
theorem Onward.ite_snd {β : Type _} {c : Prop} [Decidable c] {s : State} {u v : β × State} (h : Onward s u.2) (k : Onward s v.2) :
    Onward s (if c then u else v).2 := by
  split <;> assumption
theorem Goes.ite {c : Prop} [Decidable c] {s : State} {u v : Host.Outcome State Fault Refusal} (h : Goes s u) (k : Goes s v) :
    Goes s (if c then u else v) := by
  split <;> assumption

theorem Goes.next {s u : State} (h : Onward s u) : Goes s (.next u) := ⟨u, rfl, h⟩
theorem Goes.done {s u : State} (h : Onward s u) : Goes s (Machine.done u) := ⟨u, rfl, h⟩

end Sys2Proof.Machine
end

