-- ==== Sys2Proof/Laws/OnwardPart.lean ====
section
/-! SUPPORT. What the operations and meanings of time, wire formats, events, clocks, DMA, site firmware, test access do: each only goes onward (Laws/Onward.lean). -/

namespace Sys2Proof.Machine

theorem State.stirred_onward (s : State) : Onward s (State.stirred s) := by
  unfold State.stirred
  refine Onward.upd ?_ rfl
  exact Onward.refl _

theorem State.hwSet_onward (s : State) (reg : Nat) (mask : Nat) : Onward s (State.hwSet s reg mask) := by
  unfold State.hwSet
  extract_lets +onlyGivenNames v1
  try clear_value v1
  refine Onward.upd ?_ rfl
  exact Onward.refl _

theorem State.emit_onward (s : State) (o : Out) : Onward s (State.emit s o) :=
  ⟨rfl, rfl, id, List.prefix_append _ _, Nat.le_refl _, .refl _⟩

theorem State.random_onward (s : State) (n : Nat) : Onward s (State.random s n).2 := by
  unfold State.random
  refine Onward.snd_mk ?_
  refine Onward.upd ?_ rfl
  exact Onward.refl _
theorem State.random_onward_eq {s : State} {n : Nat} {r1 r2} (hres : State.random s n = (r2, r1)) : Onward s r1 := by
  have k := State.random_onward s n
  rw [hres] at k
  exact k

theorem State.drawFree_onward (s : State) : Onward s (State.drawFree s).2 :=
  ⟨rfl, rfl, id, List.prefix_rfl, Nat.le_succ _, .refl _⟩
theorem State.drawFree_onward_eq {s : State} {b : Nat} {u : State} (h : State.drawFree s = (b, u)) : Onward s u := by
  have k := State.drawFree_onward s
  rw [h] at k
  exact k

theorem State.setVal_onward (s : State) (k : Nat) (v : DVal) : Onward s (State.setVal s k v) := by
  unfold State.setVal
  refine Onward.upd ?_ rfl
  exact Onward.refl _

theorem State.setNum_onward (s : State) (k : Nat) (n : Nat) : Onward s (State.setNum s k n) := by
  unfold State.setNum
  with_reducible refine Onward.trans ?_ (State.setVal_onward _ _ _)
  exact Onward.refl _

theorem State.setStr_onward (s : State) (k : Nat) (b : Bytes) : Onward s (State.setStr s k b) := by
  unfold State.setStr
  with_reducible refine Onward.trans ?_ (State.setVal_onward _ _ _)
  exact Onward.refl _

theorem State.setSys_onward (s : State) (k : Nat) (v : DVal) : Onward s (State.setSys s k v) := by
  unfold State.setSys
  refine Onward.upd ?_ rfl
  exact Onward.refl _

theorem State.addTo_onward (s : State) (k : Nat) (n : Nat) : Onward s (State.addTo s k n) := by
  unfold State.addTo
  with_reducible refine Onward.trans ?_ (State.setNum_onward _ _ _)
  exact Onward.refl _

theorem State.bump_onward (s : State) (k : Nat) : Onward s (State.bump s k) := by
  unfold State.bump
  with_reducible refine Onward.trans ?_ (State.addTo_onward _ _ _)
  exact Onward.refl _

theorem State.bumpSys_onward (s : State) (k : Nat) : Onward s (State.bumpSys s k) := by
  unfold State.bumpSys
  with_reducible refine Onward.trans ?_ (State.setSys_onward _ _ _)
  exact Onward.refl _

theorem State.setDom_onward (s : State) (d : Dom) (a2 : DomState) : Onward s (State.setDom s d a2) := by
  unfold State.setDom
  refine Onward.upd ?_ rfl
  exact Onward.refl _

theorem State.setPort_onward (s : State) (p : PortId) (a2 : Port) : Onward s (State.setPort s p a2) := by
  unfold State.setPort
  split
  · refine Onward.upd ?_ rfl
    exact Onward.refl _
  · refine Onward.upd ?_ rfl
    exact Onward.refl _

theorem State.setPtp_onward (s : State) (a1 : Ptp) : Onward s (State.setPtp s a1) := by
  unfold State.setPtp
  refine Onward.upd ?_ rfl
  exact Onward.refl _

theorem State.setBucket_onward (s : State) (b : Bucket) : Onward s (State.setBucket s b) := by
  unfold State.setBucket
  refine Onward.upd ?_ rfl
  exact Onward.refl _

theorem State.fileRecord_onward (s : State) (r : EvRec) : Onward s (State.fileRecord s r) := by
  unfold State.fileRecord
  extract_lets +onlyGivenNames v1
  try clear_value v1
  refine Onward.ite ?_ ?_
  · refine Onward.ite ?_ ?_
    · refine Onward.upd ?_ rfl
      exact Onward.refl _
    · refine Onward.upd ?_ rfl
      exact Onward.refl _
  · refine Onward.ite ?_ ?_
    · refine Onward.ite ?_ ?_
      · with_reducible refine Onward.trans ?_ (State.hwSet_onward _ _ _)
        refine Onward.upd ?_ rfl
        exact Onward.refl _
      · with_reducible refine Onward.trans ?_ (State.bump_onward _ _)
        refine Onward.upd ?_ rfl
        exact Onward.refl _
    · extract_lets +onlyGivenNames v4
      try clear_value v4
      extract_lets +onlyGivenNames v5
      try clear_value v5
      extract_lets +onlyGivenNames v6
      try clear_value v6
      extract_lets +onlyGivenNames v7
      try clear_value v7
      extract_lets +onlyGivenNames v8
      have h8 : Onward s v8 := by
        subst v8
        with_reducible refine Onward.trans ?_ (State.hwSet_onward _ _ _)
        exact Onward.refl _
      try clear_value v8
      refine Onward.ite ?_ ?_
      · refine Onward.upd ?_ rfl
        assumption
      · refine Onward.upd ?_ rfl
        assumption

theorem State.fileAll_onward (s : State) (code : Nat) (flags : Nat) (supp : Nat) (a4 : List Bytes) : Onward s (State.fileAll s code flags supp a4) := by
  induction a4 generalizing s code flags supp with
  | nil =>
    rw [State.fileAll]
    exact Onward.refl _
  | cons hd tl ih =>
    rw [State.fileAll]
    refine Onward.trans ?_ (ih ..)
    with_reducible refine Onward.trans ?_ (State.bump_onward _ _)
    with_reducible refine Onward.trans ?_ (State.fileRecord_onward _ _)
    exact Onward.refl _

theorem State.eventSeq_onward (s : State) (code : Nat) (detail : Bytes) (flags : optParam Nat 0) : Onward s (State.eventSeq s code detail flags).1 := by
  unfold State.eventSeq
  extract_lets +onlyGivenNames v1
  try clear_value v1
  refine Onward.ite_fst ?_ ?_
  · extract_lets +onlyGivenNames v2
    try clear_value v2
    extract_lets +onlyGivenNames v3
    have h3 : Onward s v3 := by
      subst v3
      with_reducible refine Onward.trans ?_ (State.setBucket_onward _ _)
      exact Onward.refl _
    try clear_value v3
    extract_lets +onlyGivenNames v5
    try clear_value v5
    extract_lets +onlyGivenNames v6
    try clear_value v6
    refine Onward.fst_mk ?_
    with_reducible refine Onward.trans ?_ (State.fileAll_onward _ _ _ _ _)
    assumption
  · refine Onward.fst_mk ?_
    with_reducible refine Onward.trans ?_ (State.bump_onward _ _)
    with_reducible refine Onward.trans ?_ (State.setBucket_onward _ _)
    exact Onward.refl _
theorem State.eventSeq_onward_eq {s : State} {code : Nat} {detail : Bytes} {flags : optParam Nat 0} {r1 r2} (hres : State.eventSeq s code detail flags = (r1, r2)) : Onward s r1 := by
  have k := State.eventSeq_onward s code detail flags
  rw [hres] at k
  exact k

theorem State.event_onward (s : State) (code : Nat) (fields : List (Nat × Nat)) : Onward s (State.event s code fields) := by
  unfold State.event
  with_reducible refine Onward.trans ?_ (State.eventSeq_onward _ _ _ _)
  exact Onward.refl _

theorem State.emcy_onward (s : State) (code : Nat) (ev : Nat) (seq : Nat) (detail : Nat) : Onward s (State.emcy s code ev seq detail) := by
  unfold State.emcy
  refine Onward.ite ?_ ?_
  · extract_lets +onlyGivenNames v1
    try clear_value v1
    refine Onward.upd ?_ rfl
    exact Onward.refl _
  · with_reducible refine Onward.trans ?_ (State.bump_onward _ _)
    exact Onward.refl _

theorem State.condOn_onward (s : State) (c : Nat) : Onward s (State.condOn s c) := by
  unfold State.condOn
  refine Onward.ite ?_ ?_
  · exact Onward.refl _
  · refine Onward.upd ?_ rfl
    exact Onward.refl _

theorem State.condOff_onward (s : State) (c : Nat) : Onward s (State.condOff s c) := by
  unfold State.condOff
  refine Onward.ite ?_ ?_
  · extract_lets +onlyGivenNames v1
    try clear_value v1
    extract_lets +onlyGivenNames v2
    have h2 : Onward s v2 := by
      subst v2
      refine Onward.upd ?_ rfl
      exact Onward.refl _
    refine Onward.ite ?_ ?_
    · with_reducible refine Onward.trans ?_ (State.emcy_onward _ _ _ _ _)
      assumption
    · assumption
  · exact Onward.refl _

theorem State.eventEmcy_onward (s : State) (code : Nat) (fields : List (Nat × Nat)) (em : Nat) (persistent : Bool) : Onward s (State.eventEmcy s code fields em persistent) := by
  unfold State.eventEmcy
  extract_lets +onlyGivenNames v1
  try clear_value v1
  extract_lets +onlyGivenNames v2
  extract_lets +onlyGivenNames v3
  have h3 : Onward s v3 := by
    subst v3
    refine Onward.ite ?_ ?_
    · with_reducible refine Onward.trans ?_ (State.condOn_onward _ _)
      subst v2
      with_reducible refine Onward.trans ?_ (State.eventSeq_onward _ _ _ _)
      exact Onward.refl _
    · subst v2
      with_reducible refine Onward.trans ?_ (State.eventSeq_onward _ _ _ _)
      exact Onward.refl _
  try clear_value v3
  with_reducible refine Onward.trans ?_ (State.emcy_onward _ _ _ _ _)
  assumption

theorem State.linkCond_onward (s : State) (ev : Nat) (seq : Nat) (detail : Nat) : Onward s (State.linkCond s ev seq detail) := by
  unfold State.linkCond
  refine Onward.ite ?_ ?_
  · refine Onward.ite ?_ ?_
    · exact Onward.refl _
    · with_reducible refine Onward.trans ?_ (State.emcy_onward _ _ _ _ _)
      with_reducible refine Onward.trans ?_ (State.condOn_onward _ _)
      exact Onward.refl _
  · with_reducible refine Onward.trans ?_ (State.condOff_onward _ _)
    exact Onward.refl _

theorem State.cpcIrq_onward (s : State) (bits : Word32) : Onward s (State.cpcIrq s bits) := by
  unfold State.cpcIrq
  with_reducible refine Onward.trans ?_ (State.hwSet_onward _ _ _)
  refine Onward.upd ?_ rfl
  exact Onward.refl _

theorem State.dropSessions_onward (s : State) : Onward s (State.dropSessions s) := by
  unfold State.dropSessions
  refine Onward.upd ?_ rfl
  exact Onward.refl _

theorem State.loseDom_onward (s : State) (d : Dom) : Onward s (State.loseDom s d) := by
  cases d <;> simp only [State.loseDom] <;> first
    | exact .refl _
    | exact Onward.upd (State.dropSessions_onward ..) rfl
    | exact Onward.updMem (.refl s) (memClear_wf _ _) rfl

theorem State.domTo_onward (s : State) (d : Dom) (a2 : DomState) : Onward s (State.domTo s d a2) := by
  unfold State.domTo
  refine Onward.ite ?_ ?_
  · exact Onward.refl _
  · extract_lets +onlyGivenNames v1
    have h1 : Onward s v1 := by
      subst v1
      with_reducible refine Onward.trans ?_ (State.cpcIrq_onward _ _)
      with_reducible refine Onward.trans ?_ (State.setDom_onward _ _ _)
      exact Onward.refl _
    try clear_value v1
    refine Onward.ite ?_ ?_
    · with_reducible refine Onward.trans ?_ (State.loseDom_onward _ _)
      assumption
    · assumption

theorem State.setSrc_onward (s : State) (a1 : Source) (v : Src) : Onward s (State.setSrc s a1 v) := by
  unfold State.setSrc
  refine Onward.upd ?_ rfl
  exact Onward.refl _

theorem State.setPll_onward (s : State) (p : Pll) (v : PllSt) : Onward s (State.setPll s p v) := by
  unfold State.setPll
  refine Onward.upd ?_ rfl
  exact Onward.refl _

theorem State.pllSwitch_onward (s : State) (p : Pll) : Onward s (State.pllSwitch s p) := by
  unfold State.pllSwitch
  extract_lets +onlyGivenNames v1
  try clear_value v1
  split
  · refine Onward.ite ?_ ?_
    · exact Onward.refl _
    · with_reducible refine Onward.trans ?_ (State.event_onward _ _ _)
      with_reducible refine Onward.trans ?_ (State.setPll_onward _ _ _)
      exact Onward.refl _
  · refine Onward.ite ?_ ?_
    · exact Onward.refl _
    · with_reducible refine Onward.trans ?_ (State.event_onward _ _ _)
      with_reducible refine Onward.trans ?_ (State.setPll_onward _ _ _)
      exact Onward.refl _

theorem State.pllsFollow_onward (s : State) : Onward s (State.pllsFollow s) := by
  unfold State.pllsFollow
  refine Onward.trans ?_ (Onward.foldl (fun z1 y1 => ?_) _ _)
  · exact Onward.refl _
  · split
    · refine Onward.ite ?_ ?_
      · exact Onward.refl _
      · with_reducible refine Onward.trans ?_ (State.pllSwitch_onward _ _)
        exact Onward.refl _
    · exact Onward.refl _

theorem State.setFmc_onward (s : State) (f : Fmc) : Onward s (State.setFmc s f) := by
  unfold State.setFmc
  refine Onward.upd ?_ rfl
  exact Onward.refl _

theorem State.srcTo_onward (s : State) (a1 : Source) (new : SrcState) (count : Nat) : Onward s (State.srcTo s a1 new count) := by
  unfold State.srcTo
  extract_lets +onlyGivenNames v1
  try clear_value v1
  refine Onward.ite ?_ ?_
  · exact Onward.refl _
  · extract_lets +onlyGivenNames v2
    have h2 : Onward s v2 := by
      subst v2
      with_reducible refine Onward.trans ?_ (State.cpcIrq_onward _ _)
      with_reducible refine Onward.trans ?_ (State.setSrc_onward _ _ _)
      exact Onward.refl _
    try clear_value v2
    extract_lets +onlyGivenNames v5
    try clear_value v5
    refine Onward.ite ?_ ?_
    · extract_lets +onlyGivenNames v6
      have h6 : Onward s v6 := by
        subst v6
        with_reducible refine Onward.trans ?_ (State.eventEmcy_onward _ _ _ _ _)
        with_reducible refine Onward.trans ?_ (State.bump_onward _ _)
        assumption
      try clear_value v6
      extract_lets +onlyGivenNames v9
      try clear_value v9
      extract_lets +onlyGivenNames v10
      have h10 : Onward s v10 := by
        subst v10
        refine Onward.ite ?_ ?_
        · with_reducible refine Onward.trans ?_ (State.hwSet_onward _ _ _)
          with_reducible refine Onward.trans ?_ (State.setFmc_onward _ _)
          assumption
        · assumption
      try clear_value v10
      extract_lets +onlyGivenNames v13
      try clear_value v13
      extract_lets +onlyGivenNames v14
      have h14 : Onward s v14 := by
        subst v14
        refine Onward.ite ?_ ?_
        · refine Onward.upd ?_ rfl
          assumption
        · assumption
      try clear_value v14
      with_reducible refine Onward.trans ?_ (State.pllsFollow_onward _)
      assumption
    · with_reducible refine Onward.trans ?_ (State.pllsFollow_onward _)
      with_reducible refine Onward.trans ?_ (State.event_onward _ _ _)
      assumption

theorem State.monitor_onward (s : State) (a1 : Source) (count : Nat) (gap : Bool) : Onward s (State.monitor s a1 count gap) := by
  unfold State.monitor
  extract_lets +onlyGivenNames v1
  try clear_value v1
  split
  · exact Onward.refl _
  · extract_lets +onlyGivenNames v2
    try clear_value v2
    refine Onward.ite ?_ ?_
    · with_reducible refine Onward.trans ?_ (State.srcTo_onward _ _ _ _)
      exact Onward.refl _
    · with_reducible refine Onward.trans ?_ (State.setSrc_onward _ _ _)
      exact Onward.refl _
  · refine Onward.ite ?_ ?_
    · with_reducible refine Onward.trans ?_ (State.srcTo_onward _ _ _ _)
      exact Onward.refl _
    · refine Onward.ite ?_ ?_
      · with_reducible refine Onward.trans ?_ (State.setSrc_onward _ _ _)
        exact Onward.refl _
      · refine Onward.ite ?_ ?_
        · with_reducible refine Onward.trans ?_ (State.srcTo_onward _ _ _ _)
          exact Onward.refl _
        · with_reducible refine Onward.trans ?_ (State.setSrc_onward _ _ _)
          exact Onward.refl _
  · refine Onward.ite ?_ ?_
    · with_reducible refine Onward.trans ?_ (State.setSrc_onward _ _ _)
      exact Onward.refl _
    · refine Onward.ite ?_ ?_
      · with_reducible refine Onward.trans ?_ (State.srcTo_onward _ _ _ _)
        exact Onward.refl _
      · with_reducible refine Onward.trans ?_ (State.setSrc_onward _ _ _)
        exact Onward.refl _

theorem State.npllReturn_onward (s : State) : Onward s (State.npllReturn s) := by
  unfold State.npllReturn
  extract_lets +onlyGivenNames v1
  try clear_value v1
  split
  · exact Onward.refl _
  · extract_lets +onlyGivenNames v2
    try clear_value v2
    split
    · refine Onward.ite ?_ ?_
      · with_reducible refine Onward.trans ?_ (State.event_onward _ _ _)
        with_reducible refine Onward.trans ?_ (State.setPll_onward _ _ _)
        exact Onward.refl _
      · exact Onward.refl _
    · exact Onward.refl _

theorem State.setGate_onward (s : State) (g : Gate) : Onward s (State.setGate s g) := by
  unfold State.setGate
  extract_lets +onlyGivenNames v1
  try clear_value v1
  refine Onward.upd ?_ rfl
  exact Onward.refl _

theorem execGateIdleClose_onward (t : Nat) (blk : Nat) (outstanding : Nat) (s : State) : Goes (State.advance s t) (execGateIdleClose t blk outstanding s) := by
  unfold execGateIdleClose
  extract_lets +onlyGivenNames v1
  have h1 : Onward (s.advance t) v1 := by
    subst v1
    exact Onward.refl _
  try clear_value v1
  extract_lets +onlyGivenNames v2
  try clear_value v2
  refine Goes.done ?_
  refine Onward.ite ?_ ?_
  · assumption
  · refine Onward.ite ?_ ?_
    · with_reducible refine Onward.trans ?_ (State.setGate_onward _ _)
      assumption
    · with_reducible refine Onward.trans ?_ (State.setGate_onward _ _)
      assumption

theorem execGateDeferralTimeout_onward (t : Nat) (blk : Nat) (s : State) : Goes (State.advance s t) (execGateDeferralTimeout t blk s) := by
  unfold execGateDeferralTimeout
  extract_lets +onlyGivenNames v1
  have h1 : Onward (s.advance t) v1 := by
    subst v1
    exact Onward.refl _
  try clear_value v1
  extract_lets +onlyGivenNames v2
  try clear_value v2
  refine Goes.done ?_
  split
  · refine Onward.ite ?_ ?_
    · with_reducible refine Onward.trans ?_ (State.event_onward _ _ _)
      with_reducible refine Onward.trans ?_ (State.bump_onward _ _)
      with_reducible refine Onward.trans ?_ (State.setGate_onward _ _)
      assumption
    · assumption
  · assumption

theorem execGateReopen_onward (t : Nat) (blk : Nat) (s : State) : Goes (State.advance s t) (execGateReopen t blk s) := by
  unfold execGateReopen
  extract_lets +onlyGivenNames v1
  have h1 : Onward (s.advance t) v1 := by
    subst v1
    exact Onward.refl _
  try clear_value v1
  refine Goes.done ?_
  refine Onward.ite ?_ ?_
  · with_reducible refine Onward.trans ?_ (State.setGate_onward _ _)
    assumption
  · assumption

theorem execFmcStart_onward (t : Nat) (s : State) : Goes (State.advance s t) (execFmcStart t s) := by
  unfold execFmcStart
  extract_lets +onlyGivenNames v1
  have h1 : Onward (s.advance t) v1 := by
    subst v1
    exact Onward.refl _
  try clear_value v1
  extract_lets +onlyGivenNames v2
  try clear_value v2
  extract_lets +onlyGivenNames v3
  try clear_value v3
  refine Goes.done ?_
  refine Onward.ite ?_ ?_
  · assumption
  · refine Onward.ite ?_ ?_
    · with_reducible refine Onward.trans ?_ (State.hwSet_onward _ _ _)
      with_reducible refine Onward.trans ?_ (State.setFmc_onward _ _)
      assumption
    · extract_lets +onlyGivenNames v6
      have h6 : Onward (s.advance t) v6 := by
        subst v6
        with_reducible refine Onward.trans ?_ (State.setFmc_onward _ _)
        assumption
      try clear_value v6
      refine Onward.ite ?_ ?_
      · with_reducible refine Onward.trans ?_ (State.hwSet_onward _ _ _)
        assumption
      · assumption

theorem execFmcStop_onward (t : Nat) (count : Nat) (s : State) : Goes (State.advance s t) (execFmcStop t count s) := by
  unfold execFmcStop
  extract_lets +onlyGivenNames v1
  have h1 : Onward (s.advance t) v1 := by
    subst v1
    exact Onward.refl _
  try clear_value v1
  refine Goes.done ?_
  refine Onward.ite ?_ ?_
  · with_reducible refine Onward.trans ?_ (State.hwSet_onward _ _ _)
    with_reducible refine Onward.trans ?_ (State.setFmc_onward _ _)
    assumption
  · assumption

theorem execFmcWindowEnd_onward (t : Nat) (count : Nat) (s : State) : Goes (State.advance s t) (execFmcWindowEnd t count s) := by
  unfold execFmcWindowEnd
  extract_lets +onlyGivenNames v1
  have h1 : Onward (s.advance t) v1 := by
    subst v1
    exact Onward.refl _
  try clear_value v1
  refine Goes.done ?_
  refine Onward.ite ?_ ?_
  · with_reducible refine Onward.trans ?_ (State.hwSet_onward _ _ _)
    with_reducible refine Onward.trans ?_ (State.setFmc_onward _ _)
    assumption
  · assumption

theorem State.setCh_onward (s : State) (n : Nat) (c : DmaCh) : Onward s (State.setCh s n c) := by
  unfold State.setCh
  refine Onward.upd ?_ rfl
  exact Onward.refl _

theorem moveBytes_wf {m : List Host.Cell} (x : DmaDesc) (n : Nat) (h : Memory.wf m = true) : Memory.wf (moveBytes m x n) = true :=
  foldl_memWf (fun _ _ k => memPut_wf _ _ k) _ _ h

theorem writeBack_wf {m : List Host.Cell} (a ctrl status bytes time : Nat) (h : Memory.wf m = true) :
    Memory.wf (writeBack m a ctrl status bytes time) = true :=
  memPut_wf _ _ (memWrite_wf _ _ (memWrite_wf _ _ (memPut_wf _ _ h)))

theorem State.dmaError_onward (s : State) (n : Nat) (c : DmaCh) (status : Nat) (addr : Nat) : Onward s (State.dmaError s n c status addr) := by
  unfold State.dmaError
  extract_lets +onlyGivenNames v1
  try clear_value v1
  with_reducible refine Onward.trans ?_ (State.event_onward _ _ _)
  with_reducible refine Onward.trans ?_ (State.bump_onward _ _)
  with_reducible refine Onward.trans ?_ (State.hwSet_onward _ _ _)
  with_reducible refine Onward.trans ?_ (State.setCh_onward _ _ _)
  exact Onward.refl _

theorem State.dmaFinish_onward (s : State) (n : Nat) (d : DmaDesc) (status : Nat) (bytes : Nat) : Onward s (State.dmaFinish s n d status bytes) := by
  unfold State.dmaFinish
  extract_lets c m s1 s2
  have h1 : Onward s s1 := Onward.updMem (.refl s) (fun h => writeBack_wf _ _ _ _ _ (moveBytes_wf _ _ h)) rfl
  have h2 : Onward s s2 := by
    subst s2
    split
    · exact h1.trans (State.addTo_onward ..)
    · exact h1
  exact h2.trans (State.setCh_onward ..)

theorem State.takeDesc_onward (s : State) (n : Nat) : Onward s (State.takeDesc s n).1 := by
  unfold State.takeDesc
  extract_lets +onlyGivenNames v1
  try clear_value v1
  extract_lets +onlyGivenNames v2
  try clear_value v2
  refine Onward.ite_fst ?_ ?_
  · refine Onward.fst_mk ?_
    with_reducible refine Onward.trans ?_ (State.dmaError_onward _ _ _ _ _)
    exact Onward.refl _
  · extract_lets +onlyGivenNames v4
    try clear_value v4
    refine Onward.ite_fst ?_ ?_
    · refine Onward.fst_mk ?_
      with_reducible refine Onward.trans ?_ (State.setCh_onward _ _ _)
      exact Onward.refl _
    · extract_lets +onlyGivenNames v6
      try clear_value v6
      extract_lets +onlyGivenNames v7
      have h7 : Onward s v7 := by
        subst v7
        with_reducible refine Onward.trans ?_ (State.setCh_onward _ _ _)
        exact Onward.refl _
      try clear_value v7
      refine Onward.ite_fst ?_ ?_
      · refine Onward.fst_mk ?_
        with_reducible refine Onward.trans ?_ (State.setCh_onward _ _ _)
        assumption
      · refine Onward.ite_fst ?_ ?_
        · extract_lets +onlyGivenNames v10
          have h10 : Onward s v10 := by
            subst v10
            with_reducible refine Onward.trans ?_ (State.dmaFinish_onward _ _ _ _ _)
            assumption
          try clear_value v10
          refine Onward.fst_mk ?_
          with_reducible refine Onward.trans ?_ (State.dmaError_onward _ _ _ _ _)
          assumption
        · refine Onward.ite_fst ?_ ?_
          · extract_lets +onlyGivenNames v13
            have h13 : Onward s v13 := by
              subst v13
              with_reducible refine Onward.trans ?_ (State.dmaFinish_onward _ _ _ _ _)
              assumption
            try clear_value v13
            refine Onward.fst_mk ?_
            with_reducible refine Onward.trans ?_ (State.dmaError_onward _ _ _ _ _)
            assumption
          · refine Onward.ite_fst ?_ ?_
            · refine Onward.fst_mk ?_
              with_reducible refine Onward.trans ?_ (State.setCh_onward _ _ _)
              assumption
            · refine Onward.fst_mk ?_
              with_reducible refine Onward.trans ?_ (State.setCh_onward _ _ _)
              assumption
theorem State.takeDesc_onward_eq {s : State} {n : Nat} {r1 r2} (hres : State.takeDesc s n = (r1, r2)) : Onward s r1 := by
  have k := State.takeDesc_onward s n
  rw [hres] at k
  exact k

theorem State.afterRun_onward (s : State) (n : Nat) : Onward s (State.afterRun s n).1 := by
  unfold State.afterRun
  extract_lets +onlyGivenNames v1
  try clear_value v1
  extract_lets +onlyGivenNames v2
  try clear_value v2
  refine Onward.ite_fst ?_ ?_
  · refine Onward.fst_mk ?_
    with_reducible refine Onward.trans ?_ (State.setCh_onward _ _ _)
    exact Onward.refl _
  · refine Onward.fst_mk ?_
    exact Onward.refl _
theorem State.afterRun_onward_eq {s : State} {n : Nat} {r1 r2} (hres : State.afterRun s n = (r1, r2)) : Onward s r1 := by
  have k := State.afterRun_onward s n
  rw [hres] at k
  exact k

theorem State.triggers_onward (fuel : Nat) (s : State) (l : List Nat) : Onward s (State.triggers fuel s l) := by
  induction fuel generalizing s l with
  | zero => simp only [State.triggers]; exact .refl _
  | succ n ih =>
    cases l with
    | nil => simp only [State.triggers]; exact .refl _
    | cons a l =>
      rw [State.triggers.eq_def]
      simp only []
      split
      · exact (State.setCh_onward ..).trans (ih ..)
      · exact (State.setCh_onward ..).trans (ih ..)
      · exact ih ..
      · exact ih ..
      · have h := (State.setCh_onward s a { s.ch a with st := .running, runCount := 0 }).trans (State.takeDesc_onward _ a)
        split
        · exact h.trans ((State.afterRun_onward ..).trans (ih ..))
        · exact h.trans (ih ..)

theorem State.dmaTrigger_onward (s : State) (n : Nat) : Onward s (State.dmaTrigger s n) := by
  unfold State.dmaTrigger
  with_reducible refine Onward.trans ?_ (State.triggers_onward _ _ _)
  exact Onward.refl _

theorem State.dmaStop_onward (s : State) (n : Nat) (bytes : Nat) : Onward s (State.dmaStop s n bytes) := by
  unfold State.dmaStop
  extract_lets +onlyGivenNames v1
  try clear_value v1
  extract_lets +onlyGivenNames v2
  have h2 : Onward s v2 := by
    subst v2
    split
    · with_reducible refine Onward.trans ?_ (State.dmaFinish_onward _ _ _ _ _)
      exact Onward.refl _
    · exact Onward.refl _
  try clear_value v2
  with_reducible refine Onward.trans ?_ (State.setCh_onward _ _ _)
  assumption

theorem State.dmaForce_onward (s : State) (n : Nat) (bytes : Nat) (cause : Nat) : Onward s (State.dmaForce s n bytes cause) := by
  unfold State.dmaForce
  refine Onward.ite ?_ ?_
  · with_reducible refine Onward.trans ?_ (State.event_onward _ _ _)
    with_reducible refine Onward.trans ?_ (State.dmaStop_onward _ _ _)
    exact Onward.refl _
  · exact Onward.refl _

theorem State.dmaResume_onward (s : State) : Onward s (State.dmaResume s) := by
  unfold State.dmaResume
  refine Onward.trans ?_ (Onward.foldl (fun z1 y1 => ?_) _ _)
  · exact Onward.refl _
  · extract_lets +onlyGivenNames v2
    try clear_value v2
    split
    · refine Onward.ite ?_ ?_
      · with_reducible refine Onward.trans ?_ (State.setCh_onward _ _ _)
        exact Onward.refl _
      · exact Onward.refl _
    · exact Onward.refl _

theorem State.dmaComplete_onward (s : State) (n : Nat) : Onward s (State.dmaComplete s n) := by
  unfold State.dmaComplete
  extract_lets +onlyGivenNames v1
  try clear_value v1
  split
  · exact Onward.refl _
  · refine Onward.ite ?_ ?_
    · exact Onward.refl _
    · extract_lets +onlyGivenNames v2
      try clear_value v2
      refine Onward.ite ?_ ?_
      · exact Onward.refl _
      · extract_lets +onlyGivenNames v3
        try clear_value v3
        extract_lets +onlyGivenNames v4
        have h4 : Onward s v4 := by
          subst v4
          refine Onward.ite ?_ ?_
          · refine Onward.upd ?_ rfl
            exact Onward.refl _
          · exact Onward.refl _
        try clear_value v4
        extract_lets +onlyGivenNames v5
        have h5 : Onward s v5 := by
          subst v5
          with_reducible refine Onward.trans ?_ (State.dmaFinish_onward _ _ _ _ _)
          assumption
        try clear_value v5
        extract_lets +onlyGivenNames v7
        try clear_value v7
        extract_lets +onlyGivenNames v8
        try clear_value v8
        extract_lets +onlyGivenNames v9
        have h9 : Onward s v9 := by
          subst v9
          with_reducible refine Onward.trans ?_ (State.bump_onward _ _)
          refine Onward.ite ?_ ?_
          · with_reducible refine Onward.trans ?_ (State.hwSet_onward _ _ _)
            with_reducible refine Onward.trans ?_ (State.setCh_onward _ _ _)
            assumption
          · with_reducible refine Onward.trans ?_ (State.setCh_onward _ _ _)
            assumption
        try clear_value v9
        extract_lets +onlyGivenNames v14
        refine Onward.ite ?_ ?_
        · extract_lets +onlyGivenNames v15
          with_reducible refine Onward.trans ?_ (State.triggers_onward _ _ _)
          subst v15
          with_reducible refine Onward.trans ?_ (State.afterRun_onward _ _)
          subst v14
          refine Onward.ite_fst ?_ ?_
          · refine Onward.fst_mk ?_
            with_reducible refine Onward.trans ?_ (State.setCh_onward _ _ _)
            assumption
          · with_reducible refine Onward.trans ?_ (State.takeDesc_onward _ _)
            assumption
        · subst v14
          refine Onward.ite_fst ?_ ?_
          · refine Onward.fst_mk ?_
            with_reducible refine Onward.trans ?_ (State.setCh_onward _ _ _)
            assumption
          · with_reducible refine Onward.trans ?_ (State.takeDesc_onward _ _)
            assumption

theorem State.settleQuiesce_onward (s : State) : Onward s (State.settleQuiesce s) := by
  unfold State.settleQuiesce
  extract_lets +onlyGivenNames v1
  try clear_value v1
  extract_lets +onlyGivenNames v2
  try clear_value v2
  extract_lets +onlyGivenNames v3
  have h3 : Onward s v3 := by
    subst v3
    refine Onward.trans ?_ (Onward.foldl (fun z4 y4 => ?_) _ _)
    · exact Onward.refl _
    · with_reducible refine Onward.trans ?_ (State.domTo_onward _ _ _)
      exact Onward.refl _
  try clear_value v3
  extract_lets +onlyGivenNames v6
  try clear_value v6
  extract_lets +onlyGivenNames v7
  have h7 : Onward s v7 := by
    subst v7
    refine Onward.upd ?_ rfl
    assumption
  try clear_value v7
  refine Onward.ite ?_ ?_
  · refine Onward.upd ?_ rfl
    assumption
  · assumption

theorem State.powerDown_onward (s : State) (d : Dom) : Onward s (State.powerDown s d) := by
  unfold State.powerDown
  refine Onward.ite ?_ ?_
  · exact Onward.refl _
  · refine Onward.ite ?_ ?_
    · with_reducible refine Onward.trans ?_ (State.domTo_onward _ _ _)
      exact Onward.refl _
    · extract_lets +onlyGivenNames v2
      have h2 : Onward s v2 := by
        subst v2
        with_reducible refine Onward.trans ?_ (State.domTo_onward _ _ _)
        exact Onward.refl _
      try clear_value v2
      refine Onward.upd ?_ rfl
      assumption

theorem execDmaDoorbell_onward (t : Nat) (n : Nat) (s : State) : Goes (State.advance s t) (execDmaDoorbell t n s) := by
  unfold execDmaDoorbell
  extract_lets +onlyGivenNames v1
  have h1 : Onward (s.advance t) v1 := by
    subst v1
    exact Onward.refl _
  try clear_value v1
  refine Goes.done ?_
  refine Onward.ite ?_ ?_
  · with_reducible refine Onward.trans ?_ (State.dmaTrigger_onward _ _)
    with_reducible refine Onward.trans ?_ (State.dmaResume_onward _)
    assumption
  · assumption

theorem execDmaTimerTrigger_onward (t : Nat) (n : Nat) (s : State) : Goes (State.advance s t) (execDmaTimerTrigger t n s) := by
  unfold execDmaTimerTrigger
  extract_lets +onlyGivenNames v1
  have h1 : Onward (s.advance t) v1 := by
    subst v1
    exact Onward.refl _
  try clear_value v1
  extract_lets +onlyGivenNames v2
  try clear_value v2
  refine Goes.done ?_
  refine Onward.ite ?_ ?_
  · with_reducible refine Onward.trans ?_ (State.dmaTrigger_onward _ _)
    with_reducible refine Onward.trans ?_ (State.setCh_onward _ _ _)
    assumption
  · assumption

theorem execDmaEnable_onward (t : Nat) (n : Nat) (v : Nat) (s : State) : Goes (State.advance s t) (execDmaEnable t n v s) := by
  unfold execDmaEnable
  extract_lets +onlyGivenNames v1
  have h1 : Onward (s.advance t) v1 := by
    subst v1
    exact Onward.refl _
  try clear_value v1
  extract_lets +onlyGivenNames v2
  try clear_value v2
  refine Goes.done ?_
  refine Onward.ite ?_ ?_
  · assumption
  · refine Onward.ite ?_ ?_
    · with_reducible refine Onward.trans ?_ (State.setCh_onward _ _ _)
      assumption
    · refine Onward.ite ?_ ?_
      · with_reducible refine Onward.trans ?_ (State.setCh_onward _ _ _)
        assumption
      · with_reducible refine Onward.trans ?_ (State.hwSet_onward _ _ _)
        with_reducible refine Onward.trans ?_ (State.setCh_onward _ _ _)
        assumption

theorem execDmaRingRegWrite_onward (t : Nat) (n : Nat) (reg : Nat) (v : Nat) (s : State) : Goes (State.advance s t) (execDmaRingRegWrite t n reg v s) := by
  unfold execDmaRingRegWrite
  extract_lets +onlyGivenNames v1
  have h1 : Onward (s.advance t) v1 := by
    subst v1
    exact Onward.refl _
  try clear_value v1
  extract_lets +onlyGivenNames v2
  try clear_value v2
  refine Goes.done ?_
  refine Onward.ite ?_ ?_
  · assumption
  · extract_lets +onlyGivenNames v3
    try clear_value v3
    extract_lets +onlyGivenNames v4
    try clear_value v4
    split
    · with_reducible refine Onward.trans ?_ (State.setCh_onward _ _ _)
      assumption
    · with_reducible refine Onward.trans ?_ (State.setCh_onward _ _ _)
      assumption
    · with_reducible refine Onward.trans ?_ (State.setCh_onward _ _ _)
      assumption
    · assumption

theorem execDmaDisable_onward (t : Nat) (n : Nat) (bytes : Nat) (s : State) : Goes (State.advance s t) (execDmaDisable t n bytes s) := by
  unfold execDmaDisable
  extract_lets +onlyGivenNames v1
  have h1 : Onward (s.advance t) v1 := by
    subst v1
    exact Onward.refl _
  try clear_value v1
  refine Goes.done ?_
  refine Onward.ite ?_ ?_
  · with_reducible refine Onward.trans ?_ (State.settleQuiesce_onward _)
    with_reducible refine Onward.trans ?_ (State.dmaStop_onward _ _ _)
    assumption
  · assumption

theorem execDmaDescriptorComplete_onward (t : Nat) (n : Nat) (s : State) : Goes (State.advance s t) (execDmaDescriptorComplete t n s) := by
  unfold execDmaDescriptorComplete
  extract_lets +onlyGivenNames v1
  have h1 : Onward (s.advance t) v1 := by
    subst v1
    exact Onward.refl _
  try clear_value v1
  refine Goes.done ?_
  refine Onward.ite ?_ ?_
  · with_reducible refine Onward.trans ?_ (State.settleQuiesce_onward _)
    with_reducible refine Onward.trans ?_ (State.dmaComplete_onward _ _)
    assumption
  · assumption

theorem execDmaBusError_onward (t : Nat) (n : Nat) (addr : Nat) (bytes : Nat) (fetch : Bool) (s : State) : Goes (State.advance s t) (execDmaBusError t n addr bytes fetch s) := by
  unfold execDmaBusError
  extract_lets +onlyGivenNames v1
  have h1 : Onward (s.advance t) v1 := by
    subst v1
    exact Onward.refl _
  try clear_value v1
  extract_lets +onlyGivenNames v2
  try clear_value v2
  refine Goes.done ?_
  refine Onward.ite ?_ ?_
  · split
    · assumption
    · extract_lets +onlyGivenNames v3
      have h3 : Onward (s.advance t) v3 := by
        subst v3
        with_reducible refine Onward.trans ?_ (State.dmaFinish_onward _ _ _ _ _)
        assumption
      try clear_value v3
      extract_lets +onlyGivenNames v5
      have h5 : Onward (s.advance t) v5 := by
        subst v5
        refine Onward.ite ?_ ?_
        · with_reducible refine Onward.trans ?_ (State.dmaError_onward _ _ _ _ _)
          assumption
        · with_reducible refine Onward.trans ?_ (State.dmaError_onward _ _ _ _ _)
          assumption
      try clear_value v5
      extract_lets +onlyGivenNames v8
      with_reducible refine Onward.trans ?_ (State.settleQuiesce_onward _)
      with_reducible refine Onward.trans ?_ (State.triggers_onward _ _ _)
      subst v8
      with_reducible refine Onward.trans ?_ (State.afterRun_onward _ _)
      assumption
  · assumption

theorem State.loadSite_onward (s : State) (dram : Bool) : Onward s (State.loadSite s dram) := by
  unfold State.loadSite
  extract_lets m1 m2
  have h1 : Memory.wf s.mem = true → Memory.wf m1 = true := memClear_wf _ _
  have h2 : Memory.wf s.mem = true → Memory.wf m2 = true := by
    intro h
    subst m2
    split
    · exact memClear_wf _ _ (h1 h)
    · exact h1 h
  split
  · exact Onward.updMem (.refl s) h2 rfl
  · refine Onward.updMem (.refl s) (fun h => foldl_memWf (fun m x k => ?_) _ _ (h2 h)) rfl
    split
    · exact memWrite_wf _ _ k
    · split
      · exact memWrite_wf _ _ k
      · exact k

theorem State.c2sPut_onward (s : State) (m : MbxMsg) : Onward s (State.c2sPut s m) := by
  unfold State.c2sPut
  exact Onward.updMem (.refl s) (memWrite_wf _ _) rfl

theorem State.c2sGone_onward (s : State) (m : MbxMsg) : Onward s (State.c2sGone s m) := by
  unfold State.c2sGone
  refine Onward.ite ?_ ?_
  · refine Onward.upd ?_ rfl
    exact Onward.refl _
  · exact Onward.refl _

theorem State.c2sDrain_onward (a0 : Nat) (a1 : State) : Onward a1 (State.c2sDrain a0 a1) := by
  induction a0 generalizing a1 with
  | zero =>
    rw [State.c2sDrain]
    exact Onward.refl _
  | succ n ih =>
    rw [State.c2sDrain]
    split
    · exact Onward.refl _
    · refine Onward.ite ?_ ?_
      · exact Onward.refl _
      · refine Onward.trans ?_ (ih ..)
        with_reducible refine Onward.trans ?_ (State.c2sGone_onward _ _)
        with_reducible refine Onward.trans ?_ (State.c2sPut_onward _ _)
        refine Onward.upd ?_ rfl
        exact Onward.refl _

theorem State.mbxSend_onward (s : State) (type : Nat) (token : Nat) (payload : Bytes) : Onward s (State.mbxSend s type token payload) := by
  unfold State.mbxSend
  extract_lets +onlyGivenNames v1
  try clear_value v1
  with_reducible refine Onward.trans ?_ (State.c2sDrain_onward _ _)
  refine Onward.upd ?_ rfl
  exact Onward.refl _

theorem State.mbxReply_onward (s : State) (token : Nat) (abort : Nat) (total : Nat) (data : Bytes) : Onward s (State.mbxReply s token abort total data) := by
  unfold State.mbxReply
  with_reducible refine Onward.trans ?_ (State.mbxSend_onward _ _ _ _)
  exact Onward.refl _

theorem State.mbxRejectBad_onward (a0 : Nat) (a1 : State) : Onward a1 (State.mbxRejectBad a0 a1) := by
  induction a0 generalizing a1 with
  | zero =>
    rw [State.mbxRejectBad]
    exact Onward.refl _
  | succ n ih =>
    rw [State.mbxRejectBad]
    split
    · refine Onward.ite ?_ ?_
      · exact Onward.refl _
      · refine Onward.trans ?_ (ih ..)
        with_reducible refine Onward.trans ?_ (State.mbxReply_onward _ _ _ _ _)
        exact Onward.refl _
    · exact Onward.refl _

theorem State.modeNotice_onward (s : State) (target : Mode) (resetAt : Nat) : Onward s (State.modeNotice s target resetAt) := by
  unfold State.modeNotice
  refine Onward.ite ?_ ?_
  · with_reducible refine Onward.trans ?_ (State.mbxSend_onward _ _ _ _)
    exact Onward.refl _
  · exact Onward.refl _

theorem execSiteAccessFault_onward (t : Nat) (core : Nat) (addr : Nat) (width : Nat) (s : State) : Goes (State.advance s t) (execSiteAccessFault t core addr width s) := by
  unfold execSiteAccessFault
  extract_lets +onlyGivenNames v1
  have h1 : Onward (s.advance t) v1 := by
    subst v1
    exact Onward.refl _
  try clear_value v1
  refine Goes.done ?_
  refine Onward.ite ?_ ?_
  · with_reducible refine Onward.trans ?_ (State.event_onward _ _ _)
    with_reducible refine Onward.trans ?_ (State.bump_onward _ _)
    assumption
  · assumption

theorem execSiteWatchdogExpiry_onward (t : Nat) (bytes : List Nat) (s : State) : Goes (State.advance s t) (execSiteWatchdogExpiry t bytes s) := by
  unfold execSiteWatchdogExpiry
  extract_lets +onlyGivenNames v1
  have h1 : Onward (s.advance t) v1 := by
    subst v1
    exact Onward.refl _
  try clear_value v1
  refine Goes.done ?_
  refine Onward.ite ?_ ?_
  · extract_lets +onlyGivenNames v2
    try clear_value v2
    extract_lets +onlyGivenNames v3
    have h3 : Onward (s.advance t) v3 := by
      subst v3
      refine Onward.trans ?_ (Onward.foldl (fun z4 y4 => ?_) _ _)
      · assumption
      · with_reducible refine Onward.trans ?_ (State.dmaForce_onward _ _ _ _)
        exact Onward.refl _
    try clear_value v3
    extract_lets +onlyGivenNames v6
    have h6 : Onward (s.advance t) v6 := by
      subst v6
      with_reducible refine Onward.trans ?_ (State.event_onward _ _ _)
      with_reducible refine Onward.trans ?_ (State.bump_onward _ _)
      assumption
    try clear_value v6
    refine Onward.ite ?_ ?_
    · with_reducible refine Onward.trans ?_ (State.event_onward _ _ _)
      refine Onward.upd ?_ rfl
      assumption
    · with_reducible refine Onward.trans ?_ (State.loadSite_onward _ _)
      refine Onward.upd ?_ rfl
      assumption
  · assumption

theorem execTmrWdogKick_onward (t : Nat) (s : State) : Goes (State.advance s t) (execTmrWdogKick t s) := by
  unfold execTmrWdogKick
  extract_lets +onlyGivenNames v1
  have h1 : Onward (s.advance t) v1 := by
    subst v1
    exact Onward.refl _
  try clear_value v1
  refine Goes.done ?_
  refine Onward.ite ?_ ?_
  · refine Onward.upd ?_ rfl
    assumption
  · assumption

theorem execTmrNowRead_onward (t : Nat) (s : State) : Goes (State.advance s t) (execTmrNowRead t s) := by
  unfold execTmrNowRead
  extract_lets +onlyGivenNames v1
  have h1 : Onward (s.advance t) v1 := by
    subst v1
    exact Onward.refl _
  try clear_value v1
  refine Goes.done ?_
  refine Onward.ite ?_ ?_
  · refine Onward.upd ?_ rfl
    assumption
  · assumption

theorem execTmrCmpWrite_onward (t : Nat) (n : Nat) (hi : Bool) (v : Nat) (s : State) : Goes (State.advance s t) (execTmrCmpWrite t n hi v s) := by
  unfold execTmrCmpWrite
  extract_lets +onlyGivenNames v1
  have h1 : Onward (s.advance t) v1 := by
    subst v1
    exact Onward.refl _
  try clear_value v1
  extract_lets +onlyGivenNames v2
  try clear_value v2
  extract_lets +onlyGivenNames v3
  try clear_value v3
  refine Goes.done ?_
  refine Onward.ite ?_ ?_
  · refine Onward.upd ?_ rfl
    assumption
  · assumption

theorem State.cmpFire_onward (s : State) (n : Nat) : Onward s (State.cmpFire s n) := by
  unfold State.cmpFire
  refine Onward.ite ?_ ?_
  · with_reducible refine Onward.trans ?_ (State.hwSet_onward _ _ _)
    refine Onward.upd ?_ rfl
    exact Onward.refl _
  · exact Onward.refl _

theorem execTimerComparatorFire_onward (t : Nat) (n : Nat) (s : State) : Goes (State.advance s t) (execTimerComparatorFire t n s) := by
  unfold execTimerComparatorFire
  extract_lets +onlyGivenNames v1
  have h1 : Onward (s.advance t) v1 := by
    subst v1
    exact Onward.refl _
  try clear_value v1
  refine Goes.done ?_
  refine Onward.ite ?_ ?_
  · with_reducible refine Onward.trans ?_ (State.cmpFire_onward _ _)
    assumption
  · assumption

theorem State.evrErr_onward (s : State) (code : Nat) : Onward s (State.evrErr s code) := by
  unfold State.evrErr
  with_reducible refine Onward.trans ?_ (State.hwSet_onward _ _ _)
  refine Onward.upd ?_ rfl
  exact Onward.refl _

theorem execEvrFetch_onward (t : Nat) (s : State) : Goes (State.advance s t) (execEvrFetch t s) := by
  unfold execEvrFetch
  extract_lets +onlyGivenNames v1
  have h1 : Onward (s.advance t) v1 := by
    subst v1
    exact Onward.refl _
  try clear_value v1
  extract_lets +onlyGivenNames v2
  try clear_value v2
  extract_lets +onlyGivenNames v3
  try clear_value v3
  refine Goes.done ?_
  refine Onward.ite ?_ ?_
  · assumption
  · split
    · with_reducible refine Onward.trans ?_ (State.hwSet_onward _ _ _)
      refine Onward.upd ?_ rfl
      assumption
    · with_reducible refine Onward.trans ?_ (State.evrErr_onward _ _)
      assumption

theorem execEvrPost_onward (t : Nat) (s : State) : Goes (State.advance s t) (execEvrPost t s) := by
  unfold execEvrPost
  extract_lets +onlyGivenNames v1
  have h1 : Onward (s.advance t) v1 := by
    subst v1
    exact Onward.refl _
  try clear_value v1
  extract_lets +onlyGivenNames v2
  try clear_value v2
  extract_lets +onlyGivenNames v3
  try clear_value v3
  extract_lets +onlyGivenNames v4
  try clear_value v4
  refine Goes.done ?_
  refine Onward.ite ?_ ?_
  · assumption
  · refine Onward.ite ?_ ?_
    · with_reducible refine Onward.trans ?_ (State.evrErr_onward _ _)
      assumption
    · refine Onward.ite ?_ ?_
      · extract_lets +onlyGivenNames v6
        have h6 : Onward (s.advance t) v6 := by
          subst v6
          with_reducible refine Onward.trans ?_ (State.eventSeq_onward _ _ _ _)
          assumption
        try clear_value v6
        with_reducible refine Onward.trans ?_ (State.hwSet_onward _ _ _)
        refine Onward.upd ?_ rfl
        assumption
      · with_reducible refine Onward.trans ?_ (State.evrErr_onward _ _)
        with_reducible refine Onward.trans ?_ (State.eventSeq_onward _ _ _ _)
        assumption

theorem execEvrNextSeqRead_onward (t : Nat) (s : State) : Goes (State.advance s t) (execEvrNextSeqRead t s) := by
  unfold execEvrNextSeqRead
  extract_lets +onlyGivenNames v1
  have h1 : Onward (s.advance t) v1 := by
    subst v1
    exact Onward.refl _
  try clear_value v1
  refine Goes.done ?_
  refine Onward.ite ?_ ?_
  · refine Onward.upd ?_ rfl
    assumption
  · assumption

theorem execMbxS2cProdWrite_onward (t : Nat) (v : Nat) (s : State) : Goes (State.advance s t) (execMbxS2cProdWrite t v s) := by
  unfold execMbxS2cProdWrite
  extract_lets +onlyGivenNames v1
  have h1 : Onward (s.advance t) v1 := by
    subst v1
    exact Onward.refl _
  try clear_value v1
  extract_lets +onlyGivenNames v2
  try clear_value v2
  extract_lets +onlyGivenNames v3
  try clear_value v3
  extract_lets +onlyGivenNames v4
  try clear_value v4
  extract_lets +onlyGivenNames v5
  try clear_value v5
  refine Goes.done ?_
  refine Onward.ite ?_ ?_
  · assumption
  · refine Onward.ite ?_ ?_
    · with_reducible refine Onward.trans ?_ (State.mbxRejectBad_onward _ _)
      refine Onward.upd ?_ rfl
      assumption
    · with_reducible refine Onward.trans ?_ (State.hwSet_onward _ _ _)
      refine Onward.upd ?_ rfl
      assumption

theorem execMbxC2sConsWrite_onward (t : Nat) (v : Nat) (s : State) : Goes (State.advance s t) (execMbxC2sConsWrite t v s) := by
  unfold execMbxC2sConsWrite
  extract_lets +onlyGivenNames v1
  have h1 : Onward (s.advance t) v1 := by
    subst v1
    exact Onward.refl _
  try clear_value v1
  refine Goes.done ?_
  refine Onward.ite ?_ ?_
  · with_reducible refine Onward.trans ?_ (State.mbxRejectBad_onward _ _)
    with_reducible refine Onward.trans ?_ (State.c2sDrain_onward _ _)
    refine Onward.upd ?_ rfl
    assumption
  · assumption

theorem execMbxSiteReport_onward (t : Nat) (s : State) : Goes (State.advance s t) (execMbxSiteReport t s) := by
  unfold execMbxSiteReport
  extract_lets +onlyGivenNames v1
  have h1 : Onward (s.advance t) v1 := by
    subst v1
    exact Onward.refl _
  try clear_value v1
  refine Goes.done ?_
  split
  · refine Onward.ite ?_ ?_
    · with_reducible refine Onward.trans ?_ (State.mbxRejectBad_onward _ _)
      with_reducible refine Onward.trans ?_ (State.mbxReply_onward _ _ _ _ _)
      with_reducible refine Onward.trans ?_ (State.setStr_onward _ _ _)
      assumption
    · assumption
  · assumption

theorem execMbxC2sFullTimeout_onward (t : Nat) (s : State) : Goes (State.advance s t) (execMbxC2sFullTimeout t s) := by
  unfold execMbxC2sFullTimeout
  extract_lets +onlyGivenNames v1
  have h1 : Onward (s.advance t) v1 := by
    subst v1
    exact Onward.refl _
  try clear_value v1
  extract_lets +onlyGivenNames v2
  try clear_value v2
  refine Goes.done ?_
  refine Onward.ite ?_ ?_
  · assumption
  · extract_lets +onlyGivenNames v3
    try clear_value v3
    extract_lets +onlyGivenNames v4
    have h4 : Onward (s.advance t) v4 := by
      subst v4
      refine Onward.upd ?_ rfl
      assumption
    try clear_value v4
    extract_lets +onlyGivenNames v5
    have h5 : Onward (s.advance t) v5 := by
      subst v5
      with_reducible refine Onward.trans ?_ (State.hwSet_onward _ _ _)
      assumption
    try clear_value v5
    with_reducible refine Onward.trans ?_ (State.mbxRejectBad_onward _ _)
    refine Onward.trans ?_ (Onward.foldl (fun z8 y8 => ?_) _ _)
    · assumption
    · with_reducible refine Onward.trans ?_ (State.c2sGone_onward _ _)
      exact Onward.refl _

theorem State.tapUp_onward (s : State) : Onward s (State.tapUp s) := by
  unfold State.tapUp
  extract_lets +onlyGivenNames v1
  try clear_value v1
  refine Onward.upd ?_ rfl
  exact Onward.refl _

theorem State.tapImage_onward (s : State) : Onward s (State.tapImage s).2 := by
  unfold State.tapImage
  refine Onward.ite_snd ?_ ?_
  · refine Onward.snd_mk ?_
    refine Onward.upd ?_ rfl
    exact Onward.refl _
  · refine Onward.snd_mk ?_
    exact Onward.refl _
theorem State.tapImage_onward_eq {s : State} {r1 r2} (hres : State.tapImage s = (r2, r1)) : Onward s r1 := by
  have k := State.tapImage_onward s
  rw [hres] at k
  exact k

end Sys2Proof.Machine
end

