-- ==== Sys2Proof/Laws/OnwardKeys.lean ====
section
/-! SUPPORT. What the operations and meanings of keys, Awl, the index and record formats do: each only goes onward (Laws/Onward.lean). -/

namespace Sys2Proof.Machine

theorem State.deviceDerive_onward (s : State) (st : SlotState) : Onward s (State.deviceDerive s st) := by
  unfold State.deviceDerive
  extract_lets +onlyGivenNames v1
  try clear_value v1
  refine Onward.upd ?_ rfl
  exact Onward.refl _

theorem State.useKey_onward (s : State) (k : KeyName) : Onward s (State.useKey s k) := by
  unfold State.useKey
  split
  · exact Onward.upd (.refl s) rfl
  · extract_lets put
    have hp : ∀ s i, Onward s (put s i) := fun s i => Onward.upd (.refl s) rfl
    split
    · exact hp ..
    · split
      · exact (hp ..).trans (State.bump_onward ..)
      · exact .refl _

theorem State.retireGen_onward (s : State) (ns : Nat) (gen : Nat) : Onward s (State.retireGen s ns gen) := by
  unfold State.retireGen
  refine Onward.upd ?_ rfl
  exact Onward.refl _

theorem State.tableCopy_onward (s : State) : Onward s (State.tableCopy s) := by
  unfold State.tableCopy
  extract_lets +onlyGivenNames v1
  try clear_value v1
  refine Onward.upd ?_ rfl
  exact Onward.refl _

theorem State.loadTable_onward (s : State) : Onward s (State.loadTable s) := by
  unfold State.loadTable
  extract_lets +onlyGivenNames v1
  try clear_value v1
  split
  · refine Onward.upd ?_ rfl
    exact Onward.refl _
  · refine Onward.upd ?_ rfl
    exact Onward.refl _

theorem State.eraseSecret_onward (s : State) (e : ErasedSecret) : Onward s (State.eraseSecret s e) := by
  unfold State.eraseSecret
  refine Onward.ite ?_ ?_
  · with_reducible refine Onward.trans ?_ (State.tableCopy_onward _)
    refine Onward.upd ?_ rfl
    exact Onward.refl _
  · refine Onward.upd ?_ rfl
    exact Onward.refl _

theorem State.cryptoErase_onward (s : State) (ns : Nat) (gen : Nat) : Onward s (State.cryptoErase s ns gen) := by
  unfold State.cryptoErase
  extract_lets +onlyGivenNames v1
  have h1 : Onward s v1 := by
    subst v1
    with_reducible refine Onward.trans ?_ (State.retireGen_onward _ _ _)
    exact Onward.refl _
  try clear_value v1
  refine Onward.ite ?_ ?_
  · extract_lets +onlyGivenNames v3
    try clear_value v3
    extract_lets +onlyGivenNames v4
    have h4 : Onward s v4 := by
      subst v4
      refine Onward.upd ?_ rfl
      assumption
    try clear_value v4
    with_reducible refine Onward.trans ?_ (State.eraseSecret_onward _ _)
    assumption
  · assumption

theorem State.zeroiseAll_onward (s : State) : Onward s (State.zeroiseAll s) := by
  unfold State.zeroiseAll
  refine Onward.upd ?_ rfl
  exact Onward.refl _

theorem State.setRow_onward (s : State) (r : AwlRow) : Onward s (State.setRow s r) := by
  unfold State.setRow
  refine Onward.upd ?_ rfl
  exact Onward.refl _

theorem State.rowInvalidate_onward (s : State) (g : Nat) : Onward s (State.rowInvalidate s g) := by
  unfold State.rowInvalidate
  split
  · with_reducible refine Onward.trans ?_ (State.setRow_onward _ _)
    exact Onward.refl _
  · exact Onward.refl _

theorem State.rowWrite_onward (s : State) (g : Nat) (e : AwlEntry) : Onward s (State.rowWrite s g e) := by
  unfold State.rowWrite
  with_reducible refine Onward.trans ?_ (State.setRow_onward _ _)
  exact Onward.refl _

theorem State.coolSlot_onward (s : State) (g : Nat) : Onward s (State.coolSlot s g) := by
  unfold State.coolSlot
  split
  · refine Onward.ite ?_ ?_
    · extract_lets +onlyGivenNames v1
      try clear_value v1
      refine Onward.upd ?_ rfl
      exact Onward.refl _
    · exact Onward.refl _
  · exact Onward.refl _

theorem State.shadowLost_onward (s : State) (g : Nat) : Onward s (State.shadowLost s g) := by
  unfold State.shadowLost
  extract_lets +onlyGivenNames v1
  try clear_value v1
  extract_lets +onlyGivenNames v2
  try clear_value v2
  refine Onward.ite ?_ ?_
  · extract_lets +onlyGivenNames v3
    have h3 : Onward s v3 := by
      subst v3
      split
      · with_reducible refine Onward.trans ?_ (State.rowWrite_onward _ _ _)
        exact Onward.refl _
      · with_reducible refine Onward.trans ?_ (State.rowInvalidate_onward _ _)
        exact Onward.refl _
    try clear_value v3
    with_reducible refine Onward.trans ?_ (State.event_onward _ _ _)
    assumption
  · extract_lets +onlyGivenNames v7
    have h7 : Onward s v7 := by
      subst v7
      refine Onward.ite ?_ ?_
      · with_reducible refine Onward.trans ?_ (State.coolSlot_onward _ _)
        exact Onward.refl _
      · exact Onward.refl _
    try clear_value v7
    extract_lets +onlyGivenNames v9
    have h9 : Onward s v9 := by
      subst v9
      with_reducible refine Onward.trans ?_ (State.rowInvalidate_onward _ _)
      assumption
    try clear_value v9
    extract_lets +onlyGivenNames v11
    try clear_value v11
    extract_lets +onlyGivenNames v12
    have h12 : Onward s v12 := by
      subst v12
      refine Onward.ite ?_ ?_
      · with_reducible refine Onward.trans ?_ (State.hwSet_onward _ _ _)
        refine Onward.upd ?_ rfl
        assumption
      · assumption
    try clear_value v12
    with_reducible refine Onward.trans ?_ (State.event_onward _ _ _)
    assumption

theorem State.readCopy_onward (s : State) (w : AwlRow) (f : AwlFacts) : Onward s (State.readCopy s w f) := by
  unfold State.readCopy
  refine Onward.ite ?_ ?_
  · refine Onward.upd ?_ rfl
    exact Onward.refl _
  · exact Onward.refl _

theorem State.readAgain_onward (s : State) (o : Option AwlRow) (f : AwlFacts) : Onward s (State.readAgain s o f) := by
  unfold State.readAgain
  split
  · with_reducible refine Onward.trans ?_ (State.readCopy_onward _ _ _)
    exact Onward.refl _
  · exact Onward.refl _

theorem State.awlSearch_onward (s : State) (p : Nat) (key : Nat) (f : AwlFacts) : Onward s (State.awlSearch s p key f).1 := by
  unfold State.awlSearch
  extract_lets +onlyGivenNames v1
  have h1 : Onward s v1 := by
    subst v1
    with_reducible refine Onward.trans ?_ (State.bump_onward _ _)
    exact Onward.refl _
  try clear_value v1
  extract_lets +onlyGivenNames v3
  try clear_value v3
  split
  · refine Onward.fst_mk ?_
    assumption
  · extract_lets +onlyGivenNames v4
    have h4 : Onward s v4 := by
      subst v4
      with_reducible refine Onward.trans ?_ (State.readCopy_onward _ _ _)
      assumption
    try clear_value v4
    refine Onward.ite_fst ?_ ?_
    · refine Onward.fst_mk ?_
      assumption
    · extract_lets +onlyGivenNames v6
      try clear_value v6
      extract_lets +onlyGivenNames v7
      try clear_value v7
      extract_lets +onlyGivenNames v8
      try clear_value v8
      extract_lets +onlyGivenNames v9
      have h9 : Onward s v9 := by
        subst v9
        with_reducible refine Onward.trans ?_ (State.readAgain_onward _ _ _)
        assumption
      try clear_value v9
      extract_lets +onlyGivenNames v11
      have h11 : Onward s v11 := by
        subst v11
        with_reducible refine Onward.trans ?_ (State.event_onward _ _ _)
        with_reducible refine Onward.trans ?_ (State.bump_onward _ _)
        assumption
      try clear_value v11
      extract_lets +onlyGivenNames v14
      try clear_value v14
      extract_lets +onlyGivenNames v15
      have h15 : Onward s v15 := by
        subst v15
        refine Onward.ite ?_ ?_
        · refine Onward.upd ?_ rfl
          assumption
        · assumption
      try clear_value v15
      extract_lets +onlyGivenNames v16
      have h16 : Onward s v16 := by
        subst v16
        refine Onward.ite ?_ ?_
        · assumption
        · with_reducible refine Onward.trans ?_ (State.shadowLost_onward _ _)
          assumption
      try clear_value v16
      refine Onward.fst_mk ?_
      assumption
theorem State.awlSearch_onward_eq {s : State} {p : Nat} {key : Nat} {f : AwlFacts} {r1 r2} (hres : State.awlSearch s p key f = (r1, r2)) : Onward s r1 := by
  have k := State.awlSearch_onward s p key f
  rw [hres] at k
  exact k

theorem State.refHot_onward (s : State) (g : Nat) : Onward s (State.refHot s g) := by
  unfold State.refHot
  extract_lets +onlyGivenNames v1
  try clear_value v1
  refine Onward.upd ?_ rfl
  exact Onward.refl _

theorem State.hotMove_onward (s : State) (slot : Nat) (newSlot : Nat) (len : Nat) (tomb : Bool) : Onward s (State.hotMove s slot newSlot len tomb) := by
  unfold State.hotMove
  split
  · with_reducible refine Onward.trans ?_ (State.rowWrite_onward _ _ _)
    exact Onward.refl _
  · exact Onward.refl _

theorem State.hotVictim_onward (a0 : Nat) (a1 : State) : Onward a1 (State.hotVictim a0 a1).1 := by
  induction a0 generalizing a1 with
  | zero =>
    rw [State.hotVictim]
    refine Onward.fst_mk ?_
    exact Onward.refl _
  | succ n ih =>
    rw [State.hotVictim]
    refine Onward.ite_fst ?_ ?_
    · refine Onward.trans ?_ (ih ..)
      refine Onward.upd ?_ rfl
      exact Onward.refl _
    · refine Onward.fst_mk ?_
      refine Onward.upd ?_ rfl
      exact Onward.refl _
theorem State.hotVictim_onward_eq {a0 : Nat} {a1 : State} {r1 r2} (hres : State.hotVictim a0 a1 = (r1, r2)) : Onward a1 r1 := by
  have k := State.hotVictim_onward a0 a1
  rw [hres] at k
  exact k

theorem State.loadPolicy_onward (s : State) : Onward s (State.loadPolicy s) := by
  unfold State.loadPolicy
  extract_lets +onlyGivenNames v1
  try clear_value v1
  extract_lets +onlyGivenNames v2
  try clear_value v2
  extract_lets +onlyGivenNames v3
  have h3 : Onward s v3 := by
    subst v3
    refine Onward.upd ?_ rfl
    exact Onward.refl _
  try clear_value v3
  refine Onward.trans ?_ (Onward.foldl (fun z4 y4 => ?_) _ _)
  · assumption
  · with_reducible refine Onward.trans ?_ (State.rowWrite_onward _ _ _)
    exact Onward.refl _

theorem State.setPolicy_onward (s : State) (t : List (Nat × AwlEntry)) : Onward s (State.setPolicy s t) := by
  unfold State.setPolicy
  with_reducible refine Onward.trans ?_ (State.loadPolicy_onward _)
  refine Onward.upd ?_ rfl
  exact Onward.refl _

theorem State.policyCheck_onward (s : State) (policyId : Nat) (opcode : Nat) (ns : Nat) (cls : Nat) (v1 : Bool) (peer : Bool) (port : PortId) (key : Bytes) (f : AwlFacts) : Onward s (State.policyCheck s policyId opcode ns cls v1 peer port key f).1 := by
  unfold State.policyCheck
  split
  extract_lets +onlyGivenNames v1
  try clear_value v1
  refine Onward.fst_mk ?_
  refine Onward.trans ?_ (State.awlSearch_onward_eq (by assumption))
  exact Onward.refl _
theorem State.policyCheck_onward_eq {s : State} {policyId : Nat} {opcode : Nat} {ns : Nat} {cls : Nat} {v1 : Bool} {peer : Bool} {port : PortId} {key : Bytes} {f : AwlFacts} {r1 r2} (hres : State.policyCheck s policyId opcode ns cls v1 peer port key f = (r1, r2)) : Onward s r1 := by
  have k := State.policyCheck_onward s policyId opcode ns cls v1 peer port key f
  rw [hres] at k
  exact k

theorem execAwlScrubTick_onward (t : Nat) (found : Option (Bool × AwlEntry)) (shadowOk : Bool) (s : State) : Goes (State.advance s t) (execAwlScrubTick t found shadowOk s) := by
  unfold execAwlScrubTick
  extract_lets +onlyGivenNames v1
  have h1 : Onward (s.advance t) v1 := by
    subst v1
    exact Onward.refl _
  try clear_value v1
  extract_lets +onlyGivenNames v2
  try clear_value v2
  refine Goes.done ?_
  refine Onward.ite ?_ ?_
  · extract_lets +onlyGivenNames v3
    try clear_value v3
    extract_lets +onlyGivenNames v4
    have h4 : Onward (s.advance t) v4 := by
      subst v4
      refine Onward.upd ?_ rfl
      assumption
    try clear_value v4
    refine Onward.ite ?_ ?_
    · with_reducible refine Onward.trans ?_ (State.shadowLost_onward _ _)
      assumption
    · split
      · assumption
      · extract_lets +onlyGivenNames v6
        try clear_value v6
        extract_lets +onlyGivenNames v7
        try clear_value v7
        refine Onward.ite ?_ ?_
        · assumption
        · with_reducible refine Onward.trans ?_ (State.event_onward _ _ _)
          with_reducible refine Onward.trans ?_ (State.bump_onward _ _)
          assumption
  · assumption

theorem State.awlSettle_onward (s : State) : Onward s (State.awlSettle s) := by
  unfold State.awlSettle
  refine Onward.upd ?_ rfl
  exact Onward.refl _

theorem State.siteErr_onward (s : State) (code : Nat) : Onward s (State.siteErr s code) := by
  unfold State.siteErr
  with_reducible refine Onward.trans ?_ (State.hwSet_onward _ _ _)
  refine Onward.upd ?_ rfl
  exact Onward.refl _

theorem State.siteOp_onward (s : State) (took : Nat) (cclk : State → Nat) (f : State → State × Nat) (hf : ∀ s, Onward s (f s).1) :
    Onward s (State.siteOp s took cclk f) := by
  unfold State.siteOp
  refine Onward.ite (.refl _) (Onward.ite (State.siteErr_onward ..) ?_)
  extract_lets r
  have h1 : Onward s r.1 := (State.awlSettle_onward ..).trans (hf ..)
  exact Onward.upd h1 rfl

theorem execAwlSiteRead_onward (t : Nat) (took : Nat) (s : State) : Goes (State.advance s t) (execAwlSiteRead t took s) := by
  unfold execAwlSiteRead
  extract_lets +onlyGivenNames v1
  have h1 : Onward (s.advance t) v1 := by
    subst v1
    exact Onward.refl _
  try clear_value v1
  refine Goes.done ?_
  with_reducible refine Onward.trans ?_ (State.siteOp_onward _ _ _ _ (fun z2 => ?_))
  · assumption
  · refine Onward.ite_fst ?_ ?_
    · refine Onward.fst_mk ?_
      exact Onward.refl _
    · extract_lets +onlyGivenNames v3
      try clear_value v3
      refine Onward.fst_mk ?_
      refine Onward.upd ?_ rfl
      exact Onward.refl _

theorem execAwlSiteWrite_onward (t : Nat) (took : Nat) (shadowOk : Bool) (s : State) : Goes (State.advance s t) (execAwlSiteWrite t took shadowOk s) := by
  unfold execAwlSiteWrite
  extract_lets +onlyGivenNames v1
  have h1 : Onward (s.advance t) v1 := by
    subst v1
    exact Onward.refl _
  try clear_value v1
  refine Goes.done ?_
  with_reducible refine Onward.trans ?_ (State.siteOp_onward _ _ _ _ (fun z2 => ?_))
  · assumption
  · extract_lets +onlyGivenNames v3
    try clear_value v3
    refine Onward.ite_fst ?_ ?_
    · refine Onward.fst_mk ?_
      exact Onward.refl _
    · refine Onward.ite_fst ?_ ?_
      · refine Onward.fst_mk ?_
        exact Onward.refl _
      · refine Onward.ite_fst ?_ ?_
        · refine Onward.fst_mk ?_
          exact Onward.refl _
        · refine Onward.fst_mk ?_
          with_reducible refine Onward.trans ?_ (State.setRow_onward _ _)
          exact Onward.refl _

theorem execAwlSiteValidate_onward (t : Nat) (took : Nat) (shadowOk : Bool) (s : State) : Goes (State.advance s t) (execAwlSiteValidate t took shadowOk s) := by
  unfold execAwlSiteValidate
  extract_lets +onlyGivenNames v1
  have h1 : Onward (s.advance t) v1 := by
    subst v1
    exact Onward.refl _
  try clear_value v1
  refine Goes.done ?_
  with_reducible refine Onward.trans ?_ (State.siteOp_onward _ _ _ _ (fun z2 => ?_))
  · assumption
  · refine Onward.ite_fst ?_ ?_
    · refine Onward.fst_mk ?_
      exact Onward.refl _
    · split
      · refine Onward.fst_mk ?_
        exact Onward.refl _
      · refine Onward.ite_fst ?_ ?_
        · refine Onward.fst_mk ?_
          with_reducible refine Onward.trans ?_ (State.setRow_onward _ _)
          exact Onward.refl _
        · refine Onward.fst_mk ?_
          with_reducible refine Onward.trans ?_ (State.rowInvalidate_onward _ _)
          exact Onward.refl _

theorem execAwlSiteInvalidate_onward (t : Nat) (turn : SiteTurn) (s : State) : Goes (State.advance s t) (execAwlSiteInvalidate t turn s) := by
  unfold execAwlSiteInvalidate
  extract_lets +onlyGivenNames v1
  have h1 : Onward (s.advance t) v1 := by
    subst v1
    exact Onward.refl _
  try clear_value v1
  refine Goes.done ?_
  with_reducible refine Onward.trans ?_ (State.siteOp_onward _ _ _ _ (fun z2 => ?_))
  · assumption
  · refine Onward.ite_fst ?_ ?_
    · refine Onward.fst_mk ?_
      with_reducible refine Onward.trans ?_ (State.rowInvalidate_onward _ _)
      exact Onward.refl _
    · refine Onward.fst_mk ?_
      exact Onward.refl _

theorem execAwlSiteSearch_onward (t : Nat) (took : Nat) (facts : AwlFacts) (s : State) : Goes (State.advance s t) (execAwlSiteSearch t took facts s) := by
  unfold execAwlSiteSearch
  extract_lets +onlyGivenNames v1
  have h1 : Onward (s.advance t) v1 := by
    subst v1
    exact Onward.refl _
  try clear_value v1
  refine Goes.done ?_
  with_reducible refine Onward.trans ?_ (State.siteOp_onward _ _ _ _ (fun z2 => ?_))
  · assumption
  · split
    extract_lets +onlyGivenNames v3
    try clear_value v3
    extract_lets +onlyGivenNames v4
    have h4 : Onward z2 v4 := by
      subst v4
      refine Onward.upd ?_ rfl
      refine Onward.trans ?_ (State.awlSearch_onward_eq (by assumption))
      exact Onward.refl _
    try clear_value v4
    split
    · refine Onward.fst_mk ?_
      refine Onward.upd ?_ rfl
      assumption
    · refine Onward.fst_mk ?_
      assumption

theorem execAwlSiteMove_onward (t : Nat) (took : Nat) (shadowOk : Bool) (s : State) : Goes (State.advance s t) (execAwlSiteMove t took shadowOk s) := by
  unfold execAwlSiteMove
  extract_lets +onlyGivenNames v1
  have h1 : Onward (s.advance t) v1 := by
    subst v1
    exact Onward.refl _
  try clear_value v1
  refine Goes.done ?_
  with_reducible refine Onward.trans ?_ (State.siteOp_onward _ _ _ _ (fun z2 => ?_))
  · assumption
  · extract_lets +onlyGivenNames v3
    try clear_value v3
    extract_lets +onlyGivenNames v4
    try clear_value v4
    refine Onward.ite_fst ?_ ?_
    · refine Onward.fst_mk ?_
      exact Onward.refl _
    · split
      · refine Onward.ite_fst ?_ ?_
        · refine Onward.fst_mk ?_
          exact Onward.refl _
        · refine Onward.ite_fst ?_ ?_
          · refine Onward.fst_mk ?_
            exact Onward.refl _
          · refine Onward.ite_fst ?_ ?_
            · refine Onward.fst_mk ?_
              exact Onward.refl _
            · refine Onward.fst_mk ?_
              with_reducible refine Onward.trans ?_ (State.rowInvalidate_onward _ _)
              with_reducible refine Onward.trans ?_ (State.rowWrite_onward _ _ _)
              exact Onward.refl _
      · refine Onward.fst_mk ?_
        exact Onward.refl _

theorem execAwlSiteFindHole_onward (t : Nat) (took : Nat) (s : State) : Goes (State.advance s t) (execAwlSiteFindHole t took s) := by
  unfold execAwlSiteFindHole
  extract_lets +onlyGivenNames v1
  have h1 : Onward (s.advance t) v1 := by
    subst v1
    exact Onward.refl _
  try clear_value v1
  refine Goes.done ?_
  with_reducible refine Onward.trans ?_ (State.siteOp_onward _ _ _ _ (fun z2 => ?_))
  · assumption
  · refine Onward.ite_fst ?_ ?_
    · refine Onward.fst_mk ?_
      exact Onward.refl _
    · extract_lets +onlyGivenNames v3
      try clear_value v3
      split
      · refine Onward.fst_mk ?_
        refine Onward.upd ?_ rfl
        exact Onward.refl _
      · refine Onward.fst_mk ?_
        exact Onward.refl _

theorem execAwlSiteVfailRead_onward (t : Nat) (s : State) : Goes (State.advance s t) (execAwlSiteVfailRead t s) := by
  unfold execAwlSiteVfailRead
  extract_lets +onlyGivenNames v1
  have h1 : Onward (s.advance t) v1 := by
    subst v1
    exact Onward.refl _
  try clear_value v1
  refine Goes.done ?_
  refine Onward.ite ?_ ?_
  · refine Onward.upd ?_ rfl
    assumption
  · assumption

theorem State.takeInst_onward (s : State) (ns : Nat) (gen : Nat) : Onward s (State.takeInst s ns gen) := by
  unfold State.takeInst
  refine Onward.ite ?_ ?_
  · exact Onward.refl _
  · split
    · refine Onward.upd ?_ rfl
      exact Onward.refl _
    · exact Onward.refl _

theorem State.startPass_onward (s : State) : Onward s (State.startPass s) := by
  unfold State.startPass
  split
  · exact Onward.refl _
  · extract_lets +onlyGivenNames v1
    try clear_value v1
    refine Onward.ite ?_ ?_
    · exact Onward.refl _
    · refine Onward.upd ?_ rfl
      exact Onward.refl _

theorem State.purgeInst_onward (s : State) (ns : Nat) (gen : Nat) : Onward s (State.purgeInst s ns gen) := by
  unfold State.purgeInst
  with_reducible refine Onward.trans ?_ (State.startPass_onward _)
  refine Onward.upd ?_ rfl
  exact Onward.refl _

theorem State.setCell_onward (s : State) (a : Nat) (e : Option IdxEntry) : Onward s (State.setCell s a e) := by
  unfold State.setCell
  refine Onward.upd ?_ rfl
  exact Onward.refl _

theorem State.setHot_onward (s : State) (slot : Nat) (hot : Bool) : Onward s (State.setHot s slot hot) := by
  unfold State.setHot
  split
  · with_reducible refine Onward.trans ?_ (State.setCell_onward _ _ _)
    exact Onward.refl _
  · exact Onward.refl _

theorem State.promote_onward (s : State) (r : Resolved) (h : Nat) (h2 : Nat) : Onward s (State.promote s r h h2) := by
  unfold State.promote
  extract_lets +onlyGivenNames v1
  try clear_value v1
  split
  extract_lets +onlyGivenNames v2
  try clear_value v2
  extract_lets +onlyGivenNames v3
  have h3 : Onward s v3 := by
    subst v3
    split
    · refine Onward.ite ?_ ?_
      · with_reducible refine Onward.trans ?_ (State.bump_onward _ _)
        with_reducible refine Onward.trans ?_ (State.setHot_onward _ _ _)
        with_reducible refine Onward.trans ?_ (State.rowInvalidate_onward _ _)
        refine Onward.trans ?_ (State.hotVictim_onward_eq (by assumption))
        exact Onward.refl _
      · refine Onward.trans ?_ (State.hotVictim_onward_eq (by assumption))
        exact Onward.refl _
    · refine Onward.trans ?_ (State.hotVictim_onward_eq (by assumption))
      exact Onward.refl _
  try clear_value v3
  extract_lets +onlyGivenNames v7
  try clear_value v7
  with_reducible refine Onward.trans ?_ (State.setHot_onward _ _ _)
  with_reducible refine Onward.trans ?_ (State.rowWrite_onward _ _ _)
  assumption

theorem State.countResolve_onward (s : State) (h2 : Nat) (h : Nat) (r : Option Resolved) : Onward s (State.countResolve s h2 h r) := by
  unfold State.countResolve
  extract_lets +onlyGivenNames v1
  try clear_value v1
  extract_lets +onlyGivenNames v2
  try clear_value v2
  extract_lets +onlyGivenNames v3
  try clear_value v3
  extract_lets +onlyGivenNames v4
  have h4 : Onward s v4 := by
    subst v4
    refine Onward.upd ?_ rfl
    exact Onward.refl _
  try clear_value v4
  split
  · refine Onward.ite ?_ ?_
    · with_reducible refine Onward.trans ?_ (State.promote_onward _ _ _ _)
      assumption
    · assumption
  · assumption

theorem State.hotSearch_onward (s : State) (inst : Nat) (h : Nat) (h2 : Nat) (key : Bytes) (f : AwlFacts) : Onward s (State.hotSearch s inst h h2 key f).1 := by
  unfold State.hotSearch
  split
  split
  · refine Onward.fst_mk ?_
    with_reducible refine Onward.trans ?_ (State.bump_onward _ _)
    with_reducible refine Onward.trans ?_ (State.refHot_onward _ _)
    refine Onward.trans ?_ (State.awlSearch_onward_eq (by assumption))
    exact Onward.refl _
  · refine Onward.fst_mk ?_
    with_reducible refine Onward.trans ?_ (State.bump_onward _ _)
    refine Onward.trans ?_ (State.awlSearch_onward_eq (by assumption))
    exact Onward.refl _
theorem State.hotSearch_onward_eq {s : State} {inst : Nat} {h : Nat} {h2 : Nat} {key : Bytes} {f : AwlFacts} {r1 r2} (hres : State.hotSearch s inst h h2 key f = (r1, r2)) : Onward s r1 := by
  have k := State.hotSearch_onward s inst h h2 key f
  rw [hres] at k
  exact k

theorem State.dramResolve_onward (s : State) (inst : Nat) (h : Nat) (h2 : Nat) (key : Bytes) : Onward s (State.dramResolve s inst h h2 key) := by
  unfold State.dramResolve
  extract_lets +onlyGivenNames v1
  try clear_value v1
  with_reducible refine Onward.trans ?_ (State.countResolve_onward _ _ _ _)
  with_reducible refine Onward.trans ?_ (State.addTo_onward _ _ _)
  exact Onward.refl _

theorem State.resolveMiss_onward (s : State) (p : CmdPkt) (hot : Option Nat) : Onward s (State.resolveMiss s p hot) := by
  unfold State.resolveMiss
  split
  · extract_lets +onlyGivenNames v1
    try clear_value v1
    with_reducible refine Onward.trans ?_ (State.dramResolve_onward _ _ _ _ _)
    exact Onward.refl _
  · exact Onward.refl _

theorem State.confirmHot_onward (s : State) (p : CmdPkt) (hot : Option Nat) : Onward s (State.confirmHot s p hot) := by
  unfold State.confirmHot
  split
  · extract_lets +onlyGivenNames v1
    try clear_value v1
    refine Onward.ite ?_ ?_
    · exact Onward.refl _
    · with_reducible refine Onward.trans ?_ (State.dramResolve_onward _ _ _ _ _)
      with_reducible refine Onward.trans ?_ (State.event_onward _ _ _)
      with_reducible refine Onward.trans ?_ (State.bump_onward _ _)
      exact Onward.refl _
  · exact Onward.refl _

theorem State.moveCell_onward (s : State) (a : Nat) (b : Nat) : Onward s (State.moveCell s a b) := by
  unfold State.moveCell
  split
  · extract_lets +onlyGivenNames v1
    have h1 : Onward s v1 := by
      subst v1
      refine Onward.ite ?_ ?_
      · with_reducible refine Onward.trans ?_ (State.hotMove_onward _ _ _ _ _)
        exact Onward.refl _
      · exact Onward.refl _
    try clear_value v1
    with_reducible refine Onward.trans ?_ (State.setCell_onward _ _ _)
    with_reducible refine Onward.trans ?_ (State.setCell_onward _ _ _)
    assumption
  · exact Onward.refl _

theorem State.hotRowTo_onward (s : State) (g : Option Nat) (e : IdxEntry) (slot : Nat) : Onward s (State.hotRowTo s g e slot) := by
  unfold State.hotRowTo
  split
  · with_reducible refine Onward.trans ?_ (State.rowWrite_onward _ _ _)
    exact Onward.refl _
  · exact Onward.refl _

theorem State.placeAt_onward (s : State) (e : IdxEntry) (g : Option Nat) (slot : Nat) : Onward s (State.placeAt s e g slot) := by
  unfold State.placeAt
  with_reducible refine Onward.trans ?_ (State.setCell_onward _ _ _)
  with_reducible refine Onward.trans ?_ (State.hotRowTo_onward _ _ _ _)
  exact Onward.refl _

theorem State.displace_onward_eq {fuel i : Nat} {s : State} {e : IdxEntry} {g : Option Nat} {b : Nat} {r1 : State} {r2 : Nat}
    (h : State.displace fuel i s e g b = some (r1, r2)) : Onward s r1 := by
  induction fuel generalizing i s e g b with
  | zero => simp [State.displace] at h
  | succ n ih =>
    rw [State.displace] at h
    simp only [] at h
    split at h
    · simp only [Option.some.injEq, Prod.mk.injEq] at h
      rw [← h.1]
      exact State.placeAt_onward ..
    · split at h
      · exact ih h
      · split at h
        · simp only [Option.some.injEq, Prod.mk.injEq] at h
          rw [← h.1]
          exact (State.placeAt_onward ..).trans (State.placeAt_onward ..)
        · exact (State.placeAt_onward ..).trans (ih h)

theorem State.trimCache_onward (s : State) : Onward s (State.trimCache s) := by
  unfold State.trimCache
  refine Onward.upd ?_ rfl
  exact Onward.refl _

theorem State.cacheValue_onward (s : State) (i : StripeId) (v : Bytes) : Onward s (State.cacheValue s i v) := by
  unfold State.cacheValue
  refine Onward.ite ?_ ?_
  · exact Onward.refl _
  · with_reducible refine Onward.trans ?_ (State.trimCache_onward _)
    refine Onward.upd ?_ rfl
    exact Onward.refl _

theorem State.extendChain_onward (s : State) (b : Nat) (e : IdxEntry) : Onward s (State.extendChain s b e) := by
  unfold State.extendChain
  extract_lets +onlyGivenNames v1
  try clear_value v1
  extract_lets +onlyGivenNames v2
  try clear_value v2
  extract_lets +onlyGivenNames v3
  try clear_value v3
  extract_lets +onlyGivenNames v4
  try clear_value v4
  extract_lets +onlyGivenNames v5
  have h5 : Onward s v5 := by
    subst v5
    with_reducible refine Onward.trans ?_ (State.trimCache_onward _)
    refine Onward.upd ?_ rfl
    exact Onward.refl _
  try clear_value v5
  extract_lets +onlyGivenNames v7
  have h7 : Onward s v7 := by
    subst v7
    with_reducible refine Onward.trans ?_ (State.setCell_onward _ _ _)
    with_reducible refine Onward.trans ?_ (State.moveCell_onward _ _ _)
    assumption
  try clear_value v7
  with_reducible refine Onward.trans ?_ (State.setCell_onward _ _ _)
  assumption

theorem State.insertEntry_onward (s : State) (h : Nat) (e : IdxEntry) : Onward s (State.insertEntry s h e) := by
  unfold State.insertEntry
  extract_lets +onlyGivenNames v1
  try clear_value v1
  split
  · with_reducible refine Onward.trans ?_ (State.setCell_onward _ _ _)
    exact Onward.refl _
  · split
    · with_reducible refine Onward.trans ?_ (State.addTo_onward _ _ _)
      refine Onward.trans ?_ (State.displace_onward_eq (by assumption))
      exact Onward.refl _
    · refine Onward.ite ?_ ?_
      · with_reducible refine Onward.trans ?_ (State.extendChain_onward _ _ _)
        exact Onward.refl _
      · extract_lets +onlyGivenNames v5
        have h5 : Onward s v5 := by
          subst v5
          with_reducible refine Onward.trans ?_ (State.extendChain_onward _ _ _)
          exact Onward.refl _
        try clear_value v5
        extract_lets +onlyGivenNames v7
        try clear_value v7
        extract_lets +onlyGivenNames v8
        have h8 : Onward s v8 := by
          subst v8
          refine Onward.upd ?_ rfl
          assumption
        try clear_value v8
        with_reducible refine Onward.trans ?_ (State.event_onward _ _ _)
        assumption

theorem State.checkFull_onward (s : State) : Onward s (State.checkFull s) := by
  unfold State.checkFull
  extract_lets +onlyGivenNames v1
  try clear_value v1
  refine Onward.upd ?_ rfl
  exact Onward.refl _

theorem State.returnBucket_onward (a0 : Nat) (a1 : State) (a2 : Nat) : Onward a1 (State.returnBucket a0 a1 a2) := by
  induction a0 generalizing a1 a2 with
  | zero =>
    rw [State.returnBucket]
    exact Onward.refl _
  | succ n ih =>
    rw [State.returnBucket]
    refine Onward.ite ?_ ?_
    · exact Onward.refl _
    · split
      · exact Onward.refl _
      · extract_lets +onlyGivenNames v1
        try clear_value v1
        extract_lets +onlyGivenNames v2
        have h2 : Onward a1 v2 := by
          subst v2
          refine Onward.upd ?_ rfl
          exact Onward.refl _
        try clear_value v2
        extract_lets +onlyGivenNames v3
        have h3 : Onward a1 v3 := by
          subst v3
          with_reducible refine Onward.trans ?_ (State.checkFull_onward _)
          with_reducible refine Onward.trans ?_ (State.setCell_onward _ _ _)
          assumption
        try clear_value v3
        split
        refine Onward.ite ?_ ?_
        · assumption
        · split
          · with_reducible refine Onward.trans ?_ (State.moveCell_onward _ _ _)
            assumption
          · refine Onward.trans ?_ (ih ..)
            assumption

theorem State.removeEntry_onward (s : State) (a : Nat) : Onward s (State.removeEntry s a) := by
  unfold State.removeEntry
  extract_lets +onlyGivenNames v1
  have h1 : Onward s v1 := by
    subst v1
    split
    · with_reducible refine Onward.trans ?_ (State.rowInvalidate_onward _ _)
      exact Onward.refl _
    · exact Onward.refl _
  try clear_value v1
  extract_lets +onlyGivenNames v3
  have h3 : Onward s v3 := by
    subst v3
    with_reducible refine Onward.trans ?_ (State.setCell_onward _ _ _)
    assumption
  try clear_value v3
  split
  refine Onward.ite ?_ ?_
  · with_reducible refine Onward.trans ?_ (State.returnBucket_onward _ _ _)
    assumption
  · assumption

theorem State.rewriteEntry_onward (s : State) (a : Nat) (kind : IdxKind) (loc : Nat) (len : Nat) (buf : Bool) : Onward s (State.rewriteEntry s a kind loc len buf) := by
  unfold State.rewriteEntry
  split
  · extract_lets +onlyGivenNames v1
    have h1 : Onward s v1 := by
      subst v1
      with_reducible refine Onward.trans ?_ (State.setCell_onward _ _ _)
      exact Onward.refl _
    try clear_value v1
    refine Onward.ite ?_ ?_
    · with_reducible refine Onward.trans ?_ (State.hotMove_onward _ _ _ _ _)
      assumption
    · assumption
  · exact Onward.refl _

theorem State.indexCommit_onward (s : State) (inst : Nat) (loc : Nat) (c : CommitRec) (buf : Bool) : Onward s (State.indexCommit s inst loc c buf) := by
  unfold State.indexCommit
  split
  · with_reducible refine Onward.trans ?_ (State.rewriteEntry_onward _ _ _ _ _ _)
    exact Onward.refl _
  · with_reducible refine Onward.trans ?_ (State.insertEntry_onward _ _ _)
    exact Onward.refl _

theorem State.clearBuf_onward (s : State) (loc : Nat) : Onward s (State.clearBuf s loc) := by
  unfold State.clearBuf
  refine Onward.upd ?_ rfl
  exact Onward.refl _

theorem State.takeWaiting_onward (s : State) : Onward s (State.takeWaiting s) := by
  unfold State.takeWaiting
  refine Onward.trans ?_ (Onward.foldl (fun z1 y1 => ?_) _ _)
  · exact Onward.refl _
  · with_reducible refine Onward.trans ?_ (State.takeInst_onward _ _ _)
    exact Onward.refl _

theorem State.purgeCells_onward (a0 : Nat) (a1 : State) (a2 : Nat) : Onward a1 (State.purgeCells a0 a1 a2).1 := by
  induction a0 generalizing a1 a2 with
  | zero =>
    rw [State.purgeCells]
    refine Onward.fst_mk ?_
    exact Onward.refl _
  | succ n ih =>
    rw [State.purgeCells]
    split
    · extract_lets +onlyGivenNames v1
      refine Onward.fst_mk ?_
      subst v1
      refine Onward.trans ?_ (ih ..)
      with_reducible refine Onward.trans ?_ (State.removeEntry_onward _ _)
      exact Onward.refl _
    · refine Onward.fst_mk ?_
      exact Onward.refl _
theorem State.purgeCells_onward_eq {a0 : Nat} {a1 : State} {a2 : Nat} {r1 r2} (hres : State.purgeCells a0 a1 a2 = (r1, r2)) : Onward a1 r1 := by
  have k := State.purgeCells_onward a0 a1 a2
  rw [hres] at k
  exact k

theorem State.purgeOne_onward (s : State) (i : Inst) : Onward s (State.purgeOne s i) := by
  unfold State.purgeOne
  split
  extract_lets +onlyGivenNames v1
  try clear_value v1
  extract_lets +onlyGivenNames v2
  have h2 : Onward s v2 := by
    subst v2
    refine Onward.upd ?_ rfl
    refine Onward.trans ?_ (State.purgeCells_onward_eq (by assumption))
    exact Onward.refl _
  try clear_value v2
  with_reducible refine Onward.trans ?_ (State.event_onward _ _ _)
  assumption

theorem execPurgePassEnd_onward (t : Nat) (s : State) : Goes (State.advance s t) (execPurgePassEnd t s) := by
  unfold execPurgePassEnd
  extract_lets +onlyGivenNames v1
  have h1 : Onward (s.advance t) v1 := by
    subst v1
    exact Onward.refl _
  try clear_value v1
  refine Goes.done ?_
  split
  · refine Onward.ite ?_ ?_
    · assumption
    · extract_lets +onlyGivenNames v2
      try clear_value v2
      extract_lets +onlyGivenNames v3
      have h3 : Onward (s.advance t) v3 := by
        subst v3
        refine Onward.trans ?_ (Onward.foldl (fun z4 y4 => ?_) _ _)
        · assumption
        · with_reducible refine Onward.trans ?_ (State.purgeOne_onward _ _)
          exact Onward.refl _
      try clear_value v3
      extract_lets +onlyGivenNames v6
      try clear_value v6
      extract_lets +onlyGivenNames v7
      have h7 : Onward (s.advance t) v7 := by
        subst v7
        refine Onward.upd ?_ rfl
        assumption
      try clear_value v7
      with_reducible refine Onward.trans ?_ (State.stirred_onward _)
      with_reducible refine Onward.trans ?_ (State.takeWaiting_onward _)
      with_reducible refine Onward.trans ?_ (State.startPass_onward _)
      assumption
  · assumption

theorem execHotWindowClear_onward (t : Nat) (s : State) : Goes (State.advance s t) (execHotWindowClear t s) := by
  unfold execHotWindowClear
  extract_lets +onlyGivenNames v1
  have h1 : Onward (s.advance t) v1 := by
    subst v1
    exact Onward.refl _
  try clear_value v1
  refine Goes.done ?_
  refine Onward.ite ?_ ?_
  · refine Onward.upd ?_ rfl
    assumption
  · assumption

end Sys2Proof.Machine
end

