-- ==== Sys2Proof/Laws/OnwardNet.lean ====
section
/-! SUPPORT. What the operations and meanings of sessions and peers do: each only goes onward (Laws/Onward.lean). -/

namespace Sys2Proof.Machine

theorem State.setSession_onward (s : State) (a1 : Session) : Onward s (State.setSession s a1) := by
  unfold State.setSession
  refine Onward.upd ?_ rfl
  exact Onward.refl _

theorem State.onSession_onward (s : State) (sid : Nat) (f : Session → Session) : Onward s (State.onSession s sid f) := by
  unfold State.onSession
  refine Onward.upd ?_ rfl
  exact Onward.refl _

theorem State.dropSession_onward (s : State) (sid : Nat) : Onward s (State.dropSession s sid) := by
  unfold State.dropSession
  refine Onward.upd ?_ rfl
  exact Onward.refl _

theorem State.txFrame_onward (s : State) (p : PortId) (bytes : Nat) : Onward s (State.txFrame s p bytes) := by
  unfold State.txFrame
  refine Onward.ite ?_ ?_
  · exact Onward.refl _
  · with_reducible refine Onward.trans ?_ (State.addTo_onward _ _ _)
    with_reducible refine Onward.trans ?_ (State.bump_onward _ _)
    exact Onward.refl _

theorem State.rxFrame_onward (s : State) (p : PortId) (bytes : Nat) : Onward s (State.rxFrame s p bytes) := by
  unfold State.rxFrame
  with_reducible refine Onward.trans ?_ (State.addTo_onward _ _ _)
  with_reducible refine Onward.trans ?_ (State.bump_onward _ _)
  exact Onward.refl _

theorem State.emitOn_onward (s : State) (p : PortId) (o : Out) : Onward s (State.emitOn s p o) := by
  unfold State.emitOn
  refine Onward.ite ?_ ?_
  · exact Onward.refl _
  · refine Onward.ite ?_ ?_
    · refine Onward.upd ?_ rfl
      exact Onward.refl _
    · with_reducible refine Onward.trans ?_ (State.emit_onward _ _)
      exact Onward.refl _

theorem State.resumeTx_onward (s : State) (p : PortId) : Onward s (State.resumeTx s p) := by
  unfold State.resumeTx
  split
  · exact .refl _
  · exact Onward.updAll (.refl s) (List.prefix_append _ _) id (.refl _)

theorem State.countPromised_onward (s : State) (broken : Bool) : Onward s (State.countPromised s broken) := by
  unfold State.countPromised
  extract_lets +onlyGivenNames v1
  have h1 : Onward s v1 := by
    subst v1
    with_reducible refine Onward.trans ?_ (State.addTo_onward _ _ _)
    with_reducible refine Onward.trans ?_ (State.addTo_onward _ _ _)
    exact Onward.refl _
  try clear_value v1
  extract_lets +onlyGivenNames v4
  try clear_value v4
  extract_lets +onlyGivenNames v5
  have h5 : Onward s v5 := by
    subst v5
    refine Onward.upd ?_ rfl
    assumption
  try clear_value v5
  extract_lets +onlyGivenNames v6
  try clear_value v6
  with_reducible refine Onward.trans ?_ (State.setSys_onward _ _ _)
  with_reducible refine Onward.trans ?_ (State.setNum_onward _ _ _)
  assumption

theorem State.endSent_onward (s : State) (sid : Nat) (a2 : PktBody) : Onward s (State.endSent s sid a2) := by
  unfold State.endSent
  split
  · split
    · with_reducible refine Onward.trans ?_ (State.countPromised_onward _ _)
      refine Onward.upd ?_ rfl
      exact Onward.refl _
    · exact Onward.refl _
  · exact Onward.refl _

theorem State.txOn_onward (s : State) (a1 : Session) (q : NetPath) (pref : Nat) (retx : Bool) (b : PktBody) : Onward s (State.txOn s a1 q pref retx b) := by
  unfold State.txOn
  refine Onward.ite ?_ ?_
  · extract_lets +onlyGivenNames v1
    try clear_value v1
    extract_lets +onlyGivenNames v2
    have h2 : Onward s v2 := by
      subst v2
      with_reducible refine Onward.trans ?_ (State.setSession_onward _ _)
      exact Onward.refl _
    try clear_value v2
    with_reducible refine Onward.trans ?_ (State.endSent_onward _ _ _)
    with_reducible refine Onward.trans ?_ (State.emitOn_onward _ _ _)
    assumption
  · extract_lets +onlyGivenNames v6
    try clear_value v6
    extract_lets +onlyGivenNames v7
    try clear_value v7
    extract_lets +onlyGivenNames v8
    have h8 : Onward s v8 := by
      subst v8
      with_reducible refine Onward.trans ?_ (State.txFrame_onward _ _ _)
      exact Onward.refl _
    try clear_value v8
    extract_lets +onlyGivenNames v10
    have h10 : Onward s v10 := by
      subst v10
      with_reducible refine Onward.trans ?_ (State.setSession_onward _ _)
      assumption
    try clear_value v10
    extract_lets +onlyGivenNames v12
    try clear_value v12
    with_reducible refine Onward.trans ?_ (State.endSent_onward _ _ _)
    with_reducible refine Onward.trans ?_ (State.emitOn_onward _ _ _)
    assumption

theorem State.pump_onward (a0 : Nat) (a1 : State) (a2 : Nat) : Onward a1 (State.pump a0 a1 a2) := by
  induction a0 generalizing a1 a2 with
  | zero =>
    rw [State.pump]
    exact Onward.refl _
  | succ n ih =>
    rw [State.pump]
    split
    · exact Onward.refl _
    · split
      · exact Onward.refl _
      · split
        · exact Onward.refl _
        · refine Onward.ite ?_ ?_
          · refine Onward.trans ?_ (ih ..)
            with_reducible refine Onward.trans ?_ (State.txOn_onward _ _ _ _ _ _)
            exact Onward.refl _
          · exact Onward.refl _

theorem State.send_onward (s : State) (sid : Nat) (path : Nat) (retx : Bool) (b : PktBody) : Onward s (State.send s sid path retx b) := by
  unfold State.send
  extract_lets +onlyGivenNames v1
  have h1 : Onward s v1 := by
    subst v1
    with_reducible refine Onward.trans ?_ (State.onSession_onward _ _ _)
    exact Onward.refl _
  try clear_value v1
  with_reducible refine Onward.trans ?_ (State.pump_onward _ _ _)
  assumption

theorem State.sendNow_onward (s : State) (sid : Nat) (path : Nat) (b : PktBody) : Onward s (State.sendNow s sid path b) := by
  unfold State.sendNow
  split
  · exact Onward.refl _
  · split
    · refine Onward.ite ?_ ?_
      · with_reducible refine Onward.trans ?_ (State.txOn_onward _ _ _ _ _ _)
        exact Onward.refl _
      · exact Onward.refl _
    · exact Onward.refl _

theorem State.sendAckAs_onward (s : State) (sid : Nat) (path : Nat) (retx : Bool) : Onward s (State.sendAckAs s sid path retx) := by
  unfold State.sendAckAs
  split
  · exact Onward.refl _
  · split
    · exact Onward.refl _
    · refine Onward.ite ?_ ?_
      · extract_lets +onlyGivenNames v1
        try clear_value v1
        extract_lets +onlyGivenNames v2
        try clear_value v2
        refine Onward.ite ?_ ?_
        · with_reducible refine Onward.trans ?_ (State.txOn_onward _ _ _ _ _ _)
          exact Onward.refl _
        · with_reducible refine Onward.trans ?_ (State.txOn_onward _ _ _ _ _ _)
          exact Onward.refl _
      · exact Onward.refl _

theorem State.sendAck_onward (s : State) (sid : Nat) (path : Nat) : Onward s (State.sendAck s sid path) := by
  unfold State.sendAck
  with_reducible refine Onward.trans ?_ (State.sendAckAs_onward _ _ _ _)
  exact Onward.refl _

theorem State.sendReleases_onward (s : State) (sid : Nat) : Onward s (State.sendReleases s sid) := by
  unfold State.sendReleases
  split
  · refine Onward.ite ?_ ?_
    · exact Onward.refl _
    · with_reducible refine Onward.trans ?_ (State.sendAck_onward _ _ _)
      exact Onward.refl _
  · exact Onward.refl _

theorem State.lose_onward (s : State) (sid : Nat) (l : List Unacked) : Onward s (State.lose s sid l) := by
  unfold State.lose
  extract_lets +onlyGivenNames v1
  try clear_value v1
  extract_lets +onlyGivenNames v2
  have h2 : Onward s v2 := by
    subst v2
    with_reducible refine Onward.trans ?_ (State.onSession_onward _ _ _)
    exact Onward.refl _
  try clear_value v2
  refine Onward.ite ?_ ?_
  · refine Onward.trans ?_ (Onward.foldl (fun z4 y4 => ?_) _ _)
    · assumption
    · extract_lets +onlyGivenNames v5
      have h5 : Onward z4 v5 := by
        subst v5
        with_reducible refine Onward.trans ?_ (State.bump_onward _ _)
        exact Onward.refl _
      try clear_value v5
      split
      · with_reducible refine Onward.trans ?_ (State.sendAckAs_onward _ _ _ _)
        with_reducible refine Onward.trans ?_ (State.onSession_onward _ _ _)
        assumption
      · with_reducible refine Onward.trans ?_ (State.send_onward _ _ _ _ _)
        assumption
  · assumption

theorem State.noteMember_onward (s : State) (a1 : Session) : Onward s (State.noteMember s a1) := by
  unfold State.noteMember
  split
  · exact Onward.refl _
  · refine Onward.ite ?_ ?_
    · extract_lets +onlyGivenNames v1
      try clear_value v1
      extract_lets +onlyGivenNames v2
      try clear_value v2
      extract_lets +onlyGivenNames v3
      have h3 : Onward s v3 := by
        subst v3
        refine Onward.upd ?_ rfl
        exact Onward.refl _
      try clear_value v3
      refine Onward.ite ?_ ?_
      · extract_lets +onlyGivenNames v4
        have h4 : Onward s v4 := by
          subst v4
          with_reducible refine Onward.trans ?_ (State.event_onward _ _ _)
          assumption
        try clear_value v4
        refine Onward.ite ?_ ?_
        · with_reducible refine Onward.trans ?_ (State.condOff_onward _ _)
          assumption
        · assumption
      · assumption
    · refine Onward.ite ?_ ?_
      · exact Onward.refl _
      · refine Onward.upd ?_ rfl
        exact Onward.refl _

theorem State.pathFail_onward (s : State) (sid : Nat) (p : Nat) (cause : Nat) : Onward s (State.pathFail s sid p cause) := by
  unfold State.pathFail
  split
  · exact Onward.refl _
  · split
    · exact Onward.refl _
    · refine Onward.ite ?_ ?_
      · exact Onward.refl _
      · extract_lets +onlyGivenNames v1
        try clear_value v1
        extract_lets +onlyGivenNames v2
        try clear_value v2
        extract_lets +onlyGivenNames v3
        have h3 : Onward s v3 := by
          subst v3
          with_reducible refine Onward.trans ?_ (State.event_onward _ _ _)
          with_reducible refine Onward.trans ?_ (State.bump_onward _ _)
          with_reducible refine Onward.trans ?_ (State.setSession_onward _ _)
          exact Onward.refl _
        try clear_value v3
        extract_lets +onlyGivenNames v7
        have h7 : Onward s v7 := by
          subst v7
          with_reducible refine Onward.trans ?_ (State.lose_onward _ _ _)
          assumption
        try clear_value v7
        with_reducible refine Onward.trans ?_ (State.noteMember_onward _ _)
        assumption

theorem State.pathUp_onward (s : State) (sid : Nat) (p : Nat) : Onward s (State.pathUp s sid p) := by
  unfold State.pathUp
  extract_lets +onlyGivenNames v1
  have h1 : Onward s v1 := by
    subst v1
    with_reducible refine Onward.trans ?_ (State.onSession_onward _ _ _)
    exact Onward.refl _
  try clear_value v1
  split
  · assumption
  · with_reducible refine Onward.trans ?_ (State.pump_onward _ _ _)
    with_reducible refine Onward.trans ?_ (State.noteMember_onward _ _)
    assumption

theorem State.touch_onward (s : State) (sid : Nat) : Onward s (State.touch s sid) := by
  unfold State.touch
  extract_lets +onlyGivenNames v1
  have h1 : Onward s v1 := by
    subst v1
    with_reducible refine Onward.trans ?_ (State.onSession_onward _ _ _)
    exact Onward.refl _
  try clear_value v1
  extract_lets +onlyGivenNames v3
  try clear_value v3
  refine Onward.ite ?_ ?_
  · assumption
  · extract_lets +onlyGivenNames v4
    try clear_value v4
    extract_lets +onlyGivenNames v5
    try clear_value v5
    split
    · with_reducible refine Onward.trans ?_ (State.onSession_onward _ _ _)
      assumption
    · assumption

theorem State.nakGaps_onward (s : State) (sid : Nat) (p : Nat) : Onward s (State.nakGaps s sid p) := by
  unfold State.nakGaps
  split
  · exact Onward.refl _
  · extract_lets +onlyGivenNames v1
    try clear_value v1
    refine Onward.ite ?_ ?_
    · exact Onward.refl _
    · extract_lets +onlyGivenNames v2
      try clear_value v2
      extract_lets +onlyGivenNames v3
      try clear_value v3
      extract_lets +onlyGivenNames v4
      have h4 : Onward s v4 := by
        subst v4
        with_reducible refine Onward.trans ?_ (State.onSession_onward _ _ _)
        exact Onward.refl _
      try clear_value v4
      with_reducible refine Onward.trans ?_ (State.bump_onward _ _)
      with_reducible refine Onward.trans ?_ (State.sendNow_onward _ _ _ _)
      assumption

theorem State.receive_onward (s : State) (rx : Rx) (kind : Nat) (elicits : Bool) : Onward s (State.receive s rx kind elicits).1 := by
  unfold State.receive
  refine Onward.ite_fst ?_ ?_
  · refine Onward.fst_mk ?_
    with_reducible refine Onward.trans ?_ (State.bump_onward _ _)
    exact Onward.refl _
  · refine Onward.ite_fst ?_ ?_
    · refine Onward.fst_mk ?_
      with_reducible refine Onward.trans ?_ (State.bump_onward _ _)
      with_reducible refine Onward.trans ?_ (State.rxFrame_onward _ _ _)
      exact Onward.refl _
    · split
      · refine Onward.fst_mk ?_
        with_reducible refine Onward.trans ?_ (State.bump_onward _ _)
        with_reducible refine Onward.trans ?_ (State.rxFrame_onward _ _ _)
        exact Onward.refl _
      · extract_lets +onlyGivenNames v6
        have h6 : Onward s v6 := by
          subst v6
          refine Onward.ite ?_ ?_
          · exact Onward.refl _
          · with_reducible refine Onward.trans ?_ (State.rxFrame_onward _ _ _)
            exact Onward.refl _
        try clear_value v6
        refine Onward.ite_fst ?_ ?_
        · refine Onward.fst_mk ?_
          with_reducible refine Onward.trans ?_ (State.bump_onward _ _)
          assumption
        · refine Onward.ite_fst ?_ ?_
          · refine Onward.fst_mk ?_
            with_reducible refine Onward.trans ?_ (State.bump_onward _ _)
            assumption
          · refine Onward.ite_fst ?_ ?_
            · refine Onward.fst_mk ?_
              with_reducible refine Onward.trans ?_ (State.bump_onward _ _)
              assumption
            · extract_lets +onlyGivenNames v11
              try clear_value v11
              extract_lets +onlyGivenNames v12
              try clear_value v12
              refine Onward.ite_fst ?_ ?_
              · refine Onward.fst_mk ?_
                with_reducible refine Onward.trans ?_ (State.bump_onward _ _)
                assumption
              · extract_lets +onlyGivenNames v14
                try clear_value v14
                extract_lets +onlyGivenNames v15
                try clear_value v15
                extract_lets +onlyGivenNames v16
                try clear_value v16
                extract_lets +onlyGivenNames v17
                try clear_value v17
                extract_lets +onlyGivenNames v18
                try clear_value v18
                extract_lets +onlyGivenNames v19
                have h19 : Onward s v19 := by
                  subst v19
                  with_reducible refine Onward.trans ?_ (State.setSession_onward _ _)
                  assumption
                try clear_value v19
                extract_lets +onlyGivenNames v21
                try clear_value v21
                extract_lets +onlyGivenNames v22
                have h22 : Onward s v22 := by
                  subst v22
                  refine Onward.ite ?_ ?_
                  · refine Onward.upd ?_ rfl
                    assumption
                  · assumption
                try clear_value v22
                extract_lets +onlyGivenNames v23
                have h23 : Onward s v23 := by
                  subst v23
                  refine Onward.ite ?_ ?_
                  · with_reducible refine Onward.trans ?_ (State.bump_onward _ _)
                    assumption
                  · assumption
                try clear_value v23
                extract_lets +onlyGivenNames v25
                have h25 : Onward s v25 := by
                  subst v25
                  with_reducible refine Onward.trans ?_ (State.nakGaps_onward _ _ _)
                  with_reducible refine Onward.trans ?_ (State.touch_onward _ _)
                  assumption
                try clear_value v25
                refine Onward.fst_mk ?_
                assumption
theorem State.receive_onward_eq {s : State} {rx : Rx} {kind : Nat} {elicits : Bool} {r1 r2} (hres : State.receive s rx kind elicits = (r1, r2)) : Onward s r1 := by
  have k := State.receive_onward s rx kind elicits
  rw [hres] at k
  exact k

theorem State.ackIfDue_onward (s : State) (rx : Rx) : Onward s (State.ackIfDue s rx) := by
  unfold State.ackIfDue
  split
  · refine Onward.ite ?_ ?_
    · with_reducible refine Onward.trans ?_ (State.sendAck_onward _ _ _)
      exact Onward.refl _
    · exact Onward.refl _
  · exact Onward.refl _

theorem State.helloTo_onward (s : State) (m : Nat) : Onward s (State.helloTo s m) := by
  unfold State.helloTo
  refine Onward.ite ?_ ?_
  · exact Onward.refl _
  · split
    · exact Onward.refl _
    · split
      · exact Onward.refl _
      · refine Onward.ite ?_ ?_
        · exact Onward.refl _
        · extract_lets +onlyGivenNames v1
          extract_lets +onlyGivenNames v2
          extract_lets +onlyGivenNames v3
          try clear_value v3
          extract_lets +onlyGivenNames v4
          try clear_value v4
          extract_lets +onlyGivenNames v5
          have h5 : Onward s v5 := by
            subst v5
            subst v2
            with_reducible refine Onward.trans ?_ (State.random_onward _ _)
            subst v1
            with_reducible refine Onward.trans ?_ (State.random_onward _ _)
            exact Onward.refl _
          try clear_value v5
          extract_lets +onlyGivenNames v6
          try clear_value v6
          extract_lets +onlyGivenNames v7
          try clear_value v7
          extract_lets +onlyGivenNames v8
          try clear_value v8
          extract_lets +onlyGivenNames v9
          have h9 : Onward s v9 := by
            subst v9
            refine Onward.upd ?_ rfl
            assumption
          try clear_value v9
          extract_lets +onlyGivenNames v10
          try clear_value v10
          extract_lets +onlyGivenNames v11
          try clear_value v11
          extract_lets +onlyGivenNames v12
          have h12 : Onward s v12 := by
            subst v12
            with_reducible refine Onward.trans ?_ (State.txFrame_onward _ _ _)
            assumption
          try clear_value v12
          with_reducible refine Onward.trans ?_ (State.emitOn_onward _ _ _)
          assumption

theorem State.dispatch_onward (s : State) (id : Nat) : Onward s (State.dispatch s id) := by
  unfold State.dispatch
  split
  · exact Onward.refl _
  · split
    · with_reducible refine Onward.trans ?_ (State.helloTo_onward _ _)
      exact Onward.refl _
    · split
      · exact Onward.refl _
      · extract_lets +onlyGivenNames v2
        try clear_value v2
        extract_lets +onlyGivenNames v3
        try clear_value v3
        extract_lets +onlyGivenNames v4
        try clear_value v4
        extract_lets +onlyGivenNames v5
        have h5 : Onward s v5 := by
          subst v5
          with_reducible refine Onward.trans ?_ (State.setSession_onward _ _)
          exact Onward.refl _
        try clear_value v5
        extract_lets +onlyGivenNames v7
        try clear_value v7
        extract_lets +onlyGivenNames v8
        try clear_value v8
        extract_lets +onlyGivenNames v9
        have h9 : Onward s v9 := by
          subst v9
          refine Onward.upd ?_ rfl
          assumption
        try clear_value v9
        with_reducible refine Onward.trans ?_ (State.send_onward _ _ _ _ _)
        assumption

theorem State.peerCmd_onward (s : State) (member : Nat) (opcode : Nat) (ns : Nat) (gen : Nat) (cls : Nat) (params : Bytes) (key : Bytes) (value : Bytes) (f : PeerMsg → PeerMsg) : Onward s (State.peerCmd s member opcode ns gen cls params key value f) := by
  unfold State.peerCmd
  extract_lets +onlyGivenNames v1
  try clear_value v1
  extract_lets +onlyGivenNames v2
  try clear_value v2
  extract_lets +onlyGivenNames v3
  try clear_value v3
  extract_lets +onlyGivenNames v4
  try clear_value v4
  extract_lets +onlyGivenNames v5
  have h5 : Onward s v5 := by
    subst v5
    refine Onward.upd ?_ rfl
    exact Onward.refl _
  try clear_value v5
  with_reducible refine Onward.trans ?_ (State.dispatch_onward _ _)
  assumption

theorem State.dropMsg_onward (s : State) (id : Nat) : Onward s (State.dropMsg s id) := by
  unfold State.dropMsg
  with_reducible refine Onward.trans ?_ (State.stirred_onward _)
  refine Onward.upd ?_ rfl
  exact Onward.refl _

theorem State.onMsg_onward (s : State) (id : Nat) (f : PeerMsg → PeerMsg) : Onward s (State.onMsg s id f) := by
  unfold State.onMsg
  refine Onward.upd ?_ rfl
  exact Onward.refl _

theorem State.tagAnswered_onward (s : State) (sid : Nat) (tag : Nat) (inc : Nat) : Onward s (State.tagAnswered s sid tag inc) := by
  unfold State.tagAnswered
  with_reducible refine Onward.trans ?_ (State.onSession_onward _ _ _)
  exact Onward.refl _

theorem State.dispatchAll_onward (s : State) (m : Nat) : Onward s (State.dispatchAll s m) := by
  unfold State.dispatchAll
  refine Onward.trans ?_ (Onward.foldl (fun z1 y1 => ?_) _ _)
  · exact Onward.refl _
  · with_reducible refine Onward.trans ?_ (State.dispatch_onward _ _)
    exact Onward.refl _

theorem State.peerReply_onward (s : State) (r : PeerReply) : Onward s (State.peerReply s r).1 := by
  unfold State.peerReply
  refine Onward.ite_fst ?_ ?_
  · refine Onward.fst_mk ?_
    exact Onward.refl _
  · split
    · refine Onward.fst_mk ?_
      refine Onward.trans ?_ (State.receive_onward_eq (by assumption))
      exact Onward.refl _
    · refine Onward.ite_fst ?_ ?_
      · refine Onward.fst_mk ?_
        with_reducible refine Onward.trans ?_ (State.ackIfDue_onward _ _)
        with_reducible refine Onward.trans ?_ (State.bump_onward _ _)
        refine Onward.trans ?_ (State.receive_onward_eq (by assumption))
        exact Onward.refl _
      · extract_lets +onlyGivenNames v3
        try clear_value v3
        refine Onward.ite_fst ?_ ?_
        · refine Onward.fst_mk ?_
          with_reducible refine Onward.trans ?_ (State.ackIfDue_onward _ _)
          with_reducible refine Onward.trans ?_ (State.bump_onward _ _)
          refine Onward.trans ?_ (State.receive_onward_eq (by assumption))
          exact Onward.refl _
        · extract_lets +onlyGivenNames v6
          have h6 : Onward s v6 := by
            subst v6
            with_reducible refine Onward.trans ?_ (State.tagAnswered_onward _ _ _ _)
            refine Onward.trans ?_ (State.receive_onward_eq (by assumption))
            exact Onward.refl _
          try clear_value v6
          extract_lets +onlyGivenNames v8
          have h8 : Onward s v8 := by
            subst v8
            split
            · with_reducible refine Onward.trans ?_ (State.dropMsg_onward _ _)
              assumption
            · assumption
          try clear_value v8
          extract_lets +onlyGivenNames v10
          have h10 : Onward s v10 := by
            subst v10
            with_reducible refine Onward.trans ?_ (State.sendAck_onward _ _ _)
            assumption
          try clear_value v10
          split
          · refine Onward.fst_mk ?_
            with_reducible refine Onward.trans ?_ (State.dispatchAll_onward _ _)
            assumption
          · refine Onward.fst_mk ?_
            assumption
theorem State.peerReply_onward_eq {s : State} {r : PeerReply} {r1 r2} (hres : State.peerReply s r = (r1, r2)) : Onward s r1 := by
  have k := State.peerReply_onward s r
  rw [hres] at k
  exact k

theorem State.sendData_onward (a0 : Nat) (a1 : State) (a2 : Nat) (a3 : Nat) (a4 : Nat) (a5 : Nat) (a6 : Nat) (a7 : Bytes) (a8 : Bool) : Onward a1 (State.sendData a0 a1 a2 a3 a4 a5 a6 a7 a8) := by
  induction a0 generalizing a1 a2 a3 a4 a5 a6 a7 a8 with
  | zero =>
    rw [State.sendData]
    exact Onward.refl _
  | succ n ih =>
    rw [State.sendData]
    split
    · exact Onward.refl _
    · extract_lets +onlyGivenNames v1
      try clear_value v1
      extract_lets +onlyGivenNames v2
      try clear_value v2
      extract_lets +onlyGivenNames v3
      have h3 : Onward a1 v3 := by
        subst v3
        with_reducible refine Onward.trans ?_ (State.send_onward _ _ _ _ _)
        exact Onward.refl _
      try clear_value v3
      refine Onward.ite ?_ ?_
      · assumption
      · refine Onward.trans ?_ (ih ..)
        assumption

end Sys2Proof.Machine
end

