-- ==== Sys2Proof/Laws/OnwardMedia.lean ====
section
/-! SUPPORT. What the operations and meanings of media, stripes, admission and commands in flight do: each only goes onward (Laws/Onward.lean). -/

namespace Sys2Proof.Machine

theorem State.setSb_onward (s : State) (a1 : Superblock) : Onward s (State.setSb s a1) := by
  unfold State.setSb
  extract_lets +onlyGivenNames v1
  try clear_value v1
  extract_lets +onlyGivenNames v2
  try clear_value v2
  refine Onward.upd ?_ rfl
  exact Onward.refl _

theorem State.slcResize_onward (s : State) : Onward s (State.slcResize s) := by
  unfold State.slcResize
  refine Onward.upd ?_ rfl
  exact Onward.refl _

theorem State.slcFollow_onward (s : State) : Onward s (State.slcFollow s) := by
  unfold State.slcFollow
  refine Onward.ite ?_ ?_
  · exact Onward.refl _
  · with_reducible refine Onward.trans ?_ (State.slcResize_onward _)
    exact Onward.refl _

theorem State.setStream_onward (s : State) (a1 : Stream) : Onward s (State.setStream s a1) := by
  unfold State.setStream
  extract_lets +onlyGivenNames v1
  try clear_value v1
  refine Onward.upd ?_ rfl
  exact Onward.refl _

theorem State.journalRec_onward (s : State) (len : Nat) (addr : Nat) (stream : Nat) (units : List UnitId) (b : RecBody) : Onward s (State.journalRec s len addr stream units b) := by
  unfold State.journalRec
  extract_lets +onlyGivenNames v1
  try clear_value v1
  extract_lets +onlyGivenNames v2
  try clear_value v2
  with_reducible refine Onward.trans ?_ (State.addTo_onward _ _ _)
  refine Onward.upd ?_ rfl
  exact Onward.refl _

theorem State.openRaw_onward_eq {s : State} {stream ds : Nat} {r1 : State} {r2 : Superblock}
    (h : State.openRaw s stream ds = some (r1, r2)) : Onward s r1 := by
  unfold State.openRaw at h
  split at h
  · simp at h
  · simp only [Option.some.injEq, Prod.mk.injEq] at h
    rw [← h.1]
    exact (((Onward.upd (.refl s) rfl).trans (State.setSb_onward ..)).trans (State.setStream_onward ..)).trans (State.slcFollow_onward ..)

theorem State.leaveUnit_onward (s : State) (stream : Nat) (u : UnitId) : Onward s (State.leaveUnit s stream u) := by
  unfold State.leaveUnit
  extract_lets +onlyGivenNames v1
  try clear_value v1
  extract_lets +onlyGivenNames v2
  try clear_value v2
  extract_lets +onlyGivenNames v3
  try clear_value v3
  with_reducible refine Onward.trans ?_ (State.setStream_onward _ _)
  exact Onward.refl _

theorem State.moveOn_onward (s : State) (stream : Nat) (u : UnitId) : Onward s (State.moveOn s stream u).1 := by
  unfold State.moveOn
  extract_lets +onlyGivenNames v1
  have h1 : Onward s v1 := by
    subst v1
    with_reducible refine Onward.trans ?_ (State.leaveUnit_onward _ _ _)
    exact Onward.refl _
  try clear_value v1
  refine Onward.ite_fst ?_ ?_
  · refine Onward.fst_mk ?_
    assumption
  · split
    · refine Onward.fst_mk ?_
      refine Onward.trans ?_ (State.openRaw_onward_eq (by assumption))
      assumption
    · refine Onward.fst_mk ?_
      assumption
theorem State.moveOn_onward_eq {s : State} {stream : Nat} {u : UnitId} {r1 r2} (hres : State.moveOn s stream u = (r1, r2)) : Onward s r1 := by
  have k := State.moveOn_onward s stream u
  rw [hres] at k
  exact k

theorem State.afterPart_onward (s : State) (stream : Nat) (u : UnitId) (off : Nat) (cap : Nat) : Onward s (State.afterPart s stream u off cap).1 := by
  unfold State.afterPart
  refine Onward.ite_fst ?_ ?_
  · refine Onward.fst_mk ?_
    with_reducible refine Onward.trans ?_ (State.setStream_onward _ _)
    exact Onward.refl _
  · with_reducible refine Onward.trans ?_ (State.moveOn_onward _ _ _)
    exact Onward.refl _
theorem State.afterPart_onward_eq {s : State} {stream : Nat} {u : UnitId} {off : Nat} {cap : Nat} {r1 r2} (hres : State.afterPart s stream u off cap = (r1, r2)) : Onward s r1 := by
  have k := State.afterPart_onward s stream u off cap
  rw [hres] at k
  exact k

theorem State.fill_onward (a0 : Nat) (a1 : State) (a2 : Nat) (a3 : Option Nat) (a4 : Nat) (a5 : Option Nat) (a6 : List UnitId) (a7 : List Superblock) : Onward a1 (State.fill a0 a1 a2 a3 a4 a5 a6 a7).1 := by
  induction a0 generalizing a1 a2 a3 a4 a5 a6 a7 with
  | zero =>
    rw [State.fill]
    refine Onward.fst_mk ?_
    exact Onward.refl _
  | succ n ih =>
    rw [State.fill]
    split
    · split
      · refine Onward.trans ?_ (ih ..)
        refine Onward.trans ?_ (State.openRaw_onward_eq (by assumption))
        exact Onward.refl _
      · refine Onward.ite_fst ?_ ?_
        · refine Onward.trans ?_ (ih ..)
          exact Onward.refl _
        · refine Onward.trans ?_ (ih ..)
          with_reducible refine Onward.trans ?_ (State.setStream_onward _ _)
          exact Onward.refl _
    · extract_lets +onlyGivenNames v2
      try clear_value v2
      extract_lets +onlyGivenNames v3
      try clear_value v3
      extract_lets +onlyGivenNames v4
      try clear_value v4
      extract_lets +onlyGivenNames v5
      try clear_value v5
      extract_lets +onlyGivenNames v6
      try clear_value v6
      extract_lets +onlyGivenNames v7
      try clear_value v7
      extract_lets +onlyGivenNames v8
      refine Onward.ite_fst ?_ ?_
      · refine Onward.fst_mk ?_
        subst v8
        with_reducible refine Onward.trans ?_ (State.afterPart_onward _ _ _ _ _)
        exact Onward.refl _
      · refine Onward.trans ?_ (ih ..)
        subst v8
        with_reducible refine Onward.trans ?_ (State.afterPart_onward _ _ _ _ _)
        exact Onward.refl _
theorem State.fill_onward_eq {a0 : Nat} {a1 : State} {a2 : Nat} {a3 : Option Nat} {a4 : Nat} {a5 : Option Nat} {a6 : List UnitId} {a7 : List Superblock} {r1 r2} (hres : State.fill a0 a1 a2 a3 a4 a5 a6 a7 = (r1, r2)) : Onward a1 r1 := by
  have k := State.fill_onward a0 a1 a2 a3 a4 a5 a6 a7
  rw [hres] at k
  exact k

theorem State.logSysOpen_onward (s : State) (a1 : Superblock) : Onward s (State.logSysOpen s a1) := by
  unfold State.logSysOpen
  split
  · with_reducible refine Onward.trans ?_ (State.journalRec_onward _ _ _ _ _ _)
    exact Onward.refl _
  · with_reducible refine Onward.trans ?_ (State.journalRec_onward _ _ _ _ _ _)
    exact Onward.refl _

theorem State.journal_onward (s : State) (len : Nat) (b : RecBody) : Onward s (State.journal s len b) := by
  unfold State.journal
  split
  with_reducible refine Onward.trans ?_ (State.journalRec_onward _ _ _ _ _ _)
  refine Onward.trans ?_ (Onward.foldl (fun z2 y2 => ?_) _ _)
  · refine Onward.trans ?_ (State.fill_onward_eq (by assumption))
    exact Onward.refl _
  · with_reducible refine Onward.trans ?_ (State.logSysOpen_onward _ _)
    exact Onward.refl _

theorem State.logOpens_onward (s : State) (l : List Superblock) : Onward s (State.logOpens s l) := by
  unfold State.logOpens
  refine Onward.trans ?_ (Onward.foldl (fun z1 y1 => ?_) _ _)
  · exact Onward.refl _
  · refine Onward.ite ?_ ?_
    · with_reducible refine Onward.trans ?_ (State.logSysOpen_onward _ _)
      exact Onward.refl _
    · with_reducible refine Onward.trans ?_ (State.journal_onward _ _ _)
      exact Onward.refl _

theorem State.openAll_onward (s : State) : Onward s (State.openAll s) := by
  unfold State.openAll
  extract_lets +onlyGivenNames v1
  try clear_value v1
  refine Onward.trans ?_ (Onward.foldl (fun z2 y2 => ?_) _ _)
  · exact Onward.refl _
  · refine Onward.ite ?_ ?_
    · exact Onward.refl _
    · split
      · with_reducible refine Onward.trans ?_ (State.logOpens_onward _ _)
        refine Onward.trans ?_ (State.openRaw_onward_eq (by assumption))
        exact Onward.refl _
      · exact Onward.refl _

theorem State.append_onward (s : State) (stream : Nat) (len : Nat) (b : RecBody) (pin : optParam (Option Nat) none) : Onward s (State.append s stream len b pin).1 := by
  unfold State.append
  split
  extract_lets +onlyGivenNames v1
  have h1 : Onward s v1 := by
    subst v1
    with_reducible refine Onward.trans ?_ (State.logOpens_onward _ _)
    refine Onward.trans ?_ (State.fill_onward_eq (by assumption))
    exact Onward.refl _
  try clear_value v1
  extract_lets +onlyGivenNames v3
  try clear_value v3
  refine Onward.fst_mk ?_
  refine Onward.upd ?_ rfl
  assumption
theorem State.append_onward_eq {s : State} {stream : Nat} {len : Nat} {b : RecBody} {pin : optParam (Option Nat) none} {r1 r2} (hres : State.append s stream len b pin = (r1, r2)) : Onward s r1 := by
  have k := State.append_onward s stream len b pin
  rw [hres] at k
  exact k

theorem State.logged_onward (s : State) (a : Nat) : Onward s (State.logged s a) := by
  unfold State.logged
  refine Onward.upd ?_ rfl
  exact Onward.refl _

theorem State.sbTo_onward (s : State) (ds : Nat) (sb : Nat) (st : SbState) : Onward s (State.sbTo s ds sb st) := by
  unfold State.sbTo
  split
  · refine Onward.ite ?_ ?_
    · exact Onward.refl _
    · extract_lets +onlyGivenNames v1
      have h1 : Onward s v1 := by
        subst v1
        with_reducible refine Onward.trans ?_ (State.journal_onward _ _ _)
        exact Onward.refl _
      try clear_value v1
      extract_lets +onlyGivenNames v3
      try clear_value v3
      with_reducible refine Onward.trans ?_ (State.setSb_onward _ _)
      assumption
  · exact Onward.refl _

theorem State.closeFull_onward (s : State) (ds : Nat) (sb : Nat) : Onward s (State.closeFull s ds sb) := by
  unfold State.closeFull
  split
  · refine Onward.ite ?_ ?_
    · with_reducible refine Onward.trans ?_ (State.sbTo_onward _ _ _ _)
      exact Onward.refl _
    · exact Onward.refl _
  · exact Onward.refl _

theorem State.checkWrap_onward (s : State) : Onward s (State.checkWrap s) := by
  unfold State.checkWrap
  refine Onward.ite ?_ ?_
  · with_reducible refine Onward.trans ?_ (State.event_onward _ _ _)
    refine Onward.upd ?_ rfl
    exact Onward.refl _
  · exact Onward.refl _

theorem State.useCounter_onward (s : State) (n : Nat) : Onward s (State.useCounter s n) := by
  unfold State.useCounter
  extract_lets +onlyGivenNames v1
  extract_lets +onlyGivenNames v2
  have h2 : Onward s v2 := by
    subst v2
    with_reducible refine Onward.trans ?_ (State.checkWrap_onward _)
    refine Onward.upd ?_ rfl
    exact Onward.refl _
  extract_lets +onlyGivenNames v4
  refine Onward.ite ?_ ?_
  · with_reducible refine Onward.trans ?_ (State.journal_onward _ _ _)
    refine Onward.upd ?_ rfl
    assumption
  · assumption

theorem State.putImage_onward (s : State) (a1 : UnitImage) : Onward s (State.putImage s a1) := by
  unfold State.putImage
  refine Onward.upd ?_ rfl
  exact Onward.refl _

theorem State.rowCheck_onward (s : State) (ds : Nat) (sb : Nat) (wl : Nat) : Onward s (State.rowCheck s ds sb wl) := by
  unfold State.rowCheck
  split
  · exact Onward.refl _
  · split
    · exact Onward.refl _
    · refine Onward.ite ?_ ?_
      · extract_lets +onlyGivenNames v1
        have h1 : Onward s v1 := by
          subst v1
          with_reducible refine Onward.trans ?_ (State.putImage_onward _ _)
          with_reducible refine Onward.trans ?_ (State.setSb_onward _ _)
          exact Onward.refl _
        try clear_value v1
        refine Onward.ite ?_ ?_
        · assumption
        · refine Onward.upd ?_ rfl
          assumption
      · exact Onward.refl _

theorem State.rowUnit_onward (s : State) (u : UnitId) (pages : List Bytes) : Onward s (State.rowUnit s u pages) := by
  unfold State.rowUnit
  split
  · exact Onward.refl _
  · extract_lets +onlyGivenNames v1
    try clear_value v1
    extract_lets +onlyGivenNames v2
    try clear_value v2
    with_reducible refine Onward.trans ?_ (State.rowCheck_onward _ _ _ _)
    with_reducible refine Onward.trans ?_ (State.setSb_onward _ _)
    exact Onward.refl _

theorem State.settleUnit_onward (s : State) (u : UnitId) : Onward s (State.settleUnit s u).1 := by
  unfold State.settleUnit
  extract_lets +onlyGivenNames v1
  try clear_value v1
  extract_lets +onlyGivenNames v2
  try clear_value v2
  refine Onward.fst_mk ?_
  with_reducible refine Onward.trans ?_ (State.stirred_onward _)
  refine Onward.upd ?_ rfl
  exact Onward.refl _
theorem State.settleUnit_onward_eq {s : State} {u : UnitId} {r1 r2} (hres : State.settleUnit s u = (r1, r2)) : Onward s r1 := by
  have k := State.settleUnit_onward s u
  rw [hres] at k
  exact k

theorem State.unitDone_onward (s : State) (u : UnitId) (flush : optParam Bool false) : Onward s (State.unitDone s u flush).1 := by
  unfold State.unitDone
  extract_lets +onlyGivenNames v1
  try clear_value v1
  extract_lets +onlyGivenNames v2
  try clear_value v2
  extract_lets +onlyGivenNames v3
  have h3 : Onward s v3 := by
    subst v3
    with_reducible refine Onward.trans ?_ (State.putImage_onward _ _)
    exact Onward.refl _
  try clear_value v3
  extract_lets +onlyGivenNames v5
  extract_lets +onlyGivenNames v6
  have h6 : Onward s v6 := by
    subst v6
    refine Onward.ite ?_ ?_
    · with_reducible refine Onward.trans ?_ (State.logOpens_onward _ _)
      subst v5
      with_reducible refine Onward.trans ?_ (State.moveOn_onward _ _ _)
      assumption
    · assumption
  try clear_value v6
  split
  extract_lets +onlyGivenNames v8
  try clear_value v8
  extract_lets +onlyGivenNames v9
  have h9 : Onward s v9 := by
    subst v9
    refine Onward.upd ?_ rfl
    refine Onward.trans ?_ (State.settleUnit_onward_eq (by assumption))
    assumption
  try clear_value v9
  extract_lets +onlyGivenNames v10
  try clear_value v10
  extract_lets +onlyGivenNames v11
  have h11 : Onward s v11 := by
    subst v11
    refine Onward.upd ?_ rfl
    assumption
  try clear_value v11
  extract_lets +onlyGivenNames v12
  try clear_value v12
  extract_lets +onlyGivenNames v13
  have h13 : Onward s v13 := by
    subst v13
    refine Onward.upd ?_ rfl
    assumption
  try clear_value v13
  extract_lets +onlyGivenNames v14
  have h14 : Onward s v14 := by
    subst v14
    with_reducible refine Onward.trans ?_ (State.useCounter_onward _ _)
    with_reducible refine Onward.trans ?_ (State.rowUnit_onward _ _ _)
    assumption
  try clear_value v14
  refine Onward.fst_mk ?_
  with_reducible refine Onward.trans ?_ (State.closeFull_onward _ _ _)
  assumption
theorem State.unitDone_onward_eq {s : State} {u : UnitId} {flush : optParam Bool false} {r1 r2} (hres : State.unitDone s u flush = (r1, r2)) : Onward s r1 := by
  have k := State.unitDone_onward s u flush
  rw [hres] at k
  exact k

theorem State.logCommit_onward (s : State) (c : CommitRec) (inst : Nat) (loc : Nat) : Onward s (State.logCommit s c inst loc) := by
  unfold State.logCommit
  with_reducible refine Onward.trans ?_ (State.logged_onward _ _)
  with_reducible refine Onward.trans ?_ (State.journal_onward _ _ _)
  exact Onward.refl _

theorem State.logFrag_onward (s : State) (f : Frag) (st : Nat) (complete : Bool) : Onward s (State.logFrag s f st complete) := by
  unfold State.logFrag
  with_reducible refine Onward.trans ?_ (State.logged_onward _ _)
  with_reducible refine Onward.trans ?_ (State.journal_onward _ _ _)
  exact Onward.refl _

theorem State.sbTouched_onward (s : State) (a : Nat) : Onward s (State.sbTouched s a) := by
  unfold State.sbTouched
  split
  · exact Onward.refl _
  · refine Onward.trans ?_ (Onward.foldl (fun z1 y1 => ?_) _ _)
    · exact Onward.refl _
    · split
      · with_reducible refine Onward.trans ?_ (State.setSb_onward _ _)
        exact Onward.refl _
      · exact Onward.refl _

theorem State.remap_onward (s : State) (r : MediaRec) (new : Nat) : Onward s (State.remap s r new) := by
  unfold State.remap
  extract_lets +onlyGivenNames v1
  try clear_value v1
  split
  · refine Onward.upd ?_ rfl
    exact Onward.refl _
  · refine Onward.upd ?_ rfl
    exact Onward.refl _
  · refine Onward.upd ?_ rfl
    exact Onward.refl _
  · refine Onward.upd ?_ rfl
    exact Onward.refl _
  · exact Onward.refl _

theorem State.reappend_onward (s : State) (r : MediaRec) (stream : Nat) : Onward s (State.reappend s r stream) := by
  unfold State.reappend
  extract_lets +onlyGivenNames v1
  try clear_value v1
  split
  extract_lets +onlyGivenNames v2
  have h2 : Onward s v2 := by
    subst v2
    with_reducible refine Onward.trans ?_ (State.logOpens_onward _ _)
    refine Onward.trans ?_ (State.fill_onward_eq (by assumption))
    exact Onward.refl _
  try clear_value v2
  extract_lets +onlyGivenNames v4
  try clear_value v4
  extract_lets +onlyGivenNames v5
  have h5 : Onward s v5 := by
    subst v5
    refine Onward.upd ?_ rfl
    assumption
  try clear_value v5
  refine Onward.ite ?_ ?_
  · assumption
  · with_reducible refine Onward.trans ?_ (State.remap_onward _ _ _)
    assumption

theorem State.holdupRecheck_onward (s : State) : Onward s (State.holdupRecheck s) := by
  unfold State.holdupRecheck
  extract_lets +onlyGivenNames v1
  try clear_value v1
  extract_lets +onlyGivenNames v2
  try clear_value v2
  refine Onward.ite ?_ ?_
  · exact Onward.refl _
  · extract_lets +onlyGivenNames v3
    try clear_value v3
    refine Onward.ite ?_ ?_
    · exact Onward.refl _
    · with_reducible refine Onward.trans ?_ (State.event_onward _ _ _)
      refine Onward.upd ?_ rfl
      exact Onward.refl _

theorem State.copyRec_onward (s : State) (ds : Nat) (sb : Nat) (r : MediaRec) (stream : Nat) : Onward s (State.copyRec s ds sb r stream) := by
  unfold State.copyRec
  split
  extract_lets +onlyGivenNames v1
  have h1 : Onward s v1 := by
    subst v1
    with_reducible refine Onward.trans ?_ (State.logOpens_onward _ _)
    refine Onward.trans ?_ (State.fill_onward_eq (by assumption))
    exact Onward.refl _
  try clear_value v1
  extract_lets +onlyGivenNames v3
  try clear_value v3
  with_reducible refine Onward.trans ?_ (State.addTo_onward _ _ _)
  refine Onward.upd ?_ rfl
  assumption

theorem State.relocate_onward (s : State) (a1 : Superblock) : Onward s (State.relocate s a1) := by
  unfold State.relocate
  extract_lets +onlyGivenNames v1
  have h1 : Onward s v1 := by
    subst v1
    with_reducible refine Onward.trans ?_ (State.bump_onward _ _)
    with_reducible refine Onward.trans ?_ (State.sbTo_onward _ _ _ _)
    exact Onward.refl _
  try clear_value v1
  extract_lets +onlyGivenNames v4
  try clear_value v4
  extract_lets +onlyGivenNames v5
  try clear_value v5
  refine Onward.trans ?_ (Onward.foldl (fun z6 y6 => ?_) _ _)
  · assumption
  · with_reducible refine Onward.trans ?_ (State.copyRec_onward _ _ _ _ _)
    exact Onward.refl _

theorem State.pendErase_onward (s : State) : Onward s (State.pendErase s) := by
  unfold State.pendErase
  refine Onward.trans ?_ (Onward.foldl (fun z1 y1 => ?_) _ _)
  · exact Onward.refl _
  · refine Onward.ite ?_ ?_
    · with_reducible refine Onward.trans ?_ (State.sbTo_onward _ _ _ _)
      exact Onward.refl _
    · exact Onward.refl _

theorem State.newDir_onward (s : State) (ds : Nat) (sb : Nat) (i : StripeId) (n : Nat) : Onward s (State.newDir s ds sb i n) := by
  unfold State.newDir
  split
  · refine Onward.ite ?_ ?_
    · exact Onward.refl _
    · extract_lets +onlyGivenNames v1
      try clear_value v1
      split
      refine Onward.upd ?_ rfl
      refine Onward.trans ?_ (State.append_onward_eq (by assumption))
      exact Onward.refl _
  · exact Onward.refl _

theorem State.moveBatch_onward (s : State) (ds : Nat) (sb : Nat) (l : List Move) : Onward s (State.moveBatch s ds sb l) := by
  unfold State.moveBatch
  extract_lets +onlyGivenNames v1
  try clear_value v1
  extract_lets +onlyGivenNames v2
  try clear_value v2
  extract_lets +onlyGivenNames v3
  try clear_value v3
  extract_lets +onlyGivenNames v4
  try clear_value v4
  extract_lets +onlyGivenNames v5
  have h5 : Onward s v5 := by
    subst v5
    refine Onward.ite ?_ ?_
    · exact Onward.refl _
    · with_reducible refine Onward.trans ?_ (State.journal_onward _ _ _)
      exact Onward.refl _
  try clear_value v5
  extract_lets +onlyGivenNames v7
  have h7 : Onward s v7 := by
    subst v7
    refine Onward.trans ?_ (Onward.foldl (fun z8 y8 => ?_) _ _)
    · assumption
    · split
      · with_reducible refine Onward.trans ?_ (State.remap_onward _ _ _)
        exact Onward.refl _
      · exact Onward.refl _
  try clear_value v7
  extract_lets +onlyGivenNames v10
  try clear_value v10
  extract_lets +onlyGivenNames v11
  have h11 : Onward s v11 := by
    subst v11
    refine Onward.upd ?_ rfl
    assumption
  try clear_value v11
  extract_lets +onlyGivenNames v12
  have h12 : Onward s v12 := by
    subst v12
    with_reducible refine Onward.trans ?_ (State.stirred_onward _)
    refine Onward.trans ?_ (Onward.foldl (fun z14 y14 => ?_) _ _)
    · assumption
    · with_reducible refine Onward.trans ?_ (State.newDir_onward _ _ _ _ _)
      exact Onward.refl _
  try clear_value v12
  split
  · with_reducible refine Onward.trans ?_ (State.setSb_onward _ _)
    assumption
  · assumption

theorem State.moveLogs_onward (a0 : Nat) (a1 : State) : Onward a1 (State.moveLogs a0 a1) := by
  induction a0 generalizing a1 with
  | zero =>
    rw [State.moveLogs]
    exact Onward.refl _
  | succ n ih =>
    rw [State.moveLogs]
    split
    · exact Onward.refl _
    · extract_lets +onlyGivenNames v1
      try clear_value v1
      refine Onward.trans ?_ (ih ..)
      with_reducible refine Onward.trans ?_ (State.moveBatch_onward _ _ _ _)
      exact Onward.refl _

theorem State.startCycle_onward (s : State) : Onward s (State.startCycle s) := by
  unfold State.startCycle
  split
  · exact Onward.refl _
  · extract_lets +onlyGivenNames v1
    try clear_value v1
    extract_lets +onlyGivenNames v2
    try clear_value v2
    refine Onward.upd ?_ rfl
    exact Onward.refl _

theorem State.checkShort_onward (s : State) : Onward s (State.checkShort s) := by
  unfold State.checkShort
  refine Onward.trans ?_ (Onward.foldl (fun z1 y1 => ?_) _ _)
  · exact Onward.refl _
  · refine Onward.ite ?_ ?_
    · exact Onward.refl _
    · extract_lets +onlyGivenNames v2
      try clear_value v2
      extract_lets +onlyGivenNames v3
      try clear_value v3
      extract_lets +onlyGivenNames v4
      try clear_value v4
      refine Onward.ite ?_ ?_
      · with_reducible refine Onward.trans ?_ (State.startCycle_onward _)
        with_reducible refine Onward.trans ?_ (State.event_onward _ _ _)
        refine Onward.upd ?_ rfl
        exact Onward.refl _
      · refine Onward.ite ?_ ?_
        · refine Onward.upd ?_ rfl
          exact Onward.refl _
        · exact Onward.refl _

theorem State.retireBlock_onward (s : State) (ds : Nat) (slot : Nat) (b : Nat) (reason : Nat) : Onward s (State.retireBlock s ds slot b reason) := by
  unfold State.retireBlock
  refine Onward.ite ?_ ?_
  · exact Onward.refl _
  · extract_lets +onlyGivenNames v1
    try clear_value v1
    extract_lets +onlyGivenNames v2
    have h2 : Onward s v2 := by
      subst v2
      refine Onward.upd ?_ rfl
      exact Onward.refl _
    try clear_value v2
    extract_lets +onlyGivenNames v3
    have h3 : Onward s v3 := by
      subst v3
      with_reducible refine Onward.trans ?_ (State.event_onward _ _ _)
      with_reducible refine Onward.trans ?_ (State.bump_onward _ _)
      with_reducible refine Onward.trans ?_ (State.journal_onward _ _ _)
      assumption
    try clear_value v3
    refine Onward.ite ?_ ?_
    · assumption
    · split
      · refine Onward.ite ?_ ?_
        · with_reducible refine Onward.trans ?_ (State.sbTo_onward _ _ _ _)
          assumption
        · assumption
      · with_reducible refine Onward.trans ?_ (State.setSb_onward _ _)
        assumption

theorem State.force_onward (s : State) (ds : Nat) (sb : Nat) (reason : Nat) : Onward s (State.force s ds sb reason) := by
  unfold State.force
  split
  · refine Onward.ite ?_ ?_
    · with_reducible refine Onward.trans ?_ (State.setSb_onward _ _)
      exact Onward.refl _
    · exact Onward.refl _
  · exact Onward.refl _

theorem State.closeEarly_onward (s : State) (ds : Nat) (sb : Nat) : Onward s (State.closeEarly s ds sb) := by
  unfold State.closeEarly
  extract_lets +onlyGivenNames v1
  try clear_value v1
  extract_lets +onlyGivenNames v2
  try clear_value v2
  extract_lets +onlyGivenNames v3
  have h3 : Onward s v3 := by
    subst v3
    refine Onward.upd ?_ rfl
    exact Onward.refl _
  try clear_value v3
  with_reducible refine Onward.trans ?_ (State.sbTo_onward _ _ _ _)
  assumption

theorem State.rebuildUnits_onward (s : State) (on : UnitId → Bool) : Onward s (State.rebuildUnits s on) := by
  unfold State.rebuildUnits
  extract_lets +onlyGivenNames v1
  try clear_value v1
  extract_lets +onlyGivenNames v2
  try clear_value v2
  extract_lets +onlyGivenNames v3
  try clear_value v3
  extract_lets +onlyGivenNames v4
  try clear_value v4
  extract_lets +onlyGivenNames v5
  have h5 : Onward s v5 := by
    subst v5
    refine Onward.upd ?_ rfl
    exact Onward.refl _
  try clear_value v5
  extract_lets +onlyGivenNames v6
  try clear_value v6
  extract_lets +onlyGivenNames v7
  have h7 : Onward s v7 := by
    subst v7
    refine Onward.trans ?_ (Onward.foldl (fun z8 y8 => ?_) _ _)
    · assumption
    · with_reducible refine Onward.trans ?_ (State.event_onward _ _ _)
      with_reducible refine Onward.trans ?_ (State.bump_onward _ _)
      exact Onward.refl _
  try clear_value v7
  refine Onward.trans ?_ (Onward.foldl (fun z11 y11 => ?_) _ _)
  · assumption
  · split
    · with_reducible refine Onward.trans ?_ (State.copyRec_onward _ _ _ _ _)
      exact Onward.refl _
    · exact Onward.refl _

theorem State.reopen_onward (s : State) (stream : Nat) (ds : Nat) : Onward s (State.reopen s stream ds) := by
  unfold State.reopen
  refine Onward.ite ?_ ?_
  · exact Onward.refl _
  · split
    · with_reducible refine Onward.trans ?_ (State.logOpens_onward _ _)
      refine Onward.trans ?_ (State.openRaw_onward_eq (by assumption))
      exact Onward.refl _
    · exact Onward.refl _

theorem State.evacuate_onward (s : State) (ds : Nat) (sb : Nat) : Onward s (State.evacuate s ds sb) := by
  unfold State.evacuate
  extract_lets +onlyGivenNames v1
  try clear_value v1
  extract_lets +onlyGivenNames v2
  have h2 : Onward s v2 := by
    subst v2
    refine Onward.trans ?_ (Onward.foldl (fun z3 y3 => ?_) _ _)
    · with_reducible refine Onward.trans ?_ (State.closeEarly_onward _ _ _)
      exact Onward.refl _
    · with_reducible refine Onward.trans ?_ (State.reopen_onward _ _ _)
      exact Onward.refl _
  try clear_value v2
  extract_lets +onlyGivenNames v6
  try clear_value v6
  refine Onward.trans ?_ (Onward.foldl (fun z7 y7 => ?_) _ _)
  · assumption
  · with_reducible refine Onward.trans ?_ (State.reappend_onward _ _ _)
    exact Onward.refl _

theorem State.skipSlot_onward (s : State) (a1 : Superblock) (slot : Nat) : Onward s (State.skipSlot s a1 slot) := by
  unfold State.skipSlot
  extract_lets +onlyGivenNames v1
  have h1 : Onward s v1 := by
    subst v1
    with_reducible refine Onward.trans ?_ (State.setSb_onward _ _)
    exact Onward.refl _
  try clear_value v1
  extract_lets +onlyGivenNames v3
  try clear_value v3
  extract_lets +onlyGivenNames v4
  have h4 : Onward s v4 := by
    subst v4
    refine Onward.trans ?_ (Onward.foldl (fun z5 y5 => ?_) _ _)
    · assumption
    · extract_lets +onlyGivenNames v6
      with_reducible refine Onward.trans ?_ (State.logOpens_onward _ _)
      subst v6
      with_reducible refine Onward.trans ?_ (State.moveOn_onward _ _ _)
      exact Onward.refl _
  try clear_value v4
  extract_lets +onlyGivenNames v8
  have h8 : Onward s v8 := by
    subst v8
    refine Onward.trans ?_ (Onward.foldl (fun z9 y9 => ?_) _ _)
    · assumption
    · with_reducible refine Onward.trans ?_ (State.reappend_onward _ _ _)
      exact Onward.refl _
  try clear_value v8
  refine Onward.trans ?_ (Onward.foldl (fun z11 y11 => ?_) _ _)
  · assumption
  · with_reducible refine Onward.trans ?_ (State.rowCheck_onward _ _ _ _)
    exact Onward.refl _

theorem State.evacuateSlot_onward (s : State) (ds : Nat) (slot : Nat) : Onward s (State.evacuateSlot s ds slot) := by
  unfold State.evacuateSlot
  refine Onward.trans ?_ (Onward.foldl (fun z1 y1 => ?_) _ _)
  · exact Onward.refl _
  · refine Onward.ite ?_ ?_
    · with_reducible refine Onward.trans ?_ (State.evacuate_onward _ _ _)
      exact Onward.refl _
    · with_reducible refine Onward.trans ?_ (State.skipSlot_onward _ _ _)
      exact Onward.refl _

theorem State.retireDie_onward (s : State) (ds : Nat) (slot : Nat) (reason : Nat) : Onward s (State.retireDie s ds slot reason) := by
  unfold State.retireDie
  refine Onward.ite ?_ ?_
  · exact Onward.refl _
  · extract_lets +onlyGivenNames v1
    extract_lets +onlyGivenNames v2
    have h2 : Onward s v2 := by
      subst v2
      refine Onward.upd ?_ rfl
      exact Onward.refl _
    extract_lets +onlyGivenNames v3
    extract_lets +onlyGivenNames v4
    have h4 : Onward s v4 := by
      subst v4
      with_reducible refine Onward.trans ?_ (State.journal_onward _ _ _)
      with_reducible refine Onward.trans ?_ (State.eventEmcy_onward _ _ _ _ _)
      assumption
    try clear_value v4
    extract_lets +onlyGivenNames v7
    have h7 : Onward s v7 := by
      subst v7
      with_reducible refine Onward.trans ?_ (State.rebuildUnits_onward _ _)
      with_reducible refine Onward.trans ?_ (State.evacuateSlot_onward _ _ _)
      assumption
    try clear_value v7
    extract_lets +onlyGivenNames v10
    try clear_value v10
    extract_lets +onlyGivenNames v11
    have h11 : Onward s v11 := by
      subst v11
      refine Onward.upd ?_ rfl
      assumption
    try clear_value v11
    extract_lets +onlyGivenNames v12
    have h12 : Onward s v12 := by
      subst v12
      refine Onward.trans ?_ (Onward.foldl (fun z13 y13 => ?_) _ _)
      · assumption
      · with_reducible refine Onward.trans ?_ (State.evacuate_onward _ _ _)
        exact Onward.refl _
    try clear_value v12
    extract_lets +onlyGivenNames v15
    have h15 : Onward s v15 := by
      subst v15
      refine Onward.ite ?_ ?_
      · with_reducible refine Onward.trans ?_ (State.rebuildUnits_onward _ _)
        with_reducible refine Onward.trans ?_ (State.journal_onward _ _ _)
        assumption
      · assumption
    try clear_value v15
    with_reducible refine Onward.trans ?_ (State.holdupRecheck_onward _)
    assumption

theorem State.checkDieBlocks_onward (s : State) (ds : Nat) (slot : Nat) : Onward s (State.checkDieBlocks s ds slot) := by
  unfold State.checkDieBlocks
  extract_lets +onlyGivenNames v1
  try clear_value v1
  extract_lets +onlyGivenNames v2
  try clear_value v2
  refine Onward.ite ?_ ?_
  · with_reducible refine Onward.trans ?_ (State.retireDie_onward _ _ _ _)
    exact Onward.refl _
  · exact Onward.refl _

theorem State.retireCondemned_onward (s : State) : Onward s (State.retireCondemned s) := by
  unfold State.retireCondemned
  refine Onward.trans ?_ (Onward.foldl (fun z1 y1 => ?_) _ _)
  · exact Onward.refl _
  · extract_lets +onlyGivenNames v2
    have h2 : Onward z1 v2 := by
      subst v2
      split
      · with_reducible refine Onward.trans ?_ (State.setSb_onward _ _)
        exact Onward.refl _
      · exact Onward.refl _
    try clear_value v2
    refine Onward.trans ?_ (Onward.foldl (fun z4 y4 => ?_) _ _)
    · assumption
    · with_reducible refine Onward.trans ?_ (State.checkDieBlocks_onward _ _ _)
      with_reducible refine Onward.trans ?_ (State.retireBlock_onward _ _ _ _ _)
      exact Onward.refl _

theorem State.suspendOp_onward (s : State) (o : ArrayOp) (at_ : Nat) : Onward s (State.suspendOp s o at_) := by
  unfold State.suspendOp
  extract_lets +onlyGivenNames v1
  try clear_value v1
  with_reducible refine Onward.trans ?_ (State.bump_onward _ _)
  refine Onward.upd ?_ rfl
  exact Onward.refl _

theorem State.settleMoves_onward (s : State) : Onward s (State.settleMoves s) := by
  unfold State.settleMoves
  with_reducible refine Onward.trans ?_ (State.retireCondemned_onward _)
  with_reducible refine Onward.trans ?_ (State.pendErase_onward _)
  with_reducible refine Onward.trans ?_ (State.moveLogs_onward _ _)
  exact Onward.refl _

theorem State.setFrag_onward (s : State) (f : Frag) : Onward s (State.setFrag s f) := by
  unfold State.setFrag
  refine Onward.upd ?_ rfl
  exact Onward.refl _

theorem State.userBytes_onward (s : State) (n : Nat) : Onward s (State.userBytes s n) := by
  unfold State.userBytes
  refine Onward.upd ?_ rfl
  exact Onward.refl _

theorem State.addFrag_onward (s : State) (h : FragHdr) (mediaBy : Nat) (raw : optParam Bytes []) : Onward s (State.addFrag s h mediaBy raw) := by
  unfold State.addFrag
  extract_lets +onlyGivenNames v1
  try clear_value v1
  split
  extract_lets +onlyGivenNames v2
  try clear_value v2
  extract_lets +onlyGivenNames v3
  try clear_value v3
  extract_lets +onlyGivenNames v4
  have h4 : Onward s v4 := by
    subst v4
    with_reducible refine Onward.trans ?_ (State.userBytes_onward _ _)
    refine Onward.upd ?_ rfl
    refine Onward.trans ?_ (State.append_onward_eq (by assumption))
    exact Onward.refl _
  try clear_value v4
  with_reducible refine Onward.trans ?_ (State.logFrag_onward _ _ _ _)
  assumption

theorem State.addSlice_onward (s : State) (f : Frag) (seg : Nat) (b : Bytes) (check : Bytes) : Onward s (State.addSlice s f seg b check) := by
  unfold State.addSlice
  extract_lets +onlyGivenNames v1
  try clear_value v1
  extract_lets +onlyGivenNames v2
  try clear_value v2
  split
  extract_lets +onlyGivenNames v3
  try clear_value v3
  extract_lets +onlyGivenNames v4
  have h4 : Onward s v4 := by
    subst v4
    with_reducible refine Onward.trans ?_ (State.userBytes_onward _ _)
    refine Onward.trans ?_ (State.append_onward_eq (by assumption))
    exact Onward.refl _
  try clear_value v4
  refine Onward.ite ?_ ?_
  · with_reducible refine Onward.trans ?_ (State.setFrag_onward _ _)
    assumption
  · refine Onward.ite ?_ ?_
    · extract_lets +onlyGivenNames v7
      try clear_value v7
      with_reducible refine Onward.trans ?_ (State.logFrag_onward _ _ _ _)
      with_reducible refine Onward.trans ?_ (State.setFrag_onward _ _)
      assumption
    · split
      extract_lets +onlyGivenNames v10
      try clear_value v10
      with_reducible refine Onward.trans ?_ (State.logFrag_onward _ _ _ _)
      with_reducible refine Onward.trans ?_ (State.setFrag_onward _ _)
      refine Onward.trans ?_ (State.append_onward_eq (by assumption))
      assumption

theorem State.commitFrag_onward (s : State) (f : Frag) (c : CommitRec) : Onward s (State.commitFrag s f c) := by
  unfold State.commitFrag
  split
  extract_lets +onlyGivenNames v1
  try clear_value v1
  with_reducible refine Onward.trans ?_ (State.logFrag_onward _ _ _ _)
  with_reducible refine Onward.trans ?_ (State.setFrag_onward _ _)
  refine Onward.trans ?_ (State.append_onward_eq (by assumption))
  exact Onward.refl _

theorem State.releaseFrag_onward (s : State) (i : StripeId) (n : Nat) : Onward s (State.releaseFrag s i n) := by
  unfold State.releaseFrag
  split
  · exact Onward.refl _
  · extract_lets +onlyGivenNames v1
    have h1 : Onward s v1 := by
      subst v1
      with_reducible refine Onward.trans ?_ (State.logFrag_onward _ _ _ _)
      exact Onward.refl _
    try clear_value v1
    extract_lets +onlyGivenNames v3
    try clear_value v3
    extract_lets +onlyGivenNames v4
    try clear_value v4
    extract_lets +onlyGivenNames v5
    have h5 : Onward s v5 := by
      subst v5
      refine Onward.upd ?_ rfl
      assumption
    try clear_value v5
    extract_lets +onlyGivenNames v6
    have h6 : Onward s v6 := by
      subst v6
      refine Onward.trans ?_ (Onward.foldl (fun z7 y7 => ?_) _ _)
      · assumption
      · with_reducible refine Onward.trans ?_ (State.sbTouched_onward _ _)
        exact Onward.refl _
    try clear_value v6
    refine Onward.upd ?_ rfl
    assumption

theorem State.sendRelease_onward (s : State) (member : Nat) (i : StripeId) (idx : Nat) (reason : Nat) (cmd : Option (Nat × Nat)) : Onward s (State.sendRelease s member i idx reason cmd) := by
  unfold State.sendRelease
  with_reducible refine Onward.trans ?_ (State.peerCmd_onward _ _ _ _ _ _ _ _ _ _)
  exact Onward.refl _

theorem State.sendCommit_onward (s : State) (member : Nat) (kind : Nat) (idx : Nat) (r : CommitRec) : Onward s (State.sendCommit s member kind idx r) := by
  unfold State.sendCommit
  with_reducible refine Onward.trans ?_ (State.peerCmd_onward _ _ _ _ _ _ _ _ _ _)
  exact Onward.refl _

theorem State.sendDone_onward (s : State) (member : Nat) (epoch : Nat) : Onward s (State.sendDone s member epoch) := by
  unfold State.sendDone
  with_reducible refine Onward.trans ?_ (State.peerCmd_onward _ _ _ _ _ _ _ _ _ _)
  exact Onward.refl _

theorem State.sendPending_onward (s : State) (member : Nat) (f : Frag) : Onward s (State.sendPending s member f) := by
  unfold State.sendPending
  with_reducible refine Onward.trans ?_ (State.peerCmd_onward _ _ _ _ _ _ _ _ _ _)
  exact Onward.refl _

theorem State.sendNs_onward (s : State) (member : Nat) (kind : Nat) (number : Nat) (r : NsRec) (cmd : Option (Nat × Nat)) : Onward s (State.sendNs s member kind number r cmd) := by
  unfold State.sendNs
  with_reducible refine Onward.trans ?_ (State.peerCmd_onward _ _ _ _ _ _ _ _ _ _)
  exact Onward.refl _

theorem State.sendQuery_onward (s : State) (member : Nat) (kind : Nat) (subject : Bytes) (low : Nat) (high : Nat) (f : PeerMsg → PeerMsg) : Onward s (State.sendQuery s member kind subject low high f) := by
  unfold State.sendQuery
  with_reducible refine Onward.trans ?_ (State.peerCmd_onward _ _ _ _ _ _ _ _ _ _)
  exact Onward.refl _

theorem State.askNamespaces_onward (s : State) (m : Nat) : Onward s (State.askNamespaces s m) := by
  unfold State.askNamespaces
  with_reducible refine Onward.trans ?_ (State.sendQuery_onward _ _ _ _ _ _ _)
  exact Onward.refl _

theorem State.sendPut_onward (s : State) (member : Nat) (ns : Nat) (gen : Nat) (cls : Nat) (i : StripeId) (idx : Nat) (seg : Nat) (b : Bytes) (check : Bytes) (f : PeerMsg → PeerMsg) : Onward s (State.sendPut s member ns gen cls i idx seg b check f) := by
  unfold State.sendPut
  with_reducible refine Onward.trans ?_ (State.peerCmd_onward _ _ _ _ _ _ _ _ _ _)
  exact Onward.refl _

theorem State.sendGet_onward (s : State) (member : Nat) (ns : Nat) (gen : Nat) (cls : Nat) (i : StripeId) (idx : Nat) (off : Nat) (len : Nat) (deadline : Nat) (f : PeerMsg → PeerMsg) : Onward s (State.sendGet s member ns gen cls i idx off len deadline f) := by
  unfold State.sendGet
  with_reducible refine Onward.trans ?_ (State.peerCmd_onward _ _ _ _ _ _ _ _ _ _)
  exact Onward.refl _

theorem State.sendReserve_onward (s : State) (member : Nat) (cls : Nat) (h : FragHdr) (f : PeerMsg → PeerMsg) : Onward s (State.sendReserve s member cls h f) := by
  unfold State.sendReserve
  with_reducible refine Onward.trans ?_ (State.peerCmd_onward _ _ _ _ _ _ _ _ _ _)
  exact Onward.refl _

theorem State.releaseStripe_onward (s : State) (r : CommitRec) (reason : Nat) : Onward s (State.releaseStripe s r reason) := by
  unfold State.releaseStripe
  extract_lets +onlyGivenNames v1
  have h1 : Onward s v1 := by
    subst v1
    refine Onward.trans ?_ (Onward.foldl (fun z2 y2 => ?_) _ _)
    · exact Onward.refl _
    · with_reducible refine Onward.trans ?_ (State.sendRelease_onward _ _ _ _ _ _)
      exact Onward.refl _
  try clear_value v1
  extract_lets +onlyGivenNames v4
  have h4 : Onward s v4 := by
    subst v4
    refine Onward.trans ?_ (Onward.foldl (fun z5 y5 => ?_) _ _)
    · assumption
    · with_reducible refine Onward.trans ?_ (State.releaseFrag_onward _ _ _)
      exact Onward.refl _
  try clear_value v4
  refine Onward.upd ?_ rfl
  assumption

theorem State.queueRepair_onward (s : State) (r : CommitRec) (idx : Nat) (rebalance : Bool) : Onward s (State.queueRepair s r idx rebalance) := by
  unfold State.queueRepair
  extract_lets +onlyGivenNames v1
  try clear_value v1
  split
  · exact Onward.refl _
  · refine Onward.ite ?_ ?_
    · exact Onward.refl _
    · refine Onward.ite ?_ ?_
      · extract_lets +onlyGivenNames v2
        try clear_value v2
        extract_lets +onlyGivenNames v3
        try clear_value v3
        refine Onward.upd ?_ rfl
        exact Onward.refl _
      · extract_lets +onlyGivenNames v4
        try clear_value v4
        refine Onward.upd ?_ rfl
        exact Onward.refl _

theorem State.writeCommit_onward (s : State) (r : CommitRec) (inst : Nat) (durable : Bool) (buf : Bool) : Onward s (State.writeCommit s r inst durable buf) := by
  unfold State.writeCommit
  extract_lets +onlyGivenNames v1
  try clear_value v1
  extract_lets +onlyGivenNames v2
  try clear_value v2
  split
  extract_lets +onlyGivenNames v3
  have h3 : Onward s v3 := by
    subst v3
    with_reducible refine Onward.trans ?_ (State.logCommit_onward _ _ _ _)
    with_reducible refine Onward.trans ?_ (State.userBytes_onward _ _)
    refine Onward.trans ?_ (State.append_onward_eq (by assumption))
    exact Onward.refl _
  try clear_value v3
  extract_lets +onlyGivenNames v6
  have h6 : Onward s v6 := by
    subst v6
    split
    · with_reducible refine Onward.trans ?_ (State.sbTouched_onward _ _)
      assumption
    · assumption
  try clear_value v6
  with_reducible refine Onward.trans ?_ (State.indexCommit_onward _ _ _ _ _)
  assumption

theorem State.book_onward (s : State) (o : Owner) (d : Nat) (work : List (Res × Nat)) : Onward s (State.book s o d work) := by
  unfold State.book
  extract_lets +onlyGivenNames v1
  try clear_value v1
  refine Onward.upd ?_ rfl
  exact Onward.refl _

theorem State.unbook_onward (s : State) (o : Owner) : Onward s (State.unbook s o) := by
  unfold State.unbook
  refine Onward.upd ?_ rfl
  exact Onward.refl _

theorem State.countRefusal_onward (s : State) (limiter : Nat) : Onward s (State.countRefusal s limiter) := by
  unfold State.countRefusal
  refine Onward.ite ?_ ?_
  · with_reducible refine Onward.trans ?_ (State.bump_onward _ _)
    exact Onward.refl _
  · refine Onward.ite ?_ ?_
    · with_reducible refine Onward.trans ?_ (State.bump_onward _ _)
      exact Onward.refl _
    · exact Onward.refl _

theorem State.noteFaults_onward (s : State) : Onward s (State.noteFaults s) := by
  unfold State.noteFaults
  extract_lets +onlyGivenNames v1
  try clear_value v1
  extract_lets +onlyGivenNames v2
  try clear_value v2
  refine Onward.ite ?_ ?_
  · exact Onward.refl _
  · extract_lets +onlyGivenNames v3
    try clear_value v3
    extract_lets +onlyGivenNames v4
    try clear_value v4
    extract_lets +onlyGivenNames v5
    have h5 : Onward s v5 := by
      subst v5
      refine Onward.upd ?_ rfl
      exact Onward.refl _
    try clear_value v5
    refine Onward.trans ?_ (Onward.foldl (fun z6 y6 => ?_) _ _)
    · assumption
    · with_reducible refine Onward.trans ?_ (State.event_onward _ _ _)
      exact Onward.refl _

theorem State.setCmd_onward (s : State) (c : CmdCtx) : Onward s (State.setCmd s c) := by
  unfold State.setCmd
  refine Onward.upd ?_ rfl
  exact Onward.refl _

theorem State.onCmd_onward (s : State) (sid : Nat) (tag : Nat) (f : CmdCtx → CmdCtx) : Onward s (State.onCmd s sid tag f) := by
  unfold State.onCmd
  refine Onward.upd ?_ rfl
  exact Onward.refl _

theorem State.closeHeld_onward (s : State) (p : CmdCtx) : Onward s (State.closeHeld s p) := by
  unfold State.closeHeld
  split
  · exact Onward.refl _
  · extract_lets +onlyGivenNames v1
    try clear_value v1
    refine Onward.upd ?_ rfl
    exact Onward.refl _

theorem State.openHeld_onward (s : State) (sid : Nat) (tag : Nat) : Onward s (State.openHeld s sid tag) := by
  unfold State.openHeld
  with_reducible refine Onward.trans ?_ (State.onCmd_onward _ _ _ _)
  exact Onward.refl _

theorem State.sendResp_onward (s : State) (sid : Nat) (path : Nat) (p : CmdPkt) (status : Nat) (body : Bytes) : Onward s (State.sendResp s sid path p status body) := by
  unfold State.sendResp
  with_reducible refine Onward.trans ?_ (State.send_onward _ _ _ _ _)
  exact Onward.refl _

theorem State.endTag_onward (s : State) (sid : Nat) (tag : Nat) : Onward s (State.endTag s sid tag) := by
  unfold State.endTag
  with_reducible refine Onward.trans ?_ (State.onSession_onward _ _ _)
  exact Onward.refl _

theorem State.answer_onward (s : State) (sid : Nat) (path : Nat) (p : CmdPkt) (status : Nat) (body : Bytes) : Onward s (State.answer s sid path p status body) := by
  unfold State.answer
  with_reducible refine Onward.trans ?_ (State.sendResp_onward _ _ _ _ _ _)
  with_reducible refine Onward.trans ?_ (State.endTag_onward _ _ _)
  exact Onward.refl _

theorem State.refuse_onward (s : State) (sid : Nat) (path : Nat) (p : CmdPkt) (retryUs : Nat) (limiter : Nat) : Onward s (State.refuse s sid path p retryUs limiter) := by
  unfold State.refuse
  with_reducible refine Onward.trans ?_ (State.answer_onward _ _ _ _ _ _)
  with_reducible refine Onward.trans ?_ (State.countRefusal_onward _ _)
  exact Onward.refl _

theorem State.dropCmd_onward (s : State) (c : CmdCtx) : Onward s (State.dropCmd s c) := by
  unfold State.dropCmd
  extract_lets +onlyGivenNames v1
  have h1 : Onward s v1 := by
    subst v1
    with_reducible refine Onward.trans ?_ (State.closeHeld_onward _ _)
    exact Onward.refl _
  try clear_value v1
  extract_lets +onlyGivenNames v3
  try clear_value v3
  extract_lets +onlyGivenNames v4
  have h4 : Onward s v4 := by
    subst v4
    refine Onward.upd ?_ rfl
    assumption
  try clear_value v4
  with_reducible refine Onward.trans ?_ (State.stirred_onward _)
  with_reducible refine Onward.trans ?_ (State.unbook_onward _ _)
  assumption

theorem State.finish_onward (s : State) (c : CmdCtx) (status : Nat) (body : Bytes) : Onward s (State.finish s c status body) := by
  unfold State.finish
  extract_lets +onlyGivenNames v1
  try clear_value v1
  extract_lets +onlyGivenNames v2
  have h2 : Onward s v2 := by
    subst v2
    with_reducible refine Onward.trans ?_ (State.dropCmd_onward _ _)
    exact Onward.refl _
  try clear_value v2
  refine Onward.ite ?_ ?_
  · with_reducible refine Onward.trans ?_ (State.endTag_onward _ _ _)
    assumption
  · extract_lets +onlyGivenNames v5
    try clear_value v5
    extract_lets +onlyGivenNames v6
    have h6 : Onward s v6 := by
      subst v6
      refine Onward.ite ?_ ?_
      · refine Onward.upd ?_ rfl
        assumption
      · assumption
    try clear_value v6
    with_reducible refine Onward.trans ?_ (State.answer_onward _ _ _ _ _ _)
    assumption

theorem State.freeWindows_onward (s : State) (c : CmdCtx) : Onward s (State.freeWindows s c) := by
  unfold State.freeWindows
  extract_lets +onlyGivenNames v1
  try clear_value v1
  refine Onward.upd ?_ rfl
  exact Onward.refl _

theorem State.undoWrite_onward (s : State) (c : CmdCtx) (w : WriteCtx) : Onward s (State.undoWrite s c w) := by
  unfold State.undoWrite
  extract_lets +onlyGivenNames v1
  have h1 : Onward s v1 := by
    subst v1
    with_reducible refine Onward.trans ?_ (State.unbook_onward _ _)
    with_reducible refine Onward.trans ?_ (State.freeWindows_onward _ _)
    exact Onward.refl _
  try clear_value v1
  extract_lets +onlyGivenNames v4
  try clear_value v4
  extract_lets +onlyGivenNames v5
  have h5 : Onward s v5 := by
    subst v5
    refine Onward.upd ?_ rfl
    assumption
  try clear_value v5
  extract_lets +onlyGivenNames v6
  have h6 : Onward s v6 := by
    subst v6
    refine Onward.trans ?_ (Onward.foldl (fun z7 y7 => ?_) _ _)
    · assumption
    · refine Onward.ite ?_ ?_
      · with_reducible refine Onward.trans ?_ (State.sendRelease_onward _ _ _ _ _ _)
        exact Onward.refl _
      · exact Onward.refl _
  try clear_value v6
  with_reducible refine Onward.trans ?_ (State.releaseFrag_onward _ _ _)
  assumption

theorem State.abort_onward (s : State) (c : CmdCtx) (status : Nat) (ev : Nat) (answer : Bool) : Onward s (State.abort s c status ev answer) := by
  unfold State.abort
  split
  · extract_lets +onlyGivenNames v1
    have h1 : Onward s v1 := by
      subst v1
      with_reducible refine Onward.trans ?_ (State.undoWrite_onward _ _ _)
      exact Onward.refl _
    try clear_value v1
    refine Onward.ite ?_ ?_
    · with_reducible refine Onward.trans ?_ (State.endTag_onward _ _ _)
      with_reducible refine Onward.trans ?_ (State.dropCmd_onward _ _)
      assumption
    · refine Onward.ite ?_ ?_
      · with_reducible refine Onward.trans ?_ (State.finish_onward _ _ _ _)
        assumption
      · extract_lets +onlyGivenNames v6
        have h6 : Onward s v6 := by
          subst v6
          with_reducible refine Onward.trans ?_ (State.closeHeld_onward _ _)
          assumption
        try clear_value v6
        extract_lets +onlyGivenNames v8
        try clear_value v8
        with_reducible refine Onward.trans ?_ (State.onCmd_onward _ _ _ _)
        assumption
  · extract_lets +onlyGivenNames v10
    have h10 : Onward s v10 := by
      subst v10
      with_reducible refine Onward.trans ?_ (State.freeWindows_onward _ _)
      exact Onward.refl _
    try clear_value v10
    refine Onward.ite ?_ ?_
    · with_reducible refine Onward.trans ?_ (State.endTag_onward _ _ _)
      with_reducible refine Onward.trans ?_ (State.dropCmd_onward _ _)
      assumption
    · with_reducible refine Onward.trans ?_ (State.finish_onward _ _ _ _)
      assumption

theorem State.failRepair_onward (s : State) (m : PeerMsg) : Onward s (State.failRepair s m) := by
  unfold State.failRepair
  split
  · refine Onward.ite ?_ ?_
    · with_reducible refine Onward.trans ?_ (State.queueRepair_onward _ _ _ _)
      exact Onward.refl _
    · exact Onward.refl _
  · exact Onward.refl _

theorem State.memberFails_onward (s : State) (m : Nat) : Onward s (State.memberFails s m) := by
  unfold State.memberFails
  extract_lets +onlyGivenNames v1
  try clear_value v1
  extract_lets +onlyGivenNames v2
  try clear_value v2
  refine Onward.upd ?_ rfl
  exact Onward.refl _

theorem State.peerGone_onward (s : State) (sid : Nat) : Onward s (State.peerGone s sid) := by
  unfold State.peerGone
  split
  · exact Onward.refl _
  · extract_lets +onlyGivenNames v1
    try clear_value v1
    extract_lets +onlyGivenNames v2
    try clear_value v2
    extract_lets +onlyGivenNames v3
    try clear_value v3
    extract_lets +onlyGivenNames v4
    try clear_value v4
    extract_lets +onlyGivenNames v5
    try clear_value v5
    extract_lets +onlyGivenNames v6
    have h6 : Onward s v6 := by
      subst v6
      with_reducible refine Onward.trans ?_ (State.memberFails_onward _ _)
      refine Onward.upd ?_ rfl
      exact Onward.refl _
    try clear_value v6
    refine Onward.trans ?_ (Onward.foldl (fun z8 y8 => ?_) _ _)
    · assumption
    · with_reducible refine Onward.trans ?_ (State.failRepair_onward _ _)
      exact Onward.refl _

theorem State.endSessionCmds_onward (s : State) (sid : Nat) : Onward s (State.endSessionCmds s sid) := by
  unfold State.endSessionCmds
  extract_lets +onlyGivenNames v1
  try clear_value v1
  extract_lets +onlyGivenNames v2
  have h2 : Onward s v2 := by
    subst v2
    refine Onward.trans ?_ (Onward.foldl (fun z3 y3 => ?_) _ _)
    · exact Onward.refl _
    · refine Onward.ite ?_ ?_
      · with_reducible refine Onward.trans ?_ (State.onCmd_onward _ _ _ _)
        exact Onward.refl _
      · with_reducible refine Onward.trans ?_ (State.abort_onward _ _ _ _ _)
        exact Onward.refl _
  try clear_value v2
  with_reducible refine Onward.trans ?_ (State.peerGone_onward _ _)
  assumption

theorem State.closeSession_onward (s : State) (sid : Nat) (reason : Nat) (detail : Nat) : Onward s (State.closeSession s sid reason detail) := by
  unfold State.closeSession
  split
  · exact Onward.refl _
  · refine Onward.ite ?_ ?_
    · exact Onward.refl _
    · refine Onward.ite ?_ ?_
      · with_reducible refine Onward.trans ?_ (State.dropSession_onward _ _)
        exact Onward.refl _
      · extract_lets +onlyGivenNames v2
        have h2 : Onward s v2 := by
          subst v2
          with_reducible refine Onward.trans ?_ (State.endSessionCmds_onward _ _)
          exact Onward.refl _
        try clear_value v2
        extract_lets +onlyGivenNames v4
        try clear_value v4
        extract_lets +onlyGivenNames v5
        have h5 : Onward s v5 := by
          subst v5
          refine Onward.upd ?_ rfl
          assumption
        try clear_value v5
        extract_lets +onlyGivenNames v6
        have h6 : Onward s v6 := by
          subst v6
          with_reducible refine Onward.trans ?_ (State.onSession_onward _ _ _)
          assumption
        try clear_value v6
        split
        · assumption
        · extract_lets +onlyGivenNames v8
          have h8 : Onward s v8 := by
            subst v8
            split
            · with_reducible refine Onward.trans ?_ (State.txOn_onward _ _ _ _ _ _)
              assumption
            · assumption
          try clear_value v8
          with_reducible refine Onward.trans ?_ (State.noteMember_onward _ _)
          assumption

theorem State.loseSession_onward (s : State) (sid : Nat) : Onward s (State.loseSession s sid) := by
  unfold State.loseSession
  split
  · exact Onward.refl _
  · with_reducible refine Onward.trans ?_ (State.noteMember_onward _ _)
    with_reducible refine Onward.trans ?_ (State.dropSession_onward _ _)
    with_reducible refine Onward.trans ?_ (State.event_onward _ _ _)
    with_reducible refine Onward.trans ?_ (State.bump_onward _ _)
    with_reducible refine Onward.trans ?_ (State.endSessionCmds_onward _ _)
    exact Onward.refl _

theorem State.checkPn_onward (s : State) (a1 : Session) : Onward s (State.checkPn s a1) := by
  unfold State.checkPn
  refine Onward.ite ?_ ?_
  · with_reducible refine Onward.trans ?_ (State.event_onward _ _ _)
    with_reducible refine Onward.trans ?_ (State.closeSession_onward _ _ _ _)
    exact Onward.refl _
  · exact Onward.refl _

theorem State.checkPns_onward (s : State) : Onward s (State.checkPns s) := by
  unfold State.checkPns
  refine Onward.trans ?_ (Onward.foldl (fun z1 y1 => ?_) _ _)
  · exact Onward.refl _
  · with_reducible refine Onward.trans ?_ (State.checkPn_onward _ _)
    exact Onward.refl _

theorem State.evict_onward (s : State) (a1 : Session) : Onward s (State.evict s a1) := by
  unfold State.evict
  with_reducible refine Onward.trans ?_ (State.event_onward _ _ _)
  with_reducible refine Onward.trans ?_ (State.bump_onward _ _)
  with_reducible refine Onward.trans ?_ (State.closeSession_onward _ _ _ _)
  exact Onward.refl _

theorem State.makeRoom_onward_eq {s : State} {r1 : State} (h : State.makeRoom s = some r1) : Onward s r1 := by
  unfold State.makeRoom at h
  split at h
  · simp only [Option.some.injEq] at h
    rw [← h]
    exact .refl _
  · simp only [Option.map_eq_some_iff] at h
    obtain ⟨x, _, hx⟩ := h
    rw [← hx]
    exact State.evict_onward ..

theorem State.openRoom_onward (s : State) (rx : Rx) : Onward s (State.openRoom s rx) := by
  unfold State.openRoom
  split
  · refine Onward.ite ?_ ?_
    · split
      · refine Onward.trans ?_ (State.makeRoom_onward_eq (by assumption))
        exact Onward.refl _
      · with_reducible refine Onward.trans ?_ (State.dropSession_onward _ _)
        exact Onward.refl _
    · exact Onward.refl _
  · exact Onward.refl _

theorem State.rxPacket_onward (s : State) (rx : Rx) (kind : Nat) (elicits : Bool) : Onward s (State.rxPacket s rx kind elicits).1 := by
  unfold State.rxPacket
  refine Onward.ite_fst ?_ ?_
  · refine Onward.fst_mk ?_
    with_reducible refine Onward.trans ?_ (State.closeSession_onward _ _ _ _)
    exact Onward.refl _
  · extract_lets +onlyGivenNames v2
    try clear_value v2
    split
    · refine Onward.fst_mk ?_
      refine Onward.trans ?_ (State.receive_onward_eq (by assumption))
      with_reducible refine Onward.trans ?_ (State.openRoom_onward _ _)
      exact Onward.refl _
    · refine Onward.ite_fst ?_ ?_
      · refine Onward.fst_mk ?_
        refine Onward.trans ?_ (State.receive_onward_eq (by assumption))
        with_reducible refine Onward.trans ?_ (State.openRoom_onward _ _)
        exact Onward.refl _
      · split
        · refine Onward.fst_mk ?_
          refine Onward.trans ?_ (State.receive_onward_eq (by assumption))
          with_reducible refine Onward.trans ?_ (State.openRoom_onward _ _)
          exact Onward.refl _
        · split
          · refine Onward.fst_mk ?_
            refine Onward.trans ?_ (State.receive_onward_eq (by assumption))
            with_reducible refine Onward.trans ?_ (State.openRoom_onward _ _)
            exact Onward.refl _
          · refine Onward.fst_mk ?_
            with_reducible refine Onward.trans ?_ (State.askNamespaces_onward _ _)
            with_reducible refine Onward.trans ?_ (State.noteMember_onward _ _)
            refine Onward.trans ?_ (State.receive_onward_eq (by assumption))
            with_reducible refine Onward.trans ?_ (State.openRoom_onward _ _)
            exact Onward.refl _
theorem State.rxPacket_onward_eq {s : State} {rx : Rx} {kind : Nat} {elicits : Bool} {r1 r2} (hres : State.rxPacket s rx kind elicits = (r1, r2)) : Onward s r1 := by
  have k := State.rxPacket_onward s rx kind elicits
  rw [hres] at k
  exact k

end Sys2Proof.Machine
end

