-- ==== Sys2Proof/Laws/OnwardData.lean ====
section
/-! SUPPORT. What the operations and meanings of reads, writes, holders and group maps do: each only goes onward (Laws/Onward.lean). -/

namespace Sys2Proof.Machine

theorem State.sendReply_onward (a0 : Nat) (a1 : State) (a2 : Nat) (a3 : Nat) : Onward a1 (State.sendReply a0 a1 a2 a3) := by
  induction a0 generalizing a1 a2 a3 with
  | zero =>
    rw [State.sendReply]
    exact Onward.refl _
  | succ n ih =>
    rw [State.sendReply]
    split
    · split
      · exact Onward.refl _
      · extract_lets +onlyGivenNames v1
        try clear_value v1
        refine Onward.ite ?_ ?_
        · with_reducible refine Onward.trans ?_ (State.finish_onward _ _ _ _)
          exact Onward.refl _
        · extract_lets +onlyGivenNames v3
          try clear_value v3
          refine Onward.ite ?_ ?_
          · with_reducible refine Onward.trans ?_ (State.openHeld_onward _ _ _)
            exact Onward.refl _
          · extract_lets +onlyGivenNames v5
            try clear_value v5
            extract_lets +onlyGivenNames v6
            have h6 : Onward a1 v6 := by
              subst v6
              with_reducible refine Onward.trans ?_ (State.onCmd_onward _ _ _ _)
              with_reducible refine Onward.trans ?_ (State.closeHeld_onward _ _)
              exact Onward.refl _
            try clear_value v6
            extract_lets +onlyGivenNames v9
            have h9 : Onward a1 v9 := by
              subst v9
              refine Onward.ite ?_ ?_
              · assumption
              · with_reducible refine Onward.trans ?_ (State.send_onward _ _ _ _ _)
                assumption
            try clear_value v9
            refine Onward.trans ?_ (ih ..)
            assumption
    · exact Onward.refl _

theorem State.reply_onward (s : State) (c : CmdCtx) (bytes : Bytes) (status : Nat) (body : Bytes) : Onward s (State.reply s c bytes status body) := by
  unfold State.reply
  extract_lets +onlyGivenNames v1
  have h1 : Onward s v1 := by
    subst v1
    with_reducible refine Onward.trans ?_ (State.onCmd_onward _ _ _ _)
    exact Onward.refl _
  try clear_value v1
  with_reducible refine Onward.trans ?_ (State.sendReply_onward _ _ _ _)
  assumption

theorem State.fetchPiece_onward (s : State) (c : CmdCtx) (r : CommitRec) (p : Piece) : Onward s (State.fetchPiece s c r p).1 := by
  unfold State.fetchPiece
  extract_lets +onlyGivenNames v1
  try clear_value v1
  split
  · refine Onward.fst_mk ?_
    exact Onward.refl _
  · refine Onward.ite_fst ?_ ?_
    · split
      · refine Onward.fst_mk ?_
        exact Onward.refl _
      · refine Onward.fst_mk ?_
        with_reducible refine Onward.trans ?_ (State.queueRepair_onward _ _ _ _)
        exact Onward.refl _
    · extract_lets +onlyGivenNames v3
      try clear_value v3
      refine Onward.fst_mk ?_
      with_reducible refine Onward.trans ?_ (State.sendGet_onward _ _ _ _ _ _ _ _ _ _ _)
      exact Onward.refl _
theorem State.fetchPiece_onward_eq {s : State} {c : CmdCtx} {r : CommitRec} {p : Piece} {r1 r2} (hres : State.fetchPiece s c r p = (r1, r2)) : Onward s r1 := by
  have k := State.fetchPiece_onward s c r p
  rw [hres] at k
  exact k

theorem State.fetchAll_onward (s : State) (c : CmdCtx) (r : CommitRec) (l : List Piece) : Onward s (State.fetchAll s c r l).1 := by
  unfold State.fetchAll
  refine Onward.trans ?_ (Onward.foldl_fst (fun z1 y1 => ?_) _ _)
  · refine Onward.fst_mk ?_
    exact Onward.refl _
  · extract_lets +onlyGivenNames v2
    refine Onward.fst_mk ?_
    subst v2
    with_reducible refine Onward.trans ?_ (State.fetchPiece_onward _ _ _ _)
    exact Onward.refl _
theorem State.fetchAll_onward_eq {s : State} {c : CmdCtx} {r : CommitRec} {l : List Piece} {r1 r2} (hres : State.fetchAll s c r l = (r1, r2)) : Onward s r1 := by
  have k := State.fetchAll_onward s c r l
  rw [hres] at k
  exact k

theorem State.failRead_onward (s : State) (c : CmdCtx) (status : Nat) (ev : Nat) : Onward s (State.failRead s c status ev) := by
  unfold State.failRead
  with_reducible refine Onward.trans ?_ (State.finish_onward _ _ _ _)
  exact Onward.refl _

theorem State.deliver_onward (s : State) (c : CmdCtx) (d : ReadCtx) (cipher : Bytes) : Onward s (State.deliver s c d cipher) := by
  unfold State.deliver
  extract_lets +onlyGivenNames v1
  try clear_value v1
  split
  · with_reducible refine Onward.trans ?_ (State.failRead_onward _ _ _ _)
    exact Onward.refl _
  · extract_lets +onlyGivenNames v3
    have h3 : Onward s v3 := by
      subst v3
      with_reducible refine Onward.trans ?_ (State.useKey_onward _ _)
      with_reducible refine Onward.trans ?_ (State.useKey_onward _ _)
      exact Onward.refl _
    try clear_value v3
    extract_lets +onlyGivenNames v6
    try clear_value v6
    refine Onward.ite ?_ ?_
    · extract_lets +onlyGivenNames v7
      have h7 : Onward s v7 := by
        subst v7
        with_reducible refine Onward.trans ?_ (State.event_onward _ _ _)
        with_reducible refine Onward.trans ?_ (State.bump_onward _ _)
        assumption
      try clear_value v7
      extract_lets +onlyGivenNames v10
      have h10 : Onward s v10 := by
        subst v10
        refine Onward.trans ?_ (Onward.foldl (fun z11 y11 => ?_) _ _)
        · assumption
        · with_reducible refine Onward.trans ?_ (State.queueRepair_onward _ _ _ _)
          exact Onward.refl _
      try clear_value v10
      with_reducible refine Onward.trans ?_ (State.failRead_onward _ _ _ _)
      assumption
    · extract_lets +onlyGivenNames v14
      try clear_value v14
      extract_lets +onlyGivenNames v15
      try clear_value v15
      extract_lets +onlyGivenNames v16
      have h16 : Onward s v16 := by
        subst v16
        refine Onward.ite ?_ ?_
        · with_reducible refine Onward.trans ?_ (State.event_onward _ _ _)
          with_reducible refine Onward.trans ?_ (State.bump_onward _ _)
          assumption
        · assumption
      try clear_value v16
      extract_lets +onlyGivenNames v19
      have h19 : Onward s v19 := by
        subst v19
        refine Onward.ite ?_ ?_
        · with_reducible refine Onward.trans ?_ (State.cacheValue_onward _ _ _)
          assumption
        · assumption
      try clear_value v19
      with_reducible refine Onward.trans ?_ (State.reply_onward _ _ _ _ _)
      assumption

theorem State.gather_onward (a0 : Nat) (a1 : State) (a2 : Nat) (a3 : Nat) : Onward a1 (State.gather a0 a1 a2 a3) := by
  induction a0 generalizing a1 a2 a3 with
  | zero =>
    rw [State.gather]
    exact Onward.refl _
  | succ n ih =>
    rw [State.gather]
    split
    · exact Onward.refl _
    · split
      · exact Onward.refl _
      · split
        · exact Onward.refl _
        · with_reducible refine Onward.trans ?_ (State.failRead_onward _ _ _ _)
          exact Onward.refl _
        · with_reducible refine Onward.trans ?_ (State.deliver_onward _ _ _ _)
          exact Onward.refl _
        · extract_lets +onlyGivenNames v3
          extract_lets +onlyGivenNames v4
          try clear_value v4
          refine Onward.trans ?_ (ih ..)
          with_reducible refine Onward.trans ?_ (State.onCmd_onward _ _ _ _)
          subst v3
          with_reducible refine Onward.trans ?_ (State.fetchAll_onward _ _ _ _)
          exact Onward.refl _

theorem State.readTurn_onward (s : State) (c : CmdCtx) : Onward s (State.readTurn s c) := by
  unfold State.readTurn
  extract_lets +onlyGivenNames v1
  try clear_value v1
  split
  · with_reducible refine Onward.trans ?_ (State.finish_onward _ _ _ _)
    exact Onward.refl _
  · refine Onward.ite ?_ ?_
    · with_reducible refine Onward.trans ?_ (State.failRead_onward _ _ _ _)
      exact Onward.refl _
    · refine Onward.ite ?_ ?_
      · with_reducible refine Onward.trans ?_ (State.finish_onward _ _ _ _)
        exact Onward.refl _
      · refine Onward.ite ?_ ?_
        · with_reducible refine Onward.trans ?_ (State.finish_onward _ _ _ _)
          exact Onward.refl _
        · extract_lets +onlyGivenNames v6
          try clear_value v6
          refine Onward.ite ?_ ?_
          · with_reducible refine Onward.trans ?_ (State.finish_onward _ _ _ _)
            exact Onward.refl _
          · extract_lets +onlyGivenNames v8
            try clear_value v8
            extract_lets +onlyGivenNames v9
            try clear_value v9
            refine Onward.ite ?_ ?_
            · with_reducible refine Onward.trans ?_ (State.finish_onward _ _ _ _)
              exact Onward.refl _
            · split
              · extract_lets +onlyGivenNames v11
                try clear_value v11
                extract_lets +onlyGivenNames v12
                have h12 : Onward s v12 := by
                  subst v12
                  refine Onward.ite ?_ ?_
                  · refine Onward.upd ?_ rfl
                    exact Onward.refl _
                  · exact Onward.refl _
                try clear_value v12
                with_reducible refine Onward.trans ?_ (State.reply_onward _ _ _ _ _)
                with_reducible refine Onward.trans ?_ (State.onCmd_onward _ _ _ _)
                assumption
              · extract_lets +onlyGivenNames v15
                try clear_value v15
                extract_lets +onlyGivenNames v16
                try clear_value v16
                extract_lets +onlyGivenNames v17
                extract_lets +onlyGivenNames v18
                try clear_value v18
                with_reducible refine Onward.trans ?_ (State.gather_onward _ _ _ _)
                with_reducible refine Onward.trans ?_ (State.onCmd_onward _ _ _ _)
                subst v17
                with_reducible refine Onward.trans ?_ (State.fetchAll_onward _ _ _ _)
                exact Onward.refl _

theorem State.startRead_onward (s : State) (c : CmdCtx) : Onward s (State.startRead s c) := by
  unfold State.startRead
  refine Onward.ite ?_ ?_
  · with_reducible refine Onward.trans ?_ (State.readTurn_onward _ _)
    exact Onward.refl _
  · with_reducible refine Onward.trans ?_ (State.onCmd_onward _ _ _ _)
    exact Onward.refl _

theorem State.pieceCame_onward (s : State) (sid : Nat) (tag : Nat) (index : Nat) (seg : Nat) (off : Nat) (len : Nat) (data : Option Bytes) : Onward s (State.pieceCame s sid tag index seg off len data) := by
  unfold State.pieceCame
  split
  · exact Onward.refl _
  · split
    · exact Onward.refl _
    · extract_lets +onlyGivenNames v1
      try clear_value v1
      extract_lets +onlyGivenNames v2
      try clear_value v2
      with_reducible refine Onward.trans ?_ (State.gather_onward _ _ _ _)
      with_reducible refine Onward.trans ?_ (State.onCmd_onward _ _ _ _)
      exact Onward.refl _

theorem State.runList_onward (s : State) (c : CmdCtx) : Onward s (State.runList s c) := by
  unfold State.runList
  extract_lets +onlyGivenNames v1
  try clear_value v1
  split
  · with_reducible refine Onward.trans ?_ (State.finish_onward _ _ _ _)
    exact Onward.refl _
  · extract_lets +onlyGivenNames v3
    try clear_value v3
    extract_lets +onlyGivenNames v4
    try clear_value v4
    extract_lets +onlyGivenNames v5
    try clear_value v5
    extract_lets +onlyGivenNames v6
    try clear_value v6
    extract_lets +onlyGivenNames v7
    try clear_value v7
    extract_lets +onlyGivenNames v8
    try clear_value v8
    extract_lets +onlyGivenNames v9
    try clear_value v9
    extract_lets +onlyGivenNames v10
    try clear_value v10
    refine Onward.ite ?_ ?_
    · with_reducible refine Onward.trans ?_ (State.finish_onward _ _ _ _)
      exact Onward.refl _
    · refine Onward.ite ?_ ?_
      · with_reducible refine Onward.trans ?_ (State.finish_onward _ _ _ _)
        exact Onward.refl _
      · extract_lets +onlyGivenNames v13
        try clear_value v13
        extract_lets +onlyGivenNames v14
        try clear_value v14
        extract_lets +onlyGivenNames v15
        try clear_value v15
        extract_lets +onlyGivenNames v16
        try clear_value v16
        extract_lets +onlyGivenNames v17
        try clear_value v17
        extract_lets +onlyGivenNames v18
        try clear_value v18
        extract_lets +onlyGivenNames v19
        try clear_value v19
        refine Onward.ite ?_ ?_
        · with_reducible refine Onward.trans ?_ (State.failRead_onward _ _ _ _)
          exact Onward.refl _
        · with_reducible refine Onward.trans ?_ (State.reply_onward _ _ _ _ _)
          exact Onward.refl _

theorem State.sendSlices_onward (s : State) (c : CmdCtx) (w : WriteCtx) (h : WriteHolder) (segs : List Nat) : Onward s (State.sendSlices s c w h segs) := by
  unfold State.sendSlices
  split
  · exact Onward.refl _
  · refine Onward.trans ?_ (Onward.foldl (fun z1 y1 => ?_) _ _)
    · exact Onward.refl _
    · extract_lets +onlyGivenNames v2
      try clear_value v2
      with_reducible refine Onward.trans ?_ (State.sendPut_onward _ _ _ _ _ _ _ _ _ _ _)
      exact Onward.refl _

theorem State.encode_onward (s : State) (sid : Nat) (tag : Nat) : Onward s (State.encode s sid tag) := by
  unfold State.encode
  split
  · exact Onward.refl _
  · split
    · exact Onward.refl _
    · extract_lets +onlyGivenNames v1
      try clear_value v1
      extract_lets +onlyGivenNames v2
      try clear_value v2
      extract_lets +onlyGivenNames v3
      have h3 : Onward s v3 := by
        subst v3
        with_reducible refine Onward.trans ?_ (State.onCmd_onward _ _ _ _)
        exact Onward.refl _
      try clear_value v3
      extract_lets +onlyGivenNames v5
      have h5 : Onward s v5 := by
        subst v5
        split
        · assumption
        · refine Onward.trans ?_ (Onward.foldl (fun z6 y6 => ?_) _ _)
          · assumption
          · split
            · extract_lets +onlyGivenNames v7
              try clear_value v7
              with_reducible refine Onward.trans ?_ (State.addSlice_onward _ _ _ _ _)
              exact Onward.refl _
            · exact Onward.refl _
      try clear_value v5
      refine Onward.trans ?_ (Onward.foldl (fun z9 y9 => ?_) _ _)
      · assumption
      · refine Onward.ite ?_ ?_
        · with_reducible refine Onward.trans ?_ (State.sendSlices_onward _ _ _ _ _)
          exact Onward.refl _
        · exact Onward.refl _

theorem State.dropRaw_onward (s : State) (v : RawValue) : Onward s (State.dropRaw s v) := by
  unfold State.dropRaw
  extract_lets +onlyGivenNames v1
  try clear_value v1
  extract_lets +onlyGivenNames v2
  have h2 : Onward s v2 := by
    subst v2
    refine Onward.upd ?_ rfl
    exact Onward.refl _
  try clear_value v2
  extract_lets +onlyGivenNames v3
  have h3 : Onward s v3 := by
    subst v3
    split
    · with_reducible refine Onward.trans ?_ (State.clearBuf_onward _ _)
      assumption
    · assumption
  try clear_value v3
  refine Onward.ite ?_ ?_
  · with_reducible refine Onward.trans ?_ (State.cacheValue_onward _ _ _)
    assumption
  · assumption

theorem State.rawRoom_onward (s : State) (n : Nat) : Onward s (State.rawRoom s n) := by
  unfold State.rawRoom
  refine Onward.trans ?_ (Onward.foldl (fun z1 y1 => ?_) _ _)
  · exact Onward.refl _
  · refine Onward.ite ?_ ?_
    · with_reducible refine Onward.trans ?_ (State.dropRaw_onward _ _)
      exact Onward.refl _
    · exact Onward.refl _

theorem State.rawLeave_onward (s : State) : Onward s (State.rawLeave s) := by
  unfold State.rawLeave
  extract_lets +onlyGivenNames v1
  try clear_value v1
  extract_lets +onlyGivenNames v2
  have h2 : Onward s v2 := by
    subst v2
    refine Onward.upd ?_ rfl
    exact Onward.refl _
  try clear_value v2
  extract_lets +onlyGivenNames v3
  try clear_value v3
  extract_lets +onlyGivenNames v4
  try clear_value v4
  extract_lets +onlyGivenNames v5
  have h5 : Onward s v5 := by
    subst v5
    refine Onward.trans ?_ (Onward.foldl (fun z6 y6 => ?_) _ _)
    · assumption
    · with_reducible refine Onward.trans ?_ (State.dropRaw_onward _ _)
      exact Onward.refl _
  try clear_value v5
  refine Onward.upd ?_ rfl
  assumption

theorem State.feed_onward (s : State) (c : CmdCtx) (b : Bytes) : Onward s (State.feed s c b) := by
  unfold State.feed
  split
  · exact Onward.refl _
  · split
    · exact Onward.refl _
    · extract_lets +onlyGivenNames v1
      have h1 : Onward s v1 := by
        subst v1
        with_reducible refine Onward.trans ?_ (State.useKey_onward _ _)
        with_reducible refine Onward.trans ?_ (State.useKey_onward _ _)
        exact Onward.refl _
      try clear_value v1
      extract_lets +onlyGivenNames v4
      try clear_value v4
      extract_lets +onlyGivenNames v5
      try clear_value v5
      extract_lets +onlyGivenNames v6
      try clear_value v6
      extract_lets +onlyGivenNames v7
      try clear_value v7
      extract_lets +onlyGivenNames v8
      have h8 : Onward s v8 := by
        subst v8
        with_reducible refine Onward.trans ?_ (State.encode_onward _ _ _)
        with_reducible refine Onward.trans ?_ (State.onCmd_onward _ _ _ _)
        assumption
      try clear_value v8
      refine Onward.ite ?_ ?_
      · refine Onward.upd ?_ rfl
        assumption
      · assumption

theorem State.startWrite_onward (s : State) (c : CmdCtx) : Onward s (State.startWrite s c) := by
  unfold State.startWrite
  split
  · exact Onward.refl _
  · extract_lets +onlyGivenNames v1
    have h1 : Onward s v1 := by
      subst v1
      with_reducible refine Onward.trans ?_ (State.onCmd_onward _ _ _ _)
      exact Onward.refl _
    try clear_value v1
    extract_lets +onlyGivenNames v3
    have h3 : Onward s v3 := by
      subst v3
      with_reducible refine Onward.trans ?_ (State.addFrag_onward _ _ _ _)
      assumption
    try clear_value v3
    refine Onward.ite ?_ ?_
    · split
      · assumption
      · extract_lets +onlyGivenNames v5
        try clear_value v5
        extract_lets +onlyGivenNames v6
        have h6 : Onward s v6 := by
          subst v6
          with_reducible refine Onward.trans ?_ (State.useKey_onward _ _)
          assumption
        try clear_value v6
        with_reducible refine Onward.trans ?_ (State.onCmd_onward _ _ _ _)
        assumption
    · refine Onward.ite ?_ ?_
      · split
        · with_reducible refine Onward.trans ?_ (State.feed_onward _ _ _)
          assumption
        · assumption
      · assumption

theorem State.takePosition_onward (s : State) (c : CmdCtx) (start : State → CmdCtx → State) (hs : ∀ s c, Onward s (start s c)) :
    Onward s (State.takePosition s c start) := by
  unfold State.takePosition
  extract_lets hold w c1 v1 v2 v3
  have h2 : Onward s v2 := (Onward.upd (.refl s) rfl).trans (State.setCmd_onward ..)
  have h3 : Onward s v3 := h2.trans (State.bump_onward ..)
  split
  · exact h3
  · exact h3.trans (hs ..)

theorem State.refusePhaseOne_onward (s : State) (c : CmdCtx) (w : WriteCtx) : Onward s (State.refusePhaseOne s c w) := by
  unfold State.refusePhaseOne
  extract_lets +onlyGivenNames v1
  try clear_value v1
  with_reducible refine Onward.trans ?_ (State.refuse_onward _ _ _ _ _ _)
  with_reducible refine Onward.trans ?_ (State.dropCmd_onward _ _)
  with_reducible refine Onward.trans ?_ (State.undoWrite_onward _ _ _)
  exact Onward.refl _

theorem State.phaseOne_onward (s : State) (c : CmdCtx) : Onward s (State.phaseOne s c) := by
  unfold State.phaseOne
  split
  · exact Onward.refl _
  · refine Onward.ite ?_ ?_
    · exact Onward.refl _
    · extract_lets +onlyGivenNames v1
      try clear_value v1
      extract_lets +onlyGivenNames v2
      try clear_value v2
      extract_lets +onlyGivenNames v3
      try clear_value v3
      refine Onward.ite ?_ ?_
      · with_reducible refine Onward.trans ?_ (State.takePosition_onward _ _ _ (fun z4 y4 => ?_))
        · exact Onward.refl _
        · with_reducible refine Onward.trans ?_ (State.startWrite_onward _ _)
          exact Onward.refl _
      · refine Onward.ite ?_ ?_
        · with_reducible refine Onward.trans ?_ (State.refusePhaseOne_onward _ _ _)
          exact Onward.refl _
        · exact Onward.refl _

theorem State.beginPhaseOne_onward (s : State) (c : CmdCtx) (w : WriteCtx) (inst : Nat) : Onward s (State.beginPhaseOne s c w inst) := by
  unfold State.beginPhaseOne
  extract_lets +onlyGivenNames v1
  try clear_value v1
  extract_lets +onlyGivenNames v2
  try clear_value v2
  extract_lets +onlyGivenNames v3
  have h3 : Onward s v3 := by
    subst v3
    refine Onward.upd ?_ rfl
    exact Onward.refl _
  try clear_value v3
  extract_lets +onlyGivenNames v4
  try clear_value v4
  extract_lets +onlyGivenNames v5
  have h5 : Onward s v5 := by
    subst v5
    with_reducible refine Onward.trans ?_ (State.setCmd_onward _ _)
    assumption
  try clear_value v5
  extract_lets +onlyGivenNames v7
  have h7 : Onward s v7 := by
    subst v7
    refine Onward.trans ?_ (Onward.foldl (fun z8 y8 => ?_) _ _)
    · assumption
    · with_reducible refine Onward.trans ?_ (State.sendReserve_onward _ _ _ _ _)
      exact Onward.refl _
  try clear_value v7
  split
  · with_reducible refine Onward.trans ?_ (State.phaseOne_onward _ _)
    assumption
  · assumption

theorem State.onHolder_onward (s : State) (sid : Nat) (tag : Nat) (index : Nat) (f : WriteHolder → WriteHolder) : Onward s (State.onHolder s sid tag index f) := by
  unfold State.onHolder
  with_reducible refine Onward.trans ?_ (State.onCmd_onward _ _ _ _)
  exact Onward.refl _

theorem State.latestMedia_onward (s : State) (w : WriteCtx) (segs : Nat) : Onward s (State.latestMedia s w segs).1 := by
  unfold State.latestMedia
  extract_lets +onlyGivenNames v1
  try clear_value v1
  extract_lets +onlyGivenNames v2
  try clear_value v2
  refine Onward.ite_fst ?_ ?_
  · split
    refine Onward.fst_mk ?_
    refine Onward.trans ?_ (State.drawFree_onward_eq (by assumption))
    exact Onward.refl _
  · refine Onward.fst_mk ?_
    exact Onward.refl _
theorem State.latestMedia_onward_eq {s : State} {w : WriteCtx} {segs : Nat} {r1 r2} (hres : State.latestMedia s w segs = (r1, r2)) : Onward s r1 := by
  have k := State.latestMedia_onward s w segs
  rw [hres] at k
  exact k

theorem State.noteSessWrite_onward (s : State) (c : CmdCtx) (w : WriteCtx) : Onward s (State.noteSessWrite s c w) := by
  unfold State.noteSessWrite
  split
  extract_lets +onlyGivenNames v1
  try clear_value v1
  refine Onward.upd ?_ rfl
  refine Onward.trans ?_ (State.latestMedia_onward_eq (by assumption))
  exact Onward.refl _

theorem State.fixReads_onward (s : State) (c : CmdCtx) (cur : Option CommitRec) : Onward s (State.fixReads s c cur) := by
  unfold State.fixReads
  extract_lets +onlyGivenNames v1
  try clear_value v1
  refine Onward.upd ?_ rfl
  exact Onward.refl _

theorem State.commitWrite_onward (s : State) (c : CmdCtx) (w : WriteCtx) (inst : Nat) (cur : Option CommitRec) : Onward s (State.commitWrite s c w inst cur) := by
  unfold State.commitWrite
  extract_lets +onlyGivenNames v1
  try clear_value v1
  extract_lets +onlyGivenNames v2
  try clear_value v2
  extract_lets +onlyGivenNames v3
  have h3 : Onward s v3 := by
    subst v3
    with_reducible refine Onward.trans ?_ (State.writeCommit_onward _ _ _ _ _)
    exact Onward.refl _
  try clear_value v3
  extract_lets +onlyGivenNames v5
  have h5 : Onward s v5 := by
    subst v5
    split
    · with_reducible refine Onward.trans ?_ (State.commitFrag_onward _ _ _)
      assumption
    · assumption
  try clear_value v5
  extract_lets +onlyGivenNames v7
  try clear_value v7
  extract_lets +onlyGivenNames v8
  have h8 : Onward s v8 := by
    subst v8
    split
    · refine Onward.upd ?_ rfl
      assumption
    · assumption
  try clear_value v8
  extract_lets +onlyGivenNames v9
  have h9 : Onward s v9 := by
    subst v9
    refine Onward.trans ?_ (Onward.foldl (fun z10 y10 => ?_) _ _)
    · assumption
    · with_reducible refine Onward.trans ?_ (State.sendCommit_onward _ _ _ _ _)
      exact Onward.refl _
  try clear_value v9
  extract_lets +onlyGivenNames v12
  try clear_value v12
  extract_lets +onlyGivenNames v13
  have h13 : Onward s v13 := by
    subst v13
    refine Onward.ite ?_ ?_
    · assumption
    · refine Onward.trans ?_ (Onward.foldl (fun z14 y14 => ?_) _ _)
      · with_reducible refine Onward.trans ?_ (State.event_onward _ _ _)
        with_reducible refine Onward.trans ?_ (State.bump_onward _ _)
        assumption
      · with_reducible refine Onward.trans ?_ (State.queueRepair_onward _ _ _ _)
        exact Onward.refl _
  try clear_value v13
  extract_lets +onlyGivenNames v18
  try clear_value v18
  extract_lets +onlyGivenNames v19
  have h19 : Onward s v19 := by
    subst v19
    with_reducible refine Onward.trans ?_ (State.setCmd_onward _ _)
    with_reducible refine Onward.trans ?_ (State.noteSessWrite_onward _ _ _)
    with_reducible refine Onward.trans ?_ (State.fixReads_onward _ _ _)
    assumption
  try clear_value v19
  refine Onward.ite ?_ ?_
  · assumption
  · with_reducible refine Onward.trans ?_ (State.finish_onward _ _ _ _)
    assumption

theorem State.tryCommit_onward (s : State) (c : CmdCtx) : Onward s (State.tryCommit s c) := by
  unfold State.tryCommit
  split
  · exact Onward.refl _
  · split
    · exact Onward.refl _
    · refine Onward.ite ?_ ?_
      · exact Onward.refl _
      · extract_lets +onlyGivenNames v1
        try clear_value v1
        split
        · with_reducible refine Onward.trans ?_ (State.finish_onward _ _ _ _)
          with_reducible refine Onward.trans ?_ (State.undoWrite_onward _ _ _)
          exact Onward.refl _
        · extract_lets +onlyGivenNames v4
          try clear_value v4
          refine Onward.ite ?_ ?_
          · exact Onward.refl _
          · with_reducible refine Onward.trans ?_ (State.commitWrite_onward _ _ _ _ _)
            exact Onward.refl _

theorem State.mediaDurable_onward (s : State) (c : CmdCtx) : Onward s (State.mediaDurable s c) := by
  unfold State.mediaDurable
  split
  · exact Onward.refl _
  · refine Onward.ite ?_ ?_
    · exact Onward.refl _
    · extract_lets +onlyGivenNames v1
      try clear_value v1
      refine Onward.ite ?_ ?_
      · exact Onward.refl _
      · with_reducible refine Onward.trans ?_ (State.finish_onward _ _ _ _)
        exact Onward.refl _

theorem State.checkQuorum_onward (s : State) (c : CmdCtx) : Onward s (State.checkQuorum s c) := by
  unfold State.checkQuorum
  split
  · refine Onward.ite ?_ ?_
    · extract_lets +onlyGivenNames v1
      have h1 : Onward s v1 := by
        subst v1
        with_reducible refine Onward.trans ?_ (State.event_onward _ _ _)
        with_reducible refine Onward.trans ?_ (State.bump_onward _ _)
        exact Onward.refl _
      try clear_value v1
      with_reducible refine Onward.trans ?_ (State.abort_onward _ _ _ _ _)
      assumption
    · exact Onward.refl _
  · exact Onward.refl _

theorem State.releaseDone_onward (s : State) (c : CmdCtx) (timeout : Bool) : Onward s (State.releaseDone s c timeout) := by
  unfold State.releaseDone
  split
  · split
    · refine Onward.ite ?_ ?_
      · exact Onward.refl _
      · refine Onward.ite ?_ ?_
        · with_reducible refine Onward.trans ?_ (State.finish_onward _ _ _ _)
          exact Onward.refl _
        · refine Onward.ite ?_ ?_
          · with_reducible refine Onward.trans ?_ (State.finish_onward _ _ _ _)
            exact Onward.refl _
          · exact Onward.refl _
    · exact Onward.refl _
  · exact Onward.refl _

theorem State.setNs_onward (s : State) (a1 : Ns) : Onward s (State.setNs s a1) := by
  unfold State.setNs
  extract_lets +onlyGivenNames v1
  try clear_value v1
  refine Onward.upd ?_ rfl
  exact Onward.refl _

theorem State.endGen_onward (s : State) (ns : Nat) (gen : Nat) (cause : Nat) : Onward s (State.endGen s ns gen cause) := by
  unfold State.endGen
  extract_lets +onlyGivenNames v1
  try clear_value v1
  extract_lets +onlyGivenNames v2
  have h2 : Onward s v2 := by
    subst v2
    refine Onward.trans ?_ (Onward.foldl (fun z3 y3 => ?_) _ _)
    · exact Onward.refl _
    · with_reducible refine Onward.trans ?_ (State.abort_onward _ _ _ _ _)
      exact Onward.refl _
  try clear_value v2
  extract_lets +onlyGivenNames v5
  have h5 : Onward s v5 := by
    subst v5
    with_reducible refine Onward.trans ?_ (State.purgeInst_onward _ _ _)
    with_reducible refine Onward.trans ?_ (State.cryptoErase_onward _ _ _)
    assumption
  try clear_value v5
  extract_lets +onlyGivenNames v8
  try clear_value v8
  extract_lets +onlyGivenNames v9
  have h9 : Onward s v9 := by
    subst v9
    refine Onward.trans ?_ (Onward.foldl (fun z10 y10 => ?_) _ _)
    · assumption
    · with_reducible refine Onward.trans ?_ (State.releaseFrag_onward _ _ _)
      exact Onward.refl _
  try clear_value v9
  extract_lets +onlyGivenNames v12
  try clear_value v12
  extract_lets +onlyGivenNames v13
  try clear_value v13
  extract_lets +onlyGivenNames v14
  try clear_value v14
  extract_lets +onlyGivenNames v15
  have h15 : Onward s v15 := by
    subst v15
    refine Onward.upd ?_ rfl
    assumption
  try clear_value v15
  extract_lets +onlyGivenNames v16
  try clear_value v16
  extract_lets +onlyGivenNames v17
  have h17 : Onward s v17 := by
    subst v17
    with_reducible refine Onward.trans ?_ (State.setNs_onward _ _)
    assumption
  try clear_value v17
  extract_lets +onlyGivenNames v19
  have h19 : Onward s v19 := by
    subst v19
    with_reducible refine Onward.trans ?_ (State.event_onward _ _ _)
    assumption
  try clear_value v19
  refine Onward.ite ?_ ?_
  · with_reducible refine Onward.trans ?_ (State.event_onward _ _ _)
    assumption
  · assumption

theorem State.beginGen_onward (s : State) (ns : Nat) (r : NsRec) : Onward s (State.beginGen s ns r) := by
  unfold State.beginGen
  extract_lets +onlyGivenNames v1
  have h1 : Onward s v1 := by
    subst v1
    with_reducible refine Onward.trans ?_ (State.setNs_onward _ _)
    exact Onward.refl _
  try clear_value v1
  extract_lets +onlyGivenNames v3
  try clear_value v3
  extract_lets +onlyGivenNames v4
  try clear_value v4
  extract_lets +onlyGivenNames v5
  have h5 : Onward s v5 := by
    subst v5
    refine Onward.upd ?_ rfl
    assumption
  try clear_value v5
  with_reducible refine Onward.trans ?_ (State.takeInst_onward _ _ _)
  with_reducible refine Onward.trans ?_ (State.tableCopy_onward _)
  assumption

theorem State.retiredEvent_onward (s : State) (known : Bool) (ns : Nat) : Onward s (State.retiredEvent s known ns) := by
  unfold State.retiredEvent
  refine Onward.ite ?_ ?_
  · with_reducible refine Onward.trans ?_ (State.event_onward _ _ _)
    exact Onward.refl _
  · exact Onward.refl _

theorem State.applyNs_onward (s : State) (ns : Nat) (r : NsRec) (cause : Nat) : Onward s (State.applyNs s ns r cause) := by
  unfold State.applyNs
  refine Onward.ite ?_ ?_
  · exact Onward.refl _
  · extract_lets +onlyGivenNames v1
    try clear_value v1
    extract_lets +onlyGivenNames v2
    have h2 : Onward s v2 := by
      subst v2
      split
      · refine Onward.ite ?_ ?_
        · with_reducible refine Onward.trans ?_ (State.endGen_onward _ _ _ _)
          exact Onward.refl _
        · exact Onward.refl _
      · exact Onward.refl _
    try clear_value v2
    refine Onward.ite ?_ ?_
    · with_reducible refine Onward.trans ?_ (State.beginGen_onward _ _ _)
      assumption
    · split
      · refine Onward.ite ?_ ?_
        · assumption
        · with_reducible refine Onward.trans ?_ (State.retiredEvent_onward _ _ _)
          with_reducible refine Onward.trans ?_ (State.setNs_onward _ _)
          assumption
      · with_reducible refine Onward.trans ?_ (State.retiredEvent_onward _ _ _)
        with_reducible refine Onward.trans ?_ (State.setNs_onward _ _)
        assumption

theorem State.seeBoot_onward (s : State) (i : StripeId) : Onward s (State.seeBoot s i) := by
  unfold State.seeBoot
  refine Onward.upd ?_ rfl
  exact Onward.refl _

theorem State.fragOk_onward (s : State) (c : CmdCtx) (f : Frag) (seg : Nat) : Onward s (State.fragOk s c f seg) := by
  unfold State.fragOk
  refine Onward.ite ?_ ?_
  · with_reducible refine Onward.trans ?_ (State.finish_onward _ _ _ _)
    exact Onward.refl _
  · with_reducible refine Onward.trans ?_ (State.finish_onward _ _ _ _)
    exact Onward.refl _

theorem State.confirmFrag_onward (s : State) (c : CmdCtx) (f : Frag) (seg : Nat) : Onward s (State.confirmFrag s c f seg) := by
  unfold State.confirmFrag
  refine Onward.ite ?_ ?_
  · with_reducible refine Onward.trans ?_ (State.setFrag_onward _ _)
    exact Onward.refl _
  · with_reducible refine Onward.trans ?_ (State.fragOk_onward _ _ _ _)
    exact Onward.refl _

theorem State.runReserve_onward (s : State) (c : CmdCtx) : Onward s (State.runReserve s c) := by
  unfold State.runReserve
  extract_lets +onlyGivenNames v1
  try clear_value v1
  extract_lets +onlyGivenNames v2
  have h2 : Onward s v2 := by
    subst v2
    with_reducible refine Onward.trans ?_ (State.seeBoot_onward _ _)
    exact Onward.refl _
  try clear_value v2
  split
  · refine Onward.ite ?_ ?_
    · with_reducible refine Onward.trans ?_ (State.confirmFrag_onward _ _ _ _)
      assumption
    · with_reducible refine Onward.trans ?_ (State.finish_onward _ _ _ _)
      assumption
  · extract_lets +onlyGivenNames v6
    have h6 : Onward s v6 := by
      subst v6
      with_reducible refine Onward.trans ?_ (State.addFrag_onward _ _ _ _)
      assumption
    try clear_value v6
    split
    · refine Onward.ite ?_ ?_
      · with_reducible refine Onward.trans ?_ (State.confirmFrag_onward _ _ _ _)
        assumption
      · with_reducible refine Onward.trans ?_ (State.finish_onward _ _ _ _)
        assumption
    · assumption

theorem State.putSlice_onward (s : State) (c : CmdCtx) (b : Bytes) : Onward s (State.putSlice s c b) := by
  unfold State.putSlice
  split
  extract_lets +onlyGivenNames v1
  try clear_value v1
  split
  · with_reducible refine Onward.trans ?_ (State.finish_onward _ _ _ _)
    exact Onward.refl _
  · refine Onward.ite ?_ ?_
    · with_reducible refine Onward.trans ?_ (State.confirmFrag_onward _ _ _ _)
      exact Onward.refl _
    · extract_lets +onlyGivenNames v4
      have h4 : Onward s v4 := by
        subst v4
        with_reducible refine Onward.trans ?_ (State.addSlice_onward _ _ _ _ _)
        exact Onward.refl _
      try clear_value v4
      split
      · extract_lets +onlyGivenNames v6
        have h6 : Onward s v6 := by
          subst v6
          refine Onward.ite ?_ ?_
          · with_reducible refine Onward.trans ?_ (State.unbook_onward _ _)
            assumption
          · assumption
        try clear_value v6
        with_reducible refine Onward.trans ?_ (State.confirmFrag_onward _ _ _ _)
        assumption
      · assumption

theorem State.runPut_onward (s : State) (c : CmdCtx) : Onward s (State.runPut s c) := by
  unfold State.runPut
  split
  extract_lets +onlyGivenNames v1
  have h1 : Onward s v1 := by
    subst v1
    with_reducible refine Onward.trans ?_ (State.seeBoot_onward _ _)
    exact Onward.refl _
  try clear_value v1
  split
  · with_reducible refine Onward.trans ?_ (State.finish_onward _ _ _ _)
    assumption
  · refine Onward.ite ?_ ?_
    · with_reducible refine Onward.trans ?_ (State.confirmFrag_onward _ _ _ _)
      assumption
    · refine Onward.ite ?_ ?_
      · with_reducible refine Onward.trans ?_ (State.putSlice_onward _ _ _)
        assumption
      · with_reducible refine Onward.trans ?_ (State.onCmd_onward _ _ _ _)
        assumption

theorem State.runGet_onward (s : State) (c : CmdCtx) : Onward s (State.runGet s c) := by
  unfold State.runGet
  split
  extract_lets +onlyGivenNames v1
  try clear_value v1
  split
  · with_reducible refine Onward.trans ?_ (State.finish_onward _ _ _ _)
    exact Onward.refl _
  · extract_lets +onlyGivenNames v3
    try clear_value v3
    refine Onward.ite ?_ ?_
    · with_reducible refine Onward.trans ?_ (State.finish_onward _ _ _ _)
      exact Onward.refl _
    · extract_lets +onlyGivenNames v5
      try clear_value v5
      split
      · with_reducible refine Onward.trans ?_ (State.finish_onward _ _ _ _)
        exact Onward.refl _
      · extract_lets +onlyGivenNames v7
        try clear_value v7
        with_reducible refine Onward.trans ?_ (State.reply_onward _ _ _ _ _)
        exact Onward.refl _

theorem State.releaseOne_onward (s : State) (f : Frag) (reason : Nat) : Onward s (State.releaseOne s f reason) := by
  unfold State.releaseOne
  refine Onward.ite ?_ ?_
  · with_reducible refine Onward.trans ?_ (State.event_onward _ _ _)
    exact Onward.refl _
  · extract_lets +onlyGivenNames v2
    try clear_value v2
    extract_lets +onlyGivenNames v3
    have h3 : Onward s v3 := by
      subst v3
      with_reducible refine Onward.trans ?_ (State.unbook_onward _ _)
      with_reducible refine Onward.trans ?_ (State.releaseFrag_onward _ _ _)
      exact Onward.refl _
    try clear_value v3
    refine Onward.trans ?_ (Onward.foldl (fun z6 y6 => ?_) _ _)
    · assumption
    · split
      · with_reducible refine Onward.trans ?_ (State.finish_onward _ _ _ _)
        exact Onward.refl _
      · exact Onward.refl _

theorem State.runRelease_onward (s : State) (c : CmdCtx) : Onward s (State.runRelease s c) := by
  unfold State.runRelease
  split
  extract_lets +onlyGivenNames v1
  try clear_value v1
  extract_lets +onlyGivenNames v2
  try clear_value v2
  with_reducible refine Onward.trans ?_ (State.finish_onward _ _ _ _)
  refine Onward.trans ?_ (Onward.foldl (fun z4 y4 => ?_) _ _)
  · exact Onward.refl _
  · with_reducible refine Onward.trans ?_ (State.releaseOne_onward _ _ _)
    exact Onward.refl _

theorem State.runCommit_onward (s : State) (c : CmdCtx) : Onward s (State.runCommit s c) := by
  unfold State.runCommit
  extract_lets +onlyGivenNames v1
  extract_lets +onlyGivenNames v2
  try clear_value v2
  refine Onward.ite ?_ ?_
  · refine Onward.ite ?_ ?_
    · with_reducible refine Onward.trans ?_ (State.finish_onward _ _ _ _)
      with_reducible refine Onward.trans ?_ (State.event_onward _ _ _)
      exact Onward.refl _
    · with_reducible refine Onward.trans ?_ (State.finish_onward _ _ _ _)
      exact Onward.refl _
  · with_reducible refine Onward.trans ?_ (State.finish_onward _ _ _ _)
    refine Onward.trans ?_ (Onward.foldl (fun z7 y7 => ?_) _ _)
    · exact Onward.refl _
    · refine Onward.ite ?_ ?_
      · exact Onward.refl _
      · with_reducible refine Onward.trans ?_ (State.commitFrag_onward _ _ _)
        exact Onward.refl _

theorem State.setGather_onward (s : State) (g : Gather) : Onward s (State.setGather s g) := by
  unfold State.setGather
  extract_lets +onlyGivenNames v1
  try clear_value v1
  refine Onward.upd ?_ rfl
  exact Onward.refl _

theorem State.adopt_onward (s : State) (r : CommitRec) : Onward s (State.adopt s r) := by
  unfold State.adopt
  split
  · exact Onward.refl _
  · split
    · refine Onward.ite ?_ ?_
      · with_reducible refine Onward.trans ?_ (State.writeCommit_onward _ _ _ _ _)
        exact Onward.refl _
      · exact Onward.refl _
    · with_reducible refine Onward.trans ?_ (State.writeCommit_onward _ _ _ _ _)
      exact Onward.refl _

theorem State.passOn_onward (s : State) (r : CommitRec) : Onward s (State.passOn s r) := by
  unfold State.passOn
  refine Onward.ite ?_ ?_
  · exact Onward.refl _
  · extract_lets +onlyGivenNames v1
    try clear_value v1
    refine Onward.upd ?_ rfl
    exact Onward.refl _

theorem State.runHandoff_onward (s : State) (c : CmdCtx) : Onward s (State.runHandoff s c) := by
  unfold State.runHandoff
  extract_lets +onlyGivenNames v1
  try clear_value v1
  extract_lets +onlyGivenNames v2
  have h2 : Onward s v2 := by
    subst v2
    with_reducible refine Onward.trans ?_ (State.bump_onward _ _)
    exact Onward.refl _
  try clear_value v2
  extract_lets +onlyGivenNames v4
  have h4 : Onward s v4 := by
    subst v4
    refine Onward.ite ?_ ?_
    · assumption
    · with_reducible refine Onward.trans ?_ (State.passOn_onward _ _)
      with_reducible refine Onward.trans ?_ (State.adopt_onward _ _)
      assumption
  try clear_value v4
  extract_lets +onlyGivenNames v7
  have h7 : Onward s v7 := by
    subst v7
    split
    · with_reducible refine Onward.trans ?_ (State.setGather_onward _ _)
      assumption
    · assumption
  try clear_value v7
  with_reducible refine Onward.trans ?_ (State.finish_onward _ _ _ _)
  assumption

theorem State.handoffCheck_onward (s : State) : Onward s (State.handoffCheck s) := by
  unfold State.handoffCheck
  extract_lets +onlyGivenNames v1
  try clear_value v1
  extract_lets +onlyGivenNames v2
  try clear_value v2
  extract_lets +onlyGivenNames v3
  try clear_value v3
  refine Onward.upd ?_ rfl
  exact Onward.refl _

theorem State.runDone_onward (s : State) (c : CmdCtx) : Onward s (State.runDone s c) := by
  unfold State.runDone
  extract_lets +onlyGivenNames v1
  try clear_value v1
  extract_lets +onlyGivenNames v2
  try clear_value v2
  extract_lets +onlyGivenNames v3
  have h3 : Onward s v3 := by
    subst v3
    split
    · refine Onward.ite ?_ ?_
      · refine Onward.upd ?_ rfl
        exact Onward.refl _
      · extract_lets +onlyGivenNames v4
        try clear_value v4
        with_reducible refine Onward.trans ?_ (State.handoffCheck_onward _)
        refine Onward.upd ?_ rfl
        exact Onward.refl _
    · exact Onward.refl _
  try clear_value v3
  with_reducible refine Onward.trans ?_ (State.finish_onward _ _ _ _)
  assumption

theorem State.askKeyState_onward (s : State) (ns : Nat) (gen : Nat) (hash : Nat) (ms : List Nat) (predEnd : Nat) : Onward s (State.askKeyState s ns gen hash ms predEnd) := by
  unfold State.askKeyState
  extract_lets +onlyGivenNames v1
  try clear_value v1
  extract_lets +onlyGivenNames v2
  try clear_value v2
  extract_lets +onlyGivenNames v3
  try clear_value v3
  extract_lets +onlyGivenNames v4
  have h4 : Onward s v4 := by
    subst v4
    with_reducible refine Onward.trans ?_ (State.setGather_onward _ _)
    exact Onward.refl _
  try clear_value v4
  refine Onward.trans ?_ (Onward.foldl (fun z6 y6 => ?_) _ _)
  · assumption
  · with_reducible refine Onward.trans ?_ (State.sendQuery_onward _ _ _ _ _ _ _)
    exact Onward.refl _

theorem State.runPending_onward (s : State) (c : CmdCtx) : Onward s (State.runPending s c) := by
  unfold State.runPending
  extract_lets +onlyGivenNames v1
  try clear_value v1
  extract_lets +onlyGivenNames v2
  try clear_value v2
  extract_lets +onlyGivenNames v3
  have h3 : Onward s v3 := by
    subst v3
    split
    · exact Onward.refl _
    · extract_lets +onlyGivenNames v4
      have h4 : Onward s v4 := by
        subst v4
        with_reducible refine Onward.trans ?_ (State.askKeyState_onward _ _ _ _ _ _)
        exact Onward.refl _
      try clear_value v4
      split
      · with_reducible refine Onward.trans ?_ (State.setGather_onward _ _)
        assumption
      · assumption
  try clear_value v3
  with_reducible refine Onward.trans ?_ (State.finish_onward _ _ _ _)
  assumption

theorem State.runNs_onward (s : State) (c : CmdCtx) : Onward s (State.runNs s c) := by
  unfold State.runNs
  extract_lets +onlyGivenNames v1
  try clear_value v1
  extract_lets +onlyGivenNames v2
  try clear_value v2
  with_reducible refine Onward.trans ?_ (State.finish_onward _ _ _ _)
  with_reducible refine Onward.trans ?_ (State.applyNs_onward _ _ _ _)
  exact Onward.refl _

theorem State.runStripeCommit_onward (s : State) (c : CmdCtx) : Onward s (State.runStripeCommit s c) := by
  unfold State.runStripeCommit
  split
  · with_reducible refine Onward.trans ?_ (State.runCommit_onward _ _)
    exact Onward.refl _
  · with_reducible refine Onward.trans ?_ (State.runCommit_onward _ _)
    exact Onward.refl _
  · with_reducible refine Onward.trans ?_ (State.runHandoff_onward _ _)
    exact Onward.refl _
  · with_reducible refine Onward.trans ?_ (State.runDone_onward _ _)
    exact Onward.refl _
  · with_reducible refine Onward.trans ?_ (State.runPending_onward _ _)
    exact Onward.refl _
  · with_reducible refine Onward.trans ?_ (State.runNs_onward _ _)
    exact Onward.refl _

theorem State.runQuery_onward (s : State) (c : CmdCtx) : Onward s (State.runQuery s c) := by
  unfold State.runQuery
  refine Onward.ite ?_ ?_
  · exact Onward.refl _
  · split
    extract_lets +onlyGivenNames v1
    try clear_value v1
    extract_lets +onlyGivenNames v2
    try clear_value v2
    extract_lets +onlyGivenNames v3
    try clear_value v3
    with_reducible refine Onward.trans ?_ (State.reply_onward _ _ _ _ _)
    exact Onward.refl _

theorem State.startPeer_onward (s : State) (c : CmdCtx) : Onward s (State.startPeer s c) := by
  unfold State.startPeer
  split
  · with_reducible refine Onward.trans ?_ (State.runReserve_onward _ _)
    exact Onward.refl _
  · with_reducible refine Onward.trans ?_ (State.runPut_onward _ _)
    exact Onward.refl _
  · with_reducible refine Onward.trans ?_ (State.runGet_onward _ _)
    exact Onward.refl _
  · with_reducible refine Onward.trans ?_ (State.runRelease_onward _ _)
    exact Onward.refl _
  · with_reducible refine Onward.trans ?_ (State.runStripeCommit_onward _ _)
    exact Onward.refl _
  · with_reducible refine Onward.trans ?_ (State.runQuery_onward _ _)
    exact Onward.refl _

theorem State.answerWaiting_onward (s : State) : Onward s (State.answerWaiting s) := by
  unfold State.answerWaiting
  refine Onward.trans ?_ (Onward.foldl (fun z1 y1 => ?_) _ _)
  · exact Onward.refl _
  · extract_lets +onlyGivenNames v2
    try clear_value v2
    refine Onward.ite ?_ ?_
    · exact Onward.refl _
    · extract_lets +onlyGivenNames v3
      have h3 : Onward z1 v3 := by
        subst v3
        with_reducible refine Onward.trans ?_ (State.setFrag_onward _ _)
        exact Onward.refl _
      try clear_value v3
      refine Onward.trans ?_ (Onward.foldl (fun z5 y5 => ?_) _ _)
      · assumption
      · split
        · with_reducible refine Onward.trans ?_ (State.fragOk_onward _ _ _ _)
          exact Onward.refl _
        · exact Onward.refl _

theorem State.applyNsEntries_onward (a0 : Nat) (a1 : State) (a2 : Bytes) : Onward a1 (State.applyNsEntries a0 a1 a2) := by
  induction a0 generalizing a1 a2 with
  | zero =>
    rw [State.applyNsEntries]
    exact Onward.refl _
  | succ n ih =>
    rw [State.applyNsEntries]
    refine Onward.ite ?_ ?_
    · exact Onward.refl _
    · extract_lets +onlyGivenNames v1
      have h1 : Onward a1 v1 := by
        subst v1
        with_reducible refine Onward.trans ?_ (State.applyNs_onward _ _ _ _)
        exact Onward.refl _
      try clear_value v1
      refine Onward.trans ?_ (ih ..)
      assumption

theorem State.handoffDone_onward (s : State) : Onward s (State.handoffDone s) := by
  unfold State.handoffDone
  extract_lets +onlyGivenNames v1
  try clear_value v1
  extract_lets +onlyGivenNames v2
  try clear_value v2
  extract_lets +onlyGivenNames v3
  have h3 : Onward s v3 := by
    subst v3
    refine Onward.trans ?_ (Onward.foldl (fun z4 y4 => ?_) _ _)
    · exact Onward.refl _
    · refine Onward.trans ?_ (Onward.foldl (fun z5 y5 => ?_) _ _)
      · exact Onward.refl _
      · with_reducible refine Onward.trans ?_ (State.sendDone_onward _ _ _)
        exact Onward.refl _
  try clear_value v3
  extract_lets +onlyGivenNames v7
  try clear_value v7
  with_reducible refine Onward.trans ?_ (State.handoffCheck_onward _)
  refine Onward.upd ?_ rfl
  assumption

theorem State.queueMoves_onward (s : State) : Onward s (State.queueMoves s) := by
  unfold State.queueMoves
  refine Onward.trans ?_ (Onward.foldl (fun z1 y1 => ?_) _ _)
  · exact Onward.refl _
  · refine Onward.trans ?_ (Onward.foldl (fun z2 y2 => ?_) _ _)
    · exact Onward.refl _
    · split
      · with_reducible refine Onward.trans ?_ (State.queueRepair_onward _ _ _ _)
        exact Onward.refl _
      · exact Onward.refl _

theorem State.review_onward (s : State) : Onward s (State.review s) := by
  unfold State.review
  refine Onward.ite ?_ ?_
  · with_reducible refine Onward.trans ?_ (State.queueMoves_onward _)
    exact Onward.refl _
  · exact Onward.refl _

theorem State.noteMembers_onward (s : State) : Onward s (State.noteMembers s) := by
  unfold State.noteMembers
  extract_lets +onlyGivenNames v1
  try clear_value v1
  refine Onward.upd ?_ rfl
  exact Onward.refl _

theorem State.peersLeft_onward (s : State) (g : GroupMap) (c : CmdCtx) : Onward s (State.peersLeft s g c) := by
  unfold State.peersLeft
  split
  · exact Onward.refl _
  · extract_lets +onlyGivenNames v1
    try clear_value v1
    refine Onward.ite ?_ ?_
    · exact Onward.refl _
    · extract_lets +onlyGivenNames v2
      try clear_value v2
      with_reducible refine Onward.trans ?_ (State.phaseOne_onward _ _)
      with_reducible refine Onward.trans ?_ (State.setCmd_onward _ _)
      exact Onward.refl _

theorem State.takeOwn_onward (s : State) (o : Owed) : Onward s (State.takeOwn s o) := by
  unfold State.takeOwn
  extract_lets +onlyGivenNames v1
  have h1 : Onward s v1 := by
    subst v1
    split
    · with_reducible refine Onward.trans ?_ (State.adopt_onward _ _)
      exact Onward.refl _
    · exact Onward.refl _
  try clear_value v1
  extract_lets +onlyGivenNames v3
  try clear_value v3
  extract_lets +onlyGivenNames v4
  try clear_value v4
  refine Onward.ite ?_ ?_
  · assumption
  · with_reducible refine Onward.trans ?_ (State.askKeyState_onward _ _ _ _ _ _)
    assumption

theorem State.activateMap_onward (s : State) (g : GroupMap) : Onward s (State.activateMap s g) := by
  unfold State.activateMap
  extract_lets +onlyGivenNames v1
  try clear_value v1
  extract_lets +onlyGivenNames v2
  have h2 : Onward s v2 := by
    subst v2
    with_reducible refine Onward.trans ?_ (State.event_onward _ _ _)
    exact Onward.refl _
  try clear_value v2
  split
  · with_reducible refine Onward.trans ?_ (State.noteMembers_onward _)
    refine Onward.upd ?_ rfl
    assumption
  · extract_lets +onlyGivenNames v5
    try clear_value v5
    extract_lets +onlyGivenNames v6
    try clear_value v6
    extract_lets +onlyGivenNames v7
    try clear_value v7
    extract_lets +onlyGivenNames v8
    try clear_value v8
    extract_lets +onlyGivenNames v9
    try clear_value v9
    extract_lets +onlyGivenNames v10
    try clear_value v10
    extract_lets +onlyGivenNames v11
    have h11 : Onward s v11 := by
      subst v11
      refine Onward.upd ?_ rfl
      assumption
    try clear_value v11
    extract_lets +onlyGivenNames v12
    have h12 : Onward s v12 := by
      subst v12
      with_reducible refine Onward.trans ?_ (State.noteMembers_onward _)
      with_reducible refine Onward.trans ?_ (State.queueMoves_onward _)
      with_reducible refine Onward.trans ?_ (State.handoffDone_onward _)
      refine Onward.trans ?_ (Onward.foldl (fun z16 y16 => ?_) _ _)
      · assumption
      · with_reducible refine Onward.trans ?_ (State.takeOwn_onward _ _)
        exact Onward.refl _
    try clear_value v12
    refine Onward.trans ?_ (Onward.foldl (fun z18 y18 => ?_) _ _)
    · assumption
    · with_reducible refine Onward.trans ?_ (State.peersLeft_onward _ _ _)
      exact Onward.refl _

theorem State.mapWrite_onward (s : State) (b : Bytes) : Onward s (State.mapWrite s b).1 := by
  unfold State.mapWrite
  extract_lets +onlyGivenNames v1
  try clear_value v1
  extract_lets +onlyGivenNames v2
  try clear_value v2
  refine Onward.ite_fst ?_ ?_
  · refine Onward.fst_mk ?_
    with_reducible refine Onward.trans ?_ (State.event_onward _ _ _)
    exact Onward.refl _
  · refine Onward.ite_fst ?_ ?_
    · refine Onward.fst_mk ?_
      exact Onward.refl _
    · refine Onward.ite_fst ?_ ?_
      · refine Onward.fst_mk ?_
        with_reducible refine Onward.trans ?_ (State.activateMap_onward _ _)
        exact Onward.refl _
      · refine Onward.fst_mk ?_
        refine Onward.upd ?_ rfl
        exact Onward.refl _
theorem State.mapWrite_onward_eq {s : State} {b : Bytes} {r1 r2} (hres : State.mapWrite s b = (r1, r2)) : Onward s r1 := by
  have k := State.mapWrite_onward s b
  rw [hres] at k
  exact k

end Sys2Proof.Machine
end

