-- ==== Sys2Proof/Laws/OnwardModes.lean ====
section
/-! SUPPORT. What the operations and meanings of modes, MUSTER, alarms and power do: each only goes onward (Laws/Onward.lean). -/

namespace Sys2Proof.Machine

theorem State.setRtc_onward (s : State) (v : Nat) : Onward s (State.setRtc s v) := by
  unfold State.setRtc
  refine Onward.upd ?_ rfl
  exact Onward.refl _

theorem State.canSend_onward (s : State) (id : Nat) (b : Bytes) : Onward s (State.canSend s id b) := by
  unfold State.canSend
  with_reducible refine Onward.trans ?_ (State.bump_onward _ _)
  with_reducible refine Onward.trans ?_ (State.emit_onward _ _)
  exact Onward.refl _

theorem State.heartbeatNow_onward (s : State) : Onward s (State.heartbeatNow s) := by
  unfold State.heartbeatNow
  refine Onward.ite ?_ ?_
  · exact Onward.refl _
  · extract_lets +onlyGivenNames v1
    have h1 : Onward s v1 := by
      subst v1
      with_reducible refine Onward.trans ?_ (State.canSend_onward _ _ _)
      exact Onward.refl _
    try clear_value v1
    refine Onward.upd ?_ rfl
    assumption

theorem State.enterMode_onward (s : State) (m : Mode) (trig : Nat) : Onward s (State.enterMode s m trig) := by
  unfold State.enterMode
  extract_lets +onlyGivenNames v1
  try clear_value v1
  extract_lets +onlyGivenNames v2
  try clear_value v2
  extract_lets +onlyGivenNames v3
  try clear_value v3
  extract_lets +onlyGivenNames v4
  have h4 : Onward s v4 := by
    subst v4
    refine Onward.ite ?_ ?_
    · refine Onward.upd ?_ rfl
      exact Onward.refl _
    · exact Onward.refl _
  try clear_value v4
  extract_lets +onlyGivenNames v5
  try clear_value v5
  extract_lets +onlyGivenNames v6
  try clear_value v6
  extract_lets +onlyGivenNames v7
  have h7 : Onward s v7 := by
    subst v7
    refine Onward.upd ?_ rfl
    assumption
  try clear_value v7
  extract_lets +onlyGivenNames v8
  try clear_value v8
  split
  extract_lets +onlyGivenNames v9
  have h9 : Onward s v9 := by
    subst v9
    with_reducible refine Onward.trans ?_ (State.cpcIrq_onward _ _)
    refine Onward.trans ?_ (State.eventSeq_onward_eq (by assumption))
    with_reducible refine Onward.trans ?_ (State.bump_onward _ _)
    assumption
  try clear_value v9
  extract_lets +onlyGivenNames v12
  have h12 : Onward s v12 := by
    subst v12
    refine Onward.ite ?_ ?_
    · assumption
    · with_reducible refine Onward.trans ?_ (State.heartbeatNow_onward _)
      assumption
  try clear_value v12
  with_reducible refine Onward.trans ?_ (State.linkCond_onward _ _ _ _)
  assumption

theorem State.gpioApply_onward (s : State) : Onward s (State.gpioApply s) := by
  unfold State.gpioApply
  extract_lets +onlyGivenNames v1
  try clear_value v1
  with_reducible refine Onward.trans ?_ (State.emit_onward _ _)
  exact Onward.refl _

theorem State.powerUp_onward (s : State) (d : Dom) : Onward s (State.powerUp s d) := by
  unfold State.powerUp
  refine Onward.ite ?_ ?_
  · exact Onward.refl _
  · refine Onward.ite ?_ ?_
    · with_reducible refine Onward.trans ?_ (State.dmaResume_onward _)
      with_reducible refine Onward.trans ?_ (State.domTo_onward _ _ _)
      exact Onward.refl _
    · extract_lets +onlyGivenNames v3
      have h3 : Onward s v3 := by
        subst v3
        refine Onward.ite ?_ ?_
        · exact Onward.refl _
        · with_reducible refine Onward.trans ?_ (State.domTo_onward _ _ _)
          exact Onward.refl _
      try clear_value v3
      refine Onward.ite ?_ ?_
      · assumption
      · refine Onward.upd ?_ rfl
        assumption

theorem State.powerDowns_onward (s : State) (l : List Dom) : Onward s (State.powerDowns s l) := by
  unfold State.powerDowns
  refine Onward.trans ?_ (Onward.foldl (fun z1 y1 => ?_) _ _)
  · exact Onward.refl _
  · with_reducible refine Onward.trans ?_ (State.powerDown_onward _ _)
    exact Onward.refl _

theorem State.powerUps_onward (s : State) (l : List Dom) : Onward s (State.powerUps s l) := by
  unfold State.powerUps
  refine Onward.trans ?_ (Onward.foldl (fun z1 y1 => ?_) _ _)
  · exact Onward.refl _
  · with_reducible refine Onward.trans ?_ (State.powerUp_onward _ _)
    exact Onward.refl _

theorem State.siteHold_onward (s : State) : Onward s (State.siteHold s) := by
  unfold State.siteHold
  refine Onward.ite ?_ ?_
  · refine Onward.upd ?_ rfl
    exact Onward.refl _
  · exact Onward.refl _

theorem State.siteRelease_onward (s : State) : Onward s (State.siteRelease s) := by
  unfold State.siteRelease
  refine Onward.ite ?_ ?_
  · refine Onward.upd ?_ rfl
    exact Onward.refl _
  · exact Onward.refl _

theorem State.portOff_onward (s : State) (p : PortId) : Onward s (State.portOff s p) := by
  unfold State.portOff
  extract_lets +onlyGivenNames v1
  try clear_value v1
  extract_lets +onlyGivenNames v2
  try clear_value v2
  extract_lets +onlyGivenNames v3
  have h3 : Onward s v3 := by
    subst v3
    refine Onward.upd ?_ rfl
    exact Onward.refl _
  try clear_value v3
  with_reducible refine Onward.trans ?_ (State.setPort_onward _ _ _)
  assumption

theorem State.portStart_onward (s : State) (p : PortId) : Onward s (State.portStart s p) := by
  unfold State.portStart
  extract_lets +onlyGivenNames v1
  try clear_value v1
  extract_lets +onlyGivenNames v2
  try clear_value v2
  extract_lets +onlyGivenNames v3
  have h3 : Onward s v3 := by
    subst v3
    refine Onward.upd ?_ rfl
    exact Onward.refl _
  try clear_value v3
  refine Onward.ite ?_ ?_
  · with_reducible refine Onward.trans ?_ (State.setPort_onward _ _ _)
    assumption
  · with_reducible refine Onward.trans ?_ (State.portOff_onward _ _)
    assumption

theorem State.enterHalt_onward (s : State) (c : HaltCause) : Onward s (State.enterHalt s c) := by
  unfold State.enterHalt
  extract_lets +onlyGivenNames v1
  try clear_value v1
  extract_lets +onlyGivenNames v2
  have h2 : Onward s v2 := by
    subst v2
    refine Onward.upd ?_ rfl
    exact Onward.refl _
  try clear_value v2
  extract_lets +onlyGivenNames v3
  have h3 : Onward s v3 := by
    subst v3
    with_reducible refine Onward.trans ?_ (State.enterMode_onward _ _ _)
    with_reducible refine Onward.trans ?_ (State.setNum_onward _ _ _)
    assumption
  try clear_value v3
  extract_lets +onlyGivenNames v6
  have h6 : Onward s v6 := by
    subst v6
    with_reducible refine Onward.trans ?_ (State.portOff_onward _ _)
    with_reducible refine Onward.trans ?_ (State.portOff_onward _ _)
    with_reducible refine Onward.trans ?_ (State.siteHold_onward _)
    assumption
  try clear_value v6
  extract_lets +onlyGivenNames v10
  try clear_value v10
  extract_lets +onlyGivenNames v11
  have h11 : Onward s v11 := by
    subst v11
    refine Onward.upd ?_ rfl
    assumption
  try clear_value v11
  extract_lets +onlyGivenNames v12
  have h12 : Onward s v12 := by
    subst v12
    with_reducible refine Onward.trans ?_ (State.powerDowns_onward _ _)
    assumption
  try clear_value v12
  refine Onward.ite ?_ ?_
  · with_reducible refine Onward.trans ?_ (State.powerDowns_onward _ _)
    assumption
  · assumption

theorem State.closeAll_onward (s : State) (reason : Nat) : Onward s (State.closeAll s reason) := by
  unfold State.closeAll
  extract_lets +onlyGivenNames v1
  try clear_value v1
  extract_lets +onlyGivenNames v2
  have h2 : Onward s v2 := by
    subst v2
    refine Onward.upd ?_ rfl
    exact Onward.refl _
  try clear_value v2
  refine Onward.trans ?_ (Onward.foldl (fun z3 y3 => ?_) _ _)
  · assumption
  · with_reducible refine Onward.trans ?_ (State.closeSession_onward _ _ _ _)
    exact Onward.refl _

theorem State.shedOps_onward (s : State) : Onward s (State.shedOps s) := by
  unfold State.shedOps
  extract_lets +onlyGivenNames v1
  try clear_value v1
  extract_lets +onlyGivenNames v2
  try clear_value v2
  extract_lets +onlyGivenNames v3
  have h3 : Onward s v3 := by
    subst v3
    refine Onward.upd ?_ rfl
    exact Onward.refl _
  try clear_value v3
  refine Onward.ite ?_ ?_
  · assumption
  · refine Onward.trans ?_ (Onward.foldl (fun z4 y4 => ?_) _ _)
    · assumption
    · with_reducible refine Onward.trans ?_ (State.suspendOp_onward _ _ _)
      exact Onward.refl _

theorem State.startFlush_onward (s : State) (why : FlushWhy) : Onward s (State.startFlush s why) := by
  unfold State.startFlush
  extract_lets +onlyGivenNames v1
  try clear_value v1
  extract_lets +onlyGivenNames v2
  try clear_value v2
  extract_lets +onlyGivenNames v3
  have h3 : Onward s v3 := by
    subst v3
    refine Onward.trans ?_ (Onward.foldl (fun z4 y4 => ?_) _ _)
    · exact Onward.refl _
    · extract_lets +onlyGivenNames v5
      with_reducible refine Onward.trans ?_ (State.dmaForce_onward _ _ _ _)
      subst v5
      with_reducible refine Onward.trans ?_ (State.drawFree_onward _)
      exact Onward.refl _
  try clear_value v3
  extract_lets +onlyGivenNames v7
  have h7 : Onward s v7 := by
    subst v7
    with_reducible refine Onward.trans ?_ (State.portOff_onward _ _)
    with_reducible refine Onward.trans ?_ (State.portOff_onward _ _)
    with_reducible refine Onward.trans ?_ (State.powerDowns_onward _ _)
    assumption
  try clear_value v7
  extract_lets +onlyGivenNames v11
  have h11 : Onward s v11 := by
    subst v11
    with_reducible refine Onward.trans ?_ (State.shedOps_onward _)
    assumption
  try clear_value v11
  refine Onward.upd ?_ rfl
  assumption

theorem State.appendBatch_onward (s : State) : Onward s (State.appendBatch s) := by
  unfold State.appendBatch
  extract_lets +onlyGivenNames v1
  try clear_value v1
  refine Onward.ite ?_ ?_
  · exact Onward.refl _
  · extract_lets +onlyGivenNames v2
    have h2 : Onward s v2 := by
      subst v2
      with_reducible refine Onward.trans ?_ (State.journal_onward _ _ _)
      exact Onward.refl _
    try clear_value v2
    refine Onward.upd ?_ rfl
    assumption

theorem State.flushUnits_onward (s : State) (l : List UnitId) : Onward s (State.flushUnits s l) := by
  unfold State.flushUnits
  refine Onward.trans ?_ (Onward.foldl (fun z1 y1 => ?_) _ _)
  · exact Onward.refl _
  · refine Onward.ite ?_ ?_
    · with_reducible refine Onward.trans ?_ (State.unitDone_onward _ _ _)
      exact Onward.refl _
    · exact Onward.refl _

theorem State.writeBuffer_onward (s : State) (cut : Option Nat) : Onward s (State.writeBuffer s cut).1 := by
  unfold State.writeBuffer
  extract_lets +onlyGivenNames v1
  try clear_value v1
  extract_lets +onlyGivenNames v2
  have h2 : Onward s v2 := by
    subst v2
    refine Onward.ite ?_ ?_
    · refine Onward.upd ?_ rfl
      exact Onward.refl _
    · exact Onward.refl _
  try clear_value v2
  extract_lets +onlyGivenNames v3
  have h3 : Onward s v3 := by
    subst v3
    with_reducible refine Onward.trans ?_ (State.appendBatch_onward _)
    assumption
  try clear_value v3
  extract_lets +onlyGivenNames v5
  try clear_value v5
  extract_lets +onlyGivenNames v6
  have h6 : Onward s v6 := by
    subst v6
    refine Onward.trans ?_ (Onward.foldl (fun z7 y7 => ?_) _ _)
    · assumption
    · with_reducible refine Onward.trans ?_ (State.unitDone_onward _ _ _)
      exact Onward.refl _
  try clear_value v6
  extract_lets +onlyGivenNames v8
  try clear_value v8
  extract_lets +onlyGivenNames v9
  try clear_value v9
  extract_lets +onlyGivenNames v10
  have h10 : Onward s v10 := by
    subst v10
    refine Onward.upd ?_ rfl
    assumption
  try clear_value v10
  extract_lets +onlyGivenNames v11
  try clear_value v11
  extract_lets +onlyGivenNames v12
  try clear_value v12
  extract_lets +onlyGivenNames v13
  have h13 : Onward s v13 := by
    subst v13
    refine Onward.trans ?_ (Onward.foldl (fun z14 y14 => ?_) _ _)
    · assumption
    · with_reducible refine Onward.trans ?_ (State.reappend_onward _ _ _)
      exact Onward.refl _
  try clear_value v13
  extract_lets +onlyGivenNames v16
  try clear_value v16
  extract_lets +onlyGivenNames v17
  try clear_value v17
  refine Onward.fst_mk ?_
  with_reducible refine Onward.trans ?_ (State.flushUnits_onward _ _)
  assumption
theorem State.writeBuffer_onward_eq {s : State} {cut : Option Nat} {r1 r2} (hres : State.writeBuffer s cut = (r1, r2)) : Onward s r1 := by
  have k := State.writeBuffer_onward s cut
  rw [hres] at k
  exact k

theorem State.writeOut_onward (s : State) : Onward s (State.writeOut s).1 := by
  unfold State.writeOut
  split
  extract_lets +onlyGivenNames v1
  have h1 : Onward s v1 := by
    subst v1
    with_reducible refine Onward.trans ?_ (State.flushUnits_onward _ _)
    refine Onward.trans ?_ (State.writeBuffer_onward_eq (by assumption))
    exact Onward.refl _
  try clear_value v1
  extract_lets +onlyGivenNames v3
  have h3 : Onward s v3 := by
    subst v3
    with_reducible refine Onward.trans ?_ (State.journal_onward _ _ _)
    assumption
  try clear_value v3
  extract_lets +onlyGivenNames v5
  have h5 : Onward s v5 := by
    subst v5
    with_reducible refine Onward.trans ?_ (State.flushUnits_onward _ _)
    assumption
  try clear_value v5
  refine Onward.fst_mk ?_
  refine Onward.upd ?_ rfl
  assumption
theorem State.writeOut_onward_eq {s : State} {r1 r2} (hres : State.writeOut s = (r1, r2)) : Onward s r1 := by
  have k := State.writeOut_onward s
  rw [hres] at k
  exact k

theorem State.loseMain_onward (s : State) : Onward s (State.loseMain s) := by
  unfold State.loseMain
  extract_lets +onlyGivenNames v1
  have h1 : Onward s v1 := by
    subst v1
    with_reducible refine Onward.trans ?_ (State.dropSessions_onward _)
    exact Onward.refl _
  try clear_value v1
  extract_lets +onlyGivenNames v3
  try clear_value v3
  extract_lets +onlyGivenNames v4
  try clear_value v4
  extract_lets +onlyGivenNames v5
  try clear_value v5
  extract_lets +onlyGivenNames v6
  try clear_value v6
  extract_lets +onlyGivenNames v7
  try clear_value v7
  extract_lets +onlyGivenNames v8
  try clear_value v8
  extract_lets +onlyGivenNames v9
  try clear_value v9
  with_reducible refine Onward.trans ?_ (State.condOff_onward _ _)
  refine Onward.upd ?_ rfl
  assumption

theorem State.abortTransfers_onward (s : State) : Onward s (State.abortTransfers s) := by
  unfold State.abortTransfers
  refine Onward.trans ?_ (Onward.foldl (fun z1 y1 => ?_) _ _)
  · refine Onward.upd ?_ rfl
    exact Onward.refl _
  · with_reducible refine Onward.trans ?_ (State.canSend_onward _ _ _)
    exact Onward.refl _

theorem State.askPower_onward (s : State) (target : Mode) (trig : Nat) : Onward s (State.askPower s target trig) := by
  unfold State.askPower
  extract_lets +onlyGivenNames v1
  have h1 : Onward s v1 := by
    subst v1
    with_reducible refine Onward.trans ?_ (State.modeNotice_onward _ _ _)
    exact Onward.refl _
  try clear_value v1
  with_reducible refine Onward.trans ?_ (State.cpcIrq_onward _ _)
  refine Onward.upd ?_ rfl
  assumption

theorem State.enterDormant_onward (s : State) : Onward s (State.enterDormant s) := by
  unfold State.enterDormant
  extract_lets +onlyGivenNames v1
  try clear_value v1
  extract_lets +onlyGivenNames v2
  have h2 : Onward s v2 := by
    subst v2
    with_reducible refine Onward.trans ?_ (State.abortTransfers_onward _)
    with_reducible refine Onward.trans ?_ (State.loseMain_onward _)
    exact Onward.refl _
  try clear_value v2
  extract_lets +onlyGivenNames v5
  try clear_value v5
  extract_lets +onlyGivenNames v6
  have h6 : Onward s v6 := by
    subst v6
    refine Onward.upd ?_ rfl
    assumption
  try clear_value v6
  extract_lets +onlyGivenNames v7
  try clear_value v7
  extract_lets +onlyGivenNames v8
  have h8 : Onward s v8 := by
    subst v8
    refine Onward.trans ?_ (Onward.foldl (fun z9 y9 => ?_) _ _)
    · assumption
    · with_reducible refine Onward.trans ?_ (State.setSrc_onward _ _ _)
      exact Onward.refl _
  try clear_value v8
  extract_lets +onlyGivenNames v11
  try clear_value v11
  extract_lets +onlyGivenNames v12
  have h12 : Onward s v12 := by
    subst v12
    refine Onward.upd ?_ rfl
    assumption
  try clear_value v12
  extract_lets +onlyGivenNames v13
  have h13 : Onward s v13 := by
    subst v13
    with_reducible refine Onward.trans ?_ (State.enterMode_onward _ _ _)
    assumption
  try clear_value v13
  extract_lets +onlyGivenNames v15
  try clear_value v15
  extract_lets +onlyGivenNames v16
  try clear_value v16
  extract_lets +onlyGivenNames v17
  try clear_value v17
  extract_lets +onlyGivenNames v18
  extract_lets +onlyGivenNames v19
  have h19 : Onward s v19 := by
    subst v19
    refine Onward.upd ?_ rfl
    assumption
  try clear_value v19
  split
  · with_reducible refine Onward.trans ?_ (State.askPower_onward _ _ _)
    assumption
  · with_reducible refine Onward.trans ?_ (State.askPower_onward _ _ _)
    assumption
  · assumption

theorem State.lullExit_onward (s : State) (trig : Nat) : Onward s (State.lullExit s trig) := by
  unfold State.lullExit
  extract_lets +onlyGivenNames v1
  try clear_value v1
  extract_lets +onlyGivenNames v2
  have h2 : Onward s v2 := by
    subst v2
    with_reducible refine Onward.trans ?_ (State.enterMode_onward _ _ _)
    exact Onward.refl _
  try clear_value v2
  extract_lets +onlyGivenNames v4
  try clear_value v4
  extract_lets +onlyGivenNames v5
  try clear_value v5
  extract_lets +onlyGivenNames v6
  have h6 : Onward s v6 := by
    subst v6
    refine Onward.upd ?_ rfl
    assumption
  try clear_value v6
  extract_lets +onlyGivenNames v7
  try clear_value v7
  extract_lets +onlyGivenNames v8
  have h8 : Onward s v8 := by
    subst v8
    refine Onward.upd ?_ rfl
    assumption
  try clear_value v8
  extract_lets +onlyGivenNames v9
  try clear_value v9
  extract_lets +onlyGivenNames v10
  have h10 : Onward s v10 := by
    subst v10
    with_reducible refine Onward.trans ?_ (State.setPll_onward _ _ _)
    assumption
  try clear_value v10
  extract_lets +onlyGivenNames v12
  try clear_value v12
  extract_lets +onlyGivenNames v13
  have h13 : Onward s v13 := by
    subst v13
    with_reducible refine Onward.trans ?_ (State.setPll_onward _ _ _)
    assumption
  try clear_value v13
  extract_lets +onlyGivenNames v15
  have h15 : Onward s v15 := by
    subst v15
    with_reducible refine Onward.trans ?_ (State.powerUps_onward _ _)
    assumption
  try clear_value v15
  extract_lets +onlyGivenNames v17
  try clear_value v17
  extract_lets +onlyGivenNames v18
  have h18 : Onward s v18 := by
    subst v18
    refine Onward.ite ?_ ?_
    · refine Onward.upd ?_ rfl
      assumption
    · assumption
  try clear_value v18
  extract_lets +onlyGivenNames v19
  try clear_value v19
  refine Onward.upd ?_ rfl
  assumption

theorem State.beginDrain_onward (s : State) (target : Mode) (trig : Nat) : Onward s (State.beginDrain s target trig) := by
  unfold State.beginDrain
  extract_lets +onlyGivenNames v1
  have h1 : Onward s v1 := by
    subst v1
    refine Onward.ite ?_ ?_
    · with_reducible refine Onward.trans ?_ (State.lullExit_onward _ _)
      exact Onward.refl _
    · exact Onward.refl _
  try clear_value v1
  extract_lets +onlyGivenNames v3
  have h3 : Onward s v3 := by
    subst v3
    with_reducible refine Onward.trans ?_ (State.modeNotice_onward _ _ _)
    assumption
  try clear_value v3
  with_reducible refine Onward.trans ?_ (State.cpcIrq_onward _ _)
  refine Onward.upd ?_ rfl
  assumption

theorem State.requestMode_onward (s : State) (m : Mode) (trig : Nat) : Onward s (State.requestMode s m trig).1 := by
  unfold State.requestMode
  extract_lets +onlyGivenNames v1
  try clear_value v1
  refine Onward.ite_fst ?_ ?_
  · refine Onward.fst_mk ?_
    exact Onward.refl _
  · refine Onward.ite_fst ?_ ?_
    · refine Onward.fst_mk ?_
      refine Onward.upd ?_ rfl
      exact Onward.refl _
    · split
      · refine Onward.fst_mk ?_
        refine Onward.upd ?_ rfl
        exact Onward.refl _
      · refine Onward.ite_fst ?_ ?_
        · refine Onward.fst_mk ?_
          refine Onward.upd ?_ rfl
          exact Onward.refl _
        · refine Onward.fst_mk ?_
          refine Onward.upd ?_ rfl
          exact Onward.refl _
      · refine Onward.ite_fst ?_ ?_
        · refine Onward.fst_mk ?_
          exact Onward.refl _
        · refine Onward.fst_mk ?_
          refine Onward.upd ?_ rfl
          exact Onward.refl _
      · refine Onward.ite_fst ?_ ?_
        · refine Onward.fst_mk ?_
          with_reducible refine Onward.trans ?_ (State.cpcIrq_onward _ _)
          refine Onward.upd ?_ rfl
          exact Onward.refl _
        · refine Onward.fst_mk ?_
          with_reducible refine Onward.trans ?_ (State.cpcIrq_onward _ _)
          refine Onward.upd ?_ rfl
          exact Onward.refl _
      · split
        · refine Onward.ite_fst ?_ ?_
          · refine Onward.fst_mk ?_
            exact Onward.refl _
          · refine Onward.ite_fst ?_ ?_
            · refine Onward.fst_mk ?_
              refine Onward.upd ?_ rfl
              exact Onward.refl _
            · refine Onward.fst_mk ?_
              with_reducible refine Onward.trans ?_ (State.askPower_onward _ _ _)
              exact Onward.refl _
        · extract_lets +onlyGivenNames v5
          have h5 : Onward s v5 := by
            subst v5
            refine Onward.upd ?_ rfl
            exact Onward.refl _
          try clear_value v5
          refine Onward.ite_fst ?_ ?_
          · extract_lets +onlyGivenNames v6
            try clear_value v6
            extract_lets +onlyGivenNames v7
            have h7 : Onward s v7 := by
              subst v7
              refine Onward.upd ?_ rfl
              assumption
            try clear_value v7
            refine Onward.fst_mk ?_
            with_reducible refine Onward.trans ?_ (State.startFlush_onward _ _)
            assumption
          · refine Onward.fst_mk ?_
            assumption
        · refine Onward.ite_fst ?_ ?_
          · refine Onward.fst_mk ?_
            exact Onward.refl _
          · refine Onward.ite_fst ?_ ?_
            · extract_lets +onlyGivenNames v9
              have h9 : Onward s v9 := by
                subst v9
                with_reducible refine Onward.trans ?_ (State.powerUps_onward _ _)
                with_reducible refine Onward.trans ?_ (State.modeNotice_onward _ _ _)
                exact Onward.refl _
              try clear_value v9
              extract_lets +onlyGivenNames v12
              try clear_value v12
              extract_lets +onlyGivenNames v13
              try clear_value v13
              extract_lets +onlyGivenNames v14
              have h14 : Onward s v14 := by
                subst v14
                refine Onward.upd ?_ rfl
                assumption
              try clear_value v14
              extract_lets +onlyGivenNames v15
              have h15 : Onward s v15 := by
                subst v15
                with_reducible refine Onward.trans ?_ (State.enterMode_onward _ _ _)
                assumption
              try clear_value v15
              refine Onward.fst_mk ?_
              refine Onward.ite ?_ ?_
              · with_reducible refine Onward.trans ?_ (State.noteMembers_onward _)
                with_reducible refine Onward.trans ?_ (State.queueMoves_onward _)
                assumption
              · assumption
            · extract_lets +onlyGivenNames v19
              have h19 : Onward s v19 := by
                subst v19
                with_reducible refine Onward.trans ?_ (State.modeNotice_onward _ _ _)
                exact Onward.refl _
              try clear_value v19
              extract_lets +onlyGivenNames v21
              try clear_value v21
              extract_lets +onlyGivenNames v22
              have h22 : Onward s v22 := by
                subst v22
                refine Onward.upd ?_ rfl
                assumption
              try clear_value v22
              refine Onward.fst_mk ?_
              with_reducible refine Onward.trans ?_ (State.startFlush_onward _ _)
              with_reducible refine Onward.trans ?_ (State.cpcIrq_onward _ _)
              assumption
        · refine Onward.ite_fst ?_ ?_
          · refine Onward.fst_mk ?_
            exact Onward.refl _
          · refine Onward.fst_mk ?_
            with_reducible refine Onward.trans ?_ (State.beginDrain_onward _ _ _)
            exact Onward.refl _
theorem State.requestMode_onward_eq {s : State} {m : Mode} {trig : Nat} {r1 r2} (hres : State.requestMode s m trig = (r1, r2)) : Onward s r1 := by
  have k := State.requestMode_onward s m trig
  rw [hres] at k
  exact k

theorem State.goHalt_onward (s : State) (c : HaltCause) : Onward s (State.goHalt s c) := by
  unfold State.goHalt
  refine Onward.ite ?_ ?_
  · exact Onward.refl _
  · extract_lets +onlyGivenNames v1
    try clear_value v1
    extract_lets +onlyGivenNames v2
    have h2 : Onward s v2 := by
      subst v2
      refine Onward.upd ?_ rfl
      exact Onward.refl _
    try clear_value v2
    split
    · refine Onward.ite ?_ ?_
      · extract_lets +onlyGivenNames v3
        have h3 : Onward s v3 := by
          subst v3
          with_reducible refine Onward.trans ?_ (State.beginDrain_onward _ _ _)
          assumption
        try clear_value v3
        refine Onward.upd ?_ rfl
        assumption
      · with_reducible refine Onward.trans ?_ (State.startFlush_onward _ _)
        with_reducible refine Onward.trans ?_ (State.closeAll_onward _ _)
        with_reducible refine Onward.trans ?_ (State.modeNotice_onward _ _ _)
        assumption
    · with_reducible refine Onward.trans ?_ (State.startFlush_onward _ _)
      with_reducible refine Onward.trans ?_ (State.dropSessions_onward _)
      with_reducible refine Onward.trans ?_ (State.closeAll_onward _ _)
      with_reducible refine Onward.trans ?_ (State.modeNotice_onward _ _ _)
      assumption
    · with_reducible refine Onward.trans ?_ (State.enterHalt_onward _ _)
      with_reducible refine Onward.trans ?_ (State.dropSessions_onward _)
      assumption
    · with_reducible refine Onward.trans ?_ (State.enterHalt_onward _ _)
      with_reducible refine Onward.trans ?_ (State.dropSessions_onward _)
      assumption
    · with_reducible refine Onward.trans ?_ (State.enterHalt_onward _ _)
      with_reducible refine Onward.trans ?_ (State.dropSessions_onward _)
      with_reducible refine Onward.trans ?_ (State.closeAll_onward _ _)
      with_reducible refine Onward.trans ?_ (State.modeNotice_onward _ _ _)
      assumption

theorem State.drainDone_onward (s : State) : Onward s (State.drainDone s) := by
  unfold State.drainDone
  extract_lets +onlyGivenNames v1
  try clear_value v1
  extract_lets +onlyGivenNames v2
  have h2 : Onward s v2 := by
    subst v2
    with_reducible refine Onward.trans ?_ (State.closeAll_onward _ _)
    exact Onward.refl _
  try clear_value v2
  split
  · with_reducible refine Onward.trans ?_ (State.startFlush_onward _ _)
    assumption
  · extract_lets +onlyGivenNames v5
    have h5 : Onward s v5 := by
      subst v5
      with_reducible refine Onward.trans ?_ (State.enterMode_onward _ _ _)
      with_reducible refine Onward.trans ?_ (State.powerDowns_onward _ _)
      assumption
    try clear_value v5
    refine Onward.upd ?_ rfl
    assumption
  · with_reducible refine Onward.trans ?_ (State.startFlush_onward _ _)
    assumption
  · refine Onward.upd ?_ rfl
    assumption

theorem State.flushReport_onward (s : State) (bytes : Nat) (us : Nat) : Onward s (State.flushReport s bytes us) := by
  unfold State.flushReport
  with_reducible refine Onward.trans ?_ (State.bumpSys_onward _ _)
  with_reducible refine Onward.trans ?_ (State.setSys_onward _ _ _)
  with_reducible refine Onward.trans ?_ (State.event_onward _ _ _)
  exact Onward.refl _

theorem State.limitChanged_onward (s : State) (old : Nat) : Onward s (State.limitChanged s old) := by
  unfold State.limitChanged
  extract_lets +onlyGivenNames v1
  try clear_value v1
  refine Onward.ite ?_ ?_
  · exact Onward.refl _
  · refine Onward.ite ?_ ?_
    · refine Onward.upd ?_ rfl
      exact Onward.refl _
    · extract_lets +onlyGivenNames v2
      try clear_value v2
      extract_lets +onlyGivenNames v3
      try clear_value v3
      extract_lets +onlyGivenNames v4
      have h4 : Onward s v4 := by
        subst v4
        refine Onward.upd ?_ rfl
        exact Onward.refl _
      try clear_value v4
      with_reducible refine Onward.trans ?_ (State.event_onward _ _ _)
      assumption

theorem State.reloadDict_onward (s : State) : Onward s (State.reloadDict s) := by
  unfold State.reloadDict
  extract_lets +onlyGivenNames v1
  try clear_value v1
  extract_lets +onlyGivenNames v2
  try clear_value v2
  extract_lets +onlyGivenNames v3
  try clear_value v3
  extract_lets +onlyGivenNames v4
  try clear_value v4
  extract_lets +onlyGivenNames v5
  try clear_value v5
  extract_lets +onlyGivenNames v6
  try clear_value v6
  extract_lets +onlyGivenNames v7
  have h7 : Onward s v7 := by
    subst v7
    refine Onward.upd ?_ rfl
    exact Onward.refl _
  try clear_value v7
  with_reducible refine Onward.trans ?_ (State.setNum_onward _ _ _)
  assumption

theorem State.bootChoice_onward (s : State) : Onward s (State.bootChoice s).1 := by
  unfold State.bootChoice
  refine Onward.ite_fst ?_ ?_
  · split
    · refine Onward.ite_fst ?_ ?_
      · refine Onward.fst_mk ?_
        refine Onward.trans ?_ (State.tapImage_onward_eq (by assumption))
        exact Onward.refl _
      · refine Onward.fst_mk ?_
        refine Onward.trans ?_ (State.tapImage_onward_eq (by assumption))
        exact Onward.refl _
    · refine Onward.fst_mk ?_
      refine Onward.trans ?_ (State.tapImage_onward_eq (by assumption))
      exact Onward.refl _
  · extract_lets +onlyGivenNames v1
    try clear_value v1
    extract_lets +onlyGivenNames v2
    try clear_value v2
    extract_lets +onlyGivenNames v3
    try clear_value v3
    refine Onward.ite_fst ?_ ?_
    · refine Onward.fst_mk ?_
      exact Onward.refl _
    · refine Onward.ite_fst ?_ ?_
      · split
        · extract_lets +onlyGivenNames v4
          extract_lets +onlyGivenNames v5
          have h5 : Onward s v5 := by
            subst v5
            refine Onward.upd ?_ rfl
            exact Onward.refl _
          try clear_value v5
          refine Onward.fst_mk ?_
          with_reducible refine Onward.trans ?_ (State.event_onward _ _ _)
          assumption
        · refine Onward.fst_mk ?_
          exact Onward.refl _
      · split
        refine Onward.fst_mk ?_
        with_reducible refine Onward.trans ?_ (State.event_onward _ _ _)
        exact Onward.refl _
theorem State.bootChoice_onward_eq {s : State} {r1 r2} (hres : State.bootChoice s = (r1, r2)) : Onward s r1 := by
  have k := State.bootChoice_onward s
  rw [hres] at k
  exact k

theorem State.migrate_onward (s : State) (fmt : Nat) : Onward s (State.migrate s fmt) := by
  unfold State.migrate
  extract_lets +onlyGivenNames v1
  try clear_value v1
  refine Onward.ite ?_ ?_
  · exact Onward.refl _
  · extract_lets +onlyGivenNames v2
    try clear_value v2
    extract_lets +onlyGivenNames v3
    try clear_value v3
    extract_lets +onlyGivenNames v4
    try clear_value v4
    extract_lets +onlyGivenNames v5
    try clear_value v5
    extract_lets +onlyGivenNames v6
    extract_lets +onlyGivenNames v7
    try clear_value v7
    extract_lets +onlyGivenNames v8
    try clear_value v8
    extract_lets +onlyGivenNames v9
    have h9 : Onward s v9 := by
      subst v9
      refine Onward.upd ?_ rfl
      exact Onward.refl _
    try clear_value v9
    with_reducible refine Onward.trans ?_ (State.event_onward _ _ _)
    assumption

theorem State.emptyMaps_onward (s : State) : Onward s (State.emptyMaps s) := by
  unfold State.emptyMaps
  extract_lets +onlyGivenNames v1
  try clear_value v1
  extract_lets +onlyGivenNames v2
  try clear_value v2
  extract_lets +onlyGivenNames v3
  try clear_value v3
  refine Onward.upd ?_ rfl
  exact Onward.refl _

theorem State.doWipe_onward (s : State) (code : Nat) : Onward s (State.doWipe s code) := by
  unfold State.doWipe
  split
  extract_lets +onlyGivenNames v1
  try clear_value v1
  extract_lets +onlyGivenNames v2
  try clear_value v2
  extract_lets +onlyGivenNames v3
  try clear_value v3
  extract_lets +onlyGivenNames v4
  try clear_value v4
  extract_lets +onlyGivenNames v5
  try clear_value v5
  extract_lets +onlyGivenNames v6
  extract_lets +onlyGivenNames v7
  extract_lets +onlyGivenNames v8
  have h8 : Onward s v8 := by
    subst v8
    refine Onward.updOtp ?_ (OtpOnward.wipe ..)
    refine Onward.trans ?_ (State.random_onward_eq (by assumption))
    with_reducible refine Onward.trans ?_ (State.loadTable_onward _)
    exact Onward.refl _
  try clear_value v8
  extract_lets +onlyGivenNames v10
  have h10 : Onward s v10 := by
    subst v10
    refine Onward.ite ?_ ?_
    · assumption
    · with_reducible refine Onward.trans ?_ (State.emptyMaps_onward _)
      assumption
  try clear_value v10
  extract_lets +onlyGivenNames v12
  try clear_value v12
  extract_lets +onlyGivenNames v13
  try clear_value v13
  extract_lets +onlyGivenNames v14
  try clear_value v14
  extract_lets +onlyGivenNames v15
  have h15 : Onward s v15 := by
    subst v15
    refine Onward.ite ?_ ?_
    · refine Onward.upd ?_ rfl
      assumption
    · assumption
  try clear_value v15
  extract_lets +onlyGivenNames v16
  have h16 : Onward s v16 := by
    subst v16
    refine Onward.ite ?_ ?_
    · assumption
    · with_reducible refine Onward.trans ?_ (State.tableCopy_onward _)
      assumption
  try clear_value v16
  extract_lets +onlyGivenNames v18
  try clear_value v18
  extract_lets +onlyGivenNames v19
  try clear_value v19
  extract_lets +onlyGivenNames v20
  have h20 : Onward s v20 := by
    subst v20
    refine Onward.ite ?_ ?_
    · refine Onward.upd ?_ rfl
      assumption
    · assumption
  try clear_value v20
  split
  extract_lets +onlyGivenNames v21
  have h21 : Onward s v21 := by
    subst v21
    with_reducible refine Onward.trans ?_ (State.event_onward _ _ _)
    refine Onward.trans ?_ (State.drawFree_onward_eq (by assumption))
    assumption
  try clear_value v21
  refine Onward.ite ?_ ?_
  · assumption
  · with_reducible refine Onward.trans ?_ (State.event_onward _ _ _)
    assumption

theorem State.startSource_onward (s : State) (a1 : Source) : Onward s (State.startSource s a1) := by
  unfold State.startSource
  refine Onward.ite ?_ ?_
  · exact Onward.refl _
  · with_reducible refine Onward.trans ?_ (State.srcTo_onward _ _ _ _)
    with_reducible refine Onward.trans ?_ (State.srcTo_onward _ _ _ _)
    exact Onward.refl _

theorem State.lockPll_onward (s : State) (p : Pll) : Onward s (State.lockPll s p) := by
  unfold State.lockPll
  extract_lets +onlyGivenNames v1
  try clear_value v1
  refine Onward.ite ?_ ?_
  · with_reducible refine Onward.trans ?_ (State.setPll_onward _ _ _)
    exact Onward.refl _
  · with_reducible refine Onward.trans ?_ (State.event_onward _ _ _)
    with_reducible refine Onward.trans ?_ (State.setPll_onward _ _ _)
    exact Onward.refl _

theorem State.discover_onward (s : State) : Onward s (State.discover s) := by
  unfold State.discover
  extract_lets +onlyGivenNames v1
  try clear_value v1
  extract_lets +onlyGivenNames v2
  have h2 : Onward s v2 := by
    subst v2
    refine Onward.upd ?_ rfl
    exact Onward.refl _
  try clear_value v2
  extract_lets +onlyGivenNames v3
  try clear_value v3
  extract_lets +onlyGivenNames v4
  try clear_value v4
  extract_lets +onlyGivenNames v5
  try clear_value v5
  extract_lets +onlyGivenNames v6
  have h6 : Onward s v6 := by
    subst v6
    refine Onward.upd ?_ rfl
    assumption
  try clear_value v6
  extract_lets +onlyGivenNames v7
  try clear_value v7
  extract_lets +onlyGivenNames v8
  have h8 : Onward s v8 := by
    subst v8
    refine Onward.upd ?_ rfl
    assumption
  try clear_value v8
  extract_lets +onlyGivenNames v9
  try clear_value v9
  extract_lets +onlyGivenNames v10
  have h10 : Onward s v10 := by
    subst v10
    refine Onward.upd ?_ rfl
    assumption
  try clear_value v10
  extract_lets +onlyGivenNames v11
  have h11 : Onward s v11 := by
    subst v11
    refine Onward.trans ?_ (Onward.foldl (fun z12 y12 => ?_) _ _)
    · assumption
    · extract_lets +onlyGivenNames v13
      refine Onward.ite ?_ ?_
      · exact Onward.refl _
      · with_reducible refine Onward.trans ?_ (State.event_onward _ _ _)
        exact Onward.refl _
  try clear_value v11
  refine Onward.ite ?_ ?_
  · with_reducible refine Onward.trans ?_ (State.event_onward _ _ _)
    assumption
  · assumption

theorem State.musterSite_onward (s : State) : Onward s (State.musterSite s) := by
  unfold State.musterSite
  extract_lets +onlyGivenNames v1
  have h1 : Onward s v1 := by
    subst v1
    refine Onward.upd ?_ rfl
    exact Onward.refl _
  try clear_value v1
  split
  · extract_lets +onlyGivenNames v2
    have h2 : Onward s v2 := by
      subst v2
      with_reducible refine Onward.trans ?_ (State.loadSite_onward _ _)
      assumption
    try clear_value v2
    refine Onward.upd ?_ rfl
    assumption
  · extract_lets +onlyGivenNames v4
    try clear_value v4
    refine Onward.ite ?_ ?_
    · extract_lets +onlyGivenNames v5
      have h5 : Onward s v5 := by
        subst v5
        with_reducible refine Onward.trans ?_ (State.loadSite_onward _ _)
        assumption
      try clear_value v5
      refine Onward.upd ?_ rfl
      assumption
    · extract_lets +onlyGivenNames v7
      extract_lets +onlyGivenNames v8
      have h8 : Onward s v8 := by
        subst v8
        refine Onward.updMem ?_ (fun h => memClear_wf _ _ (memClear_wf _ _ h)) rfl
        assumption
      try clear_value v8
      with_reducible refine Onward.trans ?_ (State.event_onward _ _ _)
      assumption

theorem State.musterPower_onward (s : State) : Onward s (State.musterPower s) := by
  unfold State.musterPower
  extract_lets +onlyGivenNames v1
  extract_lets +onlyGivenNames v2
  extract_lets +onlyGivenNames v3
  have h3 : Onward s v3 := by
    subst v3
    refine Onward.updOtp ?_ (OtpOnward.revoke ..)
    exact Onward.refl _
  try clear_value v3
  extract_lets +onlyGivenNames v4
  have h4 : Onward s v4 := by
    subst v4
    refine Onward.trans ?_ (Onward.foldl (fun z5 y5 => ?_) _ _)
    · assumption
    · with_reducible refine Onward.trans ?_ (State.lockPll_onward _ _)
      exact Onward.refl _
  try clear_value v4
  extract_lets +onlyGivenNames v7
  try clear_value v7
  extract_lets +onlyGivenNames v8
  try clear_value v8
  extract_lets +onlyGivenNames v9
  have h9 : Onward s v9 := by
    subst v9
    refine Onward.upd ?_ rfl
    assumption
  try clear_value v9
  extract_lets +onlyGivenNames v10
  have h10 : Onward s v10 := by
    subst v10
    with_reducible refine Onward.trans ?_ (State.powerUps_onward _ _)
    assumption
  try clear_value v10
  extract_lets +onlyGivenNames v12
  try clear_value v12
  extract_lets +onlyGivenNames v13
  have h13 : Onward s v13 := by
    subst v13
    refine Onward.upd ?_ rfl
    assumption
  try clear_value v13
  extract_lets +onlyGivenNames v14
  have h14 : Onward s v14 := by
    subst v14
    with_reducible refine Onward.trans ?_ (State.discover_onward _)
    with_reducible refine Onward.trans ?_ (State.deviceDerive_onward _ _)
    assumption
  try clear_value v14
  refine Onward.upd ?_ rfl
  assumption

theorem State.musterServe_onward (s : State) : Onward s (State.musterServe s) := by
  unfold State.musterServe
  extract_lets +onlyGivenNames v1
  try clear_value v1
  extract_lets +onlyGivenNames v2
  try clear_value v2
  extract_lets +onlyGivenNames v3
  try clear_value v3
  extract_lets +onlyGivenNames v4
  try clear_value v4
  extract_lets +onlyGivenNames v5
  have h5 : Onward s v5 := by
    subst v5
    refine Onward.upd ?_ rfl
    exact Onward.refl _
  try clear_value v5
  extract_lets +onlyGivenNames v6
  have h6 : Onward s v6 := by
    subst v6
    with_reducible refine Onward.trans ?_ (State.portStart_onward _ _)
    with_reducible refine Onward.trans ?_ (State.portStart_onward _ _)
    with_reducible refine Onward.trans ?_ (State.musterSite_onward _)
    with_reducible refine Onward.trans ?_ (State.loadPolicy_onward _)
    with_reducible refine Onward.trans ?_ (State.loadTable_onward _)
    assumption
  try clear_value v6
  refine Onward.upd ?_ rfl
  assumption

theorem State.musterRest_onward (s : State) : Onward s (State.musterRest s) := by
  unfold State.musterRest
  extract_lets +onlyGivenNames v1
  have h1 : Onward s v1 := by
    subst v1
    with_reducible refine Onward.trans ?_ (State.musterPower_onward _)
    exact Onward.refl _
  try clear_value v1
  refine Onward.ite ?_ ?_
  · with_reducible refine Onward.trans ?_ (State.enterHalt_onward _ _)
    assumption
  · split
    · with_reducible refine Onward.trans ?_ (State.enterHalt_onward _ _)
      assumption
    · refine Onward.ite ?_ ?_
      · with_reducible refine Onward.trans ?_ (State.enterHalt_onward _ _)
        assumption
      · split
        · with_reducible refine Onward.trans ?_ (State.enterHalt_onward _ _)
          with_reducible refine Onward.trans ?_ (State.event_onward _ _ _)
          assumption
        · with_reducible refine Onward.trans ?_ (State.musterServe_onward _)
          assumption

theorem State.boot_onward (s : State) : Onward s (State.boot s) := by
  unfold State.boot
  extract_lets +onlyGivenNames v1
  have h1 : Onward s v1 := by
    subst v1
    with_reducible refine Onward.trans ?_ (State.tapUp_onward _)
    exact Onward.refl _
  try clear_value v1
  extract_lets +onlyGivenNames v3
  extract_lets +onlyGivenNames v4
  have h4 : Onward s v4 := by
    subst v4
    refine Onward.upd ?_ rfl
    assumption
  try clear_value v4
  refine Onward.ite ?_ ?_
  · extract_lets +onlyGivenNames v5
    have h5 : Onward s v5 := by
      subst v5
      with_reducible refine Onward.trans ?_ (State.discover_onward _)
      assumption
    try clear_value v5
    with_reducible refine Onward.trans ?_ (State.enterHalt_onward _ _)
    assumption
  · split
    · refine Onward.upd ?_ rfl
      refine Onward.trans ?_ (State.bootChoice_onward_eq (by assumption))
      assumption
    · extract_lets +onlyGivenNames v8
      extract_lets +onlyGivenNames v9
      extract_lets +onlyGivenNames v10
      try clear_value v10
      extract_lets +onlyGivenNames v11
      have h11 : Onward s v11 := by
        subst v11
        with_reducible refine Onward.trans ?_ (State.migrate_onward _ _)
        refine Onward.upd ?_ rfl
        refine Onward.trans ?_ (State.bootChoice_onward_eq (by assumption))
        assumption
      try clear_value v11
      extract_lets +onlyGivenNames v13
      try clear_value v13
      extract_lets +onlyGivenNames v14
      have h14 : Onward s v14 := by
        subst v14
        split
        · with_reducible refine Onward.trans ?_ (State.doWipe_onward _ _)
          assumption
        · assumption
      try clear_value v14
      extract_lets +onlyGivenNames v16
      try clear_value v16
      extract_lets +onlyGivenNames v17
      try clear_value v17
      extract_lets +onlyGivenNames v18
      try clear_value v18
      extract_lets +onlyGivenNames v19
      have h19 : Onward s v19 := by
        subst v19
        refine Onward.upd ?_ rfl
        assumption
      try clear_value v19
      with_reducible refine Onward.trans ?_ (State.musterRest_onward _)
      with_reducible refine Onward.trans ?_ (State.gpioApply_onward _)
      assumption

theorem State.musterEvents_onward (s : State) : Onward s (State.musterEvents s) := by
  unfold State.musterEvents
  extract_lets +onlyGivenNames v1
  try clear_value v1
  extract_lets +onlyGivenNames v2
  try clear_value v2
  extract_lets +onlyGivenNames v3
  try clear_value v3
  refine Onward.upd ?_ rfl
  exact Onward.refl _

theorem State.musterClocks_onward (s : State) : Onward s (State.musterClocks s) := by
  unfold State.musterClocks
  extract_lets +onlyGivenNames v1
  have h1 : Onward s v1 := by
    subst v1
    with_reducible refine Onward.trans ?_ (State.startSource_onward _ _)
    with_reducible refine Onward.trans ?_ (State.startSource_onward _ _)
    exact Onward.refl _
  try clear_value v1
  extract_lets +onlyGivenNames v4
  have h4 : Onward s v4 := by
    subst v4
    refine Onward.ite ?_ ?_
    · with_reducible refine Onward.trans ?_ (State.srcTo_onward _ _ _ _)
      assumption
    · assumption
  try clear_value v4
  extract_lets +onlyGivenNames v6
  have h6 : Onward s v6 := by
    subst v6
    with_reducible refine Onward.trans ?_ (State.domTo_onward _ _ _)
    assumption
  try clear_value v6
  refine Onward.upd ?_ rfl
  assumption

theorem State.musterEntry_onward (s : State) (trig : Nat) : Onward s (State.musterEntry s trig) := by
  unfold State.musterEntry
  extract_lets +onlyGivenNames v1
  try clear_value v1
  extract_lets +onlyGivenNames v2
  have h2 : Onward s v2 := by
    subst v2
    with_reducible refine Onward.trans ?_ (State.abortTransfers_onward _)
    with_reducible refine Onward.trans ?_ (State.loseMain_onward _)
    exact Onward.refl _
  extract_lets +onlyGivenNames v5
  try clear_value v5
  extract_lets +onlyGivenNames v6
  try clear_value v6
  extract_lets +onlyGivenNames v7
  have h7 : Onward s v7 := by
    subst v7
    refine Onward.upd ?_ rfl
    assumption
  extract_lets +onlyGivenNames v8
  extract_lets +onlyGivenNames v9
  have h9 : Onward s v9 := by
    subst v9
    with_reducible refine Onward.trans ?_ (State.condOff_onward _ _)
    with_reducible refine Onward.trans ?_ (State.enterMode_onward _ _ _)
    with_reducible refine Onward.trans ?_ (State.musterEvents_onward _)
    assumption
  try clear_value v9
  extract_lets +onlyGivenNames v13
  have h13 : Onward s v13 := by
    subst v13
    refine Onward.ite ?_ ?_
    · with_reducible refine Onward.trans ?_ (State.event_onward _ _ _)
      assumption
    · assumption
  try clear_value v13
  extract_lets +onlyGivenNames v15
  have h15 : Onward s v15 := by
    subst v15
    with_reducible refine Onward.trans ?_ (State.musterClocks_onward _)
    assumption
  try clear_value v15
  extract_lets +onlyGivenNames v17
  have h17 : Onward s v17 := by
    subst v17
    refine Onward.ite ?_ ?_
    · assumption
    · with_reducible refine Onward.trans ?_ (State.setSrc_onward _ _ _)
      assumption
  try clear_value v17
  extract_lets +onlyGivenNames v19
  try clear_value v19
  extract_lets +onlyGivenNames v20
  have h20 : Onward s v20 := by
    subst v20
    refine Onward.upd ?_ rfl
    assumption
  try clear_value v20
  extract_lets +onlyGivenNames v21
  have h21 : Onward s v21 := by
    subst v21
    with_reducible refine Onward.trans ?_ (State.reloadDict_onward _)
    assumption
  try clear_value v21
  extract_lets +onlyGivenNames v23
  try clear_value v23
  with_reducible refine Onward.trans ?_ (State.boot_onward _)
  refine Onward.upd ?_ rfl
  assumption

theorem State.warmMuster_onward (s : State) (trig : Nat) : Onward s (State.warmMuster s trig) := by
  unfold State.warmMuster
  extract_lets +onlyGivenNames v1
  try clear_value v1
  with_reducible refine Onward.trans ?_ (State.musterEntry_onward _ _)
  refine Onward.upd ?_ rfl
  exact Onward.refl _

theorem State.resetFlush_onward (s : State) (trig : Nat) : Onward s (State.resetFlush s trig) := by
  unfold State.resetFlush
  split
  · exact Onward.refl _
  · exact Onward.refl _
  · refine Onward.ite ?_ ?_
    · exact Onward.refl _
    · extract_lets +onlyGivenNames v1
      try clear_value v1
      extract_lets +onlyGivenNames v2
      try clear_value v2
      extract_lets +onlyGivenNames v3
      have h3 : Onward s v3 := by
        subst v3
        refine Onward.upd ?_ rfl
        exact Onward.refl _
      try clear_value v3
      refine Onward.ite ?_ ?_
      · refine Onward.ite ?_ ?_
        · with_reducible refine Onward.trans ?_ (State.warmMuster_onward _ _)
          assumption
        · refine Onward.upd ?_ rfl
          assumption
      · with_reducible refine Onward.trans ?_ (State.startFlush_onward _ _)
        assumption

theorem State.alarmErase_onward (s : State) : Onward s (State.alarmErase s).1 := by
  unfold State.alarmErase
  extract_lets +onlyGivenNames v1
  try clear_value v1
  refine Onward.fst_mk ?_
  with_reducible refine Onward.trans ?_ (State.deviceDerive_onward _ _)
  refine Onward.upd ?_ rfl
  exact Onward.refl _
theorem State.alarmErase_onward_eq {s : State} {r1 r2} (hres : State.alarmErase s = (r1, r2)) : Onward s r1 := by
  have k := State.alarmErase_onward s
  rw [hres] at k
  exact k

theorem State.keyLost_onward (s : State) (l : List (Nat × Nat)) : Onward s (State.keyLost s l).1 := by
  unfold State.keyLost
  refine Onward.trans ?_ (Onward.foldl_fst (fun z1 y1 => ?_) _ _)
  · refine Onward.fst_mk ?_
    exact Onward.refl _
  · split
    · refine Onward.ite_fst ?_ ?_
      · exact Onward.refl _
      · refine Onward.fst_mk ?_
        with_reducible refine Onward.trans ?_ (State.abort_onward _ _ _ _ _)
        with_reducible refine Onward.trans ?_ (State.bump_onward _ _)
        exact Onward.refl _
    · exact Onward.refl _
theorem State.keyLost_onward_eq {s : State} {l : List (Nat × Nat)} {r1 r2} (hres : State.keyLost s l = (r1, r2)) : Onward s r1 := by
  have k := State.keyLost_onward s l
  rw [hres] at k
  exact k

theorem State.zeroise_onward (s : State) : Onward s (State.zeroise s) := by
  unfold State.zeroise
  with_reducible refine Onward.trans ?_ (State.loseDom_onward _ _)
  with_reducible refine Onward.trans ?_ (State.zeroiseAll_onward _)
  exact Onward.refl _

theorem State.class2_onward (s : State) (src : Nat) (flushUs : Nat) : Onward s (State.class2 s src flushUs) := by
  unfold State.class2
  refine Onward.ite ?_ ?_
  · exact Onward.refl _
  · extract_lets +onlyGivenNames v1
    have h1 : Onward s v1 := by
      subst v1
      with_reducible refine Onward.trans ?_ (State.alarmErase_onward _)
      exact Onward.refl _
    extract_lets +onlyGivenNames v2
    extract_lets +onlyGivenNames v3
    extract_lets +onlyGivenNames v4
    have h4 : Onward s v4 := by
      subst v4
      refine Onward.ite ?_ ?_
      · assumption
      · with_reducible refine Onward.trans ?_ (State.flushReport_onward _ _ _)
        subst v3
        with_reducible refine Onward.trans ?_ (State.writeOut_onward _)
        assumption
    extract_lets +onlyGivenNames v6
    have h6 : Onward s v6 := by
      subst v6
      with_reducible refine Onward.trans ?_ (State.bump_onward _ _)
      with_reducible refine Onward.trans ?_ (State.zeroise_onward _)
      assumption
    extract_lets +onlyGivenNames v9
    extract_lets +onlyGivenNames v10
    extract_lets +onlyGivenNames v11
    have h11 : Onward s v11 := by
      subst v11
      refine Onward.upd ?_ rfl
      assumption
    extract_lets +onlyGivenNames v12
    have h12 : Onward s v12 := by
      subst v12
      with_reducible refine Onward.trans ?_ (State.eventEmcy_onward _ _ _ _ _)
      assumption
    refine Onward.ite ?_ ?_
    · assumption
    · refine Onward.ite ?_ ?_
      · with_reducible refine Onward.trans ?_ (State.goHalt_onward _ _)
        assumption
      · with_reducible refine Onward.trans ?_ (State.warmMuster_onward _ _)
        refine Onward.upd ?_ rfl
        assumption

theorem State.class1_onward (s : State) (src : Nat) (users : List (Nat × Nat)) : Onward s (State.class1 s src users) := by
  unfold State.class1
  split
  split
  extract_lets +onlyGivenNames v1
  have h1 : Onward s v1 := by
    subst v1
    with_reducible refine Onward.trans ?_ (State.eventEmcy_onward _ _ _ _ _)
    with_reducible refine Onward.trans ?_ (State.bump_onward _ _)
    refine Onward.trans ?_ (State.keyLost_onward_eq (by assumption))
    refine Onward.trans ?_ (State.alarmErase_onward_eq (by assumption))
    exact Onward.refl _
  try clear_value v1
  extract_lets +onlyGivenNames v4
  try clear_value v4
  extract_lets +onlyGivenNames v5
  try clear_value v5
  extract_lets +onlyGivenNames v6
  try clear_value v6
  extract_lets +onlyGivenNames v7
  have h7 : Onward s v7 := by
    subst v7
    refine Onward.upd ?_ rfl
    assumption
  try clear_value v7
  extract_lets +onlyGivenNames v8
  try clear_value v8
  refine Onward.ite ?_ ?_
  · split
    with_reducible refine Onward.trans ?_ (State.class2_onward _ _ _)
    refine Onward.trans ?_ (State.drawFree_onward_eq (by assumption))
    assumption
  · assumption

theorem execClass1Alarm_onward (t : Nat) (src : Nat) (users : List (Nat × Nat)) (s : State) : Goes (State.advance s t) (execClass1Alarm t src users s) := by
  unfold execClass1Alarm
  extract_lets +onlyGivenNames v1
  have h1 : Onward (s.advance t) v1 := by
    subst v1
    exact Onward.refl _
  try clear_value v1
  refine Goes.done ?_
  refine Onward.ite ?_ ?_
  · with_reducible refine Onward.trans ?_ (State.class1_onward _ _ _)
    assumption
  · assumption

theorem execClass2Alarm_onward (t : Nat) (src : Nat) (flushUs : Nat) (s : State) : Goes (State.advance s t) (execClass2Alarm t src flushUs s) := by
  unfold execClass2Alarm
  extract_lets +onlyGivenNames v1
  have h1 : Onward (s.advance t) v1 := by
    subst v1
    exact Onward.refl _
  try clear_value v1
  refine Goes.done ?_
  refine Onward.ite ?_ ?_
  · with_reducible refine Onward.trans ?_ (State.class2_onward _ _ _)
    assumption
  · assumption

theorem State.tamper_onward (s : State) (input : Nat) (level : Bool) : Onward s (State.tamper s input level) := by
  unfold State.tamper
  extract_lets +onlyGivenNames v1
  try clear_value v1
  extract_lets +onlyGivenNames v2
  try clear_value v2
  extract_lets +onlyGivenNames v3
  have h3 : Onward s v3 := by
    subst v3
    with_reducible refine Onward.trans ?_ (State.bumpSys_onward _ _)
    exact Onward.refl _
  try clear_value v3
  refine Onward.ite ?_ ?_
  · with_reducible refine Onward.trans ?_ (State.eventEmcy_onward _ _ _ _ _)
    refine Onward.upd ?_ rfl
    assumption
  · extract_lets +onlyGivenNames v6
    have h6 : Onward s v6 := by
      subst v6
      with_reducible refine Onward.trans ?_ (State.zeroise_onward _)
      assumption
    try clear_value v6
    extract_lets +onlyGivenNames v8
    try clear_value v8
    extract_lets +onlyGivenNames v9
    have h9 : Onward s v9 := by
      subst v9
      with_reducible refine Onward.trans ?_ (State.eventEmcy_onward _ _ _ _ _)
      refine Onward.upd ?_ rfl
      assumption
    try clear_value v9
    extract_lets +onlyGivenNames v11
    have h11 : Onward s v11 := by
      subst v11
      refine Onward.ite ?_ ?_
      · with_reducible refine Onward.trans ?_ (State.doWipe_onward _ _)
        assumption
      · assumption
    try clear_value v11
    refine Onward.ite ?_ ?_
    · with_reducible refine Onward.trans ?_ (State.setNum_onward _ _ _)
      refine Onward.upd ?_ rfl
      assumption
    · extract_lets +onlyGivenNames v14
      try clear_value v14
      extract_lets +onlyGivenNames v15
      have h15 : Onward s v15 := by
        subst v15
        refine Onward.upd ?_ rfl
        assumption
      try clear_value v15
      with_reducible refine Onward.trans ?_ (State.enterHalt_onward _ _)
      with_reducible refine Onward.trans ?_ (State.dropSessions_onward _)
      assumption

theorem execTamper_onward (t : Nat) (input : Nat) (level : Bool) (cycles : Nat) (s : State) : Goes (State.advance s t) (execTamper t input level cycles s) := by
  unfold execTamper
  extract_lets +onlyGivenNames v1
  have h1 : Onward (s.advance t) v1 := by
    subst v1
    exact Onward.refl _
  try clear_value v1
  refine Goes.done ?_
  refine Onward.ite ?_ ?_
  · with_reducible refine Onward.trans ?_ (State.tamper_onward _ _ _)
    assumption
  · assumption

theorem execKeyDerivationComplete_onward (t : Nat) (slot : Nat) (s : State) : Goes (State.advance s t) (execKeyDerivationComplete t slot s) := by
  unfold execKeyDerivationComplete
  extract_lets +onlyGivenNames v1
  have h1 : Onward (s.advance t) v1 := by
    subst v1
    exact Onward.refl _
  try clear_value v1
  refine Goes.done ?_
  split
  · refine Onward.ite ?_ ?_
    · extract_lets +onlyGivenNames v2
      try clear_value v2
      with_reducible refine Onward.trans ?_ (State.bump_onward _ _)
      refine Onward.upd ?_ rfl
      assumption
    · assumption
  · assumption

theorem execSecretEraseComplete_onward (t : Nat) (s : State) : Goes (State.advance s t) (execSecretEraseComplete t s) := by
  unfold execSecretEraseComplete
  extract_lets +onlyGivenNames v1
  have h1 : Onward (s.advance t) v1 := by
    subst v1
    exact Onward.refl _
  try clear_value v1
  refine Goes.done ?_
  refine Onward.ite ?_ ?_
  · assumption
  · extract_lets +onlyGivenNames v2
    have h2 : Onward (s.advance t) v2 := by
      subst v2
      refine Onward.trans ?_ (Onward.foldl (fun z3 y3 => ?_) _ _)
      · assumption
      · with_reducible refine Onward.trans ?_ (State.event_onward _ _ _)
        exact Onward.refl _
    try clear_value v2
    extract_lets +onlyGivenNames v5
    try clear_value v5
    extract_lets +onlyGivenNames v6
    try clear_value v6
    extract_lets +onlyGivenNames v7
    try clear_value v7
    extract_lets +onlyGivenNames v8
    have h8 : Onward (s.advance t) v8 := by
      subst v8
      refine Onward.upd ?_ rfl
      assumption
    try clear_value v8
    refine Onward.ite ?_ ?_
    · assumption
    · with_reducible refine Onward.trans ?_ (State.tableCopy_onward _)
      assumption

theorem State.failPort_onward (s : State) (p : PortId) : Onward s (State.failPort s p) := by
  unfold State.failPort
  refine Onward.trans ?_ (Onward.foldl (fun z1 y1 => ?_) _ _)
  · exact Onward.refl _
  · refine Onward.trans ?_ (Onward.foldl (fun z2 y2 => ?_) _ _)
    · exact Onward.refl _
    · with_reducible refine Onward.trans ?_ (State.pathFail_onward _ _ _ _)
      exact Onward.refl _

theorem State.ptpTo_onward (s : State) (st : PtpState) : Onward s (State.ptpTo s st) := by
  unfold State.ptpTo
  extract_lets +onlyGivenNames v1
  try clear_value v1
  refine Onward.ite ?_ ?_
  · exact Onward.refl _
  · extract_lets +onlyGivenNames v2
    have h2 : Onward s v2 := by
      subst v2
      refine Onward.ite ?_ ?_
      · with_reducible refine Onward.trans ?_ (State.setRtc_onward _ _)
        exact Onward.refl _
      · exact Onward.refl _
    try clear_value v2
    extract_lets +onlyGivenNames v4
    try clear_value v4
    extract_lets +onlyGivenNames v5
    have h5 : Onward s v5 := by
      subst v5
      refine Onward.ite ?_ ?_
      · refine Onward.upd ?_ rfl
        assumption
      · assumption
    try clear_value v5
    extract_lets +onlyGivenNames v6
    have h6 : Onward s v6 := by
      subst v6
      with_reducible refine Onward.trans ?_ (State.setPtp_onward _ _)
      assumption
    try clear_value v6
    extract_lets +onlyGivenNames v8
    try clear_value v8
    with_reducible refine Onward.trans ?_ (State.event_onward _ _ _)
    assumption

theorem State.ptpHoldover_onward (s : State) (lost : Option PortId) : Onward s (State.ptpHoldover s lost) := by
  unfold State.ptpHoldover
  extract_lets +onlyGivenNames v1
  try clear_value v1
  refine Onward.ite ?_ ?_
  · exact Onward.refl _
  · extract_lets +onlyGivenNames v2
    try clear_value v2
    extract_lets +onlyGivenNames v3
    try clear_value v3
    with_reducible refine Onward.trans ?_ (State.ptpTo_onward _ _)
    with_reducible refine Onward.trans ?_ (State.setPtp_onward _ _)
    exact Onward.refl _

theorem State.ptpLinkLost_onward (s : State) (port : PortId) : Onward s (State.ptpLinkLost s port) := by
  unfold State.ptpLinkLost
  extract_lets +onlyGivenNames v1
  try clear_value v1
  extract_lets +onlyGivenNames v2
  have h2 : Onward s v2 := by
    subst v2
    with_reducible refine Onward.trans ?_ (State.setPtp_onward _ _)
    exact Onward.refl _
  try clear_value v2
  refine Onward.ite ?_ ?_
  · with_reducible refine Onward.trans ?_ (State.ptpHoldover_onward _ _)
    assumption
  · assumption

theorem State.clkoutCheck_onward (s : State) : Onward s (State.clkoutCheck s) := by
  unfold State.clkoutCheck
  extract_lets +onlyGivenNames v1
  try clear_value v1
  refine Onward.ite ?_ ?_
  · exact Onward.refl _
  · extract_lets +onlyGivenNames v2
    have h2 : Onward s v2 := by
      subst v2
      with_reducible refine Onward.trans ?_ (State.emit_onward _ _)
      with_reducible refine Onward.trans ?_ (State.setPtp_onward _ _)
      exact Onward.refl _
    try clear_value v2
    with_reducible refine Onward.trans ?_ (State.event_onward _ _ _)
    assumption

theorem State.linkDown_onward (s : State) (p : PortId) (cause : Nat) : Onward s (State.linkDown s p cause) := by
  unfold State.linkDown
  extract_lets +onlyGivenNames v1
  try clear_value v1
  extract_lets +onlyGivenNames v2
  try clear_value v2
  refine Onward.ite ?_ ?_
  · exact Onward.refl _
  · extract_lets +onlyGivenNames v3
    have h3 : Onward s v3 := by
      subst v3
      with_reducible refine Onward.trans ?_ (State.portStart_onward _ _)
      exact Onward.refl _
    try clear_value v3
    extract_lets +onlyGivenNames v5
    have h5 : Onward s v5 := by
      subst v5
      refine Onward.ite ?_ ?_
      · assumption
      · with_reducible refine Onward.trans ?_ (State.srcTo_onward _ _ _ _)
        assumption
    try clear_value v5
    extract_lets +onlyGivenNames v7
    have h7 : Onward s v7 := by
      subst v7
      with_reducible refine Onward.trans ?_ (State.clkoutCheck_onward _)
      with_reducible refine Onward.trans ?_ (State.ptpLinkLost_onward _ _)
      assumption
    try clear_value v7
    refine Onward.ite ?_ ?_
    · extract_lets +onlyGivenNames v10
      try clear_value v10
      split
      with_reducible refine Onward.trans ?_ (State.noteFaults_onward _)
      with_reducible refine Onward.trans ?_ (State.linkCond_onward _ _ _ _)
      with_reducible refine Onward.trans ?_ (State.failPort_onward _ _)
      refine Onward.trans ?_ (State.eventSeq_onward_eq (by assumption))
      with_reducible refine Onward.trans ?_ (State.bumpSys_onward _ _)
      assumption
    · assumption

theorem State.pinTaken_onward (s : State) (durNs : Nat) : Onward s (State.pinTaken s durNs).1 := by
  unfold State.pinTaken
  refine Onward.ite_fst ?_ ?_
  · refine Onward.fst_mk ?_
    exact Onward.refl _
  · refine Onward.ite_fst ?_ ?_
    · refine Onward.fst_mk ?_
      exact Onward.refl _
    · split
      refine Onward.fst_mk ?_
      refine Onward.trans ?_ (State.drawFree_onward_eq (by assumption))
      exact Onward.refl _
theorem State.pinTaken_onward_eq {s : State} {durNs : Nat} {r1 r2} (hres : State.pinTaken s durNs = (r1, r2)) : Onward s r1 := by
  have k := State.pinTaken_onward s durNs
  rw [hres] at k
  exact k

theorem execPwrGoodCoreRise_onward (t : Nat) (b : Board) (s : State) : Goes (State.advance s t) (execPwrGoodCoreRise t b s) := by
  unfold execPwrGoodCoreRise
  extract_lets +onlyGivenNames v1
  have h1 : Onward (s.advance t) v1 := by
    subst v1
    exact Onward.refl _
  try clear_value v1
  refine Goes.done ?_
  refine Onward.ite ?_ ?_
  · extract_lets +onlyGivenNames v2
    try clear_value v2
    extract_lets +onlyGivenNames v3
    try clear_value v3
    extract_lets +onlyGivenNames v4
    try clear_value v4
    extract_lets +onlyGivenNames v5
    have h5 : Onward (s.advance t) v5 := by
      subst v5
      refine Onward.upd ?_ rfl
      assumption
    try clear_value v5
    extract_lets +onlyGivenNames v6
    have h6 : Onward (s.advance t) v6 := by
      subst v6
      with_reducible refine Onward.trans ?_ (State.event_onward _ _ _)
      assumption
    try clear_value v6
    extract_lets +onlyGivenNames v8
    try clear_value v8
    extract_lets +onlyGivenNames v9
    have h9 : Onward (s.advance t) v9 := by
      subst v9
      refine Onward.ite ?_ ?_
      · assumption
      · refine Onward.upd ?_ rfl
        assumption
    try clear_value v9
    with_reducible refine Onward.trans ?_ (State.musterEntry_onward _ _)
    assumption
  · refine Onward.upd ?_ rfl
    assumption

theorem State.cutFlush_onward (s : State) : Onward s (State.cutFlush s) := by
  unfold State.cutFlush
  refine Onward.ite ?_ ?_
  · extract_lets +onlyGivenNames v1
    split
    refine Onward.upd ?_ rfl
    refine Onward.trans ?_ (State.writeBuffer_onward_eq (by assumption))
    subst v1
    with_reducible refine Onward.trans ?_ (State.drawFree_onward _)
    exact Onward.refl _
  · exact Onward.refl _

theorem execPwrGoodCoreFall_onward (t : Nat) (s : State) : Goes (State.advance s t) (execPwrGoodCoreFall t s) := by
  unfold execPwrGoodCoreFall
  extract_lets +onlyGivenNames v1
  have h1 : Onward (s.advance t) v1 := by
    subst v1
    exact Onward.refl _
  try clear_value v1
  refine Goes.done ?_
  refine Onward.ite ?_ ?_
  · extract_lets +onlyGivenNames v2
    try clear_value v2
    extract_lets +onlyGivenNames v3
    try clear_value v3
    extract_lets +onlyGivenNames v4
    have h4 : Onward (s.advance t) v4 := by
      subst v4
      with_reducible refine Onward.trans ?_ (State.cutFlush_onward _)
      assumption
    try clear_value v4
    extract_lets +onlyGivenNames v6
    try clear_value v6
    extract_lets +onlyGivenNames v7
    try clear_value v7
    extract_lets +onlyGivenNames v8
    have h8 : Onward (s.advance t) v8 := by
      subst v8
      refine Onward.ite ?_ ?_
      · assumption
      · refine Onward.upd ?_ rfl
        assumption
    try clear_value v8
    extract_lets +onlyGivenNames v9
    try clear_value v9
    extract_lets +onlyGivenNames v10
    have h10 : Onward (s.advance t) v10 := by
      subst v10
      refine Onward.upd ?_ rfl
      assumption
    try clear_value v10
    extract_lets +onlyGivenNames v11
    have h11 : Onward (s.advance t) v11 := by
      subst v11
      with_reducible refine Onward.trans ?_ (State.enterDormant_onward _)
      assumption
    try clear_value v11
    refine Onward.ite ?_ ?_
    · with_reducible refine Onward.trans ?_ (State.event_onward _ _ _)
      assumption
    · assumption
  · refine Onward.upd ?_ rfl
    assumption

theorem execPwrGoodTimeout_onward (t : Nat) (s : State) : Goes (State.advance s t) (execPwrGoodTimeout t s) := by
  unfold execPwrGoodTimeout
  extract_lets +onlyGivenNames v1
  have h1 : Onward (s.advance t) v1 := by
    subst v1
    exact Onward.refl _
  try clear_value v1
  extract_lets +onlyGivenNames v2
  try clear_value v2
  refine Goes.done ?_
  refine Onward.ite ?_ ?_
  · extract_lets +onlyGivenNames v3
    try clear_value v3
    extract_lets +onlyGivenNames v4
    have h4 : Onward (s.advance t) v4 := by
      subst v4
      refine Onward.upd ?_ rfl
      assumption
    try clear_value v4
    with_reducible refine Onward.trans ?_ (State.event_onward _ _ _)
    assumption
  · assumption

theorem execPfailNLow_onward (t : Nat) (durNs : Nat) (s : State) : Goes (State.advance s t) (execPfailNLow t durNs s) := by
  unfold execPfailNLow
  split
  refine Goes.done ?_
  refine Onward.ite ?_ ?_
  · refine Onward.trans ?_ (State.pinTaken_onward_eq (by assumption))
    exact Onward.refl _
  · extract_lets +onlyGivenNames v1
    try clear_value v1
    extract_lets +onlyGivenNames v2
    have h2 : Onward (s.advance t) v2 := by
      subst v2
      refine Onward.upd ?_ rfl
      refine Onward.trans ?_ (State.pinTaken_onward_eq (by assumption))
      exact Onward.refl _
    try clear_value v2
    extract_lets +onlyGivenNames v3
    try clear_value v3
    extract_lets +onlyGivenNames v4
    try clear_value v4
    refine Onward.ite ?_ ?_
    · assumption
    · extract_lets +onlyGivenNames v5
      try clear_value v5
      with_reducible refine Onward.trans ?_ (State.startFlush_onward _ _)
      refine Onward.upd ?_ rfl
      assumption

theorem execPostFlushReassert_onward (t : Nat) (s : State) : Goes (State.advance s t) (execPostFlushReassert t s) := by
  unfold execPostFlushReassert
  extract_lets +onlyGivenNames v1
  have h1 : Onward (s.advance t) v1 := by
    subst v1
    exact Onward.refl _
  try clear_value v1
  refine Goes.done ?_
  refine Onward.ite ?_ ?_
  · extract_lets +onlyGivenNames v2
    try clear_value v2
    extract_lets +onlyGivenNames v3
    have h3 : Onward (s.advance t) v3 := by
      subst v3
      refine Onward.upd ?_ rfl
      assumption
    try clear_value v3
    refine Onward.ite ?_ ?_
    · with_reducible refine Onward.trans ?_ (State.warmMuster_onward _ _)
      assumption
    · refine Onward.upd ?_ rfl
      assumption
  · assumption

theorem execWarmRstNLow_onward (t : Nat) (durNs : Nat) (s : State) : Goes (State.advance s t) (execWarmRstNLow t durNs s) := by
  unfold execWarmRstNLow
  split
  refine Goes.done ?_
  refine Onward.ite ?_ ?_
  · with_reducible refine Onward.trans ?_ (State.resetFlush_onward _ _)
    refine Onward.upd ?_ rfl
    refine Onward.trans ?_ (State.pinTaken_onward_eq (by assumption))
    exact Onward.refl _
  · refine Onward.trans ?_ (State.pinTaken_onward_eq (by assumption))
    exact Onward.refl _

theorem execWarmRstNRise_onward (t : Nat) (s : State) : Goes (State.advance s t) (execWarmRstNRise t s) := by
  unfold execWarmRstNRise
  extract_lets +onlyGivenNames v1
  have h1 : Onward (s.advance t) v1 := by
    subst v1
    exact Onward.refl _
  extract_lets +onlyGivenNames v2
  extract_lets +onlyGivenNames v3
  have h3 : Onward (s.advance t) v3 := by
    subst v3
    refine Onward.upd ?_ rfl
    assumption
  refine Goes.done ?_
  refine Onward.ite ?_ ?_
  · extract_lets +onlyGivenNames v4
    extract_lets +onlyGivenNames v5
    have h5 : Onward (s.advance t) v5 := by
      subst v5
      with_reducible refine Onward.trans ?_ (State.warmMuster_onward _ _)
      assumption
    try clear_value v5
    refine Onward.ite ?_ ?_
    · with_reducible refine Onward.trans ?_ (State.requestMode_onward _ _ _)
      assumption
    · assumption
  · assumption

theorem State.aonReset_onward (s : State) (power : Bool) : Onward s (State.aonReset s power) := by
  unfold State.aonReset
  extract_lets +onlyGivenNames v1
  have h1 : Onward s v1 := by
    subst v1
    with_reducible refine Onward.trans ?_ (State.loseMain_onward _)
    with_reducible refine Onward.trans ?_ (State.cutFlush_onward _)
    exact Onward.refl _
  try clear_value v1
  extract_lets +onlyGivenNames v4
  try clear_value v4
  extract_lets +onlyGivenNames v5
  try clear_value v5
  extract_lets +onlyGivenNames v6
  try clear_value v6
  extract_lets +onlyGivenNames v7
  try clear_value v7
  extract_lets +onlyGivenNames v8
  try clear_value v8
  refine Onward.upd ?_ rfl
  assumption

theorem State.heelStart_onward (s : State) : Onward s (State.heelStart s) := by
  unfold State.heelStart
  extract_lets +onlyGivenNames v1
  have h1 : Onward s v1 := by
    subst v1
    with_reducible refine Onward.trans ?_ (State.setSrc_onward _ _ _)
    with_reducible refine Onward.trans ?_ (State.setSrc_onward _ _ _)
    exact Onward.refl _
  try clear_value v1
  refine Onward.upd ?_ rfl
  assumption

theorem execPorNLow_onward (t : Nat) (durNs : Nat) (s : State) : Goes (State.advance s t) (execPorNLow t durNs s) := by
  unfold execPorNLow
  split
  refine Goes.done ?_
  refine Onward.ite ?_ ?_
  · extract_lets +onlyGivenNames v1
    have h1 : Onward (s.advance t) v1 := by
      subst v1
      with_reducible refine Onward.trans ?_ (State.aonReset_onward _ _)
      refine Onward.trans ?_ (State.pinTaken_onward_eq (by assumption))
      exact Onward.refl _
    try clear_value v1
    refine Onward.upd ?_ rfl
    assumption
  · refine Onward.trans ?_ (State.pinTaken_onward_eq (by assumption))
    exact Onward.refl _

theorem execPorNRise_onward (t : Nat) (s : State) : Goes (State.advance s t) (execPorNRise t s) := by
  unfold execPorNRise
  extract_lets +onlyGivenNames v1
  have h1 : Onward (s.advance t) v1 := by
    subst v1
    exact Onward.refl _
  try clear_value v1
  refine Goes.done ?_
  refine Onward.ite ?_ ?_
  · assumption
  · extract_lets +onlyGivenNames v2
    try clear_value v2
    extract_lets +onlyGivenNames v3
    have h3 : Onward (s.advance t) v3 := by
      subst v3
      refine Onward.upd ?_ rfl
      assumption
    try clear_value v3
    refine Onward.ite ?_ ?_
    · with_reducible refine Onward.trans ?_ (State.heelStart_onward _)
      assumption
    · assumption

theorem execVstbyApply_onward (t : Nat) (s : State) : Goes (State.advance s t) (execVstbyApply t s) := by
  unfold execVstbyApply
  extract_lets +onlyGivenNames v1
  have h1 : Onward (s.advance t) v1 := by
    subst v1
    exact Onward.refl _
  try clear_value v1
  refine Goes.done ?_
  refine Onward.ite ?_ ?_
  · assumption
  · extract_lets +onlyGivenNames v2
    try clear_value v2
    extract_lets +onlyGivenNames v3
    try clear_value v3
    extract_lets +onlyGivenNames v4
    have h4 : Onward (s.advance t) v4 := by
      subst v4
      refine Onward.upd ?_ rfl
      assumption
    try clear_value v4
    refine Onward.ite ?_ ?_
    · with_reducible refine Onward.trans ?_ (State.heelStart_onward _)
      assumption
    · assumption

theorem execVstbyLoss_onward (t : Nat) (s : State) : Goes (State.advance s t) (execVstbyLoss t s) := by
  unfold execVstbyLoss
  extract_lets +onlyGivenNames v1
  have h1 : Onward (s.advance t) v1 := by
    subst v1
    exact Onward.refl _
  try clear_value v1
  refine Goes.done ?_
  refine Onward.ite ?_ ?_
  · with_reducible refine Onward.trans ?_ (State.aonReset_onward _ _)
    assumption
  · assumption

theorem State.bootUp_onward (s : State) : Onward s (State.bootUp s) := by
  unfold State.bootUp
  extract_lets +onlyGivenNames v1
  try clear_value v1
  extract_lets +onlyGivenNames v2
  try clear_value v2
  extract_lets +onlyGivenNames v3
  have h3 : Onward s v3 := by
    subst v3
    refine Onward.upd ?_ rfl
    exact Onward.refl _
  extract_lets +onlyGivenNames v4
  have h4 : Onward s v4 := by
    subst v4
    with_reducible refine Onward.trans ?_ (State.canSend_onward _ _ _)
    assumption
  refine Onward.ite ?_ ?_
  · with_reducible refine Onward.trans ?_ (State.emcy_onward _ _ _ _ _)
    with_reducible refine Onward.trans ?_ (State.condOn_onward _ _)
    assumption
  · with_reducible refine Onward.trans ?_ (State.condOff_onward _ _)
    assumption

theorem execXtal32kStable_onward (t : Nat) (s : State) : Goes (State.advance s t) (execXtal32kStable t s) := by
  unfold execXtal32kStable
  extract_lets +onlyGivenNames v1
  have h1 : Onward (s.advance t) v1 := by
    subst v1
    exact Onward.refl _
  try clear_value v1
  refine Goes.done ?_
  refine Onward.ite ?_ ?_
  · extract_lets +onlyGivenNames v2
    have h2 : Onward (s.advance t) v2 := by
      subst v2
      with_reducible refine Onward.trans ?_ (State.srcTo_onward _ _ _ _)
      with_reducible refine Onward.trans ?_ (State.srcTo_onward _ _ _ _)
      assumption
    try clear_value v2
    extract_lets +onlyGivenNames v5
    try clear_value v5
    extract_lets +onlyGivenNames v6
    have h6 : Onward (s.advance t) v6 := by
      subst v6
      refine Onward.upd ?_ rfl
      assumption
    try clear_value v6
    refine Onward.ite ?_ ?_
    · with_reducible refine Onward.trans ?_ (State.bootUp_onward _)
      assumption
    · refine Onward.upd ?_ rfl
      assumption
  · assumption

theorem execLull1Entry_onward (t : Nat) (s : State) : Goes (State.advance s t) (execLull1Entry t s) := by
  unfold execLull1Entry
  extract_lets +onlyGivenNames v1
  have h1 : Onward (s.advance t) v1 := by
    subst v1
    exact Onward.refl _
  try clear_value v1
  refine Goes.done ?_
  refine Onward.ite ?_ ?_
  · extract_lets +onlyGivenNames v2
    have h2 : Onward (s.advance t) v2 := by
      subst v2
      with_reducible refine Onward.trans ?_ (State.modeNotice_onward _ _ _)
      assumption
    try clear_value v2
    extract_lets +onlyGivenNames v4
    have h4 : Onward (s.advance t) v4 := by
      subst v4
      with_reducible refine Onward.trans ?_ (State.enterMode_onward _ _ _)
      with_reducible refine Onward.trans ?_ (State.bump_onward _ _)
      assumption
    try clear_value v4
    refine Onward.upd ?_ rfl
    assumption
  · assumption

theorem execLull2Entry_onward (t : Nat) (s : State) : Goes (State.advance s t) (execLull2Entry t s) := by
  unfold execLull2Entry
  extract_lets +onlyGivenNames v1
  have h1 : Onward (s.advance t) v1 := by
    subst v1
    exact Onward.refl _
  try clear_value v1
  extract_lets +onlyGivenNames v2
  try clear_value v2
  refine Goes.done ?_
  refine Onward.ite ?_ ?_
  · extract_lets +onlyGivenNames v3
    have h3 : Onward (s.advance t) v3 := by
      subst v3
      with_reducible refine Onward.trans ?_ (State.modeNotice_onward _ _ _)
      assumption
    try clear_value v3
    extract_lets +onlyGivenNames v5
    try clear_value v5
    extract_lets +onlyGivenNames v6
    have h6 : Onward (s.advance t) v6 := by
      subst v6
      refine Onward.upd ?_ rfl
      assumption
    try clear_value v6
    extract_lets +onlyGivenNames v7
    have h7 : Onward (s.advance t) v7 := by
      subst v7
      with_reducible refine Onward.trans ?_ (State.domTo_onward _ _ _)
      with_reducible refine Onward.trans ?_ (State.powerDowns_onward _ _)
      assumption
    try clear_value v7
    extract_lets +onlyGivenNames v10
    try clear_value v10
    extract_lets +onlyGivenNames v11
    try clear_value v11
    extract_lets +onlyGivenNames v12
    have h12 : Onward (s.advance t) v12 := by
      subst v12
      with_reducible refine Onward.trans ?_ (State.setPll_onward _ _ _)
      with_reducible refine Onward.trans ?_ (State.setPll_onward _ _ _)
      assumption
    try clear_value v12
    extract_lets +onlyGivenNames v15
    try clear_value v15
    extract_lets +onlyGivenNames v16
    have h16 : Onward (s.advance t) v16 := by
      subst v16
      refine Onward.upd ?_ rfl
      assumption
    try clear_value v16
    with_reducible refine Onward.trans ?_ (State.enterMode_onward _ _ _)
    assumption
  · assumption

theorem execLullExit_onward (t : Nat) (_trigger : Nat) (s : State) : Goes (State.advance s t) (execLullExit t _trigger s) := by
  unfold execLullExit
  extract_lets +onlyGivenNames v1
  have h1 : Onward (s.advance t) v1 := by
    subst v1
    exact Onward.refl _
  try clear_value v1
  refine Goes.done ?_
  refine Onward.ite ?_ ?_
  · with_reducible refine Onward.trans ?_ (State.lullExit_onward _ _)
    with_reducible refine Onward.trans ?_ (State.modeNotice_onward _ _ _)
    assumption
  · assumption

theorem execSweepAutoEnd_onward (t : Nat) (s : State) : Goes (State.advance s t) (execSweepAutoEnd t s) := by
  unfold execSweepAutoEnd
  extract_lets +onlyGivenNames v1
  have h1 : Onward (s.advance t) v1 := by
    subst v1
    exact Onward.refl _
  try clear_value v1
  extract_lets +onlyGivenNames v2
  try clear_value v2
  refine Goes.done ?_
  refine Onward.ite ?_ ?_
  · with_reducible refine Onward.trans ?_ (State.requestMode_onward _ _ _)
    assumption
  · assumption

theorem execServeDrainEnd_onward (t : Nat) (s : State) : Goes (State.advance s t) (execServeDrainEnd t s) := by
  unfold execServeDrainEnd
  extract_lets +onlyGivenNames v1
  have h1 : Onward (s.advance t) v1 := by
    subst v1
    exact Onward.refl _
  try clear_value v1
  refine Goes.done ?_
  refine Onward.ite ?_ ?_
  · with_reducible refine Onward.trans ?_ (State.drainDone_onward _)
    assumption
  · assumption

theorem execHaltDrainTimeout_onward (t : Nat) (s : State) : Goes (State.advance s t) (execHaltDrainTimeout t s) := by
  unfold execHaltDrainTimeout
  extract_lets +onlyGivenNames v1
  have h1 : Onward (s.advance t) v1 := by
    subst v1
    exact Onward.refl _
  try clear_value v1
  refine Goes.done ?_
  split
  · refine Onward.ite ?_ ?_
    · with_reducible refine Onward.trans ?_ (State.drainDone_onward _)
      assumption
    · assumption
  · assumption

theorem State.thermalTrip_onward (s : State) (temp : Nat) : Onward s (State.thermalTrip s temp) := by
  unfold State.thermalTrip
  extract_lets +onlyGivenNames v1
  have h1 : Onward s v1 := by
    subst v1
    with_reducible refine Onward.trans ?_ (State.event_onward _ _ _)
    exact Onward.refl _
  extract_lets +onlyGivenNames v3
  extract_lets +onlyGivenNames v4
  have h4 : Onward s v4 := by
    subst v4
    refine Onward.upd ?_ rfl
    assumption
  refine Onward.ite ?_ ?_
  · refine Onward.upd ?_ rfl
    assumption
  · with_reducible refine Onward.trans ?_ (State.startFlush_onward _ _)
    assumption

theorem execThermalSample_onward (t : Nat) (temp : Int) (s : State) : Goes (State.advance s t) (execThermalSample t temp s) := by
  unfold execThermalSample
  extract_lets +onlyGivenNames v1
  have h1 : Onward (s.advance t) v1 := by
    subst v1
    exact Onward.refl _
  try clear_value v1
  extract_lets +onlyGivenNames v2
  try clear_value v2
  extract_lets +onlyGivenNames v3
  try clear_value v3
  extract_lets +onlyGivenNames v4
  try clear_value v4
  refine Goes.done ?_
  refine Onward.ite ?_ ?_
  · extract_lets +onlyGivenNames v5
    have h5 : Onward (s.advance t) v5 := by
      subst v5
      refine Onward.ite ?_ ?_
      · with_reducible refine Onward.trans ?_ (State.addTo_onward _ _ _)
        assumption
      · assumption
    try clear_value v5
    extract_lets +onlyGivenNames v7
    try clear_value v7
    extract_lets +onlyGivenNames v8
    have h8 : Onward (s.advance t) v8 := by
      subst v8
      refine Onward.upd ?_ rfl
      assumption
    try clear_value v8
    refine Onward.ite ?_ ?_
    · with_reducible refine Onward.trans ?_ (State.thermalTrip_onward _ _)
      assumption
    · assumption
  · assumption

theorem State.capTo_onward (s : State) (c : Option Nat) (down : Bool) : Onward s (State.capTo s c down) := by
  unfold State.capTo
  extract_lets +onlyGivenNames v1
  try clear_value v1
  extract_lets +onlyGivenNames v2
  try clear_value v2
  extract_lets +onlyGivenNames v3
  try clear_value v3
  extract_lets +onlyGivenNames v4
  try clear_value v4
  extract_lets +onlyGivenNames v5
  have h5 : Onward s v5 := by
    subst v5
    refine Onward.upd ?_ rfl
    exact Onward.refl _
  try clear_value v5
  extract_lets +onlyGivenNames v6
  try clear_value v6
  extract_lets +onlyGivenNames v7
  have h7 : Onward s v7 := by
    subst v7
    refine Onward.ite ?_ ?_
    · with_reducible refine Onward.trans ?_ (State.eventEmcy_onward _ _ _ _ _)
      assumption
    · refine Onward.ite ?_ ?_
      · with_reducible refine Onward.trans ?_ (State.event_onward _ _ _)
        assumption
      · assumption
  try clear_value v7
  extract_lets +onlyGivenNames v10
  have h10 : Onward s v10 := by
    subst v10
    refine Onward.ite ?_ ?_
    · with_reducible refine Onward.trans ?_ (State.condOff_onward _ _)
      assumption
    · assumption
  try clear_value v10
  with_reducible refine Onward.trans ?_ (State.limitChanged_onward _ _)
  assumption

theorem execThermalStep_onward (t : Nat) (s : State) : Goes (State.advance s t) (execThermalStep t s) := by
  unfold execThermalStep
  extract_lets +onlyGivenNames v1
  have h1 : Onward (s.advance t) v1 := by
    subst v1
    exact Onward.refl _
  try clear_value v1
  extract_lets +onlyGivenNames v2
  try clear_value v2
  extract_lets +onlyGivenNames v3
  try clear_value v3
  extract_lets +onlyGivenNames v4
  try clear_value v4
  refine Goes.done ?_
  refine Onward.ite ?_ ?_
  · extract_lets +onlyGivenNames v5
    try clear_value v5
    extract_lets +onlyGivenNames v6
    have h6 : Onward (s.advance t) v6 := by
      subst v6
      refine Onward.upd ?_ rfl
      assumption
    try clear_value v6
    refine Onward.ite ?_ ?_
    · with_reducible refine Onward.trans ?_ (State.capTo_onward _ _ _)
      assumption
    · split
      · refine Onward.ite ?_ ?_
        · with_reducible refine Onward.trans ?_ (State.capTo_onward _ _ _)
          assumption
        · assumption
      · assumption
  · assumption

theorem execWakeAlarm_onward (t : Nat) (s : State) : Goes (State.advance s t) (execWakeAlarm t s) := by
  unfold execWakeAlarm
  extract_lets +onlyGivenNames v1
  have h1 : Onward (s.advance t) v1 := by
    subst v1
    exact Onward.refl _
  try clear_value v1
  extract_lets +onlyGivenNames v2
  try clear_value v2
  refine Goes.done ?_
  refine Onward.ite ?_ ?_
  · extract_lets +onlyGivenNames v3
    have h3 : Onward (s.advance t) v3 := by
      subst v3
      with_reducible refine Onward.trans ?_ (State.event_onward _ _ _)
      assumption
    try clear_value v3
    extract_lets +onlyGivenNames v5
    try clear_value v5
    extract_lets +onlyGivenNames v6
    have h6 : Onward (s.advance t) v6 := by
      subst v6
      refine Onward.upd ?_ rfl
      assumption
    try clear_value v6
    with_reducible refine Onward.trans ?_ (State.askPower_onward _ _ _)
    assumption
  · assumption

theorem execDomainPowerUp_onward (t : Nat) (d : Dom) (s : State) : Goes (State.advance s t) (execDomainPowerUp t d s) := by
  unfold execDomainPowerUp
  extract_lets +onlyGivenNames v1
  have h1 : Onward (s.advance t) v1 := by
    subst v1
    exact Onward.refl _
  try clear_value v1
  refine Goes.done ?_
  refine Onward.ite ?_ ?_
  · extract_lets +onlyGivenNames v2
    try clear_value v2
    extract_lets +onlyGivenNames v3
    have h3 : Onward (s.advance t) v3 := by
      subst v3
      refine Onward.upd ?_ rfl
      assumption
    try clear_value v3
    extract_lets +onlyGivenNames v4
    have h4 : Onward (s.advance t) v4 := by
      subst v4
      with_reducible refine Onward.trans ?_ (State.dmaResume_onward _)
      with_reducible refine Onward.trans ?_ (State.domTo_onward _ _ _)
      assumption
    try clear_value v4
    split
    · with_reducible refine Onward.trans ?_ (State.portStart_onward _ _)
      assumption
    · with_reducible refine Onward.trans ?_ (State.portStart_onward _ _)
      assumption
    · assumption
  · assumption

theorem execDmaQuiesceTimeout_onward (t : Nat) (ch : Nat) (d : Dom) (s : State) : Goes (State.advance s t) (execDmaQuiesceTimeout t ch d s) := by
  unfold execDmaQuiesceTimeout
  extract_lets +onlyGivenNames v1
  have h1 : Onward (s.advance t) v1 := by
    subst v1
    exact Onward.refl _
  try clear_value v1
  refine Goes.done ?_
  split
  · refine Onward.ite ?_ ?_
    · extract_lets +onlyGivenNames v2
      have h2 : Onward (s.advance t) v2 := by
        subst v2
        with_reducible refine Onward.trans ?_ (State.event_onward _ _ _)
        with_reducible refine Onward.trans ?_ (State.bump_onward _ _)
        assumption
      try clear_value v2
      extract_lets +onlyGivenNames v5
      try clear_value v5
      extract_lets +onlyGivenNames v6
      try clear_value v6
      extract_lets +onlyGivenNames v7
      try clear_value v7
      extract_lets +onlyGivenNames v8
      try clear_value v8
      extract_lets +onlyGivenNames v9
      have h9 : Onward (s.advance t) v9 := by
        subst v9
        refine Onward.upd ?_ rfl
        assumption
      try clear_value v9
      with_reducible refine Onward.trans ?_ (State.dmaResume_onward _)
      with_reducible refine Onward.trans ?_ (State.domTo_onward _ _ _)
      assumption
    · assumption
  · assumption

theorem execDmaQuiesceRetry_onward (t : Nat) (ch : Nat) (d : Dom) (bytes : Nat) (s : State) : Goes (State.advance s t) (execDmaQuiesceRetry t ch d bytes s) := by
  unfold execDmaQuiesceRetry
  extract_lets +onlyGivenNames v1
  have h1 : Onward (s.advance t) v1 := by
    subst v1
    exact Onward.refl _
  try clear_value v1
  refine Goes.done ?_
  split
  · refine Onward.ite ?_ ?_
    · extract_lets +onlyGivenNames v2
      have h2 : Onward (s.advance t) v2 := by
        subst v2
        refine Onward.ite ?_ ?_
        · with_reducible refine Onward.trans ?_ (State.dmaForce_onward _ _ _ _)
          assumption
        · assumption
      try clear_value v2
      extract_lets +onlyGivenNames v4
      try clear_value v4
      extract_lets +onlyGivenNames v5
      try clear_value v5
      extract_lets +onlyGivenNames v6
      have h6 : Onward (s.advance t) v6 := by
        subst v6
        refine Onward.upd ?_ rfl
        assumption
      try clear_value v6
      with_reducible refine Onward.trans ?_ (State.settleQuiesce_onward _)
      with_reducible refine Onward.trans ?_ (State.domTo_onward _ _ _)
      assumption
    · assumption
  · assumption

theorem execClockMonitorWindow_onward (t : Nat) (a1 : Source) (count : Nat) (gap : Bool) (s : State) : Goes (State.advance s t) (execClockMonitorWindow t a1 count gap s) := by
  unfold execClockMonitorWindow
  extract_lets +onlyGivenNames v1
  have h1 : Onward (s.advance t) v1 := by
    subst v1
    exact Onward.refl _
  try clear_value v1
  refine Goes.done ?_
  with_reducible refine Onward.trans ?_ (State.noteFaults_onward _)
  with_reducible refine Onward.trans ?_ (State.clkoutCheck_onward _)
  with_reducible refine Onward.trans ?_ (State.npllReturn_onward _)
  with_reducible refine Onward.trans ?_ (State.monitor_onward _ _ _ _)
  assumption

theorem State.woscForced_onward (s : State) : Onward s (State.woscForced s) := by
  unfold State.woscForced
  refine Onward.ite ?_ ?_
  · refine Onward.upd ?_ rfl
    exact Onward.refl _
  · extract_lets +onlyGivenNames v1
    have h1 : Onward s v1 := by
      subst v1
      with_reducible refine Onward.trans ?_ (State.setSrc_onward _ _ _)
      exact Onward.refl _
    try clear_value v1
    refine Onward.upd ?_ rfl
    assumption

theorem State.forcedSwitch_onward (s : State) (d : Dom) (users : List (Nat × Nat)) : Onward s (State.forcedSwitch s d users) := by
  unfold State.forcedSwitch
  extract_lets +onlyGivenNames v1
  have h1 : Onward s v1 := by
    subst v1
    with_reducible refine Onward.trans ?_ (State.eventEmcy_onward _ _ _ _ _)
    with_reducible refine Onward.trans ?_ (State.bump_onward _ _)
    exact Onward.refl _
  try clear_value v1
  extract_lets +onlyGivenNames v4
  try clear_value v4
  extract_lets +onlyGivenNames v5
  have h5 : Onward s v5 := by
    subst v5
    split
    · assumption
    · assumption
    · assumption
    · assumption
    · refine Onward.upd ?_ rfl
      assumption
  try clear_value v5
  split
  · extract_lets +onlyGivenNames v6
    have h6 : Onward s v6 := by
      subst v6
      with_reducible refine Onward.trans ?_ (State.domTo_onward _ _ _)
      with_reducible refine Onward.trans ?_ (State.portOff_onward _ _)
      with_reducible refine Onward.trans ?_ (State.linkDown_onward _ _ _)
      assumption
    try clear_value v6
    refine Onward.upd ?_ rfl
    assumption
  · extract_lets +onlyGivenNames v10
    have h10 : Onward s v10 := by
      subst v10
      with_reducible refine Onward.trans ?_ (State.domTo_onward _ _ _)
      with_reducible refine Onward.trans ?_ (State.portOff_onward _ _)
      with_reducible refine Onward.trans ?_ (State.linkDown_onward _ _ _)
      assumption
    try clear_value v10
    refine Onward.upd ?_ rfl
    assumption
  · extract_lets +onlyGivenNames v14
    try clear_value v14
    refine Onward.ite ?_ ?_
    · assumption
    · with_reducible refine Onward.trans ?_ (State.warmMuster_onward _ _)
      refine Onward.upd ?_ rfl
      assumption
  · with_reducible refine Onward.trans ?_ (State.class1_onward _ _ _)
    assumption
  · with_reducible refine Onward.trans ?_ (State.woscForced_onward _)
    assumption
  · with_reducible refine Onward.trans ?_ (State.resetFlush_onward _ _)
    assumption

theorem execClockSwitchTimeout_onward (t : Nat) (d : Dom) (users : List (Nat × Nat)) (s : State) : Goes (State.advance s t) (execClockSwitchTimeout t d users s) := by
  unfold execClockSwitchTimeout
  extract_lets +onlyGivenNames v1
  have h1 : Onward (s.advance t) v1 := by
    subst v1
    exact Onward.refl _
  try clear_value v1
  refine Goes.done ?_
  refine Onward.ite ?_ ?_
  · assumption
  · with_reducible refine Onward.trans ?_ (State.forcedSwitch_onward _ _ _)
    assumption

theorem execPllLossOfLock_onward (t : Nat) (p : Pll) (s : State) : Goes (State.advance s t) (execPllLossOfLock t p s) := by
  unfold execPllLossOfLock
  extract_lets +onlyGivenNames v1
  have h1 : Onward (s.advance t) v1 := by
    subst v1
    exact Onward.refl _
  try clear_value v1
  extract_lets +onlyGivenNames v2
  try clear_value v2
  refine Goes.done ?_
  refine Onward.ite ?_ ?_
  · assumption
  · extract_lets +onlyGivenNames v3
    have h3 : Onward (s.advance t) v3 := by
      subst v3
      with_reducible refine Onward.trans ?_ (State.event_onward _ _ _)
      assumption
    try clear_value v3
    split
    · extract_lets +onlyGivenNames v5
      have h5 : Onward (s.advance t) v5 := by
        subst v5
        with_reducible refine Onward.trans ?_ (State.setPll_onward _ _ _)
        assumption
      try clear_value v5
      extract_lets +onlyGivenNames v7
      try clear_value v7
      extract_lets +onlyGivenNames v8
      have h8 : Onward (s.advance t) v8 := by
        subst v8
        refine Onward.upd ?_ rfl
        assumption
      try clear_value v8
      with_reducible refine Onward.trans ?_ (State.resetFlush_onward _ _)
      assumption
    · with_reducible refine Onward.trans ?_ (State.setPll_onward _ _ _)
      assumption

theorem execPllLock_onward (t : Nat) (p : Pll) (s : State) : Goes (State.advance s t) (execPllLock t p s) := by
  unfold execPllLock
  extract_lets +onlyGivenNames v1
  have h1 : Onward (s.advance t) v1 := by
    subst v1
    exact Onward.refl _
  try clear_value v1
  extract_lets +onlyGivenNames v2
  try clear_value v2
  refine Goes.done ?_
  refine Onward.ite ?_ ?_
  · with_reducible refine Onward.trans ?_ (State.setPll_onward _ _ _)
    assumption
  · assumption

theorem execPllRelockTimeout_onward (t : Nat) (p : Pll) (s : State) : Goes (State.advance s t) (execPllRelockTimeout t p s) := by
  unfold execPllRelockTimeout
  extract_lets +onlyGivenNames v1
  have h1 : Onward (s.advance t) v1 := by
    subst v1
    exact Onward.refl _
  try clear_value v1
  extract_lets +onlyGivenNames v2
  try clear_value v2
  refine Goes.done ?_
  split
  · refine Onward.ite ?_ ?_
    · extract_lets +onlyGivenNames v3
      have h3 : Onward (s.advance t) v3 := by
        subst v3
        with_reducible refine Onward.trans ?_ (State.setPll_onward _ _ _)
        assumption
      try clear_value v3
      split
      · with_reducible refine Onward.trans ?_ (State.forcedSwitch_onward _ _ _)
        assumption
      · with_reducible refine Onward.trans ?_ (State.forcedSwitch_onward _ _ _)
        assumption
      · assumption
    · assumption
  · assumption

theorem State.awaitPower_onward (s : State) (back : Bool) : Onward s (State.awaitPower s back) := by
  unfold State.awaitPower
  refine Onward.upd ?_ rfl
  exact Onward.refl _

theorem execHoldupFlushEnd_onward (t : Nat) (s : State) : Goes (State.advance s t) (execHoldupFlushEnd t s) := by
  unfold execHoldupFlushEnd
  extract_lets +onlyGivenNames v1
  have h1 : Onward (s.advance t) v1 := by
    subst v1
    exact Onward.refl _
  try clear_value v1
  refine Goes.done ?_
  split
  · extract_lets +onlyGivenNames v2
    try clear_value v2
    split
    extract_lets +onlyGivenNames v3
    have h3 : Onward (s.advance t) v3 := by
      subst v3
      with_reducible refine Onward.trans ?_ (State.flushReport_onward _ _ _)
      refine Onward.trans ?_ (State.writeOut_onward_eq (by assumption))
      assumption
    try clear_value v3
    extract_lets +onlyGivenNames v5
    try clear_value v5
    extract_lets +onlyGivenNames v6
    have h6 : Onward (s.advance t) v6 := by
      subst v6
      refine Onward.upd ?_ rfl
      assumption
    try clear_value v6
    split
    · with_reducible refine Onward.trans ?_ (State.awaitPower_onward _ _)
      assumption
    · with_reducible refine Onward.trans ?_ (State.awaitPower_onward _ _)
      assumption
    · refine Onward.ite ?_ ?_
      · with_reducible refine Onward.trans ?_ (State.awaitPower_onward _ _)
        assumption
      · refine Onward.ite ?_ ?_
        · with_reducible refine Onward.trans ?_ (State.warmMuster_onward _ _)
          assumption
        · refine Onward.upd ?_ rfl
          assumption
    · split
      · with_reducible refine Onward.trans ?_ (State.enterHalt_onward _ _)
        assumption
      · assumption
    · extract_lets +onlyGivenNames v12
      try clear_value v12
      extract_lets +onlyGivenNames v13
      have h13 : Onward (s.advance t) v13 := by
        subst v13
        refine Onward.upd ?_ rfl
        assumption
      try clear_value v13
      with_reducible refine Onward.trans ?_ (State.settleQuiesce_onward _)
      with_reducible refine Onward.trans ?_ (State.powerDowns_onward _ _)
      assumption
  · assumption

theorem execHoldupOkDeassert_onward (t : Nat) (s : State) : Goes (State.advance s t) (execHoldupOkDeassert t s) := by
  unfold execHoldupOkDeassert
  extract_lets +onlyGivenNames v1
  have h1 : Onward (s.advance t) v1 := by
    subst v1
    exact Onward.refl _
  try clear_value v1
  refine Goes.done ?_
  refine Onward.ite ?_ ?_
  · extract_lets +onlyGivenNames v2
    try clear_value v2
    extract_lets +onlyGivenNames v3
    have h3 : Onward (s.advance t) v3 := by
      subst v3
      with_reducible refine Onward.trans ?_ (State.eventEmcy_onward _ _ _ _ _)
      refine Onward.upd ?_ rfl
      assumption
    try clear_value v3
    extract_lets +onlyGivenNames v5
    try clear_value v5
    extract_lets +onlyGivenNames v6
    try clear_value v6
    extract_lets +onlyGivenNames v7
    have h7 : Onward (s.advance t) v7 := by
      subst v7
      refine Onward.trans ?_ (Onward.foldl (fun z8 y8 => ?_) _ _)
      · assumption
      · with_reducible refine Onward.trans ?_ (State.reappend_onward _ _ _)
        exact Onward.refl _
    try clear_value v7
    refine Onward.upd ?_ rfl
    assumption
  · refine Onward.upd ?_ rfl
    assumption

theorem execHoldupOkAssert_onward (t : Nat) (s : State) : Goes (State.advance s t) (execHoldupOkAssert t s) := by
  unfold execHoldupOkAssert
  extract_lets +onlyGivenNames v1
  have h1 : Onward (s.advance t) v1 := by
    subst v1
    exact Onward.refl _
  try clear_value v1
  refine Goes.done ?_
  refine Onward.ite ?_ ?_
  · with_reducible refine Onward.trans ?_ (State.condOff_onward _ _)
    with_reducible refine Onward.trans ?_ (State.event_onward _ _ _)
    refine Onward.upd ?_ rfl
    assumption
  · refine Onward.upd ?_ rfl
    assumption

end Sys2Proof.Machine
end

