-- ==== Sys2Proof/Laws/OnwardFw.lean ====
section
/-! SUPPORT. What the operations and meanings of firmware and flags do: each only goes onward (Laws/Onward.lean). -/

namespace Sys2Proof.Machine

theorem State.setStaged_onward (s : State) (a1 : Staged) : Onward s (State.setStaged s a1) := by
  unfold State.setStaged
  refine Onward.upd ?_ rfl
  exact Onward.refl _

theorem State.setSlot_onward (s : State) (n : Nat) (b : Option Bytes) : Onward s (State.setSlot s n b) := by
  unfold State.setSlot
  extract_lets +onlyGivenNames v1
  try clear_value v1
  extract_lets +onlyGivenNames v2
  try clear_value v2
  refine Onward.upd ?_ rfl
  exact Onward.refl _

theorem State.laceDrop_onward (s : State) : Onward s (State.laceDrop s) := by
  unfold State.laceDrop
  refine Onward.upd ?_ rfl
  exact Onward.refl _

theorem State.stageComplete_onward (s : State) : Onward s (State.stageComplete s) := by
  unfold State.stageComplete
  extract_lets +onlyGivenNames v1
  try clear_value v1
  extract_lets +onlyGivenNames v2
  try clear_value v2
  extract_lets +onlyGivenNames v3
  try clear_value v3
  extract_lets +onlyGivenNames v4
  have h4 : Onward s v4 := by
    subst v4
    with_reducible refine Onward.trans ?_ (State.event_onward _ _ _)
    exact Onward.refl _
  try clear_value v4
  extract_lets +onlyGivenNames v6
  try clear_value v6
  refine Onward.ite ?_ ?_
  · split
    extract_lets +onlyGivenNames v7
    have h7 : Onward s v7 := by
      subst v7
      with_reducible refine Onward.trans ?_ (State.setSlot_onward _ _ _)
      with_reducible refine Onward.trans ?_ (State.laceDrop_onward _)
      refine Onward.trans ?_ (State.drawFree_onward_eq (by assumption))
      assumption
    try clear_value v7
    with_reducible refine Onward.trans ?_ (State.setStaged_onward _ _)
    assumption
  · with_reducible refine Onward.trans ?_ (State.setStaged_onward _ _)
    assumption

theorem State.endBusy_onward (s : State) (c : CmdCtx) (retryUs : Nat) : Onward s (State.endBusy s c retryUs) := by
  unfold State.endBusy
  with_reducible refine Onward.trans ?_ (State.finish_onward _ _ _ _)
  with_reducible refine Onward.trans ?_ (State.countRefusal_onward _ _)
  exact Onward.refl _

theorem State.runSegment_onward (s : State) (c : CmdCtx) : Onward s (State.runSegment s c) := by
  unfold State.runSegment
  extract_lets +onlyGivenNames v1
  try clear_value v1
  refine Onward.ite ?_ ?_
  · split
    with_reducible refine Onward.trans ?_ (State.endBusy_onward _ _ _)
    refine Onward.trans ?_ (State.drawFree_onward_eq (by assumption))
    exact Onward.refl _
  · extract_lets +onlyGivenNames v3
    try clear_value v3
    extract_lets +onlyGivenNames v4
    have h4 : Onward s v4 := by
      subst v4
      refine Onward.ite ?_ ?_
      · with_reducible refine Onward.trans ?_ (State.trimCache_onward _)
        with_reducible refine Onward.trans ?_ (State.setStaged_onward _ _)
        exact Onward.refl _
      · exact Onward.refl _
    try clear_value v4
    extract_lets +onlyGivenNames v7
    try clear_value v7
    refine Onward.ite ?_ ?_
    · with_reducible refine Onward.trans ?_ (State.finish_onward _ _ _ _)
      assumption
    · refine Onward.ite ?_ ?_
      · with_reducible refine Onward.trans ?_ (State.finish_onward _ _ _ _)
        assumption
      · extract_lets +onlyGivenNames v10
        try clear_value v10
        extract_lets +onlyGivenNames v11
        have h11 : Onward s v11 := by
          subst v11
          with_reducible refine Onward.trans ?_ (State.setStaged_onward _ _)
          assumption
        try clear_value v11
        extract_lets +onlyGivenNames v13
        have h13 : Onward s v13 := by
          subst v13
          refine Onward.ite ?_ ?_
          · refine Onward.ite ?_ ?_
            · with_reducible refine Onward.trans ?_ (State.stageComplete_onward _)
              assumption
            · assumption
          · assumption
        try clear_value v13
        with_reducible refine Onward.trans ?_ (State.finish_onward _ _ _ _)
        assumption

theorem State.decideActivate_onward (s : State) (p : CmdPkt) (tEnd : Option Nat) : Onward s (State.decideActivate s p tEnd).1 := by
  unfold State.decideActivate
  extract_lets +onlyGivenNames v1
  try clear_value v1
  refine Onward.ite_fst ?_ ?_
  · split
    refine Onward.fst_mk ?_
    refine Onward.trans ?_ (State.drawFree_onward_eq (by assumption))
    exact Onward.refl _
  · refine Onward.ite_fst ?_ ?_
    · refine Onward.fst_mk ?_
      exact Onward.refl _
    · refine Onward.ite_fst ?_ ?_
      · refine Onward.fst_mk ?_
        exact Onward.refl _
      · extract_lets +onlyGivenNames v2
        try clear_value v2
        refine Onward.ite_fst ?_ ?_
        · refine Onward.fst_mk ?_
          exact Onward.refl _
        · refine Onward.ite_fst ?_ ?_
          · refine Onward.fst_mk ?_
            exact Onward.refl _
          · refine Onward.ite_fst ?_ ?_
            · refine Onward.fst_mk ?_
              exact Onward.refl _
            · split
              · refine Onward.fst_mk ?_
                exact Onward.refl _
              · extract_lets +onlyGivenNames v3
                try clear_value v3
                refine Onward.ite_fst ?_ ?_
                · refine Onward.fst_mk ?_
                  exact Onward.refl _
                · refine Onward.fst_mk ?_
                  with_reducible refine Onward.trans ?_ (State.event_onward _ _ _)
                  exact Onward.refl _
theorem State.decideActivate_onward_eq {s : State} {p : CmdPkt} {tEnd : Option Nat} {r1 r2} (hres : State.decideActivate s p tEnd = (r1, r2)) : Onward s r1 := by
  have k := State.decideActivate_onward s p tEnd
  rw [hres] at k
  exact k

theorem State.swapSite_onward (s : State) (b : Bytes) : Onward s (State.swapSite s b) := by
  unfold State.swapSite
  extract_lets +onlyGivenNames v1
  have h1 : Onward s v1 := by
    subst v1
    refine Onward.trans ?_ (Onward.foldl (fun z2 y2 => ?_) _ _)
    · exact Onward.refl _
    · extract_lets +onlyGivenNames v3
      with_reducible refine Onward.trans ?_ (State.dmaForce_onward _ _ _ _)
      subst v3
      with_reducible refine Onward.trans ?_ (State.drawFree_onward _)
      exact Onward.refl _
  try clear_value v1
  extract_lets +onlyGivenNames v5
  have h5 : Onward s v5 := by
    subst v5
    with_reducible refine Onward.trans ?_ (State.loadSite_onward _ _)
    assumption
  try clear_value v5
  refine Onward.upd ?_ rfl
  assumption

theorem State.beginActivation_onward (s : State) (c : CmdCtx) (b : Bytes) : Onward s (State.beginActivation s c b) := by
  unfold State.beginActivation
  extract_lets +onlyGivenNames v1
  try clear_value v1
  extract_lets +onlyGivenNames v2
  have h2 : Onward s v2 := by
    subst v2
    with_reducible refine Onward.trans ?_ (State.event_onward _ _ _)
    exact Onward.refl _
  try clear_value v2
  extract_lets +onlyGivenNames v4
  try clear_value v4
  extract_lets +onlyGivenNames v5
  extract_lets +onlyGivenNames v6
  extract_lets +onlyGivenNames v7
  have h7 : Onward s v7 := by
    subst v7
    split
    · with_reducible refine Onward.trans ?_ (State.event_onward _ _ _)
      refine Onward.updOtp ?_ (OtpOnward.setRollback _ (by assumption))
      assumption
    · assumption
  try clear_value v7
  extract_lets +onlyGivenNames v9
  try clear_value v9
  extract_lets +onlyGivenNames v10
  extract_lets +onlyGivenNames v11
  try clear_value v11
  extract_lets +onlyGivenNames v12
  have h12 : Onward s v12 := by
    subst v12
    refine Onward.upd ?_ rfl
    assumption
  try clear_value v12
  with_reducible refine Onward.trans ?_ (State.noteFaults_onward _)
  with_reducible refine Onward.trans ?_ (State.onCmd_onward _ _ _ _)
  assumption

theorem State.laceOffer_onward (s : State) (b : Bytes) : Onward s (State.laceOffer s b) := by
  unfold State.laceOffer
  extract_lets +onlyGivenNames v1
  have h1 : Onward s v1 := by
    subst v1
    with_reducible refine Onward.trans ?_ (State.laceDrop_onward _)
    exact Onward.refl _
  try clear_value v1
  split
  · assumption
  · refine Onward.upd ?_ rfl
    assumption

theorem State.laceOwn_onward (s : State) (b : Bytes) : Onward s (State.laceOwn s b) := by
  unfold State.laceOwn
  refine Onward.ite ?_ ?_
  · with_reducible refine Onward.trans ?_ (State.laceOffer_onward _ _)
    exact Onward.refl _
  · exact Onward.refl _

theorem State.laceSkip_onward (s : State) (cause : Nat) : Onward s (State.laceSkip s cause) := by
  unfold State.laceSkip
  extract_lets +onlyGivenNames v1
  try clear_value v1
  extract_lets +onlyGivenNames v2
  have h2 : Onward s v2 := by
    subst v2
    with_reducible refine Onward.trans ?_ (State.event_onward _ _ _)
    exact Onward.refl _
  try clear_value v2
  extract_lets +onlyGivenNames v4
  have h4 : Onward s v4 := by
    subst v4
    with_reducible refine Onward.trans ?_ (State.laceDrop_onward _)
    assumption
  try clear_value v4
  extract_lets +onlyGivenNames v6
  extract_lets +onlyGivenNames v7
  have h7 : Onward s v7 := by
    subst v7
    refine Onward.upd ?_ rfl
    assumption
  try clear_value v7
  split
  · assumption
  · refine Onward.upd ?_ rfl
    assumption

theorem State.laceStop_onward (s : State) : Onward s (State.laceStop s) := by
  unfold State.laceStop
  extract_lets +onlyGivenNames v1
  try clear_value v1
  extract_lets +onlyGivenNames v2
  have h2 : Onward s v2 := by
    subst v2
    with_reducible refine Onward.trans ?_ (State.event_onward _ _ _)
    with_reducible refine Onward.trans ?_ (State.laceDrop_onward _)
    exact Onward.refl _
  try clear_value v2
  refine Onward.upd ?_ rfl
  assumption

theorem State.laceNext_onward (s : State) : Onward s (State.laceNext s) := by
  unfold State.laceNext
  extract_lets +onlyGivenNames v1
  try clear_value v1
  refine Onward.ite ?_ ?_
  · exact Onward.refl _
  · refine Onward.ite ?_ ?_
    · extract_lets +onlyGivenNames v2
      try clear_value v2
      extract_lets +onlyGivenNames v3
      try clear_value v3
      with_reducible refine Onward.trans ?_ (State.peerCmd_onward _ _ _ _ _ _ _ _ _ _)
      refine Onward.upd ?_ rfl
      exact Onward.refl _
    · with_reducible refine Onward.trans ?_ (State.peerCmd_onward _ _ _ _ _ _ _ _ _ _)
      refine Onward.upd ?_ rfl
      exact Onward.refl _

theorem State.runActivate_onward (s : State) (c : CmdCtx) : Onward s (State.runActivate s c) := by
  unfold State.runActivate
  extract_lets +onlyGivenNames v1
  try clear_value v1
  split
  split
  · with_reducible refine Onward.trans ?_ (State.finish_onward _ _ _ _)
    refine Onward.trans ?_ (State.decideActivate_onward_eq (by assumption))
    exact Onward.refl _
  · with_reducible refine Onward.trans ?_ (State.endBusy_onward _ _ _)
    refine Onward.trans ?_ (State.decideActivate_onward_eq (by assumption))
    exact Onward.refl _
  · refine Onward.ite ?_ ?_
    · extract_lets +onlyGivenNames v4
      have h4 : Onward s v4 := by
        subst v4
        with_reducible refine Onward.trans ?_ (State.finish_onward _ _ _ _)
        with_reducible refine Onward.trans ?_ (State.swapSite_onward _ _)
        refine Onward.trans ?_ (State.decideActivate_onward_eq (by assumption))
        exact Onward.refl _
      try clear_value v4
      with_reducible refine Onward.trans ?_ (State.laceOwn_onward _ _)
      with_reducible refine Onward.trans ?_ (State.setStaged_onward _ _)
      assumption
    · refine Onward.ite ?_ ?_
      · with_reducible refine Onward.trans ?_ (State.laceOwn_onward _ _)
        with_reducible refine Onward.trans ?_ (State.finish_onward _ _ _ _)
        refine Onward.trans ?_ (State.decideActivate_onward_eq (by assumption))
        exact Onward.refl _
      · with_reducible refine Onward.trans ?_ (State.beginActivation_onward _ _ _)
        refine Onward.trans ?_ (State.decideActivate_onward_eq (by assumption))
        exact Onward.refl _

theorem State.actFail_onward (s : State) (step : Nat) (cause : Nat) : Onward s (State.actFail s step cause) := by
  unfold State.actFail
  extract_lets +onlyGivenNames v1
  extract_lets +onlyGivenNames v2
  extract_lets +onlyGivenNames v3
  try clear_value v3
  extract_lets +onlyGivenNames v4
  have h4 : Onward s v4 := by
    subst v4
    refine Onward.updOtp ?_ (OtpOnward.setLife ..)
    exact Onward.refl _
  try clear_value v4
  extract_lets +onlyGivenNames v5
  have h5 : Onward s v5 := by
    subst v5
    with_reducible refine Onward.trans ?_ (State.eventEmcy_onward _ _ _ _ _)
    assumption
  try clear_value v5
  with_reducible refine Onward.trans ?_ (State.goHalt_onward _ _)
  assumption

theorem State.handoverDone_onward (s : State) : Onward s (State.handoverDone s) := by
  unfold State.handoverDone
  extract_lets +onlyGivenNames v1
  try clear_value v1
  extract_lets +onlyGivenNames v2
  try clear_value v2
  extract_lets +onlyGivenNames v3
  try clear_value v3
  extract_lets +onlyGivenNames v4
  extract_lets +onlyGivenNames v5
  extract_lets +onlyGivenNames v6
  try clear_value v6
  extract_lets +onlyGivenNames v7
  have h7 : Onward s v7 := by
    subst v7
    with_reducible refine Onward.trans ?_ (State.setSys_onward _ _ _)
    refine Onward.upd ?_ rfl
    exact Onward.refl _
  try clear_value v7
  extract_lets +onlyGivenNames v9
  have h9 : Onward s v9 := by
    subst v9
    split
    · with_reducible refine Onward.trans ?_ (State.finish_onward _ _ _ _)
      assumption
    · assumption
  try clear_value v9
  extract_lets +onlyGivenNames v11
  have h11 : Onward s v11 := by
    subst v11
    with_reducible refine Onward.trans ?_ (State.laceOwn_onward _ _)
    with_reducible refine Onward.trans ?_ (State.setStaged_onward _ _)
    assumption
  try clear_value v11
  extract_lets +onlyGivenNames v14
  have h14 : Onward s v14 := by
    subst v14
    with_reducible refine Onward.trans ?_ (State.noteFaults_onward _)
    assumption
  try clear_value v14
  split
  · with_reducible refine Onward.trans ?_ (State.requestMode_onward _ _ _)
    refine Onward.upd ?_ rfl
    assumption
  · assumption

theorem State.lifeRequest_onward (s : State) (v : Nat) : Onward s (State.lifeRequest s v).1 := by
  unfold State.lifeRequest
  split
  · refine Onward.fst_mk ?_
    exact Onward.refl _
  · refine Onward.ite_fst ?_ ?_
    · refine Onward.fst_mk ?_
      exact Onward.refl _
    · refine Onward.fst_mk ?_
      with_reducible refine Onward.trans ?_ (State.resetFlush_onward _ _)
      refine Onward.upd ?_ rfl
      exact Onward.refl _
theorem State.lifeRequest_onward_eq {s : State} {v : Nat} {r1 r2} (hres : State.lifeRequest s v = (r1, r2)) : Onward s r1 := by
  have k := State.lifeRequest_onward s v
  rw [hres] at k
  exact k

theorem State.otpWrite_onward (s : State) (b : Bytes) (ok : Bool) : Onward s (State.otpWrite s b ok).1 := by
  unfold State.otpWrite
  refine Onward.ite_fst ?_ ?_
  · refine Onward.fst_mk ?_
    exact Onward.refl _
  · refine Onward.ite_fst ?_ ?_
    · refine Onward.fst_mk ?_
      exact Onward.refl _
    · refine Onward.ite_fst ?_ ?_
      · refine Onward.fst_mk ?_
        exact Onward.refl _
      · refine Onward.ite_fst ?_ ?_
        · refine Onward.fst_mk ?_
          exact Onward.refl _
        · extract_lets +onlyGivenNames v1
          try clear_value v1
          refine Onward.fst_mk ?_
          with_reducible refine Onward.trans ?_ (State.event_onward _ _ _)
          refine Onward.updOtp ?_ (OtpOnward.addGen ..)
          exact Onward.refl _
theorem State.otpWrite_onward_eq {s : State} {b : Bytes} {ok : Bool} {r1 r2} (hres : State.otpWrite s b ok = (r1, r2)) : Onward s r1 := by
  have k := State.otpWrite_onward s b ok
  rw [hres] at k
  exact k

end Sys2Proof.Machine
end

