-- ==== Sys2Proof/Laws/OnwardDict.lean ====
section
/-! SUPPORT. What the operations and meanings of the dictionary do: each only goes onward (Laws/Onward.lean). -/

namespace Sys2Proof.Machine

theorem State.setSel_onward (s : State) (a1 : Selectors) : Onward s (State.setSel s a1) := by
  unfold State.setSel
  refine Onward.upd ?_ rfl
  exact Onward.refl _

theorem State.entryBytes_onward (s : State) (c : Client) (r : DictRow) : Onward s (State.entryBytes s c r).1 := by
  unfold State.entryBytes
  extract_lets +onlyGivenNames v1
  try clear_value v1
  refine Onward.ite_fst ?_ ?_
  · refine Onward.fst_mk ?_
    exact Onward.refl _
  · refine Onward.ite_fst ?_ ?_
    · refine Onward.fst_mk ?_
      exact Onward.refl _
    · refine Onward.ite_fst ?_ ?_
      · refine Onward.fst_mk ?_
        exact Onward.refl _
      · refine Onward.ite_fst ?_ ?_
        · split
          · refine Onward.fst_mk ?_
            exact Onward.refl _
          · refine Onward.fst_mk ?_
            exact Onward.refl _
        · refine Onward.ite_fst ?_ ?_
          · split
            · refine Onward.fst_mk ?_
              exact Onward.refl _
            · refine Onward.fst_mk ?_
              exact Onward.refl _
          · refine Onward.ite_fst ?_ ?_
            · split
              refine Onward.fst_mk ?_
              refine Onward.trans ?_ (State.drawFree_onward_eq (by assumption))
              exact Onward.refl _
            · split
              · refine Onward.fst_mk ?_
                exact Onward.refl _
              · refine Onward.fst_mk ?_
                exact Onward.refl _
theorem State.entryBytes_onward_eq {s : State} {c : Client} {r : DictRow} {r1 r2} (hres : State.entryBytes s c r = (r1, r2)) : Onward s r1 := by
  have k := State.entryBytes_onward s c r
  rw [hres] at k
  exact k

theorem State.dictGet_onward (s : State) (c : Client) (index : Nat) (sub : Nat) : Onward s (State.dictGet s c index sub).1 := by
  unfold State.dictGet
  refine Onward.ite_fst ?_ ?_
  · refine Onward.fst_mk ?_
    exact Onward.refl _
  · split
    · refine Onward.fst_mk ?_
      exact Onward.refl _
    · extract_lets +onlyGivenNames v1
      try clear_value v1
      refine Onward.ite_fst ?_ ?_
      · refine Onward.fst_mk ?_
        exact Onward.refl _
      · refine Onward.ite_fst ?_ ?_
        · refine Onward.fst_mk ?_
          exact Onward.refl _
        · extract_lets +onlyGivenNames v2
          refine Onward.fst_mk ?_
          subst v2
          with_reducible refine Onward.trans ?_ (State.entryBytes_onward _ _ _)
          exact Onward.refl _
theorem State.dictGet_onward_eq {s : State} {c : Client} {index : Nat} {sub : Nat} {r1 r2} (hres : State.dictGet s c index sub = (r1, r2)) : Onward s r1 := by
  have k := State.dictGet_onward s c index sub
  rw [hres] at k
  exact k

theorem State.storeKick_onward (s : State) : Onward s (State.storeKick s) := by
  unfold State.storeKick
  refine Onward.ite ?_ ?_
  · exact Onward.refl _
  · extract_lets +onlyGivenNames v1
    try clear_value v1
    refine Onward.upd ?_ rfl
    exact Onward.refl _

theorem State.awaitStore_onward (s : State) (who : Waiter) : Onward s (State.awaitStore s who) := by
  unfold State.awaitStore
  with_reducible refine Onward.trans ?_ (State.storeKick_onward _)
  refine Onward.upd ?_ rfl
  exact Onward.refl _

theorem State.putEntry_onward (s : State) (r : DictRow) (v : DVal) : Onward s (State.putEntry s r v).1 := by
  unfold State.putEntry
  extract_lets +onlyGivenNames v1
  have h1 : Onward s v1 := by
    subst v1
    with_reducible refine Onward.trans ?_ (State.setVal_onward _ _ _)
    exact Onward.refl _
  try clear_value v1
  refine Onward.ite_fst ?_ ?_
  · refine Onward.fst_mk ?_
    assumption
  · refine Onward.ite_fst ?_ ?_
    · refine Onward.fst_mk ?_
      assumption
    · refine Onward.fst_mk ?_
      refine Onward.upd ?_ rfl
      assumption
theorem State.putEntry_onward_eq {s : State} {r : DictRow} {v : DVal} {r1 r2} (hres : State.putEntry s r v = (r1, r2)) : Onward s r1 := by
  have k := State.putEntry_onward s r v
  rw [hres] at k
  exact k

theorem State.portRestart_onward (s : State) (p : PortId) : Onward s (State.portRestart s p) := by
  unfold State.portRestart
  refine Onward.ite ?_ ?_
  · with_reducible refine Onward.trans ?_ (State.linkDown_onward _ _ _)
    exact Onward.refl _
  · with_reducible refine Onward.trans ?_ (State.portStart_onward _ _)
    exact Onward.refl _

theorem State.claim_onward (s : State) (serial : Nat) (new : Nat) : Onward s (State.claim s serial new) := by
  unfold State.claim
  refine Onward.ite ?_ ?_
  · with_reducible refine Onward.trans ?_ (State.bootUp_onward _)
    with_reducible refine Onward.trans ?_ (State.setSys_onward _ _ _)
    exact Onward.refl _
  · exact Onward.refl _

theorem State.pskPut_onward (s : State) (b : Bytes) : Onward s (State.pskPut s b).1 := by
  unfold State.pskPut
  extract_lets +onlyGivenNames v1
  try clear_value v1
  extract_lets +onlyGivenNames v2
  try clear_value v2
  extract_lets +onlyGivenNames v3
  try clear_value v3
  refine Onward.ite_fst ?_ ?_
  · refine Onward.fst_mk ?_
    exact Onward.refl _
  · refine Onward.ite_fst ?_ ?_
    · extract_lets +onlyGivenNames v4
      try clear_value v4
      extract_lets +onlyGivenNames v5
      have h5 : Onward s v5 := by
        subst v5
        refine Onward.upd ?_ rfl
        exact Onward.refl _
      try clear_value v5
      refine Onward.fst_mk ?_
      with_reducible refine Onward.trans ?_ (State.eraseSecret_onward _ _)
      assumption
    · refine Onward.fst_mk ?_
      with_reducible refine Onward.trans ?_ (State.tableCopy_onward _)
      refine Onward.upd ?_ rfl
      exact Onward.refl _
theorem State.pskPut_onward_eq {s : State} {b : Bytes} {r1 r2} (hres : State.pskPut s b = (r1, r2)) : Onward s r1 := by
  have k := State.pskPut_onward s b
  rw [hres] at k
  exact k

theorem State.pskDelete_onward (s : State) (b : Bytes) : Onward s (State.pskDelete s b) := by
  unfold State.pskDelete
  refine Onward.ite ?_ ?_
  · extract_lets +onlyGivenNames v1
    try clear_value v1
    extract_lets +onlyGivenNames v2
    have h2 : Onward s v2 := by
      subst v2
      refine Onward.upd ?_ rfl
      exact Onward.refl _
    try clear_value v2
    extract_lets +onlyGivenNames v3
    have h3 : Onward s v3 := by
      subst v3
      refine Onward.trans ?_ (Onward.foldl (fun z4 y4 => ?_) _ _)
      · assumption
      · with_reducible refine Onward.trans ?_ (State.closeSession_onward _ _ _ _)
        exact Onward.refl _
    try clear_value v3
    with_reducible refine Onward.trans ?_ (State.eraseSecret_onward _ _)
    assumption
  · exact Onward.refl _

theorem State.rateLimit_onward (s : State) (b : Bytes) : Onward s (State.rateLimit s b) := by
  unfold State.rateLimit
  extract_lets +onlyGivenNames v1
  try clear_value v1
  extract_lets +onlyGivenNames v2
  try clear_value v2
  extract_lets +onlyGivenNames v3
  try clear_value v3
  extract_lets +onlyGivenNames v4
  try clear_value v4
  extract_lets +onlyGivenNames v5
  try clear_value v5
  extract_lets +onlyGivenNames v6
  have h6 : Onward s v6 := by
    subst v6
    refine Onward.upd ?_ rfl
    exact Onward.refl _
  try clear_value v6
  with_reducible refine Onward.trans ?_ (State.setBucket_onward _ _)
  assumption

theorem State.snapshotFrom_onward (s : State) (i : Nat) (from_ : Nat) : Onward s (State.snapshotFrom s i from_) := by
  unfold State.snapshotFrom
  extract_lets +onlyGivenNames v1
  try clear_value v1
  extract_lets +onlyGivenNames v2
  try clear_value v2
  extract_lets +onlyGivenNames v3
  try clear_value v3
  extract_lets +onlyGivenNames v4
  try clear_value v4
  extract_lets +onlyGivenNames v5
  try clear_value v5
  refine Onward.upd ?_ rfl
  exact Onward.refl _

theorem State.clearTamper_onward (s : State) : Onward s (State.clearTamper s) := by
  unfold State.clearTamper
  refine Onward.ite ?_ ?_
  · extract_lets +onlyGivenNames v1
    have h1 : Onward s v1 := by
      subst v1
      with_reducible refine Onward.trans ?_ (State.condOff_onward _ _)
      exact Onward.refl _
    try clear_value v1
    extract_lets +onlyGivenNames v3
    try clear_value v3
    extract_lets +onlyGivenNames v4
    try clear_value v4
    extract_lets +onlyGivenNames v5
    have h5 : Onward s v5 := by
      subst v5
      refine Onward.upd ?_ rfl
      assumption
    try clear_value v5
    with_reducible refine Onward.trans ?_ (State.warmMuster_onward _ _)
    assumption
  · exact Onward.refl _

theorem State.nsAttr_onward (s : State) (a1 : Ns) (sub : Nat) (n : Nat) : Onward s (State.nsAttr s a1 sub n) := by
  unfold State.nsAttr
  with_reducible refine Onward.trans ?_ (State.setNs_onward _ _)
  exact Onward.refl _

theorem State.preemptSet_onward (s : State) (p : PortId) : Onward s (State.preemptSet s p) := by
  unfold State.preemptSet
  extract_lets +onlyGivenNames v1
  try clear_value v1
  with_reducible refine Onward.trans ?_ (State.setPort_onward _ _ _)
  exact Onward.refl _

theorem State.pauseSet_onward (s : State) (p : PortId) : Onward s (State.pauseSet s p) := by
  unfold State.pauseSet
  extract_lets +onlyGivenNames v1
  try clear_value v1
  extract_lets +onlyGivenNames v2
  try clear_value v2
  with_reducible refine Onward.trans ?_ (State.resumeTx_onward _ _)
  with_reducible refine Onward.trans ?_ (State.setPort_onward _ _ _)
  exact Onward.refl _

theorem State.afterNum_onward (s : State) (k : Nat) (old : Nat) : Onward s (State.afterNum s k old) := by
  unfold State.afterNum
  refine Onward.ite ?_ ?_
  · with_reducible refine Onward.trans ?_ (State.portRestart_onward _ _)
    exact Onward.refl _
  · refine Onward.ite ?_ ?_
    · with_reducible refine Onward.trans ?_ (State.portRestart_onward _ _)
      exact Onward.refl _
    · refine Onward.ite ?_ ?_
      · with_reducible refine Onward.trans ?_ (State.limitChanged_onward _ _)
        with_reducible refine Onward.trans ?_ (State.setNum_onward _ _ _)
        exact Onward.refl _
      · refine Onward.ite ?_ ?_
        · with_reducible refine Onward.trans ?_ (State.limitChanged_onward _ _)
          exact Onward.refl _
        · refine Onward.ite ?_ ?_
          · with_reducible refine Onward.trans ?_ (State.stirred_onward _)
            exact Onward.refl _
          · refine Onward.ite ?_ ?_
            · with_reducible refine Onward.trans ?_ (State.pllsFollow_onward _)
              exact Onward.refl _
            · refine Onward.ite ?_ ?_
              · extract_lets +onlyGivenNames v8
                try clear_value v8
                with_reducible refine Onward.trans ?_ (State.emit_onward _ _)
                with_reducible refine Onward.trans ?_ (State.setPtp_onward _ _)
                exact Onward.refl _
              · refine Onward.ite ?_ ?_
                · with_reducible refine Onward.trans ?_ (State.clkoutCheck_onward _)
                  exact Onward.refl _
                · refine Onward.ite ?_ ?_
                  · with_reducible refine Onward.trans ?_ (State.gpioApply_onward _)
                    exact Onward.refl _
                  · refine Onward.ite ?_ ?_
                    · with_reducible refine Onward.trans ?_ (State.preemptSet_onward _ _)
                      exact Onward.refl _
                    · refine Onward.ite ?_ ?_
                      · with_reducible refine Onward.trans ?_ (State.preemptSet_onward _ _)
                        exact Onward.refl _
                      · refine Onward.ite ?_ ?_
                        · with_reducible refine Onward.trans ?_ (State.pauseSet_onward _ _)
                          exact Onward.refl _
                        · refine Onward.ite ?_ ?_
                          · with_reducible refine Onward.trans ?_ (State.pauseSet_onward _ _)
                            exact Onward.refl _
                          · exact Onward.refl _

theorem State.writeNum_onward (s : State) (c : Client) (r : DictRow) (v : Nat) : Onward s (State.writeNum s c r v).1 := by
  unfold State.writeNum
  extract_lets +onlyGivenNames v1
  try clear_value v1
  extract_lets +onlyGivenNames v2
  try clear_value v2
  refine Onward.ite_fst ?_ ?_
  · refine Onward.ite_fst ?_ ?_
    · refine Onward.fst_mk ?_
      exact Onward.refl _
    · refine Onward.ite_fst ?_ ?_
      · refine Onward.fst_mk ?_
        exact Onward.refl _
      · refine Onward.fst_mk ?_
        exact Onward.refl _
  · refine Onward.ite_fst ?_ ?_
    · refine Onward.ite_fst ?_ ?_
      · refine Onward.fst_mk ?_
        exact Onward.refl _
      · extract_lets +onlyGivenNames v3
        try clear_value v3
        refine Onward.fst_mk ?_
        refine Onward.upd ?_ rfl
        exact Onward.refl _
    · refine Onward.ite_fst ?_ ?_
      · extract_lets +onlyGivenNames v4
        refine Onward.fst_mk ?_
        subst v4
        with_reducible refine Onward.trans ?_ (State.lifeRequest_onward _ _)
        exact Onward.refl _
      · refine Onward.ite_fst ?_ ?_
        · refine Onward.fst_mk ?_
          exact Onward.refl _
        · refine Onward.ite_fst ?_ ?_
          · extract_lets +onlyGivenNames v5
            try clear_value v5
            refine Onward.fst_mk ?_
            with_reducible refine Onward.trans ?_ (State.setSel_onward _ _)
            exact Onward.refl _
          · refine Onward.ite_fst ?_ ?_
            · extract_lets +onlyGivenNames v7
              try clear_value v7
              refine Onward.fst_mk ?_
              with_reducible refine Onward.trans ?_ (State.setSel_onward _ _)
              exact Onward.refl _
            · refine Onward.ite_fst ?_ ?_
              · extract_lets +onlyGivenNames v9
                try clear_value v9
                refine Onward.fst_mk ?_
                with_reducible refine Onward.trans ?_ (State.setSel_onward _ _)
                exact Onward.refl _
              · refine Onward.ite_fst ?_ ?_
                · split
                  · refine Onward.fst_mk ?_
                    with_reducible refine Onward.trans ?_ (State.nsAttr_onward _ _ _ _)
                    exact Onward.refl _
                  · refine Onward.fst_mk ?_
                    exact Onward.refl _
                · refine Onward.ite_fst ?_ ?_
                  · refine Onward.fst_mk ?_
                    with_reducible refine Onward.trans ?_ (State.clearTamper_onward _)
                    exact Onward.refl _
                  · refine Onward.ite_fst ?_ ?_
                    · refine Onward.fst_mk ?_
                      refine Onward.upd ?_ rfl
                      exact Onward.refl _
                    · refine Onward.ite_fst ?_ ?_
                      · extract_lets +onlyGivenNames v13
                        refine Onward.fst_mk ?_
                        with_reducible refine Onward.trans ?_ (State.snapshotFrom_onward _ _ _)
                        subst v13
                        with_reducible refine Onward.trans ?_ (State.putEntry_onward _ _ _)
                        exact Onward.refl _
                      · extract_lets +onlyGivenNames v15
                        try clear_value v15
                        extract_lets +onlyGivenNames v16
                        refine Onward.fst_mk ?_
                        with_reducible refine Onward.trans ?_ (State.afterNum_onward _ _ _)
                        subst v16
                        with_reducible refine Onward.trans ?_ (State.putEntry_onward _ _ _)
                        exact Onward.refl _
theorem State.writeNum_onward_eq {s : State} {c : Client} {r : DictRow} {v : Nat} {r1 r2} (hres : State.writeNum s c r v = (r1, r2)) : Onward s r1 := by
  have k := State.writeNum_onward s c r v
  rw [hres] at k
  exact k

theorem State.writeStr_onward (s : State) (r : DictRow) (b : Bytes) : Onward s (State.writeStr s r b).1 := by
  unfold State.writeStr
  extract_lets +onlyGivenNames v1
  try clear_value v1
  refine Onward.ite_fst ?_ ?_
  · extract_lets +onlyGivenNames v2
    refine Onward.fst_mk ?_
    subst v2
    with_reducible refine Onward.trans ?_ (State.mapWrite_onward _ _)
    exact Onward.refl _
  · refine Onward.ite_fst ?_ ?_
    · split
      · refine Onward.fst_mk ?_
        with_reducible refine Onward.trans ?_ (State.setPolicy_onward _ _)
        exact Onward.refl _
      · refine Onward.fst_mk ?_
        exact Onward.refl _
    · refine Onward.ite_fst ?_ ?_
      · split
        extract_lets +onlyGivenNames v4
        refine Onward.fst_mk ?_
        subst v4
        with_reducible refine Onward.trans ?_ (State.otpWrite_onward _ _ _)
        refine Onward.trans ?_ (State.drawFree_onward_eq (by assumption))
        exact Onward.refl _
      · refine Onward.ite_fst ?_ ?_
        · refine Onward.fst_mk ?_
          exact Onward.refl _
        · refine Onward.ite_fst ?_ ?_
          · refine Onward.fst_mk ?_
            with_reducible refine Onward.trans ?_ (State.claim_onward _ _ _)
            exact Onward.refl _
          · refine Onward.ite_fst ?_ ?_
            · with_reducible refine Onward.trans ?_ (State.pskPut_onward _ _)
              exact Onward.refl _
            · refine Onward.ite_fst ?_ ?_
              · refine Onward.fst_mk ?_
                with_reducible refine Onward.trans ?_ (State.pskDelete_onward _ _)
                exact Onward.refl _
              · refine Onward.ite_fst ?_ ?_
                · refine Onward.fst_mk ?_
                  with_reducible refine Onward.trans ?_ (State.rateLimit_onward _ _)
                  exact Onward.refl _
                · refine Onward.ite_fst ?_ ?_
                  · refine Onward.ite_fst ?_ ?_
                    · refine Onward.fst_mk ?_
                      with_reducible refine Onward.trans ?_ (State.mbxSend_onward _ _ _ _)
                      exact Onward.refl _
                    · refine Onward.fst_mk ?_
                      exact Onward.refl _
                  · with_reducible refine Onward.trans ?_ (State.putEntry_onward _ _ _)
                    exact Onward.refl _
theorem State.writeStr_onward_eq {s : State} {r : DictRow} {b : Bytes} {r1 r2} (hres : State.writeStr s r b = (r1, r2)) : Onward s r1 := by
  have k := State.writeStr_onward s r b
  rw [hres] at k
  exact k

theorem State.dictSet_onward (s : State) (c : Client) (index : Nat) (sub : Nat) (b : Bytes) : Onward s (State.dictSet s c index sub b).1 := by
  unfold State.dictSet
  refine Onward.ite_fst ?_ ?_
  · refine Onward.fst_mk ?_
    exact Onward.refl _
  · split
    · refine Onward.fst_mk ?_
      exact Onward.refl _
    · extract_lets +onlyGivenNames v1
      try clear_value v1
      refine Onward.ite_fst ?_ ?_
      · refine Onward.fst_mk ?_
        exact Onward.refl _
      · extract_lets +onlyGivenNames v2
        refine Onward.fst_mk ?_
        subst v2
        split
        · with_reducible refine Onward.trans ?_ (State.writeNum_onward _ _ _ _)
          exact Onward.refl _
        · with_reducible refine Onward.trans ?_ (State.writeStr_onward _ _ _)
          exact Onward.refl _
theorem State.dictSet_onward_eq {s : State} {c : Client} {index : Nat} {sub : Nat} {b : Bytes} {r1 r2} (hres : State.dictSet s c index sub b = (r1, r2)) : Onward s r1 := by
  have k := State.dictSet_onward s c index sub b
  rw [hres] at k
  exact k

theorem State.dictWrite_onward (s : State) (c : Client) (key : Nat) (b : Bytes) : Onward s (State.dictWrite s c key b) := by
  unfold State.dictWrite
  extract_lets +onlyGivenNames v1
  split
  · with_reducible refine Onward.trans ?_ (State.awaitStore_onward _ _)
    subst v1
    with_reducible refine Onward.trans ?_ (State.dictSet_onward _ _ _ _ _)
    exact Onward.refl _
  · subst v1
    with_reducible refine Onward.trans ?_ (State.dictSet_onward _ _ _ _ _)
    exact Onward.refl _

theorem State.delay_onward (s : State) (d : Delayed) : Onward s (State.delay s d) := by
  unfold State.delay
  refine Onward.upd ?_ rfl
  exact Onward.refl _

theorem State.dictApply_onward (s : State) (c : Client) (key : Nat) (b : Bytes) : Onward s (State.dictApply s c key b) := by
  unfold State.dictApply
  refine Onward.ite ?_ ?_
  · with_reducible refine Onward.trans ?_ (State.delay_onward _ _)
    exact Onward.refl _
  · with_reducible refine Onward.trans ?_ (State.dictWrite_onward _ _ _ _)
    exact Onward.refl _

theorem execDictEntryWrite_onward (t : Nat) (client : Client) (index : Nat) (sub : Nat) (bytes : Bytes) (s : State) : Goes (State.advance s t) (execDictEntryWrite t client index sub bytes s) := by
  unfold execDictEntryWrite
  extract_lets +onlyGivenNames v1
  have h1 : Onward (s.advance t) v1 := by
    subst v1
    exact Onward.refl _
  try clear_value v1
  refine Goes.done ?_
  with_reducible refine Onward.trans ?_ (State.dictApply_onward _ _ _ _)
  assumption

theorem execStoreAll_onward (t : Nat) (client : Client) (value : Nat) (s : State) : Goes (State.advance s t) (execStoreAll t client value s) := by
  unfold execStoreAll
  extract_lets +onlyGivenNames v1
  have h1 : Onward (s.advance t) v1 := by
    subst v1
    exact Onward.refl _
  try clear_value v1
  refine Goes.done ?_
  with_reducible refine Onward.trans ?_ (State.dictApply_onward _ _ _ _)
  assumption

theorem execRestoreGroup_onward (t : Nat) (client : Client) (sub : Nat) (value : Nat) (s : State) : Goes (State.advance s t) (execRestoreGroup t client sub value s) := by
  unfold execRestoreGroup
  extract_lets +onlyGivenNames v1
  have h1 : Onward (s.advance t) v1 := by
    subst v1
    exact Onward.refl _
  try clear_value v1
  refine Goes.done ?_
  with_reducible refine Onward.trans ?_ (State.dictApply_onward _ _ _ _)
  assumption

theorem execPskEntryWrite_onward (t : Nat) (client : Client) (bytes : Bytes) (s : State) : Goes (State.advance s t) (execPskEntryWrite t client bytes s) := by
  unfold execPskEntryWrite
  extract_lets +onlyGivenNames v1
  have h1 : Onward (s.advance t) v1 := by
    subst v1
    exact Onward.refl _
  try clear_value v1
  refine Goes.done ?_
  with_reducible refine Onward.trans ?_ (State.dictApply_onward _ _ _ _)
  assumption

theorem execPskIdentityDelete_onward (t : Nat) (client : Client) (bytes : Bytes) (s : State) : Goes (State.advance s t) (execPskIdentityDelete t client bytes s) := by
  unfold execPskIdentityDelete
  extract_lets +onlyGivenNames v1
  have h1 : Onward (s.advance t) v1 := by
    subst v1
    exact Onward.refl _
  try clear_value v1
  refine Goes.done ?_
  with_reducible refine Onward.trans ?_ (State.dictApply_onward _ _ _ _)
  assumption

theorem execPowerTokensWrite_onward (t : Nat) (client : Client) (value : Nat) (s : State) : Goes (State.advance s t) (execPowerTokensWrite t client value s) := by
  unfold execPowerTokensWrite
  extract_lets +onlyGivenNames v1
  have h1 : Onward (s.advance t) v1 := by
    subst v1
    exact Onward.refl _
  try clear_value v1
  refine Goes.done ?_
  with_reducible refine Onward.trans ?_ (State.dictApply_onward _ _ _ _)
  assumption

theorem execPowerTokenLimitWrite_onward (t : Nat) (client : Client) (value : Nat) (s : State) : Goes (State.advance s t) (execPowerTokenLimitWrite t client value s) := by
  unfold execPowerTokenLimitWrite
  extract_lets +onlyGivenNames v1
  have h1 : Onward (s.advance t) v1 := by
    subst v1
    exact Onward.refl _
  try clear_value v1
  refine Goes.done ?_
  with_reducible refine Onward.trans ?_ (State.dictApply_onward _ _ _ _)
  assumption

theorem execPowerTokenLimitEffective_onward (t : Nat) (s : State) : Goes (State.advance s t) (execPowerTokenLimitEffective t s) := by
  unfold execPowerTokenLimitEffective
  extract_lets +onlyGivenNames v1
  have h1 : Onward (s.advance t) v1 := by
    subst v1
    exact Onward.refl _
  try clear_value v1
  refine Goes.done ?_
  refine Onward.ite ?_ ?_
  · refine Onward.upd ?_ rfl
    assumption
  · assumption

theorem State.lifeWrite_onward (s : State) (client : Client) (bit : Nat) (bytes : Bytes) : Onward s (State.lifeWrite s client bit bytes) := by
  unfold State.lifeWrite
  refine Onward.ite ?_ ?_
  · with_reducible refine Onward.trans ?_ (State.dictApply_onward _ _ _ _)
    exact Onward.refl _
  · exact Onward.refl _

theorem execLifeCycleProvision_onward (t : Nat) (client : Client) (bytes : Bytes) (s : State) : Goes (State.advance s t) (execLifeCycleProvision t client bytes s) := by
  unfold execLifeCycleProvision
  extract_lets +onlyGivenNames v1
  have h1 : Onward (s.advance t) v1 := by
    subst v1
    exact Onward.refl _
  try clear_value v1
  refine Goes.done ?_
  with_reducible refine Onward.trans ?_ (State.lifeWrite_onward _ _ _ _)
  assumption

theorem execLifeCycleDeploy_onward (t : Nat) (client : Client) (bytes : Bytes) (s : State) : Goes (State.advance s t) (execLifeCycleDeploy t client bytes s) := by
  unfold execLifeCycleDeploy
  extract_lets +onlyGivenNames v1
  have h1 : Onward (s.advance t) v1 := by
    subst v1
    exact Onward.refl _
  try clear_value v1
  refine Goes.done ?_
  with_reducible refine Onward.trans ?_ (State.lifeWrite_onward _ _ _ _)
  assumption

theorem execLifeCycleReturn_onward (t : Nat) (client : Client) (bytes : Bytes) (s : State) : Goes (State.advance s t) (execLifeCycleReturn t client bytes s) := by
  unfold execLifeCycleReturn
  extract_lets +onlyGivenNames v1
  have h1 : Onward (s.advance t) v1 := by
    subst v1
    exact Onward.refl _
  try clear_value v1
  refine Goes.done ?_
  with_reducible refine Onward.trans ?_ (State.lifeWrite_onward _ _ _ _)
  assumption

theorem execLifeCycleRetire_onward (t : Nat) (client : Client) (bytes : Bytes) (s : State) : Goes (State.advance s t) (execLifeCycleRetire t client bytes s) := by
  unfold execLifeCycleRetire
  extract_lets +onlyGivenNames v1
  have h1 : Onward (s.advance t) v1 := by
    subst v1
    exact Onward.refl _
  try clear_value v1
  refine Goes.done ?_
  with_reducible refine Onward.trans ?_ (State.lifeWrite_onward _ _ _ _)
  assumption

theorem State.otpApply_onward (s : State) (client : Client) (bytes : Bytes) (progOk : Bool) : Onward s (State.otpApply s client bytes progOk) := by
  unfold State.otpApply
  split
  · refine Onward.ite ?_ ?_
    · with_reducible refine Onward.trans ?_ (State.otpWrite_onward _ _ _)
      exact Onward.refl _
    · exact Onward.refl _
  · exact Onward.refl _

theorem execOtpSettingsWrite_onward (t : Nat) (client : Client) (bytes : Bytes) (progOk : Bool) (s : State) : Goes (State.advance s t) (execOtpSettingsWrite t client bytes progOk s) := by
  unfold execOtpSettingsWrite
  extract_lets +onlyGivenNames v1
  have h1 : Onward (s.advance t) v1 := by
    subst v1
    exact Onward.refl _
  try clear_value v1
  refine Goes.done ?_
  refine Onward.ite ?_ ?_
  · with_reducible refine Onward.trans ?_ (State.delay_onward _ _)
    assumption
  · with_reducible refine Onward.trans ?_ (State.otpApply_onward _ _ _ _)
    assumption

theorem execTamperClear_onward (t : Nat) (client : Client) (value : Nat) (s : State) : Goes (State.advance s t) (execTamperClear t client value s) := by
  unfold execTamperClear
  extract_lets +onlyGivenNames v1
  have h1 : Onward (s.advance t) v1 := by
    subst v1
    exact Onward.refl _
  try clear_value v1
  refine Goes.done ?_
  with_reducible refine Onward.trans ?_ (State.dictApply_onward _ _ _ _)
  assumption

theorem execEventRateLimitWrite_onward (t : Nat) (client : Client) (bytes : Bytes) (s : State) : Goes (State.advance s t) (execEventRateLimitWrite t client bytes s) := by
  unfold execEventRateLimitWrite
  extract_lets +onlyGivenNames v1
  have h1 : Onward (s.advance t) v1 := by
    subst v1
    exact Onward.refl _
  try clear_value v1
  refine Goes.done ?_
  with_reducible refine Onward.trans ?_ (State.dictApply_onward _ _ _ _)
  assumption

theorem execEventSnapshotFromWrite_onward (t : Nat) (client : Client) (slot : Nat) (value : Nat) (s : State) : Goes (State.advance s t) (execEventSnapshotFromWrite t client slot value s) := by
  unfold execEventSnapshotFromWrite
  extract_lets +onlyGivenNames v1
  have h1 : Onward (s.advance t) v1 := by
    subst v1
    exact Onward.refl _
  try clear_value v1
  refine Goes.done ?_
  with_reducible refine Onward.trans ?_ (State.dictApply_onward _ _ _ _)
  assumption

theorem State.logTrim_onward (s : State) : Onward s (State.logTrim s) := by
  unfold State.logTrim
  extract_lets +onlyGivenNames v1
  try clear_value v1
  refine Onward.trans ?_ (Onward.foldl (fun z2 y2 => ?_) _ _)
  · exact Onward.refl _
  · refine Onward.ite ?_ ?_
    · refine Onward.upd ?_ rfl
      exact Onward.refl _
    · exact Onward.refl _

theorem execSnapshotExpiry_onward (t : Nat) (slot : Nat) (s : State) : Goes (State.advance s t) (execSnapshotExpiry t slot s) := by
  unfold execSnapshotExpiry
  extract_lets +onlyGivenNames v1
  have h1 : Onward (s.advance t) v1 := by
    subst v1
    exact Onward.refl _
  try clear_value v1
  extract_lets +onlyGivenNames v2
  try clear_value v2
  extract_lets +onlyGivenNames v3
  try clear_value v3
  extract_lets +onlyGivenNames v4
  try clear_value v4
  extract_lets +onlyGivenNames v5
  try clear_value v5
  refine Goes.done ?_
  refine Onward.ite ?_ ?_
  · extract_lets +onlyGivenNames v6
    try clear_value v6
    extract_lets +onlyGivenNames v7
    have h7 : Onward (s.advance t) v7 := by
      subst v7
      refine Onward.upd ?_ rfl
      assumption
    try clear_value v7
    with_reducible refine Onward.trans ?_ (State.logTrim_onward _)
    with_reducible refine Onward.trans ?_ (State.event_onward _ _ _)
    assumption
  · assumption

theorem execSiteMessageWrite_onward (t : Nat) (client : Client) (bytes : Bytes) (s : State) : Goes (State.advance s t) (execSiteMessageWrite t client bytes s) := by
  unfold execSiteMessageWrite
  extract_lets +onlyGivenNames v1
  have h1 : Onward (s.advance t) v1 := by
    subst v1
    exact Onward.refl _
  try clear_value v1
  refine Goes.done ?_
  with_reducible refine Onward.trans ?_ (State.dictApply_onward _ _ _ _)
  assumption

theorem execPortSettingWrite_onward (t : Nat) (client : Client) (port : PortId) (sub : Nat) (value : Bytes) (s : State) : Goes (State.advance s t) (execPortSettingWrite t client port sub value s) := by
  unfold execPortSettingWrite
  extract_lets +onlyGivenNames v1
  have h1 : Onward (s.advance t) v1 := by
    subst v1
    exact Onward.refl _
  try clear_value v1
  refine Goes.done ?_
  refine Onward.ite ?_ ?_
  · with_reducible refine Onward.trans ?_ (State.dictApply_onward _ _ _ _)
    assumption
  · assumption

theorem execDiagCaptureRelease_onward (t : Nat) (client : Client) (seq : Nat) (s : State) : Goes (State.advance s t) (execDiagCaptureRelease t client seq s) := by
  unfold execDiagCaptureRelease
  extract_lets +onlyGivenNames v1
  have h1 : Onward (s.advance t) v1 := by
    subst v1
    exact Onward.refl _
  try clear_value v1
  refine Goes.done ?_
  with_reducible refine Onward.trans ?_ (State.dictApply_onward _ _ _ _)
  assumption

theorem State.policyWrite_onward (s : State) (client : Client) (op : Nat) (b : Bytes) : Onward s (State.policyWrite s client op b) := by
  unfold State.policyWrite
  refine Onward.ite ?_ ?_
  · with_reducible refine Onward.trans ?_ (State.dictApply_onward _ _ _ _)
    exact Onward.refl _
  · exact Onward.refl _

theorem execAwlPolicyWrite_onward (t : Nat) (client : Client) (value : Bytes) (s : State) : Goes (State.advance s t) (execAwlPolicyWrite t client value s) := by
  unfold execAwlPolicyWrite
  extract_lets +onlyGivenNames v1
  have h1 : Onward (s.advance t) v1 := by
    subst v1
    exact Onward.refl _
  try clear_value v1
  refine Goes.done ?_
  with_reducible refine Onward.trans ?_ (State.policyWrite_onward _ _ _ _)
  assumption

theorem execAwlPolicyDelete_onward (t : Nat) (client : Client) (value : Bytes) (s : State) : Goes (State.advance s t) (execAwlPolicyDelete t client value s) := by
  unfold execAwlPolicyDelete
  extract_lets +onlyGivenNames v1
  have h1 : Onward (s.advance t) v1 := by
    subst v1
    exact Onward.refl _
  try clear_value v1
  refine Goes.done ?_
  with_reducible refine Onward.trans ?_ (State.policyWrite_onward _ _ _ _)
  assumption

theorem execAwlPolicyInsert_onward (t : Nat) (client : Client) (value : Bytes) (s : State) : Goes (State.advance s t) (execAwlPolicyInsert t client value s) := by
  unfold execAwlPolicyInsert
  extract_lets +onlyGivenNames v1
  have h1 : Onward (s.advance t) v1 := by
    subst v1
    exact Onward.refl _
  try clear_value v1
  refine Goes.done ?_
  with_reducible refine Onward.trans ?_ (State.policyWrite_onward _ _ _ _)
  assumption

theorem execAwlPolicyCompact_onward (t : Nat) (client : Client) (value : Bytes) (s : State) : Goes (State.advance s t) (execAwlPolicyCompact t client value s) := by
  unfold execAwlPolicyCompact
  extract_lets +onlyGivenNames v1
  have h1 : Onward (s.advance t) v1 := by
    subst v1
    exact Onward.refl _
  try clear_value v1
  refine Goes.done ?_
  with_reducible refine Onward.trans ?_ (State.policyWrite_onward _ _ _ _)
  assumption

theorem execAwlBankMapWrite_onward (t : Nat) (client : Client) (value : Nat) (s : State) : Goes (State.advance s t) (execAwlBankMapWrite t client value s) := by
  unfold execAwlBankMapWrite
  extract_lets +onlyGivenNames v1
  have h1 : Onward (s.advance t) v1 := by
    subst v1
    exact Onward.refl _
  try clear_value v1
  refine Goes.done ?_
  with_reducible refine Onward.trans ?_ (State.dictApply_onward _ _ _ _)
  assumption

theorem execNodeIdClaim_onward (t : Nat) (serial : Nat) (newId : Nat) (s : State) : Goes (State.advance s t) (execNodeIdClaim t serial newId s) := by
  unfold execNodeIdClaim
  extract_lets +onlyGivenNames v1
  have h1 : Onward (s.advance t) v1 := by
    subst v1
    exact Onward.refl _
  try clear_value v1
  refine Goes.done ?_
  refine Onward.ite ?_ ?_
  · with_reducible refine Onward.trans ?_ (State.claim_onward _ _ _)
    with_reducible refine Onward.trans ?_ (State.bump_onward _ _)
    refine Onward.upd ?_ rfl
    assumption
  · assumption

theorem execNodeIdEmcyRetry_onward (t : Nat) (s : State) : Goes (State.advance s t) (execNodeIdEmcyRetry t s) := by
  unfold execNodeIdEmcyRetry
  extract_lets +onlyGivenNames v1
  have h1 : Onward (s.advance t) v1 := by
    subst v1
    exact Onward.refl _
  try clear_value v1
  refine Goes.done ?_
  refine Onward.ite ?_ ?_
  · with_reducible refine Onward.trans ?_ (State.emcy_onward _ _ _ _ _)
    refine Onward.upd ?_ rfl
    assumption
  · assumption

theorem execMbxDictRead_onward (t : Nat) (s : State) : Goes (State.advance s t) (execMbxDictRead t s) := by
  unfold execMbxDictRead
  extract_lets +onlyGivenNames v1
  have h1 : Onward (s.advance t) v1 := by
    subst v1
    exact Onward.refl _
  try clear_value v1
  refine Goes.done ?_
  split
  · refine Onward.ite ?_ ?_
    · extract_lets +onlyGivenNames v2
      try clear_value v2
      extract_lets +onlyGivenNames v3
      extract_lets +onlyGivenNames v4
      have h4 : Onward (s.advance t) v4 := by
        subst v4
        split
        · with_reducible refine Onward.trans ?_ (State.mbxReply_onward _ _ _ _ _)
          subst v3
          with_reducible refine Onward.trans ?_ (State.dictGet_onward _ _ _ _)
          assumption
        · refine Onward.ite ?_ ?_
          · with_reducible refine Onward.trans ?_ (State.mbxReply_onward _ _ _ _ _)
            subst v3
            with_reducible refine Onward.trans ?_ (State.dictGet_onward _ _ _ _)
            assumption
          · with_reducible refine Onward.trans ?_ (State.mbxReply_onward _ _ _ _ _)
            subst v3
            with_reducible refine Onward.trans ?_ (State.dictGet_onward _ _ _ _)
            assumption
      try clear_value v4
      with_reducible refine Onward.trans ?_ (State.mbxRejectBad_onward _ _)
      assumption
    · assumption
  · assumption

theorem State.storeAnswer_onward (s : State) (w : Waiter) : Onward s (State.storeAnswer s w) := by
  unfold State.storeAnswer
  split
  · exact Onward.refl _
  · with_reducible refine Onward.trans ?_ (State.canSend_onward _ _ _)
    exact Onward.refl _
  · split
    · with_reducible refine Onward.trans ?_ (State.finish_onward _ _ _ _)
      exact Onward.refl _
    · exact Onward.refl _

theorem execSettingsStoreComplete_onward (t : Nat) (s : State) : Goes (State.advance s t) (execSettingsStoreComplete t s) := by
  unfold execSettingsStoreComplete
  extract_lets +onlyGivenNames v1
  have h1 : Onward (s.advance t) v1 := by
    subst v1
    exact Onward.refl _
  try clear_value v1
  refine Goes.done ?_
  refine Onward.ite ?_ ?_
  · assumption
  · extract_lets +onlyGivenNames v2
    try clear_value v2
    extract_lets +onlyGivenNames v3
    try clear_value v3
    extract_lets +onlyGivenNames v4
    try clear_value v4
    extract_lets +onlyGivenNames v5
    try clear_value v5
    extract_lets +onlyGivenNames v6
    extract_lets +onlyGivenNames v7
    try clear_value v7
    extract_lets +onlyGivenNames v8
    have h8 : Onward (s.advance t) v8 := by
      subst v8
      refine Onward.upd ?_ rfl
      assumption
    try clear_value v8
    extract_lets +onlyGivenNames v9
    have h9 : Onward (s.advance t) v9 := by
      subst v9
      refine Onward.ite ?_ ?_
      · with_reducible refine Onward.trans ?_ (State.append_onward _ _ _ _ _)
        assumption
      · assumption
    try clear_value v9
    with_reducible refine Onward.trans ?_ (State.storeKick_onward _)
    refine Onward.trans ?_ (Onward.foldl (fun z11 y11 => ?_) _ _)
    · assumption
    · with_reducible refine Onward.trans ?_ (State.storeAnswer_onward _ _)
      exact Onward.refl _

end Sys2Proof.Machine
end

