-- ==== Sys2Proof/Laws/OnwardAdmit.lean ====
section
/-! SUPPORT. What the operations and meanings of checks and decisions do: each only goes onward (Laws/Onward.lean). -/

namespace Sys2Proof.Machine

theorem State.noteStale_onward (s : State) (p : CmdPkt) (off : Nat) : Onward s (State.noteStale s p off) := by
  unfold State.noteStale
  extract_lets +onlyGivenNames v1
  try clear_value v1
  refine Onward.ite ?_ ?_
  · with_reducible refine Onward.trans ?_ (State.event_onward _ _ _)
    with_reducible refine Onward.trans ?_ (State.bump_onward _ _)
    exact Onward.refl _
  · exact Onward.refl _

theorem State.admitting_onward (s : State) : Onward s (State.admitting s).1 := by
  unfold State.admitting
  refine Onward.ite_fst ?_ ?_
  · refine Onward.fst_mk ?_
    exact Onward.refl _
  · refine Onward.ite_fst ?_ ?_
    · refine Onward.fst_mk ?_
      exact Onward.refl _
    · split
      refine Onward.fst_mk ?_
      refine Onward.trans ?_ (State.drawFree_onward_eq (by assumption))
      exact Onward.refl _
theorem State.admitting_onward_eq {s : State} {r1 r2} (hres : State.admitting s = (r1, r2)) : Onward s r1 := by
  have k := State.admitting_onward s
  rw [hres] at k
  exact k

theorem State.access_onward (s : State) (a1 : Session) (rx : Rx) (p : CmdPkt) (f : AwlFacts) : Onward s (State.access s a1 rx p f).1 := by
  unfold State.access
  extract_lets +onlyGivenNames v1
  try clear_value v1
  split
  · refine Onward.fst_mk ?_
    refine Onward.trans ?_ (State.policyCheck_onward_eq (by assumption))
    exact Onward.refl _
  · refine Onward.ite_fst ?_ ?_
    · refine Onward.fst_mk ?_
      refine Onward.trans ?_ (State.policyCheck_onward_eq (by assumption))
      exact Onward.refl _
    · split
      · refine Onward.fst_mk ?_
        refine Onward.trans ?_ (State.policyCheck_onward_eq (by assumption))
        exact Onward.refl _
      · refine Onward.fst_mk ?_
        refine Onward.trans ?_ (State.policyCheck_onward_eq (by assumption))
        exact Onward.refl _
theorem State.access_onward_eq {s : State} {a1 : Session} {rx : Rx} {p : CmdPkt} {f : AwlFacts} {r1 r2} (hres : State.access s a1 rx p f = (r1, r2)) : Onward s r1 := by
  have k := State.access_onward s a1 rx p f
  rw [hres] at k
  exact k

theorem State.nsAsk_onward (s : State) (a1 : Session) (p : CmdPkt) : Onward s (State.nsAsk s a1 p) := by
  unfold State.nsAsk
  refine Onward.ite ?_ ?_
  · split
    · with_reducible refine Onward.trans ?_ (State.sendQuery_onward _ _ _ _ _ _ _)
      exact Onward.refl _
    · exact Onward.refl _
  · exact Onward.refl _

theorem State.quotaStep_onward (s : State) (p : CmdPkt) : Onward s (State.quotaStep s p).1 := by
  unfold State.quotaStep
  refine Onward.ite_fst ?_ ?_
  · refine Onward.fst_mk ?_
    exact Onward.refl _
  · split
    · refine Onward.fst_mk ?_
      exact Onward.refl _
    · extract_lets +onlyGivenNames v1
      try clear_value v1
      extract_lets +onlyGivenNames v2
      try clear_value v2
      extract_lets +onlyGivenNames v3
      try clear_value v3
      extract_lets +onlyGivenNames v4
      try clear_value v4
      refine Onward.ite_fst ?_ ?_
      · refine Onward.fst_mk ?_
        exact Onward.refl _
      · refine Onward.ite_fst ?_ ?_
        · refine Onward.fst_mk ?_
          exact Onward.refl _
        · refine Onward.ite_fst ?_ ?_
          · refine Onward.fst_mk ?_
            with_reducible refine Onward.trans ?_ (State.bump_onward _ _)
            exact Onward.refl _
          · refine Onward.fst_mk ?_
            exact Onward.refl _
theorem State.quotaStep_onward_eq {s : State} {p : CmdPkt} {r1 r2} (hres : State.quotaStep s p = (r1, r2)) : Onward s r1 := by
  have k := State.quotaStep_onward s p
  rw [hres] at k
  exact k

theorem State.checkNs_onward (s : State) (a1 : Session) (p : CmdPkt) (hot : Option Nat) : Onward s (State.checkNs s a1 p hot).1 := by
  unfold State.checkNs
  split
  · refine Onward.fst_mk ?_
    with_reducible refine Onward.trans ?_ (State.nsAsk_onward _ _ _)
    exact Onward.refl _
  · split
    · refine Onward.fst_mk ?_
      exact Onward.refl _
    · extract_lets +onlyGivenNames v2
      have h2 : Onward s v2 := by
        subst v2
        with_reducible refine Onward.trans ?_ (State.resolveMiss_onward _ _ _)
        exact Onward.refl _
      try clear_value v2
      split
      · refine Onward.fst_mk ?_
        assumption
      · with_reducible refine Onward.trans ?_ (State.quotaStep_onward _ _)
        assumption
theorem State.checkNs_onward_eq {s : State} {a1 : Session} {p : CmdPkt} {hot : Option Nat} {r1 r2} (hres : State.checkNs s a1 p hot = (r1, r2)) : Onward s r1 := by
  have k := State.checkNs_onward s a1 p hot
  rw [hres] at k
  exact k

theorem State.checkRest_onward (s : State) (a1 : Session) (rx : Rx) (p : CmdPkt) (f : AwlFacts) (hot : Option Nat) : Onward s (State.checkRest s a1 rx p f hot).1 := by
  unfold State.checkRest
  refine Onward.ite_fst ?_ ?_
  · with_reducible refine Onward.trans ?_ (State.checkNs_onward _ _ _ _)
    exact Onward.refl _
  · split
    · refine Onward.fst_mk ?_
      refine Onward.trans ?_ (State.admitting_onward_eq (by assumption))
      exact Onward.refl _
    · split
      · refine Onward.fst_mk ?_
        refine Onward.trans ?_ (State.access_onward_eq (by assumption))
        refine Onward.trans ?_ (State.admitting_onward_eq (by assumption))
        exact Onward.refl _
      · with_reducible refine Onward.trans ?_ (State.checkNs_onward _ _ _ _)
        refine Onward.trans ?_ (State.access_onward_eq (by assumption))
        refine Onward.trans ?_ (State.admitting_onward_eq (by assumption))
        exact Onward.refl _
theorem State.checkRest_onward_eq {s : State} {a1 : Session} {rx : Rx} {p : CmdPkt} {f : AwlFacts} {hot : Option Nat} {r1 r2} (hres : State.checkRest s a1 rx p f hot = (r1, r2)) : Onward s r1 := by
  have k := State.checkRest_onward s a1 rx p f hot
  rw [hres] at k
  exact k

theorem State.checks_onward (s : State) (a1 : Session) (rx : Rx) (p : CmdPkt) (f : AwlFacts) (hot : Option Nat) : Onward s (State.checks s a1 rx p f hot).1 := by
  unfold State.checks
  split
  · refine Onward.fst_mk ?_
    exact Onward.refl _
  · split
    · refine Onward.fst_mk ?_
      with_reducible refine Onward.trans ?_ (State.noteStale_onward _ _ _)
      exact Onward.refl _
    · with_reducible refine Onward.trans ?_ (State.checkRest_onward _ _ _ _ _ _)
      exact Onward.refl _
theorem State.checks_onward_eq {s : State} {a1 : Session} {rx : Rx} {p : CmdPkt} {f : AwlFacts} {hot : Option Nat} {r1 r2} (hres : State.checks s a1 rx p f hot = (r1, r2)) : Onward s r1 := by
  have k := State.checks_onward s a1 rx p f hot
  rw [hres] at k
  exact k

theorem State.reject_onward (s : State) (sid : Nat) (path : Nat) (p : CmdPkt) (a4 : Reject) : Onward s (State.reject s sid path p a4) := by
  unfold State.reject
  split
  · with_reducible refine Onward.trans ?_ (State.answer_onward _ _ _ _ _ _)
    exact Onward.refl _
  · with_reducible refine Onward.trans ?_ (State.refuse_onward _ _ _ _ _ _)
    exact Onward.refl _
  · with_reducible refine Onward.trans ?_ (State.send_onward _ _ _ _ _)
    with_reducible refine Onward.trans ?_ (State.endTag_onward _ _ _)
    exact Onward.refl _

theorem State.newNs_onward (s : State) (p : CmdPkt) : Onward s (State.newNs s p).2 := by
  unfold State.newNs
  extract_lets +onlyGivenNames v1
  extract_lets +onlyGivenNames v2
  refine Onward.snd_mk ?_
  subst v2
  with_reducible refine Onward.trans ?_ (State.random_onward _ _)
  subst v1
  with_reducible refine Onward.trans ?_ (State.random_onward _ _)
  exact Onward.refl _
theorem State.newNs_onward_eq {s : State} {p : CmdPkt} {r1 r2} (hres : State.newNs s p = (r2, r1)) : Onward s r1 := by
  have k := State.newNs_onward s p
  rw [hres] at k
  exact k

theorem State.distribute_onward (s : State) (c : CmdCtx) (kind : Nat) (r : NsRec) (ms : List Nat) (st : CmdSt) (undoing : Bool) : Onward s (State.distribute s c kind r ms st undoing) := by
  unfold State.distribute
  extract_lets +onlyGivenNames v1
  have h1 : Onward s v1 := by
    subst v1
    with_reducible refine Onward.trans ?_ (State.onCmd_onward _ _ _ _)
    exact Onward.refl _
  try clear_value v1
  refine Onward.trans ?_ (Onward.foldl (fun z3 y3 => ?_) _ _)
  · assumption
  · with_reducible refine Onward.trans ?_ (State.sendNs_onward _ _ _ _ _ _)
    exact Onward.refl _

theorem State.nsDone_onward (s : State) (c : CmdCtx) : Onward s (State.nsDone s c) := by
  unfold State.nsDone
  refine Onward.ite ?_ ?_
  · with_reducible refine Onward.trans ?_ (State.finish_onward _ _ _ _)
    exact Onward.refl _
  · refine Onward.ite ?_ ?_
    · with_reducible refine Onward.trans ?_ (State.finish_onward _ _ _ _)
      exact Onward.refl _
    · split
      · with_reducible refine Onward.trans ?_ (State.finish_onward _ _ _ _)
        exact Onward.refl _
      · with_reducible refine Onward.trans ?_ (State.finish_onward _ _ _ _)
        exact Onward.refl _

theorem State.runNsCreate_onward (s : State) (c : CmdCtx) : Onward s (State.runNsCreate s c) := by
  unfold State.runNsCreate
  split
  · refine Onward.ite ?_ ?_
    · with_reducible refine Onward.trans ?_ (State.finish_onward _ _ _ _)
      exact Onward.refl _
    · refine Onward.ite ?_ ?_
      · with_reducible refine Onward.trans ?_ (State.finish_onward _ _ _ _)
        exact Onward.refl _
      · extract_lets +onlyGivenNames v3
        extract_lets +onlyGivenNames v4
        have h4 : Onward s v4 := by
          subst v4
          with_reducible refine Onward.trans ?_ (State.applyNs_onward _ _ _ _)
          subst v3
          with_reducible refine Onward.trans ?_ (State.newNs_onward _ _)
          exact Onward.refl _
        try clear_value v4
        refine Onward.ite ?_ ?_
        · with_reducible refine Onward.trans ?_ (State.nsDone_onward _ _)
          assumption
        · with_reducible refine Onward.trans ?_ (State.distribute_onward _ _ _ _ _ _ _)
          assumption
  · extract_lets +onlyGivenNames v8
    extract_lets +onlyGivenNames v9
    have h9 : Onward s v9 := by
      subst v9
      with_reducible refine Onward.trans ?_ (State.applyNs_onward _ _ _ _)
      subst v8
      with_reducible refine Onward.trans ?_ (State.newNs_onward _ _)
      exact Onward.refl _
    try clear_value v9
    refine Onward.ite ?_ ?_
    · with_reducible refine Onward.trans ?_ (State.nsDone_onward _ _)
      assumption
    · with_reducible refine Onward.trans ?_ (State.distribute_onward _ _ _ _ _ _ _)
      assumption

theorem State.runNsDelete_onward (s : State) (c : CmdCtx) : Onward s (State.runNsDelete s c) := by
  unfold State.runNsDelete
  split
  · with_reducible refine Onward.trans ?_ (State.finish_onward _ _ _ _)
    exact Onward.refl _
  · extract_lets +onlyGivenNames v2
    try clear_value v2
    extract_lets +onlyGivenNames v3
    try clear_value v3
    extract_lets +onlyGivenNames v4
    have h4 : Onward s v4 := by
      subst v4
      with_reducible refine Onward.trans ?_ (State.endGen_onward _ _ _ _)
      exact Onward.refl _
    try clear_value v4
    refine Onward.ite ?_ ?_
    · with_reducible refine Onward.trans ?_ (State.nsDone_onward _ _)
      assumption
    · with_reducible refine Onward.trans ?_ (State.distribute_onward _ _ _ _ _ _ _)
      assumption

theorem State.runNsQuery_onward (s : State) (c : CmdCtx) : Onward s (State.runNsQuery s c) := by
  unfold State.runNsQuery
  split
  · refine Onward.ite ?_ ?_
    · with_reducible refine Onward.trans ?_ (State.finish_onward _ _ _ _)
      exact Onward.refl _
    · with_reducible refine Onward.trans ?_ (State.finish_onward _ _ _ _)
      exact Onward.refl _
  · with_reducible refine Onward.trans ?_ (State.finish_onward _ _ _ _)
    exact Onward.refl _

theorem State.nsAck_onward (s : State) (sid : Nat) (tag : Nat) (member : Nat) : Onward s (State.nsAck s sid tag member) := by
  unfold State.nsAck
  split
  · exact Onward.refl _
  · refine Onward.ite ?_ ?_
    · extract_lets +onlyGivenNames v1
      try clear_value v1
      extract_lets +onlyGivenNames v2
      have h2 : Onward s v2 := by
        subst v2
        with_reducible refine Onward.trans ?_ (State.setCmd_onward _ _)
        exact Onward.refl _
      try clear_value v2
      refine Onward.ite ?_ ?_
      · with_reducible refine Onward.trans ?_ (State.nsDone_onward _ _)
        assumption
      · assumption
    · exact Onward.refl _

theorem State.nsTimeout_onward (s : State) (c : CmdCtx) : Onward s (State.nsTimeout s c) := by
  unfold State.nsTimeout
  refine Onward.ite ?_ ?_
  · with_reducible refine Onward.trans ?_ (State.nsDone_onward _ _)
    exact Onward.refl _
  · extract_lets +onlyGivenNames v2
    have h2 : Onward s v2 := by
      subst v2
      with_reducible refine Onward.trans ?_ (State.event_onward _ _ _)
      exact Onward.refl _
    try clear_value v2
    refine Onward.ite ?_ ?_
    · with_reducible refine Onward.trans ?_ (State.finish_onward _ _ _ _)
      assumption
    · split
      · with_reducible refine Onward.trans ?_ (State.nsDone_onward _ _)
        assumption
      · extract_lets +onlyGivenNames v6
        try clear_value v6
        extract_lets +onlyGivenNames v7
        try clear_value v7
        extract_lets +onlyGivenNames v8
        have h8 : Onward s v8 := by
          subst v8
          refine Onward.ite ?_ ?_
          · with_reducible refine Onward.trans ?_ (State.endGen_onward _ _ _ _)
            assumption
          · assumption
        try clear_value v8
        refine Onward.ite ?_ ?_
        · with_reducible refine Onward.trans ?_ (State.nsDone_onward _ _)
          assumption
        · with_reducible refine Onward.trans ?_ (State.distribute_onward _ _ _ _ _ _ _)
          assumption

theorem State.dictRefuse_onward (s : State) (c : CmdCtx) (code : Nat) (value : Nat) : Onward s (State.dictRefuse s c code value) := by
  unfold State.dictRefuse
  refine Onward.ite ?_ ?_
  · with_reducible refine Onward.trans ?_ (State.finish_onward _ _ _ _)
    exact Onward.refl _
  · refine Onward.ite ?_ ?_
    · with_reducible refine Onward.trans ?_ (State.finish_onward _ _ _ _)
      exact Onward.refl _
    · with_reducible refine Onward.trans ?_ (State.finish_onward _ _ _ _)
      exact Onward.refl _

theorem State.runDictRead_onward (s : State) (c : CmdCtx) : Onward s (State.runDictRead s c) := by
  unfold State.runDictRead
  extract_lets +onlyGivenNames v1
  try clear_value v1
  split
  · refine Onward.ite ?_ ?_
    · with_reducible refine Onward.trans ?_ (State.finish_onward _ _ _ _)
      refine Onward.trans ?_ (State.dictGet_onward_eq (by assumption))
      exact Onward.refl _
    · extract_lets +onlyGivenNames v3
      try clear_value v3
      with_reducible refine Onward.trans ?_ (State.reply_onward _ _ _ _ _)
      with_reducible refine Onward.trans ?_ (State.onCmd_onward _ _ _ _)
      refine Onward.trans ?_ (State.dictGet_onward_eq (by assumption))
      exact Onward.refl _
  · with_reducible refine Onward.trans ?_ (State.finish_onward _ _ _ _)
    refine Onward.trans ?_ (State.dictGet_onward_eq (by assumption))
    exact Onward.refl _
  · with_reducible refine Onward.trans ?_ (State.dictRefuse_onward _ _ _ _)
    refine Onward.trans ?_ (State.dictGet_onward_eq (by assumption))
    exact Onward.refl _

theorem State.runDictWrite_onward (s : State) (c : CmdCtx) : Onward s (State.runDictWrite s c) := by
  unfold State.runDictWrite
  extract_lets +onlyGivenNames v1
  try clear_value v1
  split
  · refine Onward.ite ?_ ?_
    · with_reducible refine Onward.trans ?_ (State.finish_onward _ _ _ _)
      refine Onward.trans ?_ (State.dictSet_onward_eq (by assumption))
      exact Onward.refl _
    · refine Onward.trans ?_ (State.dictSet_onward_eq (by assumption))
      exact Onward.refl _
  · with_reducible refine Onward.trans ?_ (State.awaitStore_onward _ _)
    with_reducible refine Onward.trans ?_ (State.onCmd_onward _ _ _ _)
    refine Onward.trans ?_ (State.dictSet_onward_eq (by assumption))
    exact Onward.refl _
  · refine Onward.ite ?_ ?_
    · with_reducible refine Onward.trans ?_ (State.dictRefuse_onward _ _ _ _)
      refine Onward.trans ?_ (State.dictSet_onward_eq (by assumption))
      exact Onward.refl _
    · refine Onward.trans ?_ (State.dictSet_onward_eq (by assumption))
      exact Onward.refl _

theorem State.runReset_onward (s : State) (c : CmdCtx) : Onward s (State.runReset s c) := by
  unfold State.runReset
  extract_lets +onlyGivenNames v1
  try clear_value v1
  extract_lets +onlyGivenNames v2
  try clear_value v2
  extract_lets +onlyGivenNames v3
  try clear_value v3
  extract_lets +onlyGivenNames v4
  try clear_value v4
  extract_lets +onlyGivenNames v5
  try clear_value v5
  extract_lets +onlyGivenNames v6
  have h6 : Onward s v6 := by
    subst v6
    with_reducible refine Onward.trans ?_ (State.onCmd_onward _ _ _ _)
    exact Onward.refl _
  try clear_value v6
  extract_lets +onlyGivenNames v8
  have h8 : Onward s v8 := by
    subst v8
    refine Onward.trans ?_ (Onward.foldl (fun z9 y9 => ?_) _ _)
    · assumption
    · with_reducible refine Onward.trans ?_ (State.onCmd_onward _ _ _ _)
      exact Onward.refl _
  try clear_value v8
  extract_lets +onlyGivenNames v11
  have h11 : Onward s v11 := by
    subst v11
    with_reducible refine Onward.trans ?_ (State.onSession_onward _ _ _)
    assumption
  try clear_value v11
  refine Onward.trans ?_ (Onward.foldl (fun z13 y13 => ?_) _ _)
  · assumption
  · with_reducible refine Onward.trans ?_ (State.abort_onward _ _ _ _ _)
    exact Onward.refl _

theorem State.resetDone_onward (s : State) (c : CmdCtx) : Onward s (State.resetDone s c) := by
  unfold State.resetDone
  refine Onward.ite ?_ ?_
  · with_reducible refine Onward.trans ?_ (State.finish_onward _ _ _ _)
    exact Onward.refl _
  · exact Onward.refl _

theorem State.startCmd_onward (s : State) (c : CmdCtx) : Onward s (State.startCmd s c) := by
  unfold State.startCmd
  split
  · with_reducible refine Onward.trans ?_ (State.startRead_onward _ _)
    exact Onward.refl _
  · with_reducible refine Onward.trans ?_ (State.startRead_onward _ _)
    exact Onward.refl _
  · with_reducible refine Onward.trans ?_ (State.startRead_onward _ _)
    exact Onward.refl _
  · with_reducible refine Onward.trans ?_ (State.runList_onward _ _)
    exact Onward.refl _
  · with_reducible refine Onward.trans ?_ (State.startWrite_onward _ _)
    exact Onward.refl _
  · with_reducible refine Onward.trans ?_ (State.startWrite_onward _ _)
    exact Onward.refl _
  · with_reducible refine Onward.trans ?_ (State.startWrite_onward _ _)
    exact Onward.refl _
  · with_reducible refine Onward.trans ?_ (State.startWrite_onward _ _)
    exact Onward.refl _
  · with_reducible refine Onward.trans ?_ (State.onCmd_onward _ _ _ _)
    exact Onward.refl _
  · with_reducible refine Onward.trans ?_ (State.runNsCreate_onward _ _)
    exact Onward.refl _
  · with_reducible refine Onward.trans ?_ (State.runNsDelete_onward _ _)
    exact Onward.refl _
  · with_reducible refine Onward.trans ?_ (State.runNsQuery_onward _ _)
    exact Onward.refl _
  · with_reducible refine Onward.trans ?_ (State.runDictRead_onward _ _)
    exact Onward.refl _
  · with_reducible refine Onward.trans ?_ (State.runDictWrite_onward _ _)
    exact Onward.refl _
  · with_reducible refine Onward.trans ?_ (State.runSegment_onward _ _)
    exact Onward.refl _
  · with_reducible refine Onward.trans ?_ (State.runActivate_onward _ _)
    exact Onward.refl _
  · with_reducible refine Onward.trans ?_ (State.runReset_onward _ _)
    exact Onward.refl _
  · with_reducible refine Onward.trans ?_ (State.startPeer_onward _ _)
    exact Onward.refl _

theorem State.enter_onward (s : State) (c : CmdCtx) (bound : Nat) (deadline : Nat) (critical : Nat) (size : Nat) : Onward s (State.enter s c bound deadline critical size) := by
  unfold State.enter
  extract_lets +onlyGivenNames v1
  try clear_value v1
  extract_lets +onlyGivenNames v2
  try clear_value v2
  split
  · with_reducible refine Onward.trans ?_ (State.beginPhaseOne_onward _ _ _ _)
    with_reducible refine Onward.trans ?_ (State.setCmd_onward _ _)
    exact Onward.refl _
  · with_reducible refine Onward.trans ?_ (State.takePosition_onward _ _ _ (fun z5 y5 => ?_))
    · with_reducible refine Onward.trans ?_ (State.setCmd_onward _ _)
      exact Onward.refl _
    · with_reducible refine Onward.trans ?_ (State.startCmd_onward _ _)
      exact Onward.refl _

theorem State.refuseCmd_onward (s : State) (c : CmdCtx) (us : Nat) (limiter : Nat) : Onward s (State.refuseCmd s c us limiter) := by
  unfold State.refuseCmd
  with_reducible refine Onward.trans ?_ (State.refuse_onward _ _ _ _ _ _)
  with_reducible refine Onward.trans ?_ (State.dropCmd_onward _ _)
  exact Onward.refl _

theorem State.refuseFree_onward (s : State) (c : CmdCtx) (limiter : Nat) : Onward s (State.refuseFree s c limiter) := by
  unfold State.refuseFree
  split
  with_reducible refine Onward.trans ?_ (State.refuseCmd_onward _ _ _ _)
  refine Onward.trans ?_ (State.drawFree_onward_eq (by assumption))
  exact Onward.refl _

theorem State.decidePromised_onward (s : State) (c : CmdCtx) : Onward s (State.decidePromised s c) := by
  unfold State.decidePromised
  refine Onward.ite ?_ ?_
  · with_reducible refine Onward.trans ?_ (State.refuseFree_onward _ _ _)
    exact Onward.refl _
  · extract_lets +onlyGivenNames v2
    try clear_value v2
    extract_lets +onlyGivenNames v3
    try clear_value v3
    extract_lets +onlyGivenNames v4
    try clear_value v4
    extract_lets +onlyGivenNames v5
    try clear_value v5
    split
    · with_reducible refine Onward.trans ?_ (State.refuseCmd_onward _ _ _ _)
      exact Onward.refl _
    · with_reducible refine Onward.trans ?_ (State.enter_onward _ _ _ _ _ _)
      with_reducible refine Onward.trans ?_ (State.book_onward _ _ _ _)
      exact Onward.refl _

theorem State.decideOwn_onward (s : State) (c : CmdCtx) : Onward s (State.decideOwn s c) := by
  unfold State.decideOwn
  refine Onward.ite ?_ ?_
  · with_reducible refine Onward.trans ?_ (State.refuseFree_onward _ _ _)
    exact Onward.refl _
  · refine Onward.ite ?_ ?_
    · with_reducible refine Onward.trans ?_ (State.refuseFree_onward _ _ _)
      exact Onward.refl _
    · refine Onward.ite ?_ ?_
      · with_reducible refine Onward.trans ?_ (State.refuseCmd_onward _ _ _ _)
        exact Onward.refl _
      · refine Onward.ite ?_ ?_
        · split
          · with_reducible refine Onward.trans ?_ (State.answer_onward _ _ _ _ _ _)
            with_reducible refine Onward.trans ?_ (State.dropCmd_onward _ _)
            refine Onward.trans ?_ (State.decideActivate_onward_eq (by assumption))
            exact Onward.refl _
          · with_reducible refine Onward.trans ?_ (State.refuseCmd_onward _ _ _ _)
            refine Onward.trans ?_ (State.decideActivate_onward_eq (by assumption))
            exact Onward.refl _
          · refine Onward.ite ?_ ?_
            · with_reducible refine Onward.trans ?_ (State.enter_onward _ _ _ _ _ _)
              refine Onward.trans ?_ (State.decideActivate_onward_eq (by assumption))
              exact Onward.refl _
            · with_reducible refine Onward.trans ?_ (State.decidePromised_onward _ _)
              refine Onward.trans ?_ (State.decideActivate_onward_eq (by assumption))
              exact Onward.refl _
        · refine Onward.ite ?_ ?_
          · with_reducible refine Onward.trans ?_ (State.enter_onward _ _ _ _ _ _)
            exact Onward.refl _
          · with_reducible refine Onward.trans ?_ (State.decidePromised_onward _ _)
            exact Onward.refl _

theorem State.decideReserve_onward (s : State) (c : CmdCtx) : Onward s (State.decideReserve s c) := by
  unfold State.decideReserve
  extract_lets +onlyGivenNames v1
  try clear_value v1
  refine Onward.ite ?_ ?_
  · with_reducible refine Onward.trans ?_ (State.refuseCmd_onward _ _ _ _)
    exact Onward.refl _
  · refine Onward.ite ?_ ?_
    · with_reducible refine Onward.trans ?_ (State.enter_onward _ _ _ _ _ _)
      exact Onward.refl _
    · extract_lets +onlyGivenNames v4
      try clear_value v4
      extract_lets +onlyGivenNames v5
      try clear_value v5
      extract_lets +onlyGivenNames v6
      try clear_value v6
      split
      · with_reducible refine Onward.trans ?_ (State.refuseCmd_onward _ _ _ _)
        exact Onward.refl _
      · with_reducible refine Onward.trans ?_ (State.enter_onward _ _ _ _ _ _)
        with_reducible refine Onward.trans ?_ (State.book_onward _ _ _ _)
        exact Onward.refl _

theorem State.decidePeer_onward (s : State) (c : CmdCtx) : Onward s (State.decidePeer s c) := by
  unfold State.decidePeer
  refine Onward.ite ?_ ?_
  · with_reducible refine Onward.trans ?_ (State.decideReserve_onward _ _)
    exact Onward.refl _
  · with_reducible refine Onward.trans ?_ (State.enter_onward _ _ _ _ _ _)
    exact Onward.refl _

theorem State.decideNow_onward (s : State) (c : CmdCtx) : Onward s (State.decideNow s c) := by
  unfold State.decideNow
  refine Onward.ite ?_ ?_
  · with_reducible refine Onward.trans ?_ (State.startCmd_onward _ _)
    with_reducible refine Onward.trans ?_ (State.bump_onward _ _)
    exact Onward.refl _
  · refine Onward.ite ?_ ?_
    · with_reducible refine Onward.trans ?_ (State.refuseCmd_onward _ _ _ _)
      exact Onward.refl _
    · refine Onward.ite ?_ ?_
      · with_reducible refine Onward.trans ?_ (State.refuseCmd_onward _ _ _ _)
        exact Onward.refl _
      · refine Onward.ite ?_ ?_
        · with_reducible refine Onward.trans ?_ (State.decidePeer_onward _ _)
          exact Onward.refl _
        · with_reducible refine Onward.trans ?_ (State.decideOwn_onward _ _)
          exact Onward.refl _

theorem State.decideCmd_onward (s : State) (sid : Nat) (tag : Nat) : Onward s (State.decideCmd s sid tag) := by
  unfold State.decideCmd
  split
  · exact Onward.refl _
  · refine Onward.ite ?_ ?_
    · exact Onward.refl _
    · split
      · exact Onward.refl _
      · with_reducible refine Onward.trans ?_ (State.askKeyState_onward _ _ _ _ _ _)
        exact Onward.refl _
      · with_reducible refine Onward.trans ?_ (State.decideNow_onward _ _)
        exact Onward.refl _

theorem State.goOn_onward (s : State) (c : CmdCtx) : Onward s (State.goOn s c) := by
  unfold State.goOn
  extract_lets +onlyGivenNames v1
  have h1 : Onward s v1 := by
    subst v1
    with_reducible refine Onward.trans ?_ (State.setCmd_onward _ _)
    exact Onward.refl _
  try clear_value v1
  refine Onward.ite ?_ ?_
  · assumption
  · with_reducible refine Onward.trans ?_ (State.startCmd_onward _ _)
    assumption

theorem State.settleOne_onward (s : State) (sid : Nat) (tag : Nat) : Onward s (State.settleOne s sid tag) := by
  unfold State.settleOne
  split
  · exact Onward.refl _
  · split
    · with_reducible refine Onward.trans ?_ (State.decideCmd_onward _ _ _)
      exact Onward.refl _
    · with_reducible refine Onward.trans ?_ (State.phaseOne_onward _ _)
      exact Onward.refl _
    · refine Onward.ite ?_ ?_
      · refine Onward.ite ?_ ?_
        · with_reducible refine Onward.trans ?_ (State.checkQuorum_onward _ _)
          exact Onward.refl _
        · with_reducible refine Onward.trans ?_ (State.goOn_onward _ _)
          exact Onward.refl _
      · refine Onward.ite ?_ ?_
        · refine Onward.ite ?_ ?_
          · with_reducible refine Onward.trans ?_ (State.runQuery_onward _ _)
            exact Onward.refl _
          · exact Onward.refl _
        · with_reducible refine Onward.trans ?_ (State.checkQuorum_onward _ _)
          exact Onward.refl _
    · refine Onward.ite ?_ ?_
      · with_reducible refine Onward.trans ?_ (State.resetDone_onward _ _)
        exact Onward.refl _
      · with_reducible refine Onward.trans ?_ (State.checkQuorum_onward _ _)
        exact Onward.refl _
    · with_reducible refine Onward.trans ?_ (State.mediaDurable_onward _ _)
      exact Onward.refl _
    · with_reducible refine Onward.trans ?_ (State.releaseDone_onward _ _ _)
      exact Onward.refl _

theorem State.settle_onward (s : State) : Onward s (State.settle s) := by
  unfold State.settle
  with_reducible refine Onward.trans ?_ (State.rawLeave_onward _)
  refine Onward.trans ?_ (Onward.foldl (fun z2 y2 => ?_) _ _)
  · with_reducible refine Onward.trans ?_ (State.answerWaiting_onward _)
    exact Onward.refl _
  · with_reducible refine Onward.trans ?_ (State.settleOne_onward _ _ _)
    exact Onward.refl _

theorem State.admission_onward (s : State) (rx : Rx) (p : CmdPkt) (plan : Plan) (hot : Option Nat) : Onward s (State.admission s rx p plan hot) := by
  unfold State.admission
  extract_lets +onlyGivenNames v1
  try clear_value v1
  extract_lets +onlyGivenNames v2
  try clear_value v2
  extract_lets +onlyGivenNames v3
  have h3 : Onward s v3 := by
    subst v3
    refine Onward.upd ?_ rfl
    exact Onward.refl _
  try clear_value v3
  with_reducible refine Onward.trans ?_ (State.decideCmd_onward _ _ _)
  with_reducible refine Onward.trans ?_ (State.confirmHot_onward _ _ _)
  assumption

theorem State.parseKey_onward (s : State) (p : CmdPkt) (f : AwlFacts) : Onward s (State.parseKey s p f).1 := by
  unfold State.parseKey
  refine Onward.ite_fst ?_ ?_
  · refine Onward.fst_mk ?_
    exact Onward.refl _
  · split
    · extract_lets +onlyGivenNames v1
      try clear_value v1
      with_reducible refine Onward.trans ?_ (State.hotSearch_onward _ _ _ _ _ _)
      exact Onward.refl _
    · refine Onward.fst_mk ?_
      with_reducible refine Onward.trans ?_ (State.bump_onward _ _)
      with_reducible refine Onward.trans ?_ (State.bump_onward _ _)
      exact Onward.refl _
theorem State.parseKey_onward_eq {s : State} {p : CmdPkt} {f : AwlFacts} {r1 r2} (hres : State.parseKey s p f = (r1, r2)) : Onward s r1 := by
  have k := State.parseKey_onward s p f
  rw [hres] at k
  exact k

theorem State.nakTag_onward (s : State) (rx : Rx) (reason : Nat) (p : CmdPkt) : Onward s (State.nakTag s rx reason p) := by
  unfold State.nakTag
  with_reducible refine Onward.trans ?_ (State.bump_onward _ _)
  with_reducible refine Onward.trans ?_ (State.sendNow_onward _ _ _ _)
  exact Onward.refl _

theorem State.takeCmd_onward (s : State) (rx : Rx) (p : CmdPkt) (plan : Plan) : Onward s (State.takeCmd s rx p plan) := by
  unfold State.takeCmd
  split
  · exact Onward.refl _
  · extract_lets +onlyGivenNames v1
    have h1 : Onward s v1 := by
      subst v1
      with_reducible refine Onward.trans ?_ (State.setSession_onward _ _)
      exact Onward.refl _
    try clear_value v1
    extract_lets +onlyGivenNames v3
    try clear_value v3
    extract_lets +onlyGivenNames v4
    try clear_value v4
    refine Onward.ite ?_ ?_
    · with_reducible refine Onward.trans ?_ (State.nakTag_onward _ _ _ _)
      assumption
    · refine Onward.ite ?_ ?_
      · with_reducible refine Onward.trans ?_ (State.nakTag_onward _ _ _ _)
        assumption
      · extract_lets +onlyGivenNames v7
        try clear_value v7
        refine Onward.ite ?_ ?_
        · with_reducible refine Onward.trans ?_ (State.closeSession_onward _ _ _ _)
          assumption
        · extract_lets +onlyGivenNames v9
          try clear_value v9
          extract_lets +onlyGivenNames v10
          have h10 : Onward s v10 := by
            subst v10
            with_reducible refine Onward.trans ?_ (State.onSession_onward _ _ _)
            assumption
          try clear_value v10
          split
          split
          · with_reducible refine Onward.trans ?_ (State.reject_onward _ _ _ _ _)
            refine Onward.trans ?_ (State.checks_onward_eq (by assumption))
            refine Onward.trans ?_ (State.parseKey_onward_eq (by assumption))
            assumption
          · with_reducible refine Onward.trans ?_ (State.admission_onward _ _ _ _ _)
            refine Onward.trans ?_ (State.checks_onward_eq (by assumption))
            refine Onward.trans ?_ (State.parseKey_onward_eq (by assumption))
            assumption

theorem State.drainHeld_onward (a0 : Nat) (a1 : State) (a2 : Nat) : Onward a1 (State.drainHeld a0 a1 a2) := by
  induction a0 generalizing a1 a2 with
  | zero =>
    rw [State.drainHeld]
    exact Onward.refl _
  | succ n ih =>
    rw [State.drainHeld]
    split
    · exact Onward.refl _
    · split
      · exact Onward.refl _
      · extract_lets +onlyGivenNames v1
        have h1 : Onward a1 v1 := by
          subst v1
          with_reducible refine Onward.trans ?_ (State.setSession_onward _ _)
          exact Onward.refl _
        try clear_value v1
        refine Onward.trans ?_ (ih ..)
        with_reducible refine Onward.trans ?_ (State.takeCmd_onward _ _ _ _)
        assumption

theorem State.seqCmd_onward (s : State) (a1 : Session) (rx : Rx) (p : CmdPkt) (plan : Plan) : Onward s (State.seqCmd s a1 rx p plan) := by
  unfold State.seqCmd
  extract_lets +onlyGivenNames v1
  try clear_value v1
  refine Onward.ite ?_ ?_
  · with_reducible refine Onward.trans ?_ (State.bump_onward _ _)
    exact Onward.refl _
  · refine Onward.ite ?_ ?_
    · with_reducible refine Onward.trans ?_ (State.closeSession_onward _ _ _ _)
      exact Onward.refl _
    · refine Onward.ite ?_ ?_
      · extract_lets +onlyGivenNames v4
        try clear_value v4
        with_reducible refine Onward.trans ?_ (State.drainHeld_onward _ _ _)
        with_reducible refine Onward.trans ?_ (State.takeCmd_onward _ _ _ _)
        exact Onward.refl _
      · refine Onward.ite ?_ ?_
        · with_reducible refine Onward.trans ?_ (State.bump_onward _ _)
          exact Onward.refl _
        · with_reducible refine Onward.trans ?_ (State.setSession_onward _ _)
          exact Onward.refl _

theorem State.wakeLull_onward (s : State) : Onward s (State.wakeLull s) := by
  unfold State.wakeLull
  split
  · with_reducible refine Onward.trans ?_ (State.lullExit_onward _ _)
    exact Onward.refl _
  · with_reducible refine Onward.trans ?_ (State.lullExit_onward _ _)
    exact Onward.refl _
  · exact Onward.refl _

theorem State.cmdArrive_onward (s : State) (rx : Rx) (p : CmdPkt) (plan : Plan) : Onward s (State.cmdArrive s rx p plan) := by
  unfold State.cmdArrive
  extract_lets +onlyGivenNames v1
  try clear_value v1
  split
  · refine Onward.trans ?_ (State.rxPacket_onward_eq (by assumption))
    exact Onward.refl _
  · split
    · refine Onward.trans ?_ (State.rxPacket_onward_eq (by assumption))
      exact Onward.refl _
    · extract_lets +onlyGivenNames v2
      have h2 : Onward s v2 := by
        subst v2
        refine Onward.ite ?_ ?_
        · with_reducible refine Onward.trans ?_ (State.bump_onward _ _)
          refine Onward.trans ?_ (State.rxPacket_onward_eq (by assumption))
          exact Onward.refl _
        · with_reducible refine Onward.trans ?_ (State.seqCmd_onward _ _ _ _ _)
          refine Onward.trans ?_ (State.rxPacket_onward_eq (by assumption))
          exact Onward.refl _
      try clear_value v2
      with_reducible refine Onward.trans ?_ (State.checkPns_onward _)
      with_reducible refine Onward.trans ?_ (State.ackIfDue_onward _ _)
      with_reducible refine Onward.trans ?_ (State.wakeLull_onward _)
      with_reducible refine Onward.trans ?_ (State.settle_onward _)
      assumption

end Sys2Proof.Machine
end

