-- ==== Sys2Proof/Laws/OnwardPeers.lean ====
section
/-! SUPPORT. What the operations and meanings of the array's sequencers, peers, repair and the commands of a session do: each only goes onward (Laws/Onward.lean). -/

namespace Sys2Proof.Machine

theorem State.programUnit_onward (s : State) (u : UnitId) : Onward s (State.programUnit s u) := by
  unfold State.programUnit
  with_reducible refine Onward.trans ?_ (State.checkShort_onward _)
  with_reducible refine Onward.trans ?_ (State.settleMoves_onward _)
  with_reducible refine Onward.trans ?_ (State.rawLeave_onward _)
  with_reducible refine Onward.trans ?_ (State.unitDone_onward _ _ _)
  exact Onward.refl _

theorem State.countReads_onward (s : State) (ds : Nat) (sb : Nat) (slot : Nat) (n : Nat) : Onward s (State.countReads s ds sb slot n) := by
  unfold State.countReads
  split
  · exact Onward.refl _
  · extract_lets +onlyGivenNames v1
    try clear_value v1
    extract_lets +onlyGivenNames v2
    try clear_value v2
    extract_lets +onlyGivenNames v3
    try clear_value v3
    extract_lets +onlyGivenNames v4
    have h4 : Onward s v4 := by
      subst v4
      with_reducible refine Onward.trans ?_ (State.setSb_onward _ _)
      exact Onward.refl _
    try clear_value v4
    refine Onward.ite ?_ ?_
    · with_reducible refine Onward.trans ?_ (State.event_onward _ _ _)
      with_reducible refine Onward.trans ?_ (State.bump_onward _ _)
      with_reducible refine Onward.trans ?_ (State.force_onward _ _ _ _)
      assumption
    · assumption

theorem State.condemn_onward (s : State) (ds : Nat) (sb : Nat) (slot : Nat) : Onward s (State.condemn s ds sb slot) := by
  unfold State.condemn
  extract_lets +onlyGivenNames v1
  have h1 : Onward s v1 := by
    subst v1
    split
    · refine Onward.ite ?_ ?_
      · with_reducible refine Onward.trans ?_ (State.evacuate_onward _ _ _)
        exact Onward.refl _
      · exact Onward.refl _
    · exact Onward.refl _
  try clear_value v1
  split
  · refine Onward.ite ?_ ?_
    · with_reducible refine Onward.trans ?_ (State.force_onward _ _ _ _)
      assumption
    · with_reducible refine Onward.trans ?_ (State.force_onward _ _ _ _)
      with_reducible refine Onward.trans ?_ (State.setSb_onward _ _)
      assumption
  · assumption

theorem State.pageLost_onward (s : State) (ds : Nat) (sb : Nat) (q : Nat) (steps : Nat) : Onward s (State.pageLost s ds sb q steps) := by
  unfold State.pageLost
  extract_lets +onlyGivenNames v1
  have h1 : Onward s v1 := by
    subst v1
    with_reducible refine Onward.trans ?_ (State.event_onward _ _ _)
    exact Onward.refl _
  try clear_value v1
  extract_lets +onlyGivenNames v3
  try clear_value v3
  extract_lets +onlyGivenNames v4
  try clear_value v4
  refine Onward.upd ?_ rfl
  assumption

theorem State.queueIndex_onward (s : State) (i : StripeId) (n : Nat) : Onward s (State.queueIndex s i n) := by
  unfold State.queueIndex
  split
  · with_reducible refine Onward.trans ?_ (State.queueRepair_onward _ _ _ _)
    exact Onward.refl _
  · exact Onward.refl _

theorem State.takeLost_onward (s : State) : Onward s (State.takeLost s) := by
  unfold State.takeLost
  refine Onward.ite ?_ ?_
  · exact Onward.refl _
  · extract_lets +onlyGivenNames v1
    try clear_value v1
    extract_lets +onlyGivenNames v2
    try clear_value v2
    extract_lets +onlyGivenNames v3
    have h3 : Onward s v3 := by
      subst v3
      refine Onward.upd ?_ rfl
      exact Onward.refl _
    try clear_value v3
    refine Onward.trans ?_ (Onward.foldl (fun z4 y4 => ?_) _ _)
    · assumption
    · split
      · split
        · with_reducible refine Onward.trans ?_ (State.queueIndex_onward _ _ _)
          exact Onward.refl _
        · with_reducible refine Onward.trans ?_ (State.queueIndex_onward _ _ _)
          exact Onward.refl _
        · exact Onward.refl _
      · exact Onward.refl _

theorem State.fetchSpare_onward (s : State) (i : StripeId) (n : Nat) (seg : Nat) : Onward s (State.fetchSpare s i n seg) := by
  unfold State.fetchSpare
  refine Onward.trans ?_ (Onward.foldl (fun z1 y1 => ?_) _ _)
  · exact Onward.refl _
  · split
    · extract_lets +onlyGivenNames v2
      try clear_value v2
      split
      · refine Onward.ite ?_ ?_
        · exact Onward.refl _
        · split
          · extract_lets +onlyGivenNames v3
            try clear_value v3
            extract_lets +onlyGivenNames v4
            try clear_value v4
            extract_lets +onlyGivenNames v5
            with_reducible refine Onward.trans ?_ (State.onCmd_onward _ _ _ _)
            subst v5
            with_reducible refine Onward.trans ?_ (State.fetchPiece_onward _ _ _ _)
            exact Onward.refl _
          · exact Onward.refl _
      · exact Onward.refl _
    · exact Onward.refl _

theorem State.foregroundFail_onward (s : State) (ds : Nat) (sb : Nat) (slot : Nat) (q : Nat) : Onward s (State.foregroundFail s ds sb slot q) := by
  unfold State.foregroundFail
  extract_lets +onlyGivenNames v1
  try clear_value v1
  extract_lets +onlyGivenNames v2
  have h2 : Onward s v2 := by
    subst v2
    refine Onward.trans ?_ (Onward.foldl (fun z3 y3 => ?_) _ _)
    · exact Onward.refl _
    · with_reducible refine Onward.trans ?_ (State.countReads_onward _ _ _ _ _)
      exact Onward.refl _
  try clear_value v2
  refine Onward.trans ?_ (Onward.foldl (fun z5 y5 => ?_) _ _)
  · assumption
  · split
    · with_reducible refine Onward.trans ?_ (State.fetchSpare_onward _ _ _ _)
      exact Onward.refl _
    · exact Onward.refl _

theorem State.readOutcome_onward (s : State) (ds : Nat) (sb : Nat) (q : Nat) (o : ReadOutcome) : Onward s (State.readOutcome s ds sb q o) := by
  unfold State.readOutcome
  extract_lets +onlyGivenNames v1
  try clear_value v1
  extract_lets +onlyGivenNames v2
  try clear_value v2
  split
  · extract_lets +onlyGivenNames v3
    have h3 : Onward s v3 := by
      subst v3
      with_reducible refine Onward.trans ?_ (State.countReads_onward _ _ _ _ _)
      with_reducible refine Onward.trans ?_ (State.bump_onward _ _)
      exact Onward.refl _
    try clear_value v3
    refine Onward.ite ?_ ?_
    · with_reducible refine Onward.trans ?_ (State.foregroundFail_onward _ _ _ _ _)
      assumption
    · assumption
  · extract_lets +onlyGivenNames v7
    have h7 : Onward s v7 := by
      subst v7
      with_reducible refine Onward.trans ?_ (State.foregroundFail_onward _ _ _ _ _)
      with_reducible refine Onward.trans ?_ (State.countReads_onward _ _ _ _ _)
      exact Onward.refl _
    try clear_value v7
    extract_lets +onlyGivenNames v10
    have h10 : Onward s v10 := by
      subst v10
      with_reducible refine Onward.trans ?_ (State.event_onward _ _ _)
      with_reducible refine Onward.trans ?_ (State.bump_onward _ _)
      assumption
    try clear_value v10
    extract_lets +onlyGivenNames v13
    have h13 : Onward s v13 := by
      subst v13
      with_reducible refine Onward.trans ?_ (State.condemn_onward _ _ _ _)
      assumption
    try clear_value v13
    refine Onward.trans ?_ (Onward.foldl (fun z15 y15 => ?_) _ _)
    · assumption
    · with_reducible refine Onward.trans ?_ (State.copyRec_onward _ _ _ _ _)
      exact Onward.refl _
  · extract_lets +onlyGivenNames v17
    have h17 : Onward s v17 := by
      subst v17
      with_reducible refine Onward.trans ?_ (State.foregroundFail_onward _ _ _ _ _)
      with_reducible refine Onward.trans ?_ (State.countReads_onward _ _ _ _ _)
      exact Onward.refl _
    try clear_value v17
    with_reducible refine Onward.trans ?_ (State.takeLost_onward _)
    with_reducible refine Onward.trans ?_ (State.condemn_onward _ _ _ _)
    with_reducible refine Onward.trans ?_ (State.pageLost_onward _ _ _ _ _)
    assumption

theorem State.readIssued_onward (s : State) (addr : Nat) (o : ReadOutcome) (tagFails : Nat) : Onward s (State.readIssued s addr o tagFails) := by
  unfold State.readIssued
  split
  extract_lets +onlyGivenNames v1
  try clear_value v1
  extract_lets +onlyGivenNames v2
  have h2 : Onward s v2 := by
    subst v2
    with_reducible refine Onward.trans ?_ (State.addTo_onward _ _ _)
    exact Onward.refl _
  try clear_value v2
  extract_lets +onlyGivenNames v4
  have h4 : Onward s v4 := by
    subst v4
    refine Onward.ite ?_ ?_
    · with_reducible refine Onward.trans ?_ (State.bump_onward _ _)
      assumption
    · assumption
  try clear_value v4
  extract_lets +onlyGivenNames v6
  try clear_value v6
  extract_lets +onlyGivenNames v7
  try clear_value v7
  extract_lets +onlyGivenNames v8
  have h8 : Onward s v8 := by
    subst v8
    refine Onward.upd ?_ rfl
    assumption
  try clear_value v8
  split
  extract_lets +onlyGivenNames v9
  try clear_value v9
  extract_lets +onlyGivenNames v10
  have h10 : Onward s v10 := by
    subst v10
    refine Onward.upd ?_ rfl
    assumption
  try clear_value v10
  with_reducible refine Onward.trans ?_ (State.readOutcome_onward _ _ _ _ _)
  assumption

theorem State.issueOp_onward (s : State) (o : ArrayOp) (t : Nat) : Onward s (State.issueOp s o t) := by
  unfold State.issueOp
  extract_lets +onlyGivenNames v1
  try clear_value v1
  extract_lets +onlyGivenNames v2
  have h2 : Onward s v2 := by
    subst v2
    refine Onward.upd ?_ rfl
    exact Onward.refl _
  try clear_value v2
  extract_lets +onlyGivenNames v3
  have h3 : Onward s v3 := by
    subst v3
    split
    · with_reducible refine Onward.trans ?_ (State.addTo_onward _ _ _)
      assumption
    · assumption
  try clear_value v3
  split
  · with_reducible refine Onward.trans ?_ (State.readIssued_onward _ _ _ _)
    assumption
  · assumption

theorem State.issueAll_onward (a0 : Nat) (a1 : State) (a2 : Nat) : Onward a1 (State.issueAll a0 a1 a2) := by
  induction a0 generalizing a1 a2 with
  | zero =>
    rw [State.issueAll]
    exact Onward.refl _
  | succ n ih =>
    rw [State.issueAll]
    split
    · refine Onward.trans ?_ (ih ..)
      with_reducible refine Onward.trans ?_ (State.issueOp_onward _ _ _)
      split
      · with_reducible refine Onward.trans ?_ (State.suspendOp_onward _ _ _)
        exact Onward.refl _
      · exact Onward.refl _
    · extract_lets +onlyGivenNames v3
      try clear_value v3
      refine Onward.upd ?_ rfl
      split
      · with_reducible refine Onward.trans ?_ (State.suspendOp_onward _ _ _)
        exact Onward.refl _
      · exact Onward.refl _

theorem State.opsFrom_onward (a0 : Nat) (a1 : State) (a2 : Nat) : Onward a1 (State.opsFrom a0 a1 a2) := by
  induction a0 generalizing a1 a2 with
  | zero =>
    rw [State.opsFrom]
    exact Onward.refl _
  | succ n ih =>
    rw [State.opsFrom]
    refine Onward.ite ?_ ?_
    · with_reducible refine Onward.trans ?_ (State.issueAll_onward _ _ _)
      exact Onward.refl _
    · refine Onward.trans ?_ (ih ..)
      with_reducible refine Onward.trans ?_ (State.issueAll_onward _ _ _)
      exact Onward.refl _

theorem State.giveOp_onward (s : State) (k : OpKind) : Onward s (State.giveOp s k) := by
  unfold State.giveOp
  refine Onward.upd ?_ rfl
  exact Onward.refl _

theorem State.runOps_onward (s : State) : Onward s (State.runOps s) := by
  unfold State.runOps
  extract_lets +onlyGivenNames v1
  have h1 : Onward s v1 := by
    subst v1
    refine Onward.trans ?_ (Onward.foldl (fun z2 y2 => ?_) _ _)
    · exact Onward.refl _
    · with_reducible refine Onward.trans ?_ (State.giveOp_onward _ _)
      exact Onward.refl _
  try clear_value v1
  refine Onward.ite ?_ ?_
  · assumption
  · extract_lets +onlyGivenNames v4
    have h4 : Onward s v4 := by
      subst v4
      with_reducible refine Onward.trans ?_ (State.opsFrom_onward _ _ _)
      assumption
    try clear_value v4
    refine Onward.upd ?_ rfl
    assumption

theorem State.issueUnit_onward (s : State) (u : UnitId) : Onward s (State.issueUnit s u) := by
  unfold State.issueUnit
  with_reducible refine Onward.trans ?_ (State.runOps_onward _)
  refine Onward.ite ?_ ?_
  · exact Onward.refl _
  · with_reducible refine Onward.trans ?_ (State.giveOp_onward _ _)
    exact Onward.refl _

theorem State.setRepair_onward (s : State) (q : Repair) : Onward s (State.setRepair s q) := by
  unfold State.setRepair
  refine Onward.upd ?_ rfl
  exact Onward.refl _

theorem State.dropRepair_onward (s : State) (q : Repair) : Onward s (State.dropRepair s q) := by
  unfold State.dropRepair
  with_reducible refine Onward.trans ?_ (State.stirred_onward _)
  refine Onward.upd ?_ rfl
  exact Onward.refl _

theorem State.requeue_onward (s : State) (q : Repair) : Onward s (State.requeue s q) := by
  unfold State.requeue
  extract_lets +onlyGivenNames v1
  try clear_value v1
  extract_lets +onlyGivenNames v2
  have h2 : Onward s v2 := by
    subst v2
    refine Onward.upd ?_ rfl
    exact Onward.refl _
  try clear_value v2
  with_reducible refine Onward.trans ?_ (State.setRepair_onward _ _)
  assumption

theorem State.rateWindow_onward (s : State) : Onward s (State.rateWindow s) := by
  unfold State.rateWindow
  extract_lets +onlyGivenNames v1
  try clear_value v1
  refine Onward.ite ?_ ?_
  · exact Onward.refl _
  · refine Onward.upd ?_ rfl
    exact Onward.refl _

theorem State.rateCount_onward (s : State) (rebalance : Bool) (n : Nat) : Onward s (State.rateCount s rebalance n) := by
  unfold State.rateCount
  extract_lets +onlyGivenNames v1
  have h1 : Onward s v1 := by
    subst v1
    with_reducible refine Onward.trans ?_ (State.addTo_onward _ _ _)
    exact Onward.refl _
  try clear_value v1
  refine Onward.ite ?_ ?_
  · refine Onward.upd ?_ rfl
    assumption
  · refine Onward.upd ?_ rfl
    assumption

theorem State.queueOwnBad_onward (s : State) (r : CommitRec) : Onward s (State.queueOwnBad s r) := by
  unfold State.queueOwnBad
  refine Onward.ite ?_ ?_
  · exact Onward.refl _
  · refine Onward.trans ?_ (Onward.foldl (fun z1 y1 => ?_) _ _)
    · exact Onward.refl _
    · with_reducible refine Onward.trans ?_ (State.queueRepair_onward _ _ _ _)
      exact Onward.refl _

theorem State.repairDone_onward (s : State) (q : Repair) (r : CommitRec) : Onward s (State.repairDone s q r) := by
  unfold State.repairDone
  extract_lets +onlyGivenNames v1
  try clear_value v1
  extract_lets +onlyGivenNames v2
  try clear_value v2
  extract_lets +onlyGivenNames v3
  try clear_value v3
  extract_lets +onlyGivenNames v4
  have h4 : Onward s v4 := by
    subst v4
    with_reducible refine Onward.trans ?_ (State.writeCommit_onward _ _ _ _ _)
    with_reducible refine Onward.trans ?_ (State.dropRepair_onward _ _)
    exact Onward.refl _
  try clear_value v4
  extract_lets +onlyGivenNames v7
  have h7 : Onward s v7 := by
    subst v7
    refine Onward.trans ?_ (Onward.foldl (fun z8 y8 => ?_) _ _)
    · assumption
    · with_reducible refine Onward.trans ?_ (State.commitFrag_onward _ _ _)
      exact Onward.refl _
  try clear_value v7
  extract_lets +onlyGivenNames v10
  have h10 : Onward s v10 := by
    subst v10
    refine Onward.trans ?_ (Onward.foldl (fun z11 y11 => ?_) _ _)
    · assumption
    · with_reducible refine Onward.trans ?_ (State.sendCommit_onward _ _ _ _ _)
      exact Onward.refl _
  try clear_value v10
  extract_lets +onlyGivenNames v13
  have h13 : Onward s v13 := by
    subst v13
    refine Onward.ite ?_ ?_
    · with_reducible refine Onward.trans ?_ (State.releaseFrag_onward _ _ _)
      assumption
    · refine Onward.ite ?_ ?_
      · with_reducible refine Onward.trans ?_ (State.sendRelease_onward _ _ _ _ _ _)
        assumption
      · assumption
  try clear_value v13
  with_reducible refine Onward.trans ?_ (State.event_onward _ _ _)
  with_reducible refine Onward.trans ?_ (State.bump_onward _ _)
  assumption

theorem State.repairPlace_onward (s : State) (q : Repair) (r : CommitRec) : Onward s (State.repairPlace s q r) := by
  unfold State.repairPlace
  extract_lets +onlyGivenNames v1
  try clear_value v1
  refine Onward.ite ?_ ?_
  · extract_lets +onlyGivenNames v2
    have h2 : Onward s v2 := by
      subst v2
      refine Onward.ite ?_ ?_
      · exact Onward.refl _
      · with_reducible refine Onward.trans ?_ (State.addFrag_onward _ _ _ _)
        exact Onward.refl _
    try clear_value v2
    extract_lets +onlyGivenNames v4
    try clear_value v4
    extract_lets +onlyGivenNames v5
    have h5 : Onward s v5 := by
      subst v5
      refine Onward.trans ?_ (Onward.foldl (fun z6 y6 => ?_) _ _)
      · assumption
      · split
        · extract_lets +onlyGivenNames v7
          try clear_value v7
          with_reducible refine Onward.trans ?_ (State.addSlice_onward _ _ _ _ _)
          exact Onward.refl _
        · exact Onward.refl _
    try clear_value v5
    with_reducible refine Onward.trans ?_ (State.repairDone_onward _ _ _)
    assumption
  · with_reducible refine Onward.trans ?_ (State.sendReserve_onward _ _ _ _ _)
    with_reducible refine Onward.trans ?_ (State.setRepair_onward _ _)
    exact Onward.refl _

theorem State.repairRead_onward (s : State) (q : Repair) (r : CommitRec) : Onward s (State.repairRead s q r) := by
  unfold State.repairRead
  refine Onward.ite ?_ ?_
  · with_reducible refine Onward.trans ?_ (State.setRepair_onward _ _)
    exact Onward.refl _
  · extract_lets +onlyGivenNames v2
    try clear_value v2
    extract_lets +onlyGivenNames v3
    try clear_value v3
    with_reducible refine Onward.trans ?_ (State.repairPlace_onward _ _ _)
    with_reducible refine Onward.trans ?_ (State.setRepair_onward _ _)
    exact Onward.refl _

theorem State.repairMore_onward (s : State) (q : Repair) (r : CommitRec) : Onward s (State.repairMore s q r) := by
  unfold State.repairMore
  extract_lets +onlyGivenNames v1
  try clear_value v1
  refine Onward.ite ?_ ?_
  · with_reducible refine Onward.trans ?_ (State.setRepair_onward _ _)
    exact Onward.refl _
  · extract_lets +onlyGivenNames v3
    have h3 : Onward s v3 := by
      subst v3
      with_reducible refine Onward.trans ?_ (State.rateCount_onward _ _ _)
      exact Onward.refl _
    try clear_value v3
    extract_lets +onlyGivenNames v5
    try clear_value v5
    extract_lets +onlyGivenNames v6
    try clear_value v6
    extract_lets +onlyGivenNames v7
    have h7 : Onward s v7 := by
      subst v7
      with_reducible refine Onward.trans ?_ (State.setRepair_onward _ _)
      assumption
    try clear_value v7
    extract_lets +onlyGivenNames v9
    have h9 : Onward s v9 := by
      subst v9
      refine Onward.trans ?_ (Onward.foldl (fun z10 y10 => ?_) _ _)
      · assumption
      · split
        · refine Onward.ite ?_ ?_
          · exact Onward.refl _
          · with_reducible refine Onward.trans ?_ (State.sendGet_onward _ _ _ _ _ _ _ _ _ _ _)
            exact Onward.refl _
        · exact Onward.refl _
    try clear_value v9
    with_reducible refine Onward.trans ?_ (State.repairRead_onward _ _ _)
    assumption

theorem State.repairFetch_onward (s : State) (q : Repair) (r : CommitRec) : Onward s (State.repairFetch s q r) := by
  unfold State.repairFetch
  extract_lets +onlyGivenNames v1
  have h1 : Onward s v1 := by
    subst v1
    with_reducible refine Onward.trans ?_ (State.queueOwnBad_onward _ _)
    exact Onward.refl _
  try clear_value v1
  extract_lets +onlyGivenNames v3
  try clear_value v3
  refine Onward.ite ?_ ?_
  · with_reducible refine Onward.trans ?_ (State.requeue_onward _ _)
    assumption
  · with_reducible refine Onward.trans ?_ (State.repairMore_onward _ _ _)
    assumption

theorem State.repairStart_onward (s : State) (q : Repair) (r : CommitRec) : Onward s (State.repairStart s q r) := by
  unfold State.repairStart
  split
  · exact Onward.refl _
  · extract_lets +onlyGivenNames v1
    have h1 : Onward s v1 := by
      subst v1
      with_reducible refine Onward.trans ?_ (State.requeue_onward _ _)
      exact Onward.refl _
    try clear_value v1
    extract_lets +onlyGivenNames v3
    try clear_value v3
    extract_lets +onlyGivenNames v4
    have h4 : Onward s v4 := by
      subst v4
      with_reducible refine Onward.trans ?_ (State.setRepair_onward _ _)
      assumption
    try clear_value v4
    refine Onward.ite ?_ ?_
    · with_reducible refine Onward.trans ?_ (State.repairFetch_onward _ _ _)
      assumption
    · with_reducible refine Onward.trans ?_ (State.sendQuery_onward _ _ _ _ _ _ _)
      assumption

theorem State.repairHoldings_onward (s : State) (q : Repair) (r : CommitRec) (entries : Bytes) : Onward s (State.repairHoldings s q r entries) := by
  unfold State.repairHoldings
  extract_lets +onlyGivenNames v1
  try clear_value v1
  extract_lets +onlyGivenNames v2
  try clear_value v2
  refine Onward.ite ?_ ?_
  · with_reducible refine Onward.trans ?_ (State.repairDone_onward _ _ _)
    exact Onward.refl _
  · with_reducible refine Onward.trans ?_ (State.repairFetch_onward _ _ _)
    exact Onward.refl _

theorem State.repairGot_onward (s : State) (q : Repair) (r : CommitRec) (idx : Nat) (b : Option Bytes) (bad : Bool) : Onward s (State.repairGot s q r idx b bad) := by
  unfold State.repairGot
  split
  · extract_lets +onlyGivenNames v1
    have h1 : Onward s v1 := by
      subst v1
      with_reducible refine Onward.trans ?_ (State.requeue_onward _ _)
      exact Onward.refl _
    try clear_value v1
    refine Onward.ite ?_ ?_
    · with_reducible refine Onward.trans ?_ (State.queueRepair_onward _ _ _ _)
      assumption
    · assumption
  · with_reducible refine Onward.trans ?_ (State.repairRead_onward _ _ _)
    exact Onward.refl _

theorem State.repairReserved_onward (s : State) (q : Repair) (r : CommitRec) (ok : Bool) : Onward s (State.repairReserved s q r ok) := by
  unfold State.repairReserved
  refine Onward.ite ?_ ?_
  · with_reducible refine Onward.trans ?_ (State.requeue_onward _ _)
    exact Onward.refl _
  · refine Onward.ite ?_ ?_
    · with_reducible refine Onward.trans ?_ (State.repairDone_onward _ _ _)
      exact Onward.refl _
    · extract_lets +onlyGivenNames v3
      have h3 : Onward s v3 := by
        subst v3
        with_reducible refine Onward.trans ?_ (State.setRepair_onward _ _)
        exact Onward.refl _
      try clear_value v3
      extract_lets +onlyGivenNames v5
      try clear_value v5
      refine Onward.trans ?_ (Onward.foldl (fun z6 y6 => ?_) _ _)
      · assumption
      · extract_lets +onlyGivenNames v7
        try clear_value v7
        with_reducible refine Onward.trans ?_ (State.sendPut_onward _ _ _ _ _ _ _ _ _ _ _)
        exact Onward.refl _

theorem State.repairPut_onward (s : State) (q : Repair) (r : CommitRec) (seg : Nat) (ok : Bool) : Onward s (State.repairPut s q r seg ok) := by
  unfold State.repairPut
  refine Onward.ite ?_ ?_
  · with_reducible refine Onward.trans ?_ (State.requeue_onward _ _)
    exact Onward.refl _
  · extract_lets +onlyGivenNames v2
    try clear_value v2
    refine Onward.ite ?_ ?_
    · with_reducible refine Onward.trans ?_ (State.repairDone_onward _ _ _)
      exact Onward.refl _
    · with_reducible refine Onward.trans ?_ (State.setRepair_onward _ _)
      exact Onward.refl _

theorem State.runRepair_onward (s : State) (i : StripeId) (idx : Nat) (rebalance : Bool) : Onward s (State.runRepair s i idx rebalance) := by
  unfold State.runRepair
  split
  · exact Onward.refl _
  · extract_lets +onlyGivenNames v1
    have h1 : Onward s v1 := by
      subst v1
      with_reducible refine Onward.trans ?_ (State.rateWindow_onward _)
      exact Onward.refl _
    try clear_value v1
    refine Onward.ite ?_ ?_
    · assumption
    · split
      · with_reducible refine Onward.trans ?_ (State.dropRepair_onward _ _)
        assumption
      · refine Onward.ite ?_ ?_
        · refine Onward.ite ?_ ?_
          · with_reducible refine Onward.trans ?_ (State.repairStart_onward _ _ _)
            assumption
          · assumption
        · refine Onward.ite ?_ ?_
          · with_reducible refine Onward.trans ?_ (State.repairMore_onward _ _ _)
            assumption
          · assumption

theorem execStripeRepair_onward (t : Nat) (stripe : StripeId) (index : Nat) (s : State) : Goes (State.advance s t) (execStripeRepair t stripe index s) := by
  unfold execStripeRepair
  refine Goes.done ?_
  with_reducible refine Onward.trans ?_ (State.settle_onward _)
  with_reducible refine Onward.trans ?_ (State.runRepair_onward _ _ _ _)
  exact Onward.refl _

theorem execStripeRebalance_onward (t : Nat) (stripe : StripeId) (index : Nat) (s : State) : Goes (State.advance s t) (execStripeRebalance t stripe index s) := by
  unfold execStripeRebalance
  refine Goes.done ?_
  with_reducible refine Onward.trans ?_ (State.settle_onward _)
  with_reducible refine Onward.trans ?_ (State.runRepair_onward _ _ _ _)
  exact Onward.refl _

theorem State.goneOn_onward (s : State) : Onward s (State.goneOn s) := by
  unfold State.goneOn
  extract_lets +onlyGivenNames v1
  have h1 : Onward s v1 := by
    subst v1
    with_reducible refine Onward.trans ?_ (State.noteFaults_onward _)
    with_reducible refine Onward.trans ?_ (State.review_onward _)
    with_reducible refine Onward.trans ?_ (State.takeLost_onward _)
    with_reducible refine Onward.trans ?_ (State.runOps_onward _)
    with_reducible refine Onward.trans ?_ (State.settle_onward _)
    with_reducible refine Onward.trans ?_ (State.checkPns_onward _)
    exact Onward.refl _
  try clear_value v1
  refine Onward.ite ?_ ?_
  · with_reducible refine Onward.trans ?_ (State.goHalt_onward _ _)
    assumption
  · assumption

theorem State.afterReply_onward {s u : State} (h : Onward s u) : Goes s (State.afterReply u) := by
  unfold State.afterReply
  exact Goes.done (h.trans (State.goneOn_onward ..))

theorem State.reserveAnswer_onward (s : State) (m : PeerMsg) (status : Nat) (body : Bytes) : Onward s (State.reserveAnswer s m status body) := by
  unfold State.reserveAnswer
  split
  · refine Onward.ite ?_ ?_
    · with_reducible refine Onward.trans ?_ (State.sendRelease_onward _ _ _ _ _ _)
      exact Onward.refl _
    · exact Onward.refl _
  · refine Onward.ite ?_ ?_
    · refine Onward.ite ?_ ?_
      · with_reducible refine Onward.trans ?_ (State.sendRelease_onward _ _ _ _ _ _)
        exact Onward.refl _
      · exact Onward.refl _
    · refine Onward.ite ?_ ?_
      · with_reducible refine Onward.trans ?_ (State.onHolder_onward _ _ _ _ _)
        exact Onward.refl _
      · extract_lets +onlyGivenNames v4
        have h4 : Onward s v4 := by
          subst v4
          with_reducible refine Onward.trans ?_ (State.onHolder_onward _ _ _ _ _)
          exact Onward.refl _
        try clear_value v4
        refine Onward.ite ?_ ?_
        · assumption
        · split
          · with_reducible refine Onward.trans ?_ (State.sendSlices_onward _ _ _ _ _)
            assumption
          · assumption

theorem execFragReserveReply_onward (t : Nat) (r : PeerReply) (s : State) : Goes (State.advance s t) (execFragReserveReply t r s) := by
  unfold execFragReserveReply
  extract_lets +onlyGivenNames v1
  have h1 : Onward (s.advance t) v1 := by
    subst v1
    exact Onward.refl _
  try clear_value v1
  split
  · refine Goes.done ?_
    refine Onward.trans ?_ (State.peerReply_onward_eq (by assumption))
    assumption
  · refine Goes.ite ?_ ?_
    · split
      · refine State.afterReply_onward ?_
        with_reducible refine Onward.trans ?_ (State.repairReserved_onward _ _ _ _)
        refine Onward.trans ?_ (State.peerReply_onward_eq (by assumption))
        assumption
      · refine Goes.done ?_
        refine Onward.trans ?_ (State.peerReply_onward_eq (by assumption))
        assumption
    · extract_lets +onlyGivenNames v3
      have h3 : Onward (s.advance t) v3 := by
        subst v3
        with_reducible refine Onward.trans ?_ (State.reserveAnswer_onward _ _ _ _)
        refine Onward.trans ?_ (State.peerReply_onward_eq (by assumption))
        assumption
      try clear_value v3
      split
      · refine State.afterReply_onward ?_
        with_reducible refine Onward.trans ?_ (State.phaseOne_onward _ _)
        assumption
      · refine State.afterReply_onward ?_
        assumption

theorem State.holderFails_onward (s : State) (m : PeerMsg) : Onward s (State.holderFails s m) := by
  unfold State.holderFails
  extract_lets +onlyGivenNames v1
  try clear_value v1
  extract_lets +onlyGivenNames v2
  have h2 : Onward s v2 := by
    subst v2
    refine Onward.upd ?_ rfl
    exact Onward.refl _
  try clear_value v2
  split
  · refine Onward.ite ?_ ?_
    · assumption
    · with_reducible refine Onward.trans ?_ (State.onHolder_onward _ _ _ _ _)
      assumption
  · assumption

theorem State.noteLate_onward (s : State) (m : PeerMsg) : Onward s (State.noteLate s m) := by
  unfold State.noteLate
  extract_lets +onlyGivenNames v1
  try clear_value v1
  refine Onward.ite ?_ ?_
  · exact Onward.refl _
  · refine Onward.upd ?_ rfl
    exact Onward.refl _

theorem State.putAnswer_onward (s : State) (m : PeerMsg) (status : Nat) (body : Bytes) : Onward s (State.putAnswer s m status body) := by
  unfold State.putAnswer
  refine Onward.ite ?_ ?_
  · with_reducible refine Onward.trans ?_ (State.failRepair_onward _ _)
    with_reducible refine Onward.trans ?_ (State.holderFails_onward _ _)
    exact Onward.refl _
  · split
    · with_reducible refine Onward.trans ?_ (State.noteLate_onward _ _)
      exact Onward.refl _
    · with_reducible refine Onward.trans ?_ (State.onHolder_onward _ _ _ _ _)
      with_reducible refine Onward.trans ?_ (State.noteLate_onward _ _)
      exact Onward.refl _

theorem execFragPutReply_onward (t : Nat) (r : PeerReply) (s : State) : Goes (State.advance s t) (execFragPutReply t r s) := by
  unfold execFragPutReply
  extract_lets +onlyGivenNames v1
  have h1 : Onward (s.advance t) v1 := by
    subst v1
    exact Onward.refl _
  try clear_value v1
  split
  · refine Goes.done ?_
    refine Onward.trans ?_ (State.peerReply_onward_eq (by assumption))
    assumption
  · refine Goes.ite ?_ ?_
    · split
      · refine State.afterReply_onward ?_
        with_reducible refine Onward.trans ?_ (State.repairPut_onward _ _ _ _ _)
        refine Onward.trans ?_ (State.peerReply_onward_eq (by assumption))
        assumption
      · refine Goes.done ?_
        refine Onward.trans ?_ (State.peerReply_onward_eq (by assumption))
        assumption
    · refine State.afterReply_onward ?_
      with_reducible refine Onward.trans ?_ (State.putAnswer_onward _ _ _ _)
      refine Onward.trans ?_ (State.peerReply_onward_eq (by assumption))
      assumption

theorem execFragGetReply_onward (t : Nat) (r : PeerReply) (s : State) : Goes (State.advance s t) (execFragGetReply t r s) := by
  unfold execFragGetReply
  extract_lets +onlyGivenNames v1
  have h1 : Onward (s.advance t) v1 := by
    subst v1
    exact Onward.refl _
  try clear_value v1
  split
  · refine Goes.done ?_
    refine Onward.trans ?_ (State.peerReply_onward_eq (by assumption))
    assumption
  · refine Goes.ite ?_ ?_
    · split
      · refine State.afterReply_onward ?_
        with_reducible refine Onward.trans ?_ (State.repairGot_onward _ _ _ _ _ _)
        refine Onward.trans ?_ (State.peerReply_onward_eq (by assumption))
        assumption
      · refine Goes.done ?_
        refine Onward.trans ?_ (State.peerReply_onward_eq (by assumption))
        assumption
    · extract_lets +onlyGivenNames v3
      have h3 : Onward (s.advance t) v3 := by
        subst v3
        split
        · refine Onward.ite ?_ ?_
          · with_reducible refine Onward.trans ?_ (State.queueRepair_onward _ _ _ _)
            refine Onward.trans ?_ (State.peerReply_onward_eq (by assumption))
            assumption
          · refine Onward.trans ?_ (State.peerReply_onward_eq (by assumption))
            assumption
        · refine Onward.trans ?_ (State.peerReply_onward_eq (by assumption))
          assumption
      try clear_value v3
      split
      · refine Goes.done ?_
        assumption
      · extract_lets +onlyGivenNames v5
        try clear_value v5
        extract_lets +onlyGivenNames v6
        try clear_value v6
        refine State.afterReply_onward ?_
        with_reducible refine Onward.trans ?_ (State.pieceCame_onward _ _ _ _ _ _ _ _)
        assumption

theorem execFragReleaseReply_onward (t : Nat) (r : PeerReply) (s : State) : Goes (State.advance s t) (execFragReleaseReply t r s) := by
  unfold execFragReleaseReply
  extract_lets +onlyGivenNames v1
  have h1 : Onward (s.advance t) v1 := by
    subst v1
    exact Onward.refl _
  try clear_value v1
  split
  · refine Goes.done ?_
    refine Onward.trans ?_ (State.peerReply_onward_eq (by assumption))
    assumption
  · split
    · refine State.afterReply_onward ?_
      with_reducible refine Onward.trans ?_ (State.onHolder_onward _ _ _ _ _)
      refine Onward.trans ?_ (State.peerReply_onward_eq (by assumption))
      assumption
    · refine State.afterReply_onward ?_
      refine Onward.trans ?_ (State.peerReply_onward_eq (by assumption))
      assumption

theorem State.dropEntry_onward (s : State) (a1 : Resolved) : Onward s (State.dropEntry s a1) := by
  unfold State.dropEntry
  extract_lets +onlyGivenNames v1
  have h1 : Onward s v1 := by
    subst v1
    with_reducible refine Onward.trans ?_ (State.journal_onward _ _ _)
    exact Onward.refl _
  try clear_value v1
  with_reducible refine Onward.trans ?_ (State.removeEntry_onward _ _)
  with_reducible refine Onward.trans ?_ (State.sbTouched_onward _ _)
  assumption

theorem State.handoffAcked_onward (s : State) (i : StripeId) : Onward s (State.handoffAcked s i) := by
  unfold State.handoffAcked
  split
  · exact Onward.refl _
  · refine Onward.ite ?_ ?_
    · exact Onward.refl _
    · split
      · with_reducible refine Onward.trans ?_ (State.dropEntry_onward _ _)
        exact Onward.refl _
      · exact Onward.refl _

theorem State.commitAnswer_onward (s : State) (m : PeerMsg) (status : Nat) : Onward s (State.commitAnswer s m status) := by
  unfold State.commitAnswer
  extract_lets +onlyGivenNames v1
  try clear_value v1
  refine Onward.ite ?_ ?_
  · refine Onward.ite ?_ ?_
    · split
      · with_reducible refine Onward.trans ?_ (State.queueRepair_onward _ _ _ _)
        exact Onward.refl _
      · exact Onward.refl _
    · exact Onward.refl _
  · refine Onward.ite ?_ ?_
    · refine Onward.ite ?_ ?_
      · with_reducible refine Onward.trans ?_ (State.handoffAcked_onward _ _)
        exact Onward.refl _
      · exact Onward.refl _
    · refine Onward.ite ?_ ?_
      · split
        · refine Onward.ite ?_ ?_
          · with_reducible refine Onward.trans ?_ (State.nsAck_onward _ _ _ _)
            exact Onward.refl _
          · exact Onward.refl _
        · exact Onward.refl _
      · exact Onward.refl _

theorem execStripeCommitReply_onward (t : Nat) (r : PeerReply) (s : State) : Goes (State.advance s t) (execStripeCommitReply t r s) := by
  unfold execStripeCommitReply
  extract_lets +onlyGivenNames v1
  have h1 : Onward (s.advance t) v1 := by
    subst v1
    exact Onward.refl _
  try clear_value v1
  split
  · refine Goes.done ?_
    refine Onward.trans ?_ (State.peerReply_onward_eq (by assumption))
    assumption
  · refine State.afterReply_onward ?_
    with_reducible refine Onward.trans ?_ (State.commitAnswer_onward _ _ _)
    refine Onward.trans ?_ (State.peerReply_onward_eq (by assumption))
    assumption

theorem State.adoptGather_onward (s : State) (ns : Nat) (gen : Nat) (hash : Nat) : Onward s (State.adoptGather s ns gen hash) := by
  unfold State.adoptGather
  split
  · exact Onward.refl _
  · refine Onward.ite ?_ ?_
    · refine Onward.trans ?_ (Onward.foldl (fun z1 y1 => ?_) _ _)
      · exact Onward.refl _
      · with_reducible refine Onward.trans ?_ (State.adopt_onward _ _)
        exact Onward.refl _
    · exact Onward.refl _

theorem State.keyStateAnswer_onward (s : State) (m : PeerMsg) : Onward s (State.keyStateAnswer s m) := by
  unfold State.keyStateAnswer
  extract_lets +onlyGivenNames v1
  try clear_value v1
  extract_lets +onlyGivenNames v2
  try clear_value v2
  extract_lets +onlyGivenNames v3
  try clear_value v3
  split
  · exact Onward.refl _
  · extract_lets +onlyGivenNames v4
    try clear_value v4
    extract_lets +onlyGivenNames v5
    try clear_value v5
    extract_lets +onlyGivenNames v6
    try clear_value v6
    extract_lets +onlyGivenNames v7
    try clear_value v7
    with_reducible refine Onward.trans ?_ (State.adoptGather_onward _ _ _ _)
    with_reducible refine Onward.trans ?_ (State.setGather_onward _ _)
    exact Onward.refl _

theorem State.resolveAnswer_onward (s : State) (m : PeerMsg) (status : Nat) (body : Bytes) : Onward s (State.resolveAnswer s m status body) := by
  unfold State.resolveAnswer
  split
  · exact Onward.refl _
  · refine Onward.ite ?_ ?_
    · exact Onward.refl _
    · extract_lets +onlyGivenNames v1
      have h1 : Onward s v1 := by
        subst v1
        with_reducible refine Onward.trans ?_ (State.setFrag_onward _ _)
        exact Onward.refl _
      try clear_value v1
      refine Onward.ite ?_ ?_
      · assumption
      · split
        · with_reducible refine Onward.trans ?_ (State.commitFrag_onward _ _ _)
          exact Onward.refl _
        · with_reducible refine Onward.trans ?_ (State.event_onward _ _ _)
          with_reducible refine Onward.trans ?_ (State.bump_onward _ _)
          with_reducible refine Onward.trans ?_ (State.releaseOne_onward _ _ _)
          exact Onward.refl _
        · assumption

theorem State.queryAnswered_onward (s : State) (m : PeerMsg) (status : Nat) (body : Bytes) : Onward s (State.queryAnswered s m status body) := by
  unfold State.queryAnswered
  extract_lets +onlyGivenNames v1
  try clear_value v1
  extract_lets +onlyGivenNames v2
  have h2 : Onward s v2 := by
    subst v2
    refine Onward.ite ?_ ?_
    · refine Onward.upd ?_ rfl
      exact Onward.refl _
    · exact Onward.refl _
  try clear_value v2
  split
  · split
    · refine Onward.ite ?_ ?_
      · with_reducible refine Onward.trans ?_ (State.repairHoldings_onward _ _ _ _)
        assumption
      · with_reducible refine Onward.trans ?_ (State.requeue_onward _ _)
        assumption
    · assumption
  · with_reducible refine Onward.trans ?_ (State.resolveAnswer_onward _ _ _ _)
    assumption
  · with_reducible refine Onward.trans ?_ (State.keyStateAnswer_onward _ _)
    assumption
  · refine Onward.ite ?_ ?_
    · with_reducible refine Onward.trans ?_ (State.applyNsEntries_onward _ _ _)
      assumption
    · assumption

theorem execRebuildQueryReply_onward (t : Nat) (r : PeerReply) (s : State) : Goes (State.advance s t) (execRebuildQueryReply t r s) := by
  unfold execRebuildQueryReply
  extract_lets +onlyGivenNames v1
  have h1 : Onward (s.advance t) v1 := by
    subst v1
    exact Onward.refl _
  try clear_value v1
  split
  · refine Goes.done ?_
    refine Onward.trans ?_ (State.peerReply_onward_eq (by assumption))
    assumption
  · refine State.afterReply_onward ?_
    with_reducible refine Onward.trans ?_ (State.queryAnswered_onward _ _ _ _)
    refine Onward.trans ?_ (State.peerReply_onward_eq (by assumption))
    assumption

theorem execOrphanResolveAnswer_onward (t : Nat) (r : PeerReply) (s : State) : Goes (State.advance s t) (execOrphanResolveAnswer t r s) := by
  unfold execOrphanResolveAnswer
  extract_lets +onlyGivenNames v1
  have h1 : Onward (s.advance t) v1 := by
    subst v1
    exact Onward.refl _
  try clear_value v1
  split
  · refine Goes.done ?_
    refine Onward.trans ?_ (State.peerReply_onward_eq (by assumption))
    assumption
  · refine State.afterReply_onward ?_
    with_reducible refine Onward.trans ?_ (State.queryAnswered_onward _ _ _ _)
    refine Onward.trans ?_ (State.peerReply_onward_eq (by assumption))
    assumption

theorem execOrphanResolveTimer_onward (t : Nat) (stripe : StripeId) (index : Nat) (s : State) : Goes (State.advance s t) (execOrphanResolveTimer t stripe index s) := by
  unfold execOrphanResolveTimer
  extract_lets +onlyGivenNames v1
  have h1 : Onward (s.advance t) v1 := by
    subst v1
    exact Onward.refl _
  try clear_value v1
  refine Goes.done ?_
  split
  · assumption
  · refine Onward.ite ?_ ?_
    · assumption
    · extract_lets +onlyGivenNames v2
      have h2 : Onward (s.advance t) v2 := by
        subst v2
        with_reducible refine Onward.trans ?_ (State.setFrag_onward _ _)
        assumption
      try clear_value v2
      extract_lets +onlyGivenNames v4
      try clear_value v4
      split
      · assumption
      · refine Onward.ite ?_ ?_
        · assumption
        · extract_lets +onlyGivenNames v5
          try clear_value v5
          extract_lets +onlyGivenNames v6
          have h6 : Onward (s.advance t) v6 := by
            subst v6
            refine Onward.upd ?_ rfl
            assumption
          try clear_value v6
          with_reducible refine Onward.trans ?_ (State.sendQuery_onward _ _ _ _ _ _ _)
          assumption

theorem execPhaseOneTimeout_onward (t : Nat) (sid : Nat) (tag : Nat) (s : State) : Goes (State.advance s t) (execPhaseOneTimeout t sid tag s) := by
  unfold execPhaseOneTimeout
  extract_lets +onlyGivenNames v1
  have h1 : Onward (s.advance t) v1 := by
    subst v1
    exact Onward.refl _
  try clear_value v1
  split
  · refine Goes.done ?_
    assumption
  · split
    · refine Goes.done ?_
      assumption
    · refine Goes.ite ?_ ?_
      · refine State.afterReply_onward ?_
        with_reducible refine Onward.trans ?_ (State.refusePhaseOne_onward _ _ _)
        assumption
      · refine Goes.done ?_
        assumption

theorem execHolderFailTimeout_onward (t : Nat) (sid : Nat) (tag : Nat) (member : Nat) (s : State) : Goes (State.advance s t) (execHolderFailTimeout t sid tag member s) := by
  unfold execHolderFailTimeout
  extract_lets +onlyGivenNames v1
  have h1 : Onward (s.advance t) v1 := by
    subst v1
    exact Onward.refl _
  try clear_value v1
  split
  · refine Goes.done ?_
    assumption
  · refine State.afterReply_onward ?_
    with_reducible refine Onward.trans ?_ (State.failRepair_onward _ _)
    with_reducible refine Onward.trans ?_ (State.holderFails_onward _ _)
    assumption

theorem execReleaseAckWaitEnd_onward (t : Nat) (sid : Nat) (tag : Nat) (s : State) : Goes (State.advance s t) (execReleaseAckWaitEnd t sid tag s) := by
  unfold execReleaseAckWaitEnd
  extract_lets +onlyGivenNames v1
  have h1 : Onward (s.advance t) v1 := by
    subst v1
    exact Onward.refl _
  try clear_value v1
  split
  · refine Goes.done ?_
    assumption
  · split
    · refine Goes.done ?_
      assumption
    · refine State.afterReply_onward ?_
      with_reducible refine Onward.trans ?_ (State.releaseDone_onward _ _ _)
      assumption

theorem execMessageRepeat_onward (t : Nat) (msg : Nat) (s : State) : Goes (State.advance s t) (execMessageRepeat t msg s) := by
  unfold execMessageRepeat
  extract_lets +onlyGivenNames v1
  have h1 : Onward (s.advance t) v1 := by
    subst v1
    exact Onward.refl _
  try clear_value v1
  split
  · refine Goes.done ?_
    assumption
  · refine Goes.ite ?_ ?_
    · refine Goes.done ?_
      assumption
    · refine Goes.ite ?_ ?_
      · refine Goes.done ?_
        with_reducible refine Onward.trans ?_ (State.dropMsg_onward _ _)
        assumption
      · refine Goes.ite ?_ ?_
        · extract_lets +onlyGivenNames v3
          try clear_value v3
          refine Goes.done ?_
          with_reducible refine Onward.trans ?_ (State.dispatch_onward _ _)
          with_reducible refine Onward.trans ?_ (State.onMsg_onward _ _ _)
          assumption
        · refine Goes.done ?_
          assumption

theorem execFragFetchTimeout_onward (t : Nat) (sid : Nat) (tag : Nat) (index : Nat) (s : State) : Goes (State.advance s t) (execFragFetchTimeout t sid tag index s) := by
  unfold execFragFetchTimeout
  extract_lets +onlyGivenNames v1
  have h1 : Onward (s.advance t) v1 := by
    subst v1
    exact Onward.refl _
  try clear_value v1
  split
  · refine Goes.done ?_
    assumption
  · extract_lets +onlyGivenNames v2
    try clear_value v2
    extract_lets +onlyGivenNames v3
    try clear_value v3
    extract_lets +onlyGivenNames v4
    have h4 : Onward (s.advance t) v4 := by
      subst v4
      refine Onward.upd ?_ rfl
      assumption
    try clear_value v4
    refine State.afterReply_onward ?_
    refine Onward.trans ?_ (Onward.foldl (fun z5 y5 => ?_) _ _)
    · assumption
    · with_reducible refine Onward.trans ?_ (State.pieceCame_onward _ _ _ _ _ _ _ _)
      exact Onward.refl _

theorem execNsDistributeTimeout_onward (t : Nat) (sid : Nat) (tag : Nat) (s : State) : Goes (State.advance s t) (execNsDistributeTimeout t sid tag s) := by
  unfold execNsDistributeTimeout
  extract_lets +onlyGivenNames v1
  have h1 : Onward (s.advance t) v1 := by
    subst v1
    exact Onward.refl _
  try clear_value v1
  split
  · refine Goes.done ?_
    assumption
  · refine Goes.ite ?_ ?_
    · refine State.afterReply_onward ?_
      with_reducible refine Onward.trans ?_ (State.nsTimeout_onward _ _)
      assumption
    · refine Goes.done ?_
      assumption

theorem execNsSync_onward (t : Nat) (s : State) : Goes (State.advance s t) (execNsSync t s) := by
  unfold execNsSync
  extract_lets +onlyGivenNames v1
  have h1 : Onward (s.advance t) v1 := by
    subst v1
    exact Onward.refl _
  try clear_value v1
  refine Goes.ite ?_ ?_
  · refine Goes.done ?_
    refine Onward.trans ?_ (Onward.foldl (fun z2 y2 => ?_) _ _)
    · refine Onward.upd ?_ rfl
      assumption
    · with_reducible refine Onward.trans ?_ (State.askNamespaces_onward _ _)
      exact Onward.refl _
  · refine Goes.done ?_
    assumption

theorem execMemberLost_onward (t : Nat) (member : Nat) (s : State) : Goes (State.advance s t) (execMemberLost t member s) := by
  unfold execMemberLost
  extract_lets +onlyGivenNames v1
  have h1 : Onward (s.advance t) v1 := by
    subst v1
    exact Onward.refl _
  try clear_value v1
  split
  · refine Goes.done ?_
    assumption
  · refine Goes.ite ?_ ?_
    · refine Goes.done ?_
      assumption
    · extract_lets +onlyGivenNames v2
      try clear_value v2
      extract_lets +onlyGivenNames v3
      have h3 : Onward (s.advance t) v3 := by
        subst v3
        refine Onward.upd ?_ rfl
        assumption
      try clear_value v3
      refine State.afterReply_onward ?_
      with_reducible refine Onward.trans ?_ (State.stirred_onward _)
      with_reducible refine Onward.trans ?_ (State.queueMoves_onward _)
      with_reducible refine Onward.trans ?_ (State.eventEmcy_onward _ _ _ _ _)
      assumption

theorem execGroupMapWrite_onward (t : Nat) (client : Client) (value : Bytes) (s : State) : Goes (State.advance s t) (execGroupMapWrite t client value s) := by
  unfold execGroupMapWrite
  refine State.afterReply_onward ?_
  with_reducible refine Onward.trans ?_ (State.dictApply_onward _ _ _ _)
  exact Onward.refl _

theorem execEpochActivate_onward (t : Nat) (s : State) : Goes (State.advance s t) (execEpochActivate t s) := by
  unfold execEpochActivate
  extract_lets +onlyGivenNames v1
  have h1 : Onward (s.advance t) v1 := by
    subst v1
    exact Onward.refl _
  try clear_value v1
  split
  · refine Goes.done ?_
    assumption
  · refine Goes.ite ?_ ?_
    · refine State.afterReply_onward ?_
      with_reducible refine Onward.trans ?_ (State.activateMap_onward _ _)
      assumption
    · refine Goes.done ?_
      assumption

theorem State.handOff_onward (s : State) (o : Owed) (new : Nat) : Onward s (State.handOff s o new) := by
  unfold State.handOff
  refine Onward.ite ?_ ?_
  · exact Onward.refl _
  · refine Onward.ite ?_ ?_
    · split
      · with_reducible refine Onward.trans ?_ (State.sendCommit_onward _ _ _ _ _)
        with_reducible refine Onward.trans ?_ (State.bump_onward _ _)
        exact Onward.refl _
      · exact Onward.refl _
    · extract_lets +onlyGivenNames v3
      have h3 : Onward s v3 := by
        subst v3
        split
        · with_reducible refine Onward.trans ?_ (State.sendCommit_onward _ _ _ _ _)
          with_reducible refine Onward.trans ?_ (State.bump_onward _ _)
          exact Onward.refl _
        · exact Onward.refl _
      try clear_value v3
      refine Onward.trans ?_ (Onward.foldl (fun z6 y6 => ?_) _ _)
      · assumption
      · with_reducible refine Onward.trans ?_ (State.sendPending_onward _ _ _)
        exact Onward.refl _

theorem State.sendOwed_onward (s : State) (o : Owed) : Onward s (State.sendOwed s o) := by
  unfold State.sendOwed
  split
  · exact Onward.refl _
  · extract_lets +onlyGivenNames v1
    have h1 : Onward s v1 := by
      subst v1
      with_reducible refine Onward.trans ?_ (State.handOff_onward _ _ _)
      exact Onward.refl _
    try clear_value v1
    extract_lets +onlyGivenNames v3
    try clear_value v3
    extract_lets +onlyGivenNames v4
    have h4 : Onward s v4 := by
      subst v4
      refine Onward.upd ?_ rfl
      assumption
    try clear_value v4
    with_reducible refine Onward.trans ?_ (State.handoffDone_onward _)
    with_reducible refine Onward.trans ?_ (State.stirred_onward _)
    assumption

theorem execHandoffSend_onward (t : Nat) (ns : Nat) (hash : Nat) (s : State) : Goes (State.advance s t) (execHandoffSend t ns hash s) := by
  unfold execHandoffSend
  extract_lets +onlyGivenNames v1
  have h1 : Onward (s.advance t) v1 := by
    subst v1
    exact Onward.refl _
  try clear_value v1
  split
  · refine Goes.done ?_
    assumption
  · refine Goes.ite ?_ ?_
    · refine Goes.done ?_
      assumption
    · refine State.afterReply_onward ?_
      with_reducible refine Onward.trans ?_ (State.sendOwed_onward _ _)
      assumption

theorem execHandoffFallbackTimeout_onward (t : Nat) (ns : Nat) (hash : Nat) (s : State) : Goes (State.advance s t) (execHandoffFallbackTimeout t ns hash s) := by
  unfold execHandoffFallbackTimeout
  extract_lets +onlyGivenNames v1
  have h1 : Onward (s.advance t) v1 := by
    subst v1
    exact Onward.refl _
  try clear_value v1
  split
  · refine Goes.done ?_
    assumption
  · refine Goes.ite ?_ ?_
    · refine Goes.done ?_
      assumption
    · refine State.afterReply_onward ?_
      with_reducible refine Onward.trans ?_ (State.sendOwed_onward _ _)
      assumption

theorem execHandoffPullTimeout_onward (t : Nat) (sid : Nat) (tag : Nat) (s : State) : Goes (State.advance s t) (execHandoffPullTimeout t sid tag s) := by
  unfold execHandoffPullTimeout
  extract_lets +onlyGivenNames v1
  have h1 : Onward (s.advance t) v1 := by
    subst v1
    exact Onward.refl _
  try clear_value v1
  split
  · refine Goes.done ?_
    assumption
  · refine Goes.ite ?_ ?_
    · refine Goes.done ?_
      assumption
    · extract_lets +onlyGivenNames v2
      try clear_value v2
      split
      · refine Goes.done ?_
        assumption
      · extract_lets +onlyGivenNames v3
        try clear_value v3
        refine Goes.ite ?_ ?_
        · refine Goes.done ?_
          assumption
        · refine Goes.ite ?_ ?_
          · refine State.afterReply_onward ?_
            with_reducible refine Onward.trans ?_ (State.adoptGather_onward _ _ _ _)
            with_reducible refine Onward.trans ?_ (State.setGather_onward _ _)
            assumption
          · extract_lets +onlyGivenNames v6
            try clear_value v6
            extract_lets +onlyGivenNames v7
            have h7 : Onward (s.advance t) v7 := by
              subst v7
              refine Onward.upd ?_ rfl
              assumption
            try clear_value v7
            refine State.afterReply_onward ?_
            with_reducible refine Onward.trans ?_ (State.refuseCmd_onward _ _ _ _)
            assumption

theorem State.forwardRec_onward (s : State) (g : Gather) (h : FragHdr) (version : Nat) : Onward s (State.forwardRec s g h version).2 := by
  unfold State.forwardRec
  extract_lets +onlyGivenNames v1
  try clear_value v1
  split
  refine Onward.snd_mk ?_
  refine Onward.trans ?_ (State.drawFree_onward_eq (by assumption))
  exact Onward.refl _
theorem State.forwardRec_onward_eq {s : State} {g : Gather} {h : FragHdr} {version : Nat} {r1 r2} (hres : State.forwardRec s g h version = (r2, r1)) : Onward s r1 := by
  have k := State.forwardRec_onward s g h version
  rw [hres] at k
  exact k

theorem State.releasePending_onward (s : State) (g : Gather) (i : StripeId) : Onward s (State.releasePending s g i) := by
  unfold State.releasePending
  refine Onward.trans ?_ (Onward.foldl (fun z1 y1 => ?_) _ _)
  · exact Onward.refl _
  · refine Onward.ite ?_ ?_
    · with_reducible refine Onward.trans ?_ (State.releaseFrag_onward _ _ _)
      exact Onward.refl _
    · with_reducible refine Onward.trans ?_ (State.sendRelease_onward _ _ _ _ _ _)
      exact Onward.refl _

theorem State.resolveOne_onward (s : State) (g : Gather) (inst : Nat) (prior : Option CommitRec) (h : FragHdr) : Onward s (State.resolveOne s g inst prior h).1 := by
  unfold State.resolveOne
  split
  · refine Onward.fst_mk ?_
    with_reducible refine Onward.trans ?_ (State.adopt_onward _ _)
    exact Onward.refl _
  · extract_lets +onlyGivenNames v2
    try clear_value v2
    extract_lets +onlyGivenNames v3
    try clear_value v3
    refine Onward.ite_fst ?_ ?_
    · extract_lets +onlyGivenNames v4
      try clear_value v4
      split
      extract_lets +onlyGivenNames v5
      have h5 : Onward s v5 := by
        subst v5
        with_reducible refine Onward.trans ?_ (State.writeCommit_onward _ _ _ _ _)
        refine Onward.trans ?_ (State.forwardRec_onward_eq (by assumption))
        exact Onward.refl _
      try clear_value v5
      extract_lets +onlyGivenNames v7
      have h7 : Onward s v7 := by
        subst v7
        refine Onward.trans ?_ (Onward.foldl (fun z8 y8 => ?_) _ _)
        · assumption
        · with_reducible refine Onward.trans ?_ (State.commitFrag_onward _ _ _)
          exact Onward.refl _
      try clear_value v7
      extract_lets +onlyGivenNames v10
      have h10 : Onward s v10 := by
        subst v10
        refine Onward.trans ?_ (Onward.foldl (fun z11 y11 => ?_) _ _)
        · assumption
        · with_reducible refine Onward.trans ?_ (State.sendCommit_onward _ _ _ _ _)
          exact Onward.refl _
      try clear_value v10
      extract_lets +onlyGivenNames v13
      try clear_value v13
      extract_lets +onlyGivenNames v14
      have h14 : Onward s v14 := by
        subst v14
        split
        · refine Onward.upd ?_ rfl
          assumption
        · assumption
      try clear_value v14
      refine Onward.fst_mk ?_
      with_reducible refine Onward.trans ?_ (State.event_onward _ _ _)
      with_reducible refine Onward.trans ?_ (State.bump_onward _ _)
      assumption
    · refine Onward.fst_mk ?_
      with_reducible refine Onward.trans ?_ (State.releasePending_onward _ _ _)
      exact Onward.refl _
theorem State.resolveOne_onward_eq {s : State} {g : Gather} {inst : Nat} {prior : Option CommitRec} {h : FragHdr} {r1 r2} (hres : State.resolveOne s g inst prior h = (r1, r2)) : Onward s r1 := by
  have k := State.resolveOne_onward s g inst prior h
  rw [hres] at k
  exact k

theorem execHandoffResolve_onward (t : Nat) (ns : Nat) (hash : Nat) (s : State) : Goes (State.advance s t) (execHandoffResolve t ns hash s) := by
  unfold execHandoffResolve
  extract_lets +onlyGivenNames v1
  have h1 : Onward (s.advance t) v1 := by
    subst v1
    exact Onward.refl _
  try clear_value v1
  split
  · refine Goes.done ?_
    assumption
  · split
    · refine Goes.done ?_
      assumption
    · extract_lets +onlyGivenNames v2
      have h2 : Onward (s.advance t) v2 := by
        subst v2
        refine Onward.trans ?_ (Onward.foldl (fun z3 y3 => ?_) _ _)
        · assumption
        · refine Onward.ite ?_ ?_
          · exact Onward.refl _
          · with_reducible refine Onward.trans ?_ (State.adopt_onward _ _)
            exact Onward.refl _
      try clear_value v2
      extract_lets +onlyGivenNames v5
      try clear_value v5
      extract_lets +onlyGivenNames v6
      try clear_value v6
      extract_lets +onlyGivenNames v7
      try clear_value v7
      extract_lets +onlyGivenNames v8
      try clear_value v8
      extract_lets +onlyGivenNames v9
      refine State.afterReply_onward ?_
      with_reducible refine Onward.trans ?_ (State.setGather_onward _ _)
      subst v9
      refine Onward.trans ?_ (Onward.foldl_fst (fun z11 y11 => ?_) _ _)
      · refine Onward.fst_mk ?_
        assumption
      · with_reducible refine Onward.trans ?_ (State.resolveOne_onward _ _ _ _ _)
        exact Onward.refl _

theorem State.arrive_onward (s : State) (op : Nat) (rx : Rx) (pkt : CmdPkt) (plan : Plan) : Onward s (State.arrive s op rx pkt plan) := by
  unfold State.arrive
  with_reducible refine Onward.trans ?_ (State.cmdArrive_onward _ _ _ _)
  exact Onward.refl _

theorem State.arriveKind_onward (s : State) (op : Nat) (kind : Nat) (rx : Rx) (pkt : CmdPkt) (plan : Plan) : Onward s (State.arriveKind s op kind rx pkt plan) := by
  unfold State.arriveKind
  with_reducible refine Onward.trans ?_ (State.cmdArrive_onward _ _ _ _)
  exact Onward.refl _

theorem execCmdSeqHold_onward (t : Nat) (rx : Rx) (pkt : CmdPkt) (plan : Plan) (s : State) : Goes (State.advance s t) (execCmdSeqHold t rx pkt plan s) := by
  unfold execCmdSeqHold
  refine Goes.done ?_
  with_reducible refine Onward.trans ?_ (State.cmdArrive_onward _ _ _ _)
  exact Onward.refl _

theorem execGet_onward (t : Nat) (rx : Rx) (pkt : CmdPkt) (plan : Plan) (s : State) : Goes (State.advance s t) (execGet t rx pkt plan s) := by
  unfold execGet
  refine Goes.done ?_
  with_reducible refine Onward.trans ?_ (State.arrive_onward _ _ _ _ _)
  exact Onward.refl _

theorem execGetRange_onward (t : Nat) (rx : Rx) (pkt : CmdPkt) (plan : Plan) (s : State) : Goes (State.advance s t) (execGetRange t rx pkt plan s) := by
  unfold execGetRange
  refine Goes.done ?_
  with_reducible refine Onward.trans ?_ (State.arrive_onward _ _ _ _ _)
  exact Onward.refl _

theorem execStat_onward (t : Nat) (rx : Rx) (pkt : CmdPkt) (plan : Plan) (s : State) : Goes (State.advance s t) (execStat t rx pkt plan s) := by
  unfold execStat
  refine Goes.done ?_
  with_reducible refine Onward.trans ?_ (State.arrive_onward _ _ _ _ _)
  exact Onward.refl _

theorem execList_onward (t : Nat) (rx : Rx) (pkt : CmdPkt) (plan : Plan) (s : State) : Goes (State.advance s t) (execList t rx pkt plan s) := by
  unfold execList
  refine Goes.done ?_
  with_reducible refine Onward.trans ?_ (State.arrive_onward _ _ _ _ _)
  exact Onward.refl _

theorem execPut_onward (t : Nat) (rx : Rx) (pkt : CmdPkt) (plan : Plan) (s : State) : Goes (State.advance s t) (execPut t rx pkt plan s) := by
  unfold execPut
  refine Goes.done ?_
  with_reducible refine Onward.trans ?_ (State.arrive_onward _ _ _ _ _)
  exact Onward.refl _

theorem execPutIf_onward (t : Nat) (rx : Rx) (pkt : CmdPkt) (plan : Plan) (s : State) : Goes (State.advance s t) (execPutIf t rx pkt plan s) := by
  unfold execPutIf
  refine Goes.done ?_
  with_reducible refine Onward.trans ?_ (State.arrive_onward _ _ _ _ _)
  exact Onward.refl _

theorem execDelete_onward (t : Nat) (rx : Rx) (pkt : CmdPkt) (plan : Plan) (s : State) : Goes (State.advance s t) (execDelete t rx pkt plan s) := by
  unfold execDelete
  refine Goes.done ?_
  with_reducible refine Onward.trans ?_ (State.arrive_onward _ _ _ _ _)
  exact Onward.refl _

theorem execDeleteIf_onward (t : Nat) (rx : Rx) (pkt : CmdPkt) (plan : Plan) (s : State) : Goes (State.advance s t) (execDeleteIf t rx pkt plan s) := by
  unfold execDeleteIf
  refine Goes.done ?_
  with_reducible refine Onward.trans ?_ (State.arrive_onward _ _ _ _ _)
  exact Onward.refl _

theorem execFlush_onward (t : Nat) (rx : Rx) (pkt : CmdPkt) (plan : Plan) (s : State) : Goes (State.advance s t) (execFlush t rx pkt plan s) := by
  unfold execFlush
  refine Goes.done ?_
  with_reducible refine Onward.trans ?_ (State.arrive_onward _ _ _ _ _)
  exact Onward.refl _

theorem execNsCreate_onward (t : Nat) (rx : Rx) (pkt : CmdPkt) (plan : Plan) (s : State) : Goes (State.advance s t) (execNsCreate t rx pkt plan s) := by
  unfold execNsCreate
  refine Goes.done ?_
  with_reducible refine Onward.trans ?_ (State.arrive_onward _ _ _ _ _)
  exact Onward.refl _

theorem execNsDelete_onward (t : Nat) (rx : Rx) (pkt : CmdPkt) (plan : Plan) (s : State) : Goes (State.advance s t) (execNsDelete t rx pkt plan s) := by
  unfold execNsDelete
  refine Goes.done ?_
  with_reducible refine Onward.trans ?_ (State.arrive_onward _ _ _ _ _)
  exact Onward.refl _

theorem execNsQuery_onward (t : Nat) (rx : Rx) (pkt : CmdPkt) (plan : Plan) (s : State) : Goes (State.advance s t) (execNsQuery t rx pkt plan s) := by
  unfold execNsQuery
  refine Goes.done ?_
  with_reducible refine Onward.trans ?_ (State.arrive_onward _ _ _ _ _)
  exact Onward.refl _

theorem execDictRead_onward (t : Nat) (rx : Rx) (pkt : CmdPkt) (plan : Plan) (s : State) : Goes (State.advance s t) (execDictRead t rx pkt plan s) := by
  unfold execDictRead
  refine Goes.done ?_
  with_reducible refine Onward.trans ?_ (State.arrive_onward _ _ _ _ _)
  exact Onward.refl _

theorem execDictWrite_onward (t : Nat) (rx : Rx) (pkt : CmdPkt) (plan : Plan) (s : State) : Goes (State.advance s t) (execDictWrite t rx pkt plan s) := by
  unfold execDictWrite
  refine Goes.done ?_
  with_reducible refine Onward.trans ?_ (State.arrive_onward _ _ _ _ _)
  exact Onward.refl _

theorem execFwSegment_onward (t : Nat) (rx : Rx) (pkt : CmdPkt) (plan : Plan) (s : State) : Goes (State.advance s t) (execFwSegment t rx pkt plan s) := by
  unfold execFwSegment
  refine Goes.done ?_
  with_reducible refine Onward.trans ?_ (State.arrive_onward _ _ _ _ _)
  exact Onward.refl _

theorem execFwActivate_onward (t : Nat) (rx : Rx) (pkt : CmdPkt) (plan : Plan) (s : State) : Goes (State.advance s t) (execFwActivate t rx pkt plan s) := by
  unfold execFwActivate
  refine Goes.done ?_
  with_reducible refine Onward.trans ?_ (State.arrive_onward _ _ _ _ _)
  exact Onward.refl _

theorem execSessionReset_onward (t : Nat) (rx : Rx) (pkt : CmdPkt) (plan : Plan) (s : State) : Goes (State.advance s t) (execSessionReset t rx pkt plan s) := by
  unfold execSessionReset
  refine Goes.done ?_
  with_reducible refine Onward.trans ?_ (State.arrive_onward _ _ _ _ _)
  exact Onward.refl _

theorem execFragReserve_onward (t : Nat) (rx : Rx) (pkt : CmdPkt) (plan : Plan) (s : State) : Goes (State.advance s t) (execFragReserve t rx pkt plan s) := by
  unfold execFragReserve
  refine Goes.done ?_
  with_reducible refine Onward.trans ?_ (State.arrive_onward _ _ _ _ _)
  exact Onward.refl _

theorem execFragPut_onward (t : Nat) (rx : Rx) (pkt : CmdPkt) (plan : Plan) (s : State) : Goes (State.advance s t) (execFragPut t rx pkt plan s) := by
  unfold execFragPut
  refine Goes.done ?_
  with_reducible refine Onward.trans ?_ (State.arrive_onward _ _ _ _ _)
  exact Onward.refl _

theorem execFragGet_onward (t : Nat) (rx : Rx) (pkt : CmdPkt) (plan : Plan) (s : State) : Goes (State.advance s t) (execFragGet t rx pkt plan s) := by
  unfold execFragGet
  refine Goes.done ?_
  with_reducible refine Onward.trans ?_ (State.arrive_onward _ _ _ _ _)
  exact Onward.refl _

theorem execFragRelease_onward (t : Nat) (rx : Rx) (pkt : CmdPkt) (plan : Plan) (s : State) : Goes (State.advance s t) (execFragRelease t rx pkt plan s) := by
  unfold execFragRelease
  refine Goes.done ?_
  with_reducible refine Onward.trans ?_ (State.arrive_onward _ _ _ _ _)
  exact Onward.refl _

theorem execStripeCommitCommit_onward (t : Nat) (rx : Rx) (pkt : CmdPkt) (plan : Plan) (s : State) : Goes (State.advance s t) (execStripeCommitCommit t rx pkt plan s) := by
  unfold execStripeCommitCommit
  refine Goes.done ?_
  with_reducible refine Onward.trans ?_ (State.arriveKind_onward _ _ _ _ _ _)
  exact Onward.refl _

theorem execStripeCommitHolders_onward (t : Nat) (rx : Rx) (pkt : CmdPkt) (plan : Plan) (s : State) : Goes (State.advance s t) (execStripeCommitHolders t rx pkt plan s) := by
  unfold execStripeCommitHolders
  refine Goes.done ?_
  with_reducible refine Onward.trans ?_ (State.arriveKind_onward _ _ _ _ _ _)
  exact Onward.refl _

theorem execStripeCommitHandoff_onward (t : Nat) (rx : Rx) (pkt : CmdPkt) (plan : Plan) (s : State) : Goes (State.advance s t) (execStripeCommitHandoff t rx pkt plan s) := by
  unfold execStripeCommitHandoff
  refine Goes.done ?_
  with_reducible refine Onward.trans ?_ (State.arriveKind_onward _ _ _ _ _ _)
  exact Onward.refl _

theorem execStripeCommitHandoffDone_onward (t : Nat) (rx : Rx) (pkt : CmdPkt) (plan : Plan) (s : State) : Goes (State.advance s t) (execStripeCommitHandoffDone t rx pkt plan s) := by
  unfold execStripeCommitHandoffDone
  refine Goes.done ?_
  with_reducible refine Onward.trans ?_ (State.arriveKind_onward _ _ _ _ _ _)
  exact Onward.refl _

theorem execStripeCommitHandoffPending_onward (t : Nat) (rx : Rx) (pkt : CmdPkt) (plan : Plan) (s : State) : Goes (State.advance s t) (execStripeCommitHandoffPending t rx pkt plan s) := by
  unfold execStripeCommitHandoffPending
  refine Goes.done ?_
  with_reducible refine Onward.trans ?_ (State.arriveKind_onward _ _ _ _ _ _)
  exact Onward.refl _

theorem execStripeCommitNsCreate_onward (t : Nat) (rx : Rx) (pkt : CmdPkt) (plan : Plan) (s : State) : Goes (State.advance s t) (execStripeCommitNsCreate t rx pkt plan s) := by
  unfold execStripeCommitNsCreate
  refine Goes.done ?_
  with_reducible refine Onward.trans ?_ (State.arriveKind_onward _ _ _ _ _ _)
  exact Onward.refl _

theorem execStripeCommitNsDelete_onward (t : Nat) (rx : Rx) (pkt : CmdPkt) (plan : Plan) (s : State) : Goes (State.advance s t) (execStripeCommitNsDelete t rx pkt plan s) := by
  unfold execStripeCommitNsDelete
  refine Goes.done ?_
  with_reducible refine Onward.trans ?_ (State.arriveKind_onward _ _ _ _ _ _)
  exact Onward.refl _

theorem execRebuildQueryHoldings_onward (t : Nat) (rx : Rx) (pkt : CmdPkt) (plan : Plan) (s : State) : Goes (State.advance s t) (execRebuildQueryHoldings t rx pkt plan s) := by
  unfold execRebuildQueryHoldings
  refine Goes.done ?_
  with_reducible refine Onward.trans ?_ (State.arriveKind_onward _ _ _ _ _ _)
  exact Onward.refl _

theorem execRebuildQueryResolve_onward (t : Nat) (rx : Rx) (pkt : CmdPkt) (plan : Plan) (s : State) : Goes (State.advance s t) (execRebuildQueryResolve t rx pkt plan s) := by
  unfold execRebuildQueryResolve
  refine Goes.done ?_
  with_reducible refine Onward.trans ?_ (State.arriveKind_onward _ _ _ _ _ _)
  exact Onward.refl _

theorem execRebuildQueryKeyState_onward (t : Nat) (rx : Rx) (pkt : CmdPkt) (plan : Plan) (s : State) : Goes (State.advance s t) (execRebuildQueryKeyState t rx pkt plan s) := by
  unfold execRebuildQueryKeyState
  refine Goes.done ?_
  with_reducible refine Onward.trans ?_ (State.arriveKind_onward _ _ _ _ _ _)
  exact Onward.refl _

theorem execRebuildQueryNamespaces_onward (t : Nat) (rx : Rx) (pkt : CmdPkt) (plan : Plan) (s : State) : Goes (State.advance s t) (execRebuildQueryNamespaces t rx pkt plan s) := by
  unfold execRebuildQueryNamespaces
  refine Goes.done ?_
  with_reducible refine Onward.trans ?_ (State.arriveKind_onward _ _ _ _ _ _)
  exact Onward.refl _

theorem execFlushEnd_onward (t : Nat) (sid : Nat) (tag : Nat) (s : State) : Goes (State.advance s t) (execFlushEnd t sid tag s) := by
  unfold execFlushEnd
  extract_lets +onlyGivenNames v1
  have h1 : Onward (s.advance t) v1 := by
    subst v1
    exact Onward.refl _
  try clear_value v1
  split
  · refine Goes.done ?_
    assumption
  · refine Goes.ite ?_ ?_
    · extract_lets +onlyGivenNames v2
      try clear_value v2
      extract_lets +onlyGivenNames v3
      have h3 : Onward (s.advance t) v3 := by
        subst v3
        refine Onward.upd ?_ rfl
        assumption
      try clear_value v3
      refine State.afterReply_onward ?_
      with_reducible refine Onward.trans ?_ (State.finish_onward _ _ _ _)
      assumption
    · refine Goes.done ?_
      assumption

theorem execOrderedStart_onward (t : Nat) (sid : Nat) (tag : Nat) (s : State) : Goes (State.advance s t) (execOrderedStart t sid tag s) := by
  unfold execOrderedStart
  extract_lets +onlyGivenNames v1
  have h1 : Onward (s.advance t) v1 := by
    subst v1
    exact Onward.refl _
  try clear_value v1
  split
  · refine Goes.done ?_
    assumption
  · refine Goes.ite ?_ ?_
    · refine State.afterReply_onward ?_
      with_reducible refine Onward.trans ?_ (State.goOn_onward _ _)
      assumption
    · refine Goes.done ?_
      assumption

theorem execReadTurn_onward (t : Nat) (sid : Nat) (tag : Nat) (s : State) : Goes (State.advance s t) (execReadTurn t sid tag s) := by
  unfold execReadTurn
  extract_lets +onlyGivenNames v1
  have h1 : Onward (s.advance t) v1 := by
    subst v1
    exact Onward.refl _
  try clear_value v1
  split
  · refine Goes.done ?_
    assumption
  · refine Goes.ite ?_ ?_
    · refine State.afterReply_onward ?_
      with_reducible refine Onward.trans ?_ (State.readTurn_onward _ _)
      assumption
    · refine Goes.done ?_
      assumption

theorem execWriteCommit_onward (t : Nat) (sid : Nat) (tag : Nat) (s : State) : Goes (State.advance s t) (execWriteCommit t sid tag s) := by
  unfold execWriteCommit
  extract_lets +onlyGivenNames v1
  have h1 : Onward (s.advance t) v1 := by
    subst v1
    exact Onward.refl _
  try clear_value v1
  split
  · refine Goes.done ?_
    assumption
  · refine State.afterReply_onward ?_
    with_reducible refine Onward.trans ?_ (State.tryCommit_onward _ _)
    assumption

theorem execSupersededRelease_onward (t : Nat) (stripe : StripeId) (s : State) : Goes (State.advance s t) (execSupersededRelease t stripe s) := by
  unfold execSupersededRelease
  extract_lets +onlyGivenNames v1
  have h1 : Onward (s.advance t) v1 := by
    subst v1
    exact Onward.refl _
  try clear_value v1
  split
  · refine Goes.done ?_
    assumption
  · extract_lets +onlyGivenNames v2
    try clear_value v2
    refine Goes.ite ?_ ?_
    · refine Goes.done ?_
      assumption
    · extract_lets +onlyGivenNames v3
      try clear_value v3
      extract_lets +onlyGivenNames v4
      have h4 : Onward (s.advance t) v4 := by
        subst v4
        refine Onward.upd ?_ rfl
        assumption
      try clear_value v4
      refine State.afterReply_onward ?_
      with_reducible refine Onward.trans ?_ (State.releaseStripe_onward _ _ _)
      assumption

theorem State.excuse_onward (s : State) (c : CmdCtx) : Onward s (State.excuse s c) := by
  unfold State.excuse
  extract_lets +onlyGivenNames v1
  try clear_value v1
  refine Onward.upd ?_ rfl
  exact Onward.refl _

theorem State.breakPromise_onward (s : State) (c : CmdCtx) : Onward s (State.breakPromise s c) := by
  unfold State.breakPromise
  extract_lets +onlyGivenNames v1
  have h1 : Onward s v1 := by
    subst v1
    with_reducible refine Onward.trans ?_ (State.eventEmcy_onward _ _ _ _ _)
    exact Onward.refl _
  try clear_value v1
  refine Onward.ite ?_ ?_
  · refine Onward.ite ?_ ?_
    · with_reducible refine Onward.trans ?_ (State.finish_onward _ _ _ _)
      with_reducible refine Onward.trans ?_ (State.excuse_onward _ _)
      assumption
    · with_reducible refine Onward.trans ?_ (State.abort_onward _ _ _ _ _)
      assumption
  · with_reducible refine Onward.trans ?_ (State.finish_onward _ _ _ _)
    with_reducible refine Onward.trans ?_ (State.freeWindows_onward _ _)
    assumption

theorem State.breakEnding_onward (s : State) (e : DueEnd) : Onward s (State.breakEnding s e) := by
  unfold State.breakEnding
  extract_lets +onlyGivenNames v1
  try clear_value v1
  extract_lets +onlyGivenNames v2
  have h2 : Onward s v2 := by
    subst v2
    with_reducible refine Onward.trans ?_ (State.eventEmcy_onward _ _ _ _ _)
    exact Onward.refl _
  try clear_value v2
  extract_lets +onlyGivenNames v4
  try clear_value v4
  extract_lets +onlyGivenNames v5
  have h5 : Onward s v5 := by
    subst v5
    with_reducible refine Onward.trans ?_ (State.onSession_onward _ _ _)
    assumption
  try clear_value v5
  refine Onward.upd ?_ rfl
  assumption

theorem execPromiseBroken_onward (t : Nat) (sid : Nat) (tag : Nat) (s : State) : Goes (State.advance s t) (execPromiseBroken t sid tag s) := by
  unfold execPromiseBroken
  extract_lets +onlyGivenNames v1
  have h1 : Onward (s.advance t) v1 := by
    subst v1
    exact Onward.refl _
  try clear_value v1
  split
  · split
    · refine Goes.done ?_
      with_reducible refine Onward.trans ?_ (State.breakEnding_onward _ _)
      assumption
    · refine Goes.done ?_
      assumption
  · refine Goes.ite ?_ ?_
    · refine State.afterReply_onward ?_
      with_reducible refine Onward.trans ?_ (State.breakPromise_onward _ _)
      assumption
    · refine Goes.done ?_
      assumption

end Sys2Proof.Machine
end

