-- ==== Sys2Proof/Laws/OnwardTransport.lean ====
section
/-! SUPPORT. What the operations and meanings of the transport do: each only goes onward (Laws/Onward.lean). -/

namespace Sys2Proof.Machine

theorem State.sendAccept_onward (s : State) (p : PortId) (addr : Nat) (b : Bytes) : Onward s (State.sendAccept s p addr b) := by
  unfold State.sendAccept
  with_reducible refine Onward.trans ?_ (State.emitOn_onward _ _ _)
  with_reducible refine Onward.trans ?_ (State.txFrame_onward _ _ _)
  exact Onward.refl _

theorem State.newSid_onward (s : State) : Onward s (State.newSid s).2 := by
  unfold State.newSid
  extract_lets +onlyGivenNames v1
  extract_lets +onlyGivenNames v2
  try clear_value v2
  refine Onward.snd_mk ?_
  subst v1
  with_reducible refine Onward.trans ?_ (State.drawFree_onward _)
  exact Onward.refl _
theorem State.newSid_onward_eq {s : State} {r1 r2} (hres : State.newSid s = (r2, r1)) : Onward s r1 := by
  have k := State.newSid_onward s
  rw [hres] at k
  exact k

theorem State.refuseHello_onward (s : State) (h : HelloPkt) (hk : Bytes) (status : Nat) (mpb : Nat) (retryMs : Nat) : Onward s (State.refuseHello s h hk status mpb retryMs) := by
  unfold State.refuseHello
  extract_lets +onlyGivenNames v1
  try clear_value v1
  with_reducible refine Onward.trans ?_ (State.bump_onward _ _)
  with_reducible refine Onward.trans ?_ (State.sendAccept_onward _ _ _ _)
  exact Onward.refl _

theorem State.acceptHello_onward (s : State) (h : HelloPkt) (k : Psk) (mpb : Nat) : Onward s (State.acceptHello s h k mpb) := by
  unfold State.acceptHello
  refine Onward.ite ?_ ?_
  · exact Onward.refl _
  · split
    split
    split
    extract_lets +onlyGivenNames v1
    try clear_value v1
    extract_lets +onlyGivenNames v2
    try clear_value v2
    extract_lets +onlyGivenNames v3
    try clear_value v3
    extract_lets +onlyGivenNames v4
    try clear_value v4
    extract_lets +onlyGivenNames v5
    try clear_value v5
    extract_lets +onlyGivenNames v6
    try clear_value v6
    extract_lets +onlyGivenNames v7
    try clear_value v7
    extract_lets +onlyGivenNames v8
    try clear_value v8
    extract_lets +onlyGivenNames v9
    have h9 : Onward s v9 := by
      subst v9
      refine Onward.upd ?_ rfl
      refine Onward.trans ?_ (State.random_onward_eq (by assumption))
      refine Onward.trans ?_ (State.random_onward_eq (by assumption))
      refine Onward.trans ?_ (State.newSid_onward_eq (by assumption))
      exact Onward.refl _
    try clear_value v9
    with_reducible refine Onward.trans ?_ (State.sendAccept_onward _ _ _ _)
    with_reducible refine Onward.trans ?_ (State.touch_onward _ _)
    assumption

theorem State.newHello_onward (s : State) (h : HelloPkt) (k : Psk) (hk : Bytes) (mpb : Nat) : Onward s (State.newHello s h k hk mpb) := by
  unfold State.newHello
  split
  · with_reducible refine Onward.trans ?_ (State.sendAccept_onward _ _ _ _)
    exact Onward.refl _
  · refine Onward.ite ?_ ?_
    · with_reducible refine Onward.trans ?_ (State.bump_onward _ _)
      exact Onward.refl _
    · split
      · with_reducible refine Onward.trans ?_ (State.acceptHello_onward _ _ _ _)
        refine Onward.trans ?_ (State.makeRoom_onward_eq (by assumption))
        exact Onward.refl _
      · with_reducible refine Onward.trans ?_ (State.refuseHello_onward _ _ _ _ _ _)
        exact Onward.refl _

theorem execHello_onward (t : Nat) (h : HelloPkt) (s : State) : Goes (State.advance s t) (execHello t h s) := by
  unfold execHello
  extract_lets +onlyGivenNames v1
  have h1 : Onward (s.advance t) v1 := by
    subst v1
    exact Onward.refl _
  try clear_value v1
  refine Goes.ite ?_ ?_
  · refine Goes.done ?_
    with_reducible refine Onward.trans ?_ (State.bump_onward _ _)
    assumption
  · extract_lets +onlyGivenNames v3
    have h3 : Onward (s.advance t) v3 := by
      subst v3
      with_reducible refine Onward.trans ?_ (State.rxFrame_onward _ _ _)
      assumption
    try clear_value v3
    extract_lets +onlyGivenNames v5
    try clear_value v5
    refine Goes.ite ?_ ?_
    · refine Goes.done ?_
      with_reducible refine Onward.trans ?_ (State.bump_onward _ _)
      assumption
    · extract_lets +onlyGivenNames v7
      try clear_value v7
      split
      · refine Goes.done ?_
        with_reducible refine Onward.trans ?_ (State.bump_onward _ _)
        assumption
      · extract_lets +onlyGivenNames v9
        try clear_value v9
        refine Goes.ite ?_ ?_
        · refine Goes.done ?_
          with_reducible refine Onward.trans ?_ (State.bump_onward _ _)
          assumption
        · extract_lets +onlyGivenNames v11
          try clear_value v11
          refine Goes.ite ?_ ?_
          · refine Goes.done ?_
            with_reducible refine Onward.trans ?_ (State.wakeLull_onward _)
            with_reducible refine Onward.trans ?_ (State.newHello_onward _ _ _ _ _)
            assumption
          · split
            refine Goes.done ?_
            with_reducible refine Onward.trans ?_ (State.refuseHello_onward _ _ _ _ _ _)
            refine Onward.trans ?_ (State.drawFree_onward_eq (by assumption))
            assumption

theorem execTlsHandshake_onward (t : Nat) (h : TlsHello) (s : State) : Goes (State.advance s t) (execTlsHandshake t h s) := by
  unfold execTlsHandshake
  extract_lets +onlyGivenNames v1
  have h1 : Onward (s.advance t) v1 := by
    subst v1
    exact Onward.refl _
  try clear_value v1
  refine Goes.ite ?_ ?_
  · refine Goes.done ?_
    assumption
  · split
    · refine Goes.done ?_
      with_reducible refine Onward.trans ?_ (State.bump_onward _ _)
      assumption
    · refine Goes.ite ?_ ?_
      · refine Goes.done ?_
        with_reducible refine Onward.trans ?_ (State.bump_onward _ _)
        assumption
      · split
        · refine Goes.done ?_
          with_reducible refine Onward.trans ?_ (State.wakeLull_onward _)
          with_reducible refine Onward.trans ?_ (State.emitOn_onward _ _ _)
          with_reducible refine Onward.trans ?_ (State.bump_onward _ _)
          assumption
        · split
          extract_lets +onlyGivenNames v7
          try clear_value v7
          extract_lets +onlyGivenNames v8
          try clear_value v8
          extract_lets +onlyGivenNames v9
          try clear_value v9
          extract_lets +onlyGivenNames v10
          try clear_value v10
          extract_lets +onlyGivenNames v11
          have h11 : Onward (s.advance t) v11 := by
            subst v11
            refine Onward.upd ?_ rfl
            refine Onward.trans ?_ (State.newSid_onward_eq (by assumption))
            refine Onward.trans ?_ (State.makeRoom_onward_eq (by assumption))
            assumption
          try clear_value v11
          refine Goes.done ?_
          with_reducible refine Onward.trans ?_ (State.wakeLull_onward _)
          with_reducible refine Onward.trans ?_ (State.emitOn_onward _ _ _)
          with_reducible refine Onward.trans ?_ (State.bump_onward _ _)
          with_reducible refine Onward.trans ?_ (State.touch_onward _ _)
          assumption

theorem execHalfOpenTimeout_onward (t : Nat) (sid : Nat) (s : State) : Goes (State.advance s t) (execHalfOpenTimeout t sid s) := by
  unfold execHalfOpenTimeout
  extract_lets +onlyGivenNames v1
  have h1 : Onward (s.advance t) v1 := by
    subst v1
    exact Onward.refl _
  try clear_value v1
  split
  · refine Goes.ite ?_ ?_
    · refine Goes.done ?_
      with_reducible refine Onward.trans ?_ (State.dropSession_onward _ _)
      assumption
    · refine Goes.done ?_
      assumption
  · refine Goes.done ?_
    assumption

theorem execSessionLossTimeout_onward (t : Nat) (sid : Nat) (s : State) : Goes (State.advance s t) (execSessionLossTimeout t sid s) := by
  unfold execSessionLossTimeout
  extract_lets +onlyGivenNames v1
  have h1 : Onward (s.advance t) v1 := by
    subst v1
    exact Onward.refl _
  try clear_value v1
  split
  · refine Goes.ite ?_ ?_
    · refine State.afterReply_onward ?_
      with_reducible refine Onward.trans ?_ (State.loseSession_onward _ _)
      assumption
    · refine Goes.done ?_
      assumption
  · refine Goes.done ?_
    assumption

theorem execIdleTimeout_onward (t : Nat) (sid : Nat) (s : State) : Goes (State.advance s t) (execIdleTimeout t sid s) := by
  unfold execIdleTimeout
  extract_lets +onlyGivenNames v1
  have h1 : Onward (s.advance t) v1 := by
    subst v1
    exact Onward.refl _
  try clear_value v1
  split
  · refine Goes.ite ?_ ?_
    · refine State.afterReply_onward ?_
      with_reducible refine Onward.trans ?_ (State.closeSession_onward _ _ _ _)
      assumption
    · refine Goes.done ?_
      assumption
  · refine Goes.done ?_
    assumption

theorem execClosingTimeout_onward (t : Nat) (sid : Nat) (s : State) : Goes (State.advance s t) (execClosingTimeout t sid s) := by
  unfold execClosingTimeout
  extract_lets +onlyGivenNames v1
  have h1 : Onward (s.advance t) v1 := by
    subst v1
    exact Onward.refl _
  try clear_value v1
  split
  · split
    · refine Goes.ite ?_ ?_
      · refine Goes.done ?_
        with_reducible refine Onward.trans ?_ (State.dropSession_onward _ _)
        assumption
      · refine Goes.done ?_
        assumption
    · refine Goes.done ?_
      assumption
  · refine Goes.done ?_
    assumption

theorem execV1ConnectionClose_onward (t : Nat) (sid : Nat) (s : State) : Goes (State.advance s t) (execV1ConnectionClose t sid s) := by
  unfold execV1ConnectionClose
  extract_lets +onlyGivenNames v1
  have h1 : Onward (s.advance t) v1 := by
    subst v1
    exact Onward.refl _
  try clear_value v1
  split
  · refine Goes.ite ?_ ?_
    · refine Goes.done ?_
      assumption
    · refine Goes.ite ?_ ?_
      · refine State.afterReply_onward ?_
        with_reducible refine Onward.trans ?_ (State.loseSession_onward _ _)
        assumption
      · refine Goes.done ?_
        with_reducible refine Onward.trans ?_ (State.dropSession_onward _ _)
        assumption
  · refine Goes.done ?_
    assumption

theorem execClose_onward (t : Nat) (rx : Rx) (reason : Nat) (detail : Nat) (s : State) : Goes (State.advance s t) (execClose t rx reason detail s) := by
  unfold execClose
  extract_lets +onlyGivenNames v1
  have h1 : Onward (s.advance t) v1 := by
    subst v1
    exact Onward.refl _
  try clear_value v1
  extract_lets +onlyGivenNames v2
  try clear_value v2
  split
  · refine Goes.done ?_
    refine Onward.trans ?_ (State.rxPacket_onward_eq (by assumption))
    assumption
  · split
    · refine Goes.done ?_
      refine Onward.trans ?_ (State.rxPacket_onward_eq (by assumption))
      assumption
    · refine Goes.ite ?_ ?_
      · refine Goes.done ?_
        with_reducible refine Onward.trans ?_ (State.sendAck_onward _ _ _)
        refine Onward.trans ?_ (State.rxPacket_onward_eq (by assumption))
        assumption
      · extract_lets +onlyGivenNames v4
        have h4 : Onward (s.advance t) v4 := by
          subst v4
          refine Onward.ite ?_ ?_
          · with_reducible refine Onward.trans ?_ (State.laceStop_onward _)
            refine Onward.trans ?_ (State.rxPacket_onward_eq (by assumption))
            assumption
          · refine Onward.trans ?_ (State.rxPacket_onward_eq (by assumption))
            assumption
        try clear_value v4
        extract_lets +onlyGivenNames v6
        have h6 : Onward (s.advance t) v6 := by
          subst v6
          refine Onward.ite ?_ ?_
          · with_reducible refine Onward.trans ?_ (State.event_onward _ _ _)
            assumption
          · assumption
        try clear_value v6
        extract_lets +onlyGivenNames v8
        have h8 : Onward (s.advance t) v8 := by
          subst v8
          with_reducible refine Onward.trans ?_ (State.sendAck_onward _ _ _)
          with_reducible refine Onward.trans ?_ (State.endSessionCmds_onward _ _)
          assumption
        try clear_value v8
        extract_lets +onlyGivenNames v11
        try clear_value v11
        extract_lets +onlyGivenNames v12
        have h12 : Onward (s.advance t) v12 := by
          subst v12
          refine Onward.upd ?_ rfl
          assumption
        try clear_value v12
        extract_lets +onlyGivenNames v13
        have h13 : Onward (s.advance t) v13 := by
          subst v13
          with_reducible refine Onward.trans ?_ (State.onSession_onward _ _ _)
          assumption
        try clear_value v13
        refine State.afterReply_onward ?_
        split
        · with_reducible refine Onward.trans ?_ (State.noteMember_onward _ _)
          assumption
        · assumption

theorem State.ackPackets_onward (s : State) (sid : Nat) (a : AckPkt) (l : List (Nat × Nat)) : Onward s (State.ackPackets s sid a l) := by
  unfold State.ackPackets
  split
  · exact Onward.refl _
  · extract_lets +onlyGivenNames v1
    try clear_value v1
    extract_lets +onlyGivenNames v2
    try clear_value v2
    extract_lets +onlyGivenNames v3
    try clear_value v3
    extract_lets +onlyGivenNames v4
    try clear_value v4
    extract_lets +onlyGivenNames v5
    try clear_value v5
    extract_lets +onlyGivenNames v6
    try clear_value v6
    extract_lets +onlyGivenNames v7
    try clear_value v7
    extract_lets +onlyGivenNames v8
    try clear_value v8
    extract_lets +onlyGivenNames v9
    try clear_value v9
    extract_lets +onlyGivenNames v10
    have h10 : Onward s v10 := by
      subst v10
      with_reducible refine Onward.trans ?_ (State.lose_onward _ _ _)
      with_reducible refine Onward.trans ?_ (State.setSession_onward _ _)
      exact Onward.refl _
    try clear_value v10
    split
    · with_reducible refine Onward.trans ?_ (State.sendReleases_onward _ _)
      with_reducible refine Onward.trans ?_ (State.pump_onward _ _ _)
      assumption
    · assumption

theorem State.release_onward (s : State) (sid : Nat) (r : Nat × Nat) : Onward s (State.release s sid r) := by
  unfold State.release
  split
  · exact Onward.refl _
  · split
    · with_reducible refine Onward.trans ?_ (State.bump_onward _ _)
      exact Onward.refl _
    · refine Onward.ite ?_ ?_
      · with_reducible refine Onward.trans ?_ (State.bump_onward _ _)
        exact Onward.refl _
      · refine Onward.ite ?_ ?_
        · with_reducible refine Onward.trans ?_ (State.bump_onward _ _)
          exact Onward.refl _
        · with_reducible refine Onward.trans ?_ (State.setSession_onward _ _)
          exact Onward.refl _

theorem State.resumeReplies_onward (s : State) (sid : Nat) : Onward s (State.resumeReplies s sid) := by
  unfold State.resumeReplies
  refine Onward.trans ?_ (Onward.foldl (fun z1 y1 => ?_) _ _)
  · exact Onward.refl _
  · with_reducible refine Onward.trans ?_ (State.sendReply_onward _ _ _ _)
    exact Onward.refl _

theorem execAck_onward (t : Nat) (rx : Rx) (a : AckPkt) (s : State) : Goes (State.advance s t) (execAck t rx a s) := by
  unfold execAck
  extract_lets +onlyGivenNames v1
  have h1 : Onward (s.advance t) v1 := by
    subst v1
    exact Onward.refl _
  try clear_value v1
  split
  · refine Goes.done ?_
    refine Onward.trans ?_ (State.rxPacket_onward_eq (by assumption))
    assumption
  · split
    · refine Goes.done ?_
      refine Onward.trans ?_ (State.rxPacket_onward_eq (by assumption))
      assumption
    · split
      · refine Goes.done ?_
        with_reducible refine Onward.trans ?_ (State.bump_onward _ _)
        refine Onward.trans ?_ (State.rxPacket_onward_eq (by assumption))
        assumption
      · extract_lets +onlyGivenNames v3
        have h3 : Onward (s.advance t) v3 := by
          subst v3
          with_reducible refine Onward.trans ?_ (State.ackPackets_onward _ _ _ _)
          refine Onward.trans ?_ (State.rxPacket_onward_eq (by assumption))
          assumption
        try clear_value v3
        refine Goes.ite ?_ ?_
        · refine Goes.ite ?_ ?_
          · refine Goes.done ?_
            with_reducible refine Onward.trans ?_ (State.dropSession_onward _ _)
            assumption
          · refine Goes.done ?_
            assumption
        · extract_lets +onlyGivenNames v6
          have h6 : Onward (s.advance t) v6 := by
            subst v6
            with_reducible refine Onward.trans ?_ (State.onSession_onward _ _ _)
            assumption
          try clear_value v6
          extract_lets +onlyGivenNames v8
          have h8 : Onward (s.advance t) v8 := by
            subst v8
            with_reducible refine Onward.trans ?_ (State.pump_onward _ _ _)
            assumption
          try clear_value v8
          extract_lets +onlyGivenNames v10
          have h10 : Onward (s.advance t) v10 := by
            subst v10
            split
            · with_reducible refine Onward.trans ?_ (State.dispatchAll_onward _ _)
              assumption
            · assumption
          try clear_value v10
          extract_lets +onlyGivenNames v12
          have h12 : Onward (s.advance t) v12 := by
            subst v12
            refine Onward.ite ?_ ?_
            · refine Onward.trans ?_ (Onward.foldl (fun z13 y13 => ?_) _ _)
              · assumption
              · with_reducible refine Onward.trans ?_ (State.release_onward _ _ _)
                exact Onward.refl _
            · assumption
          try clear_value v12
          refine State.afterReply_onward ?_
          with_reducible refine Onward.trans ?_ (State.ackIfDue_onward _ _)
          with_reducible refine Onward.trans ?_ (State.resumeReplies_onward _ _)
          assumption

theorem execAckDelayExpiry_onward (t : Nat) (sid : Nat) (s : State) : Goes (State.advance s t) (execAckDelayExpiry t sid s) := by
  unfold execAckDelayExpiry
  extract_lets +onlyGivenNames v1
  have h1 : Onward (s.advance t) v1 := by
    subst v1
    exact Onward.refl _
  try clear_value v1
  split
  · refine Goes.ite ?_ ?_
    · refine State.afterReply_onward ?_
      with_reducible refine Onward.trans ?_ (State.sendAck_onward _ _ _)
      assumption
    · refine Goes.done ?_
      assumption
  · refine Goes.done ?_
    assumption

theorem execNak_onward (t : Nat) (rx : Rx) (n : NakPkt) (s : State) : Goes (State.advance s t) (execNak t rx n s) := by
  unfold execNak
  extract_lets +onlyGivenNames v1
  have h1 : Onward (s.advance t) v1 := by
    subst v1
    exact Onward.refl _
  try clear_value v1
  split
  · refine Goes.done ?_
    refine Onward.trans ?_ (State.rxPacket_onward_eq (by assumption))
    assumption
  · split
    · refine Goes.done ?_
      refine Onward.trans ?_ (State.rxPacket_onward_eq (by assumption))
      assumption
    · refine Goes.ite ?_ ?_
      · refine Goes.ite ?_ ?_
        · refine Goes.done ?_
          with_reducible refine Onward.trans ?_ (State.bump_onward _ _)
          refine Onward.trans ?_ (State.rxPacket_onward_eq (by assumption))
          assumption
        · refine Goes.ite ?_ ?_
          · refine Goes.done ?_
            refine Onward.trans ?_ (State.rxPacket_onward_eq (by assumption))
            assumption
          · refine State.afterReply_onward ?_
            with_reducible refine Onward.trans ?_ (State.lose_onward _ _ _)
            refine Onward.trans ?_ (State.rxPacket_onward_eq (by assumption))
            assumption
      · refine Goes.ite ?_ ?_
        · refine Goes.done ?_
          with_reducible refine Onward.trans ?_ (State.bump_onward _ _)
          refine Onward.trans ?_ (State.rxPacket_onward_eq (by assumption))
          assumption
        · refine Goes.done ?_
          with_reducible refine Onward.trans ?_ (State.addTo_onward _ _ _)
          refine Onward.trans ?_ (State.rxPacket_onward_eq (by assumption))
          assumption

theorem execPtoExpiry_onward (t : Nat) (sid : Nat) (path : Nat) (s : State) : Goes (State.advance s t) (execPtoExpiry t sid path s) := by
  unfold execPtoExpiry
  extract_lets +onlyGivenNames v1
  have h1 : Onward (s.advance t) v1 := by
    subst v1
    exact Onward.refl _
  try clear_value v1
  split
  · refine Goes.done ?_
    assumption
  · split
    · refine Goes.ite ?_ ?_
      · extract_lets +onlyGivenNames v2
        have h2 : Onward (s.advance t) v2 := by
          subst v2
          with_reducible refine Onward.trans ?_ (State.onSession_onward _ _ _)
          assumption
        try clear_value v2
        refine Goes.ite ?_ ?_
        · refine State.afterReply_onward ?_
          with_reducible refine Onward.trans ?_ (State.pathFail_onward _ _ _ _)
          assumption
        · refine State.afterReply_onward ?_
          with_reducible refine Onward.trans ?_ (State.lose_onward _ _ _)
          assumption
      · refine Goes.done ?_
        assumption
    · refine Goes.done ?_
      assumption

theorem execCongestionUpdate_onward (t : Nat) (sid : Nat) (path : Nat) (s : State) : Goes (State.advance s t) (execCongestionUpdate t sid path s) := by
  unfold execCongestionUpdate
  extract_lets +onlyGivenNames v1
  have h1 : Onward (s.advance t) v1 := by
    subst v1
    exact Onward.refl _
  try clear_value v1
  split
  · refine Goes.done ?_
    assumption
  · split
    · refine Goes.done ?_
      assumption
    · refine Goes.ite ?_ ?_
      · refine Goes.done ?_
        assumption
      · extract_lets +onlyGivenNames v2
        try clear_value v2
        extract_lets +onlyGivenNames v3
        try clear_value v3
        split
        extract_lets +onlyGivenNames v4
        have h4 : Onward (s.advance t) v4 := by
          subst v4
          with_reducible refine Onward.trans ?_ (State.onSession_onward _ _ _)
          assumption
        try clear_value v4
        refine Goes.done ?_
        with_reducible refine Onward.trans ?_ (State.pump_onward _ _ _)
        assumption

theorem State.noteHeld_onward (s : State) (sid : Nat) (tag : Nat) : Onward s (State.noteHeld s sid tag) := by
  unfold State.noteHeld
  split
  · exact Onward.refl _
  · refine Onward.ite ?_ ?_
    · refine Onward.ite ?_ ?_
      · exact Onward.refl _
      · with_reducible refine Onward.trans ?_ (State.openHeld_onward _ _ _)
        exact Onward.refl _
    · with_reducible refine Onward.trans ?_ (State.closeHeld_onward _ _)
      exact Onward.refl _

theorem State.nakData_onward (s : State) (rx : Rx) (reason : Nat) (tag : Nat) (inc : Nat) (off : Nat) : Onward s (State.nakData s rx reason tag inc off) := by
  unfold State.nakData
  with_reducible refine Onward.trans ?_ (State.bump_onward _ _)
  with_reducible refine Onward.trans ?_ (State.sendNow_onward _ _ _ _)
  exact Onward.refl _

theorem State.takeData_onward (s : State) (rx : Rx) (a2 : Session) (tag : Nat) (inc : Nat) (off : Nat) (b : Bytes) : Onward s (State.takeData s rx a2 tag inc off b) := by
  unfold State.takeData
  refine Onward.ite ?_ ?_
  · with_reducible refine Onward.trans ?_ (State.bump_onward _ _)
    exact Onward.refl _
  · refine Onward.ite ?_ ?_
    · with_reducible refine Onward.trans ?_ (State.nakData_onward _ _ _ _ _ _)
      exact Onward.refl _
    · extract_lets +onlyGivenNames v3
      try clear_value v3
      split
      · with_reducible refine Onward.trans ?_ (State.nakData_onward _ _ _ _ _ _)
        exact Onward.refl _
      · extract_lets +onlyGivenNames v5
        try clear_value v5
        extract_lets +onlyGivenNames v6
        have h6 : Onward s v6 := by
          subst v6
          refine Onward.ite ?_ ?_
          · with_reducible refine Onward.trans ?_ (State.bump_onward _ _)
            exact Onward.refl _
          · exact Onward.refl _
        try clear_value v6
        extract_lets +onlyGivenNames v8
        have h8 : Onward s v8 := by
          subst v8
          with_reducible refine Onward.trans ?_ (State.onCmd_onward _ _ _ _)
          assumption
        try clear_value v8
        with_reducible refine Onward.trans ?_ (State.noteHeld_onward _ _ _)
        assumption

theorem execData_onward (t : Nat) (rx : Rx) (tag : Nat) (inc : Nat) (off : Nat) (payload : Bytes) (s : State) : Goes (State.advance s t) (execData t rx tag inc off payload s) := by
  unfold execData
  extract_lets +onlyGivenNames v1
  have h1 : Onward (s.advance t) v1 := by
    subst v1
    exact Onward.refl _
  try clear_value v1
  split
  · refine Goes.done ?_
    refine Onward.trans ?_ (State.rxPacket_onward_eq (by assumption))
    assumption
  · split
    · refine Goes.done ?_
      refine Onward.trans ?_ (State.rxPacket_onward_eq (by assumption))
      assumption
    · extract_lets +onlyGivenNames v2
      have h2 : Onward (s.advance t) v2 := by
        subst v2
        refine Onward.ite ?_ ?_
        · with_reducible refine Onward.trans ?_ (State.bump_onward _ _)
          refine Onward.trans ?_ (State.rxPacket_onward_eq (by assumption))
          assumption
        · with_reducible refine Onward.trans ?_ (State.takeData_onward _ _ _ _ _ _ _)
          refine Onward.trans ?_ (State.rxPacket_onward_eq (by assumption))
          assumption
      try clear_value v2
      refine Goes.done ?_
      with_reducible refine Onward.trans ?_ (State.ackIfDue_onward _ _)
      assumption

theorem execWindowDrain_onward (t : Nat) (sid : Nat) (tag : Nat) (s : State) : Goes (State.advance s t) (execWindowDrain t sid tag s) := by
  unfold execWindowDrain
  extract_lets +onlyGivenNames v1
  have h1 : Onward (s.advance t) v1 := by
    subst v1
    exact Onward.refl _
  try clear_value v1
  split
  · refine Goes.done ?_
    assumption
  · split
    · refine Goes.done ?_
      assumption
    · refine Goes.ite ?_ ?_
      · refine Goes.done ?_
        assumption
      · extract_lets +onlyGivenNames v2
        try clear_value v2
        extract_lets +onlyGivenNames v3
        have h3 : Onward (s.advance t) v3 := by
          subst v3
          refine Onward.upd ?_ rfl
          assumption
        try clear_value v3
        extract_lets +onlyGivenNames v4
        have h4 : Onward (s.advance t) v4 := by
          subst v4
          with_reducible refine Onward.trans ?_ (State.onCmd_onward _ _ _ _)
          assumption
        try clear_value v4
        split
        · refine Goes.done ?_
          assumption
        · refine Goes.ite ?_ ?_
          · refine State.afterReply_onward ?_
            with_reducible refine Onward.trans ?_ (State.noteHeld_onward _ _ _)
            with_reducible refine Onward.trans ?_ (State.feed_onward _ _ _)
            assumption
          · refine Goes.ite ?_ ?_
            · refine State.afterReply_onward ?_
              with_reducible refine Onward.trans ?_ (State.putSlice_onward _ _ _)
              assumption
            · refine Goes.done ?_
              with_reducible refine Onward.trans ?_ (State.noteHeld_onward _ _ _)
              assumption

theorem execDataIdleTimeout_onward (t : Nat) (sid : Nat) (tag : Nat) (s : State) : Goes (State.advance s t) (execDataIdleTimeout t sid tag s) := by
  unfold execDataIdleTimeout
  extract_lets +onlyGivenNames v1
  have h1 : Onward (s.advance t) v1 := by
    subst v1
    exact Onward.refl _
  try clear_value v1
  split
  · refine Goes.done ?_
    assumption
  · refine Goes.ite ?_ ?_
    · refine State.afterReply_onward ?_
      with_reducible refine Onward.trans ?_ (State.abort_onward _ _ _ _ _)
      assumption
    · refine Goes.done ?_
      assumption

theorem execGrantWindow_onward (t : Nat) (sid : Nat) (tag : Nat) (lens : List Nat) (s : State) : Goes (State.advance s t) (execGrantWindow t sid tag lens s) := by
  unfold execGrantWindow
  extract_lets +onlyGivenNames v1
  have h1 : Onward (s.advance t) v1 := by
    subst v1
    exact Onward.refl _
  try clear_value v1
  split
  · refine Goes.done ?_
    assumption
  · split
    · refine Goes.done ?_
      assumption
    · extract_lets +onlyGivenNames v2
      try clear_value v2
      extract_lets +onlyGivenNames v3
      try clear_value v3
      extract_lets +onlyGivenNames v4
      have h4 : Onward (s.advance t) v4 := by
        subst v4
        with_reducible refine Onward.trans ?_ (State.rawRoom_onward _ _)
        assumption
      try clear_value v4
      refine Goes.ite ?_ ?_
      · refine Goes.done ?_
        assumption
      · extract_lets +onlyGivenNames v6
        have h6 : Onward (s.advance t) v6 := by
          subst v6
          assumption
        try clear_value v6
        extract_lets +onlyGivenNames v7
        try clear_value v7
        extract_lets +onlyGivenNames v8
        try clear_value v8
        extract_lets +onlyGivenNames v9
        have h9 : Onward (s.advance t) v9 := by
          subst v9
          refine Onward.upd ?_ rfl
          assumption
        try clear_value v9
        extract_lets +onlyGivenNames v10
        have h10 : Onward (s.advance t) v10 := by
          subst v10
          with_reducible refine Onward.trans ?_ (State.onCmd_onward _ _ _ _)
          assumption
        try clear_value v10
        refine Goes.done ?_
        with_reducible refine Onward.trans ?_ (State.noteHeld_onward _ _ _)
        with_reducible refine Onward.trans ?_ (State.send_onward _ _ _ _ _)
        assumption

theorem execReadDataSend_onward (t : Nat) (sid : Nat) (tag : Nat) (s : State) : Goes (State.advance s t) (execReadDataSend t sid tag s) := by
  unfold execReadDataSend
  extract_lets +onlyGivenNames v1
  have h1 : Onward (s.advance t) v1 := by
    subst v1
    exact Onward.refl _
  try clear_value v1
  split
  · split
    · refine State.afterReply_onward ?_
      with_reducible refine Onward.trans ?_ (State.sendReply_onward _ _ _ _)
      assumption
    · refine Goes.done ?_
      assumption
  · refine Goes.done ?_
    assumption

theorem execKeepaliveProbe_onward (t : Nat) (rx : Rx) (stamp : Nat) (s : State) : Goes (State.advance s t) (execKeepaliveProbe t rx stamp s) := by
  unfold execKeepaliveProbe
  extract_lets +onlyGivenNames v1
  have h1 : Onward (s.advance t) v1 := by
    subst v1
    exact Onward.refl _
  try clear_value v1
  split
  · refine Goes.done ?_
    refine Onward.trans ?_ (State.rxPacket_onward_eq (by assumption))
    assumption
  · split
    · refine Goes.done ?_
      refine Onward.trans ?_ (State.rxPacket_onward_eq (by assumption))
      assumption
    · refine Goes.ite ?_ ?_
      · refine Goes.done ?_
        with_reducible refine Onward.trans ?_ (State.sendNow_onward _ _ _ _)
        refine Onward.trans ?_ (State.rxPacket_onward_eq (by assumption))
        assumption
      · refine Goes.ite ?_ ?_
        · refine Goes.done ?_
          refine Onward.trans ?_ (State.rxPacket_onward_eq (by assumption))
          assumption
        · extract_lets +onlyGivenNames v3
          try clear_value v3
          extract_lets +onlyGivenNames v4
          have h4 : Onward (s.advance t) v4 := by
            subst v4
            with_reducible refine Onward.trans ?_ (State.onSession_onward _ _ _)
            refine Onward.trans ?_ (State.rxPacket_onward_eq (by assumption))
            assumption
          try clear_value v4
          split
          refine Goes.done ?_
          with_reducible refine Onward.trans ?_ (State.sendNow_onward _ _ _ _)
          with_reducible refine Onward.trans ?_ (State.sendNow_onward _ _ _ _)
          refine Onward.trans ?_ (State.drawFree_onward_eq (by assumption))
          assumption

theorem execKeepaliveEcho_onward (t : Nat) (rx : Rx) (stamp : Nat) (s : State) : Goes (State.advance s t) (execKeepaliveEcho t rx stamp s) := by
  unfold execKeepaliveEcho
  extract_lets +onlyGivenNames v1
  have h1 : Onward (s.advance t) v1 := by
    subst v1
    exact Onward.refl _
  try clear_value v1
  extract_lets +onlyGivenNames v2
  try clear_value v2
  split
  · refine Goes.done ?_
    refine Onward.trans ?_ (State.rxPacket_onward_eq (by assumption))
    assumption
  · split
    · refine Goes.ite ?_ ?_
      · refine Goes.done ?_
        refine Onward.trans ?_ (State.rxPacket_onward_eq (by assumption))
        assumption
      · refine State.afterReply_onward ?_
        with_reducible refine Onward.trans ?_ (State.pathUp_onward _ _ _)
        refine Onward.trans ?_ (State.rxPacket_onward_eq (by assumption))
        assumption
    · refine Goes.done ?_
      refine Onward.trans ?_ (State.rxPacket_onward_eq (by assumption))
      assumption

theorem execKeepaliveInterval_onward (t : Nat) (sid : Nat) (path : Nat) (s : State) : Goes (State.advance s t) (execKeepaliveInterval t sid path s) := by
  unfold execKeepaliveInterval
  extract_lets +onlyGivenNames v1
  have h1 : Onward (s.advance t) v1 := by
    subst v1
    exact Onward.refl _
  try clear_value v1
  split
  · refine Goes.done ?_
    assumption
  · extract_lets +onlyGivenNames v2
    try clear_value v2
    refine Goes.ite ?_ ?_
    · split
      refine State.afterReply_onward ?_
      with_reducible refine Onward.trans ?_ (State.sendNow_onward _ _ _ _)
      refine Onward.trans ?_ (State.drawFree_onward_eq (by assumption))
      assumption
    · refine Goes.done ?_
      assumption

theorem execPathDeadTimeout_onward (t : Nat) (sid : Nat) (path : Nat) (s : State) : Goes (State.advance s t) (execPathDeadTimeout t sid path s) := by
  unfold execPathDeadTimeout
  extract_lets +onlyGivenNames v1
  have h1 : Onward (s.advance t) v1 := by
    subst v1
    exact Onward.refl _
  try clear_value v1
  split
  · refine Goes.done ?_
    assumption
  · split
    · refine Goes.ite ?_ ?_
      · refine State.afterReply_onward ?_
        with_reducible refine Onward.trans ?_ (State.pathFail_onward _ _ _ _)
        assumption
      · refine Goes.done ?_
        assumption
    · refine Goes.done ?_
      assumption

theorem State.openAsHost_onward (s : State) (a : AcceptPkt) (h : HelloOut) (k : Psk) : Onward s (State.openAsHost s a h k) := by
  unfold State.openAsHost
  extract_lets +onlyGivenNames v1
  try clear_value v1
  extract_lets +onlyGivenNames v2
  try clear_value v2
  extract_lets +onlyGivenNames v3
  try clear_value v3
  extract_lets +onlyGivenNames v4
  try clear_value v4
  extract_lets +onlyGivenNames v5
  have h5 : Onward s v5 := by
    subst v5
    refine Onward.upd ?_ rfl
    exact Onward.refl _
  try clear_value v5
  refine Onward.ite ?_ ?_
  · assumption
  · refine Onward.ite ?_ ?_
    · assumption
    · refine Onward.ite ?_ ?_
      · with_reducible refine Onward.trans ?_ (State.bump_onward _ _)
        assumption
      · extract_lets +onlyGivenNames v7
        try clear_value v7
        extract_lets +onlyGivenNames v8
        try clear_value v8
        extract_lets +onlyGivenNames v9
        try clear_value v9
        extract_lets +onlyGivenNames v10
        try clear_value v10
        extract_lets +onlyGivenNames v11
        have h11 : Onward s v11 := by
          subst v11
          refine Onward.upd ?_ rfl
          assumption
        try clear_value v11
        with_reducible refine Onward.trans ?_ (State.askNamespaces_onward _ _)
        with_reducible refine Onward.trans ?_ (State.dispatchAll_onward _ _)
        with_reducible refine Onward.trans ?_ (State.noteMember_onward _ _)
        with_reducible refine Onward.trans ?_ (State.touch_onward _ _)
        with_reducible refine Onward.trans ?_ (State.bump_onward _ _)
        assumption

theorem execPeerSessionAccept_onward (t : Nat) (a : AcceptPkt) (s : State) : Goes (State.advance s t) (execPeerSessionAccept t a s) := by
  unfold execPeerSessionAccept
  extract_lets +onlyGivenNames v1
  have h1 : Onward (s.advance t) v1 := by
    subst v1
    exact Onward.refl _
  try clear_value v1
  extract_lets +onlyGivenNames v2
  have h2 : Onward (s.advance t) v2 := by
    subst v2
    with_reducible refine Onward.trans ?_ (State.rxFrame_onward _ _ _)
    assumption
  try clear_value v2
  extract_lets +onlyGivenNames v4
  try clear_value v4
  refine Goes.ite ?_ ?_
  · refine Goes.done ?_
    with_reducible refine Onward.trans ?_ (State.bump_onward _ _)
    assumption
  · split
    · refine Goes.ite ?_ ?_
      · refine State.afterReply_onward ?_
        with_reducible refine Onward.trans ?_ (State.openAsHost_onward _ _ _ _)
        assumption
      · refine Goes.ite ?_ ?_
        · refine Goes.done ?_
          with_reducible refine Onward.trans ?_ (State.bump_onward _ _)
          assumption
        · extract_lets +onlyGivenNames v8
          try clear_value v8
          extract_lets +onlyGivenNames v9
          try clear_value v9
          refine Goes.done ?_
          refine Onward.upd ?_ rfl
          assumption
    · refine Goes.done ?_
      assumption

theorem execPeerGrant_onward (t : Nat) (rx : Rx) (tag : Nat) (inc : Nat) (windows : List (Nat × Nat)) (s : State) : Goes (State.advance s t) (execPeerGrant t rx tag inc windows s) := by
  unfold execPeerGrant
  extract_lets +onlyGivenNames v1
  have h1 : Onward (s.advance t) v1 := by
    subst v1
    exact Onward.refl _
  try clear_value v1
  split
  · refine Goes.done ?_
    refine Onward.trans ?_ (State.rxPacket_onward_eq (by assumption))
    assumption
  · extract_lets +onlyGivenNames v2
    have h2 : Onward (s.advance t) v2 := by
      subst v2
      refine Onward.ite ?_ ?_
      · with_reducible refine Onward.trans ?_ (State.bump_onward _ _)
        refine Onward.trans ?_ (State.rxPacket_onward_eq (by assumption))
        assumption
      · split
        · with_reducible refine Onward.trans ?_ (State.bump_onward _ _)
          refine Onward.trans ?_ (State.rxPacket_onward_eq (by assumption))
          assumption
        · refine Onward.ite ?_ ?_
          · with_reducible refine Onward.trans ?_ (State.bump_onward _ _)
            refine Onward.trans ?_ (State.rxPacket_onward_eq (by assumption))
            assumption
          · refine Onward.ite ?_ ?_
            · refine Onward.trans ?_ (State.rxPacket_onward_eq (by assumption))
              assumption
            · extract_lets +onlyGivenNames v6
              have h6 : Onward (s.advance t) v6 := by
                subst v6
                refine Onward.trans ?_ (Onward.foldl (fun z7 y7 => ?_) _ _)
                · refine Onward.trans ?_ (State.rxPacket_onward_eq (by assumption))
                  assumption
                · with_reducible refine Onward.trans ?_ (State.sendData_onward _ _ _ _ _ _ _ _ _)
                  exact Onward.refl _
              try clear_value v6
              with_reducible refine Onward.trans ?_ (State.onMsg_onward _ _ _)
              assumption
    try clear_value v2
    refine Goes.done ?_
    with_reducible refine Onward.trans ?_ (State.ackIfDue_onward _ _)
    assumption

theorem execPeerData_onward (t : Nat) (rx : Rx) (tag : Nat) (inc : Nat) (off : Nat) (payload : Bytes) (last : Bool) (s : State) : Goes (State.advance s t) (execPeerData t rx tag inc off payload last s) := by
  unfold execPeerData
  extract_lets +onlyGivenNames v1
  have h1 : Onward (s.advance t) v1 := by
    subst v1
    exact Onward.refl _
  try clear_value v1
  split
  · refine Goes.done ?_
    refine Onward.trans ?_ (State.rxPacket_onward_eq (by assumption))
    assumption
  · extract_lets +onlyGivenNames v2
    have h2 : Onward (s.advance t) v2 := by
      subst v2
      split
      · with_reducible refine Onward.trans ?_ (State.bump_onward _ _)
        refine Onward.trans ?_ (State.rxPacket_onward_eq (by assumption))
        assumption
      · refine Onward.ite ?_ ?_
        · with_reducible refine Onward.trans ?_ (State.bump_onward _ _)
          refine Onward.trans ?_ (State.rxPacket_onward_eq (by assumption))
          assumption
        · extract_lets +onlyGivenNames v5
          try clear_value v5
          with_reducible refine Onward.trans ?_ (State.onMsg_onward _ _ _)
          refine Onward.trans ?_ (State.rxPacket_onward_eq (by assumption))
          assumption
    try clear_value v2
    refine Goes.done ?_
    with_reducible refine Onward.trans ?_ (State.ackIfDue_onward _ _)
    assumption

end Sys2Proof.Machine
end

