-- ==== Sys2Proof/Laws/OnwardNand.lean ====
section
/-! SUPPORT. What the operations and meanings of the array, reclaim and recovery do: each only goes onward (Laws/Onward.lean). -/

namespace Sys2Proof.Machine

theorem execNandZqRecal_onward (t : Nat) (temp : Int) (s : State) : Goes (State.advance s t) (execNandZqRecal t temp s) := by
  unfold execNandZqRecal
  extract_lets +onlyGivenNames v1
  have h1 : Onward (s.advance t) v1 := by
    subst v1
    exact Onward.refl _
  try clear_value v1
  extract_lets +onlyGivenNames v2
  try clear_value v2
  refine Goes.done ?_
  refine Onward.ite ?_ ?_
  · refine Onward.upd ?_ rfl
    assumption
  · assumption

theorem State.programStream_onward (a0 : Nat) (a1 : State) (a2 : Nat) : Onward a1 (State.programStream a0 a1 a2) := by
  induction a0 generalizing a1 a2 with
  | zero =>
    rw [State.programStream]
    exact Onward.refl _
  | succ n ih =>
    rw [State.programStream]
    split
    · refine Onward.trans ?_ (ih ..)
      with_reducible refine Onward.trans ?_ (State.programUnit_onward _ _)
      exact Onward.refl _
    · exact Onward.refl _

theorem execProgramComplete_onward (t : Nat) (stream : Nat) (place : UnitPlace) (s : State) : Goes (State.advance s t) (execProgramComplete t stream place s) := by
  unfold execProgramComplete
  extract_lets +onlyGivenNames v1
  have h1 : Onward (s.advance t) v1 := by
    subst v1
    exact Onward.refl _
  try clear_value v1
  extract_lets +onlyGivenNames v2
  try clear_value v2
  refine Goes.ite ?_ ?_
  · extract_lets +onlyGivenNames v3
    have h3 : Onward (s.advance t) v3 := by
      subst v3
      with_reducible refine Onward.trans ?_ (State.issueUnit_onward _ _)
      assumption
    try clear_value v3
    refine State.afterReply_onward ?_
    refine Onward.ite ?_ ?_
    · with_reducible refine Onward.trans ?_ (State.programUnit_onward _ _)
      assumption
    · assumption
  · refine Goes.done ?_
    assumption

theorem State.noteDestFail_onward (s : State) (u : UnitId) : Onward s (State.noteDestFail s u) := by
  unfold State.noteDestFail
  extract_lets +onlyGivenNames v1
  try clear_value v1
  split
  · with_reducible refine Onward.trans ?_ (State.event_onward _ _ _)
    with_reducible refine Onward.trans ?_ (State.bump_onward _ _)
    exact Onward.refl _
  · exact Onward.refl _

theorem execProgramFailure_onward (t : Nat) (unit : UnitId) (s : State) : Goes (State.advance s t) (execProgramFailure t unit s) := by
  unfold execProgramFailure
  extract_lets +onlyGivenNames v1
  have h1 : Onward (s.advance t) v1 := by
    subst v1
    exact Onward.refl _
  try clear_value v1
  refine Goes.ite ?_ ?_
  · refine Goes.done ?_
    assumption
  · extract_lets +onlyGivenNames v2
    have h2 : Onward (s.advance t) v2 := by
      subst v2
      with_reducible refine Onward.trans ?_ (State.issueUnit_onward _ _)
      assumption
    try clear_value v2
    refine Goes.ite ?_ ?_
    · refine State.afterReply_onward ?_
      assumption
    · extract_lets +onlyGivenNames v4
      try clear_value v4
      extract_lets +onlyGivenNames v5
      have h5 : Onward (s.advance t) v5 := by
        subst v5
        with_reducible refine Onward.trans ?_ (State.noteDestFail_onward _ _)
        with_reducible refine Onward.trans ?_ (State.bump_onward _ _)
        assumption
      try clear_value v5
      extract_lets +onlyGivenNames v8
      try clear_value v8
      extract_lets +onlyGivenNames v9
      have h9 : Onward (s.advance t) v9 := by
        subst v9
        refine Onward.upd ?_ rfl
        assumption
      try clear_value v9
      extract_lets +onlyGivenNames v10
      have h10 : Onward (s.advance t) v10 := by
        subst v10
        with_reducible refine Onward.trans ?_ (State.evacuate_onward _ _ _)
        with_reducible refine Onward.trans ?_ (State.useCounter_onward _ _)
        assumption
      try clear_value v10
      extract_lets +onlyGivenNames v13
      have h13 : Onward (s.advance t) v13 := by
        subst v13
        with_reducible refine Onward.trans ?_ (State.force_onward _ _ _ _)
        with_reducible refine Onward.trans ?_ (State.retireBlock_onward _ _ _ _ _)
        assumption
      try clear_value v13
      refine State.afterReply_onward ?_
      with_reducible refine Onward.trans ?_ (State.checkShort_onward _)
      with_reducible refine Onward.trans ?_ (State.settleMoves_onward _)
      with_reducible refine Onward.trans ?_ (State.checkDieBlocks_onward _ _ _)
      assumption

theorem State.erased_onward (s : State) (ds : Nat) (sb : Nat) (a3 : Superblock) : Onward s (State.erased s ds sb a3) := by
  unfold State.erased
  extract_lets +onlyGivenNames v1
  try clear_value v1
  extract_lets +onlyGivenNames v2
  try clear_value v2
  extract_lets +onlyGivenNames v3
  extract_lets +onlyGivenNames v4
  have h4 : Onward s v4 := by
    subst v4
    refine Onward.upd ?_ rfl
    exact Onward.refl _
  extract_lets +onlyGivenNames v5
  try clear_value v5
  extract_lets +onlyGivenNames v6
  have h6 : Onward s v6 := by
    subst v6
    with_reducible refine Onward.trans ?_ (State.journal_onward _ _ _)
    with_reducible refine Onward.trans ?_ (State.addTo_onward _ _ _)
    assumption
  try clear_value v6
  extract_lets +onlyGivenNames v9
  have h9 : Onward s v9 := by
    subst v9
    with_reducible refine Onward.trans ?_ (State.setSb_onward _ _)
    assumption
  try clear_value v9
  with_reducible refine Onward.trans ?_ (State.stirred_onward _)
  with_reducible refine Onward.trans ?_ (State.checkShort_onward _)
  with_reducible refine Onward.trans ?_ (State.slcFollow_onward _)
  with_reducible refine Onward.trans ?_ (State.settleMoves_onward _)
  assumption

theorem execEraseComplete_onward (t : Nat) (ds : Nat) (sb : Nat) (s : State) : Goes (State.advance s t) (execEraseComplete t ds sb s) := by
  unfold execEraseComplete
  extract_lets +onlyGivenNames v1
  have h1 : Onward (s.advance t) v1 := by
    subst v1
    exact Onward.refl _
  try clear_value v1
  split
  · refine Goes.ite ?_ ?_
    · extract_lets +onlyGivenNames v2
      have h2 : Onward (s.advance t) v2 := by
        subst v2
        with_reducible refine Onward.trans ?_ (State.runOps_onward _)
        assumption
      try clear_value v2
      refine State.afterReply_onward ?_
      refine Onward.ite ?_ ?_
      · with_reducible refine Onward.trans ?_ (State.erased_onward _ _ _ _)
        assumption
      · assumption
    · refine Goes.done ?_
      assumption
  · refine Goes.done ?_
    assumption

theorem execEraseFailure_onward (t : Nat) (ds : Nat) (sb : Nat) (slot : Nat) (s : State) : Goes (State.advance s t) (execEraseFailure t ds sb slot s) := by
  unfold execEraseFailure
  extract_lets +onlyGivenNames v1
  have h1 : Onward (s.advance t) v1 := by
    subst v1
    exact Onward.refl _
  try clear_value v1
  split
  · refine Goes.ite ?_ ?_
    · extract_lets +onlyGivenNames v2
      have h2 : Onward (s.advance t) v2 := by
        subst v2
        with_reducible refine Onward.trans ?_ (State.runOps_onward _)
        assumption
      try clear_value v2
      refine State.afterReply_onward ?_
      refine Onward.ite ?_ ?_
      · with_reducible refine Onward.trans ?_ (State.checkDieBlocks_onward _ _ _)
        with_reducible refine Onward.trans ?_ (State.erased_onward _ _ _ _)
        with_reducible refine Onward.trans ?_ (State.retireBlock_onward _ _ _ _ _)
        assumption
      · assumption
    · refine Goes.done ?_
      assumption
  · refine Goes.done ?_
    assumption

theorem execDieReadyTimeout_onward (t : Nat) (ds : Nat) (slot : Nat) (s : State) : Goes (State.advance s t) (execDieReadyTimeout t ds slot s) := by
  unfold execDieReadyTimeout
  extract_lets +onlyGivenNames v1
  have h1 : Onward (s.advance t) v1 := by
    subst v1
    exact Onward.refl _
  try clear_value v1
  refine Goes.ite ?_ ?_
  · refine Goes.done ?_
    assumption
  · extract_lets +onlyGivenNames v2
    try clear_value v2
    extract_lets +onlyGivenNames v3
    try clear_value v3
    extract_lets +onlyGivenNames v4
    have h4 : Onward (s.advance t) v4 := by
      subst v4
      refine Onward.upd ?_ rfl
      assumption
    try clear_value v4
    refine Goes.ite ?_ ?_
    · refine Goes.done ?_
      assumption
    · refine State.afterReply_onward ?_
      with_reducible refine Onward.trans ?_ (State.checkShort_onward _)
      with_reducible refine Onward.trans ?_ (State.settleMoves_onward _)
      with_reducible refine Onward.trans ?_ (State.retireDie_onward _ _ _ _)
      assumption

theorem execCodewordRead_onward (t : Nat) (ds : Nat) (sb : Nat) (cw : Nat) (outcome : ReadOutcome) (tagFails : Nat) (s : State) : Goes (State.advance s t) (execCodewordRead t ds sb cw outcome tagFails s) := by
  unfold execCodewordRead
  extract_lets +onlyGivenNames v1
  have h1 : Onward (s.advance t) v1 := by
    subst v1
    exact Onward.refl _
  try clear_value v1
  refine Goes.ite ?_ ?_
  · refine Goes.done ?_
    assumption
  · refine State.afterReply_onward ?_
    with_reducible refine Onward.trans ?_ (State.runOps_onward _)
    with_reducible refine Onward.trans ?_ (State.giveOp_onward _ _)
    assumption

theorem execSbProgressAppend_onward (t : Nat) (ds : Nat) (sb : Nat) (s : State) : Goes (State.advance s t) (execSbProgressAppend t ds sb s) := by
  unfold execSbProgressAppend
  extract_lets +onlyGivenNames v1
  have h1 : Onward (s.advance t) v1 := by
    subst v1
    exact Onward.refl _
  try clear_value v1
  split
  · refine Goes.done ?_
    assumption
  · extract_lets +onlyGivenNames v2
    try clear_value v2
    refine Goes.ite ?_ ?_
    · extract_lets +onlyGivenNames v3
      have h3 : Onward (s.advance t) v3 := by
        subst v3
        with_reducible refine Onward.trans ?_ (State.setSb_onward _ _)
        assumption
      try clear_value v3
      refine Goes.done ?_
      with_reducible refine Onward.trans ?_ (State.journal_onward _ _ _)
      assumption
    · refine Goes.done ?_
      assumption

theorem execDramEccCorrected_onward (t : Nat) (addr : Nat) (dev : Nat) (s : State) : Goes (State.advance s t) (execDramEccCorrected t addr dev s) := by
  unfold execDramEccCorrected
  extract_lets +onlyGivenNames v1
  have h1 : Onward (s.advance t) v1 := by
    subst v1
    exact Onward.refl _
  try clear_value v1
  refine Goes.done ?_
  refine Onward.ite ?_ ?_
  · with_reducible refine Onward.trans ?_ (State.event_onward _ _ _)
    with_reducible refine Onward.trans ?_ (State.bump_onward _ _)
    assumption
  · assumption

theorem State.fragDamaged_onward (s : State) (i : StripeId) (n : Nat) : Onward s (State.fragDamaged s i n) := by
  unfold State.fragDamaged
  split
  · with_reducible refine Onward.trans ?_ (State.abort_onward _ _ _ _ _)
    exact Onward.refl _
  · extract_lets +onlyGivenNames v2
    have h2 : Onward s v2 := by
      subst v2
      split
      · with_reducible refine Onward.trans ?_ (State.setFrag_onward _ _)
        exact Onward.refl _
      · exact Onward.refl _
    try clear_value v2
    split
    · with_reducible refine Onward.trans ?_ (State.queueRepair_onward _ _ _ _)
      assumption
    · assumption

theorem execDramEccUncorrectable_onward (t : Nat) (addr : Nat) (dev : Nat) (region : DramRegion) (s : State) : Goes (State.advance s t) (execDramEccUncorrectable t addr dev region s) := by
  unfold execDramEccUncorrectable
  extract_lets +onlyGivenNames v1
  have h1 : Onward (s.advance t) v1 := by
    subst v1
    exact Onward.refl _
  try clear_value v1
  extract_lets +onlyGivenNames v2
  try clear_value v2
  refine Goes.ite ?_ ?_
  · refine Goes.done ?_
    assumption
  · split
    extract_lets +onlyGivenNames v3
    have h3 : Onward (s.advance t) v3 := by
      subst v3
      with_reducible refine Onward.trans ?_ (State.eventEmcy_onward _ _ _ _ _)
      with_reducible refine Onward.trans ?_ (State.bump_onward _ _)
      assumption
    try clear_value v3
    split
    · refine Goes.done ?_
      refine Onward.upd ?_ rfl
      assumption
    · refine Goes.done ?_
      assumption
    · refine Goes.done ?_
      assumption
    · split
      · refine State.afterReply_onward ?_
        refine Onward.ite ?_ ?_
        · assumption
        · with_reducible refine Onward.trans ?_ (State.abort_onward _ _ _ _ _)
          assumption
      · refine Goes.done ?_
        assumption
    · refine State.afterReply_onward ?_
      with_reducible refine Onward.trans ?_ (State.fragDamaged_onward _ _ _)
      assumption
    · refine Goes.done ?_
      with_reducible refine Onward.trans ?_ (State.resetFlush_onward _ _)
      assumption

theorem execDramPatrolScrub_onward (t : Nat) (s : State) : Goes (State.advance s t) (execDramPatrolScrub t s) := by
  unfold execDramPatrolScrub
  extract_lets +onlyGivenNames v1
  have h1 : Onward (s.advance t) v1 := by
    subst v1
    exact Onward.refl _
  try clear_value v1
  refine Goes.done ?_
  refine Onward.ite ?_ ?_
  · refine Onward.upd ?_ rfl
    assumption
  · assumption

theorem execWaMReport_onward (t : Nat) (s : State) : Goes (State.advance s t) (execWaMReport t s) := by
  unfold execWaMReport
  extract_lets +onlyGivenNames v1
  have h1 : Onward (s.advance t) v1 := by
    subst v1
    exact Onward.refl _
  try clear_value v1
  refine Goes.ite ?_ ?_
  · refine Goes.done ?_
    assumption
  · extract_lets +onlyGivenNames v2
    try clear_value v2
    extract_lets +onlyGivenNames v3
    try clear_value v3
    extract_lets +onlyGivenNames v4
    have h4 : Onward (s.advance t) v4 := by
      subst v4
      refine Onward.upd ?_ rfl
      assumption
    try clear_value v4
    split
    · refine Goes.done ?_
      refine Onward.upd ?_ rfl
      assumption
    · split
      refine Goes.done ?_
      refine Onward.upd ?_ rfl
      refine Onward.trans ?_ (State.drawFree_onward_eq (by assumption))
      assumption

theorem execRhoUpdate_onward (t : Nat) (s : State) : Goes (State.advance s t) (execRhoUpdate t s) := by
  unfold execRhoUpdate
  extract_lets +onlyGivenNames v1
  have h1 : Onward (s.advance t) v1 := by
    subst v1
    exact Onward.refl _
  try clear_value v1
  refine Goes.ite ?_ ?_
  · refine Goes.done ?_
    assumption
  · extract_lets +onlyGivenNames v2
    try clear_value v2
    extract_lets +onlyGivenNames v3
    try clear_value v3
    split
    extract_lets +onlyGivenNames v4
    try clear_value v4
    refine Goes.done ?_
    refine Onward.upd ?_ rfl
    refine Onward.trans ?_ (State.drawFree_onward_eq (by assumption))
    assumption

theorem State.discard_onward (s : State) (r : MediaRec) : Onward s (State.discard s r) := by
  unfold State.discard
  split
  · refine Onward.ite ?_ ?_
    · split
      · with_reducible refine Onward.trans ?_ (State.releaseStripe_onward _ _ _)
        with_reducible refine Onward.trans ?_ (State.dropEntry_onward _ _)
        exact Onward.refl _
      · exact Onward.refl _
    · exact Onward.refl _
  · exact Onward.refl _

theorem State.takeVictim_onward (s : State) (a1 : Superblock) : Onward s (State.takeVictim s a1) := by
  unfold State.takeVictim
  with_reducible refine Onward.trans ?_ (State.settleMoves_onward _)
  with_reducible refine Onward.trans ?_ (State.relocate_onward _ _)
  refine Onward.trans ?_ (Onward.foldl (fun z3 y3 => ?_) _ _)
  · exact Onward.refl _
  · with_reducible refine Onward.trans ?_ (State.discard_onward _ _)
    exact Onward.refl _

theorem execGcVictimSelect_onward (t : Nat) (ds : Nat) (s : State) : Goes (State.advance s t) (execGcVictimSelect t ds s) := by
  unfold execGcVictimSelect
  extract_lets +onlyGivenNames v1
  have h1 : Onward (s.advance t) v1 := by
    subst v1
    exact Onward.refl _
  try clear_value v1
  refine Goes.ite ?_ ?_
  · refine Goes.done ?_
    assumption
  · extract_lets +onlyGivenNames v2
    have h2 : Onward (s.advance t) v2 := by
      subst v2
      with_reducible refine Onward.trans ?_ (State.settleMoves_onward _)
      assumption
    try clear_value v2
    extract_lets +onlyGivenNames v4
    try clear_value v4
    refine Goes.ite ?_ ?_
    · refine State.afterReply_onward ?_
      assumption
    · split
      · refine State.afterReply_onward ?_
        with_reducible refine Onward.trans ?_ (State.takeVictim_onward _ _)
        assumption
      · refine State.afterReply_onward ?_
        assumption

theorem execSuperblockErase_onward (t : Nat) (ds : Nat) (sb : Nat) (s : State) : Goes (State.advance s t) (execSuperblockErase t ds sb s) := by
  unfold execSuperblockErase
  extract_lets +onlyGivenNames v1
  have h1 : Onward (s.advance t) v1 := by
    subst v1
    exact Onward.refl _
  try clear_value v1
  split
  · refine Goes.ite ?_ ?_
    · extract_lets +onlyGivenNames v2
      try clear_value v2
      extract_lets +onlyGivenNames v3
      have h3 : Onward (s.advance t) v3 := by
        subst v3
        refine Onward.upd ?_ rfl
        assumption
      try clear_value v3
      refine Goes.done ?_
      with_reducible refine Onward.trans ?_ (State.runOps_onward _)
      refine Onward.trans ?_ (Onward.foldl (fun z5 y5 => ?_) _ _)
      · assumption
      · with_reducible refine Onward.trans ?_ (State.giveOp_onward _ _)
        exact Onward.refl _
    · refine Goes.done ?_
      assumption
  · refine Goes.done ?_
    assumption

theorem State.wearCheck_onward (s : State) (ds : Nat) : Onward s (State.wearCheck s ds) := by
  unfold State.wearCheck
  split
  extract_lets +onlyGivenNames v1
  try clear_value v1
  refine Onward.ite ?_ ?_
  · exact Onward.refl _
  · split
    · refine Onward.ite ?_ ?_
      · with_reducible refine Onward.trans ?_ (State.event_onward _ _ _)
        with_reducible refine Onward.trans ?_ (State.bump_onward _ _)
        with_reducible refine Onward.trans ?_ (State.force_onward _ _ _ _)
        exact Onward.refl _
      · exact Onward.refl _
    · exact Onward.refl _

theorem execWearStaticCheck_onward (t : Nat) (s : State) : Goes (State.advance s t) (execWearStaticCheck t s) := by
  unfold execWearStaticCheck
  extract_lets +onlyGivenNames v1
  have h1 : Onward (s.advance t) v1 := by
    subst v1
    exact Onward.refl _
  try clear_value v1
  refine Goes.ite ?_ ?_
  · extract_lets +onlyGivenNames v2
    try clear_value v2
    extract_lets +onlyGivenNames v3
    have h3 : Onward (s.advance t) v3 := by
      subst v3
      refine Onward.upd ?_ rfl
      assumption
    try clear_value v3
    refine Goes.done ?_
    refine Onward.trans ?_ (Onward.foldl (fun z4 y4 => ?_) _ _)
    · assumption
    · with_reducible refine Onward.trans ?_ (State.wearCheck_onward _ _)
      exact Onward.refl _
  · refine Goes.done ?_
    assumption

theorem execEffectiveAgeTick_onward (t : Nat) (temps : List Int) (s : State) : Goes (State.advance s t) (execEffectiveAgeTick t temps s) := by
  unfold execEffectiveAgeTick
  extract_lets +onlyGivenNames v1
  have h1 : Onward (s.advance t) v1 := by
    subst v1
    exact Onward.refl _
  try clear_value v1
  extract_lets +onlyGivenNames v2
  try clear_value v2
  refine Goes.ite ?_ ?_
  · refine Goes.done ?_
    assumption
  · extract_lets +onlyGivenNames v3
    try clear_value v3
    refine Goes.done ?_
    refine Onward.upd ?_ rfl
    assumption

theorem execRetentionScan_onward (t : Nat) (ds : Nat) (sb : Nat) (worst : ReadOutcome) (retries : List (Nat × Nat)) (s : State) : Goes (State.advance s t) (execRetentionScan t ds sb worst retries s) := by
  unfold execRetentionScan
  extract_lets +onlyGivenNames v1
  have h1 : Onward (s.advance t) v1 := by
    subst v1
    exact Onward.refl _
  try clear_value v1
  extract_lets +onlyGivenNames v2
  try clear_value v2
  split
  · refine Goes.done ?_
    assumption
  · refine Goes.ite ?_ ?_
    · refine Goes.done ?_
      assumption
    · extract_lets +onlyGivenNames v3
      try clear_value v3
      extract_lets +onlyGivenNames v4
      try clear_value v4
      extract_lets +onlyGivenNames v5
      have h5 : Onward (s.advance t) v5 := by
        subst v5
        with_reducible refine Onward.trans ?_ (State.setSb_onward _ _)
        assumption
      try clear_value v5
      extract_lets +onlyGivenNames v7
      try clear_value v7
      extract_lets +onlyGivenNames v8
      have h8 : Onward (s.advance t) v8 := by
        subst v8
        with_reducible refine Onward.trans ?_ (State.addTo_onward _ _ _)
        assumption
      try clear_value v8
      extract_lets +onlyGivenNames v10
      try clear_value v10
      extract_lets +onlyGivenNames v11
      have h11 : Onward (s.advance t) v11 := by
        subst v11
        refine Onward.upd ?_ rfl
        assumption
      try clear_value v11
      extract_lets +onlyGivenNames v12
      have h12 : Onward (s.advance t) v12 := by
        subst v12
        refine Onward.trans ?_ (Onward.foldl (fun z13 y13 => ?_) _ _)
        · assumption
        · with_reducible refine Onward.trans ?_ (State.countReads_onward _ _ _ _ _)
          exact Onward.refl _
      try clear_value v12
      extract_lets +onlyGivenNames v15
      have h15 : Onward (s.advance t) v15 := by
        subst v15
        split
        · with_reducible refine Onward.trans ?_ (State.event_onward _ _ _)
          with_reducible refine Onward.trans ?_ (State.bump_onward _ _)
          with_reducible refine Onward.trans ?_ (State.force_onward _ _ _ _)
          assumption
        · assumption
      try clear_value v15
      extract_lets +onlyGivenNames v19
      try clear_value v19
      refine Goes.done ?_
      with_reducible refine Onward.trans ?_ (State.stirred_onward _)
      refine Onward.upd ?_ rfl
      assumption

theorem execSlcFold_onward (t : Nat) (s : State) : Goes (State.advance s t) (execSlcFold t s) := by
  unfold execSlcFold
  extract_lets +onlyGivenNames v1
  have h1 : Onward (s.advance t) v1 := by
    subst v1
    exact Onward.refl _
  try clear_value v1
  split
  · refine Goes.done ?_
    assumption
  · refine Goes.ite ?_ ?_
    · refine State.afterReply_onward ?_
      with_reducible refine Onward.trans ?_ (State.takeVictim_onward _ _)
      assumption
    · refine Goes.done ?_
      assumption

theorem execCheckpointStart_onward (t : Nat) (s : State) : Goes (State.advance s t) (execCheckpointStart t s) := by
  unfold execCheckpointStart
  extract_lets +onlyGivenNames v1
  have h1 : Onward (s.advance t) v1 := by
    subst v1
    exact Onward.refl _
  try clear_value v1
  refine Goes.done ?_
  refine Onward.ite ?_ ?_
  · with_reducible refine Onward.trans ?_ (State.startCycle_onward _)
    assumption
  · assumption

theorem State.writeAnchor_onward (s : State) : Onward s (State.writeAnchor s) := by
  unfold State.writeAnchor
  extract_lets +onlyGivenNames v1
  try clear_value v1
  extract_lets +onlyGivenNames v2
  have h2 : Onward s v2 := by
    subst v2
    refine Onward.ite ?_ ?_
    · refine Onward.upd ?_ rfl
      exact Onward.refl _
    · refine Onward.upd ?_ rfl
      exact Onward.refl _
  try clear_value v2
  with_reducible refine Onward.trans ?_ (State.useCounter_onward _ _)
  refine Onward.upd ?_ rfl
  assumption

theorem State.writeSections_onward (s : State) (c : Cycle) (kind : Nat) : Onward s (State.writeSections s c kind) := by
  unfold State.writeSections
  split
  with_reducible refine Onward.trans ?_ (State.append_onward _ _ _ _ _)
  refine Onward.trans ?_ (State.drawFree_onward_eq (by assumption))
  exact Onward.refl _

theorem execCheckpointEnd_onward (t : Nat) (s : State) : Goes (State.advance s t) (execCheckpointEnd t s) := by
  unfold execCheckpointEnd
  extract_lets +onlyGivenNames v1
  have h1 : Onward (s.advance t) v1 := by
    subst v1
    exact Onward.refl _
  try clear_value v1
  split
  · refine Goes.done ?_
    assumption
  · refine Goes.ite ?_ ?_
    · refine Goes.done ?_
      assumption
    · extract_lets +onlyGivenNames v2
      have h2 : Onward (s.advance t) v2 := by
        subst v2
        refine Onward.trans ?_ (Onward.foldl (fun z3 y3 => ?_) _ _)
        · assumption
        · with_reducible refine Onward.trans ?_ (State.writeSections_onward _ _ _)
          exact Onward.refl _
      try clear_value v2
      extract_lets +onlyGivenNames v5
      try clear_value v5
      extract_lets +onlyGivenNames v6
      try clear_value v6
      extract_lets +onlyGivenNames v7
      try clear_value v7
      split
      extract_lets +onlyGivenNames v8
      try clear_value v8
      extract_lets +onlyGivenNames v9
      have h9 : Onward (s.advance t) v9 := by
        subst v9
        with_reducible refine Onward.trans ?_ (State.programStream_onward _ _ _)
        refine Onward.trans ?_ (State.append_onward_eq (by assumption))
        assumption
      try clear_value v9
      extract_lets +onlyGivenNames v11
      try clear_value v11
      extract_lets +onlyGivenNames v12
      have h12 : Onward (s.advance t) v12 := by
        subst v12
        with_reducible refine Onward.trans ?_ (State.writeAnchor_onward _)
        refine Onward.upd ?_ rfl
        assumption
      try clear_value v12
      refine State.afterReply_onward ?_
      with_reducible refine Onward.trans ?_ (State.stirred_onward _)
      with_reducible refine Onward.trans ?_ (State.settleMoves_onward _)
      with_reducible refine Onward.trans ?_ (State.bump_onward _ _)
      assumption

theorem State.buildIndex_onward (s : State) (l : List Item) : Onward s (State.buildIndex s l) := by
  unfold State.buildIndex
  extract_lets +onlyGivenNames v1
  try clear_value v1
  extract_lets +onlyGivenNames v2
  have h2 : Onward s v2 := by
    subst v2
    refine Onward.upd ?_ rfl
    exact Onward.refl _
  try clear_value v2
  refine Onward.trans ?_ (Onward.foldl (fun z3 y3 => ?_) _ _)
  · assumption
  · split
    · with_reducible refine Onward.trans ?_ (State.insertEntry_onward _ _ _)
      exact Onward.refl _
    · exact Onward.refl _

theorem State.forceDisturbed_onward (s : State) : Onward s (State.forceDisturbed s) := by
  unfold State.forceDisturbed
  refine Onward.trans ?_ (Onward.foldl (fun z1 y1 => ?_) _ _)
  · exact Onward.refl _
  · extract_lets +onlyGivenNames v2
    try clear_value v2
    split
    · refine Onward.ite ?_ ?_
      · exact Onward.refl _
      · with_reducible refine Onward.trans ?_ (State.event_onward _ _ _)
        with_reducible refine Onward.trans ?_ (State.bump_onward _ _)
        with_reducible refine Onward.trans ?_ (State.force_onward _ _ _ _)
        exact Onward.refl _
    · exact Onward.refl _

theorem State.bootHorizon_onward (s : State) : Onward s (State.bootHorizon s) := by
  unfold State.bootHorizon
  extract_lets +onlyGivenNames v1
  try clear_value v1
  extract_lets +onlyGivenNames v2
  try clear_value v2
  extract_lets +onlyGivenNames v3
  try clear_value v3
  extract_lets +onlyGivenNames v4
  try clear_value v4
  extract_lets +onlyGivenNames v5
  try clear_value v5
  extract_lets +onlyGivenNames v6
  try clear_value v6
  extract_lets +onlyGivenNames v7
  try clear_value v7
  extract_lets +onlyGivenNames v8
  try clear_value v8
  extract_lets +onlyGivenNames v9
  try clear_value v9
  refine Onward.upd ?_ rfl
  exact Onward.refl _

theorem State.sealRows_onward (s : State) : Onward s (State.sealRows s) := by
  unfold State.sealRows
  refine Onward.trans ?_ (Onward.foldl (fun z1 y1 => ?_) _ _)
  · exact Onward.refl _
  · extract_lets +onlyGivenNames v2
    have h2 : Onward z1 v2 := by
      subst v2
      refine Onward.trans ?_ (Onward.foldl (fun z3 y3 => ?_) _ _)
      · exact Onward.refl _
      · with_reducible refine Onward.trans ?_ (State.putImage_onward _ _)
        refine Onward.ite ?_ ?_
        · exact Onward.refl _
        · refine Onward.upd ?_ rfl
          exact Onward.refl _
    try clear_value v2
    split
    · with_reducible refine Onward.trans ?_ (State.setSb_onward _ _)
      assumption
    · assumption

theorem State.seal_onward (s : State) (last : Nat) (top : Nat) : Onward s (State.seal s last top) := by
  unfold State.seal
  extract_lets +onlyGivenNames v1
  try clear_value v1
  extract_lets +onlyGivenNames v2
  have h2 : Onward s v2 := by
    subst v2
    with_reducible refine Onward.trans ?_ (State.sealRows_onward _)
    refine Onward.upd ?_ rfl
    exact Onward.refl _
  try clear_value v2
  extract_lets +onlyGivenNames v4
  have h4 : Onward s v4 := by
    subst v4
    refine Onward.trans ?_ (Onward.foldl (fun z5 y5 => ?_) _ _)
    · assumption
    · with_reducible refine Onward.trans ?_ (State.sbTo_onward _ _ _ _)
      exact Onward.refl _
  try clear_value v4
  extract_lets +onlyGivenNames v7
  try clear_value v7
  extract_lets +onlyGivenNames v8
  have h8 : Onward s v8 := by
    subst v8
    with_reducible refine Onward.trans ?_ (State.journal_onward _ _ _)
    assumption
  try clear_value v8
  extract_lets +onlyGivenNames v10
  try clear_value v10
  with_reducible refine Onward.trans ?_ (State.writeAnchor_onward _)
  with_reducible refine Onward.trans ?_ (State.programStream_onward _ _ _)
  assumption

theorem State.resolveVictims_onward (s : State) : Onward s (State.resolveVictims s) := by
  unfold State.resolveVictims
  refine Onward.trans ?_ (Onward.foldl (fun z1 y1 => ?_) _ _)
  · exact Onward.refl _
  · with_reducible refine Onward.trans ?_ (State.sbTo_onward _ _ _ _)
    exact Onward.refl _

theorem State.releaseOld_onward (s : State) : Onward s (State.releaseOld s) := by
  unfold State.releaseOld
  refine Onward.trans ?_ (Onward.foldl (fun z1 y1 => ?_) _ _)
  · exact Onward.refl _
  · split
    · refine Onward.ite ?_ ?_
      · split
        · refine Onward.ite ?_ ?_
          · with_reducible refine Onward.trans ?_ (State.releaseStripe_onward _ _ _)
            exact Onward.refl _
          · exact Onward.refl _
        · exact Onward.refl _
      · exact Onward.refl _
    · exact Onward.refl _

theorem State.numberEvents_onward (s : State) : Onward s (State.numberEvents s) := by
  unfold State.numberEvents
  extract_lets +onlyGivenNames v1
  try clear_value v1
  extract_lets +onlyGivenNames v2
  try clear_value v2
  extract_lets +onlyGivenNames v3
  try clear_value v3
  extract_lets +onlyGivenNames v4
  try clear_value v4
  extract_lets +onlyGivenNames v5
  try clear_value v5
  extract_lets +onlyGivenNames v6
  try clear_value v6
  extract_lets +onlyGivenNames v7
  try clear_value v7
  extract_lets +onlyGivenNames v8
  try clear_value v8
  extract_lets +onlyGivenNames v9
  try clear_value v9
  extract_lets +onlyGivenNames v10
  have h10 : Onward s v10 := by
    subst v10
    refine Onward.upd ?_ rfl
    exact Onward.refl _
  try clear_value v10
  refine Onward.ite ?_ ?_
  · with_reducible refine Onward.trans ?_ (State.event_onward _ _ _)
    assumption
  · assumption

theorem State.scanAll_onward (s : State) : Onward s (State.scanAll s) := by
  unfold State.scanAll
  refine Onward.ite ?_ ?_
  · extract_lets +onlyGivenNames v1
    try clear_value v1
    with_reducible refine Onward.trans ?_ (State.event_onward _ _ _)
    refine Onward.upd ?_ rfl
    exact Onward.refl _
  · exact Onward.refl _

theorem State.markUnusable_onward (s : State) : Onward s (State.markUnusable s) := by
  unfold State.markUnusable
  refine Onward.trans ?_ (Onward.foldl (fun z1 y1 => ?_) _ _)
  · exact Onward.refl _
  · refine Onward.ite ?_ ?_
    · exact Onward.refl _
    · with_reducible refine Onward.trans ?_ (State.setSb_onward _ _)
      exact Onward.refl _

theorem State.rebuildMaps_onward (s : State) : Onward s (State.rebuildMaps s).1 := by
  unfold State.rebuildMaps
  split
  extract_lets +onlyGivenNames v1
  try clear_value v1
  extract_lets +onlyGivenNames v2
  try clear_value v2
  split
  extract_lets +onlyGivenNames v3
  try clear_value v3
  extract_lets +onlyGivenNames v4
  have h4 : Onward s v4 := by
    subst v4
    refine Onward.upd ?_ rfl
    exact Onward.refl _
  try clear_value v4
  extract_lets +onlyGivenNames v5
  try clear_value v5
  extract_lets +onlyGivenNames v6
  try clear_value v6
  extract_lets +onlyGivenNames v7
  have h7 : Onward s v7 := by
    subst v7
    with_reducible refine Onward.trans ?_ (State.buildIndex_onward _ _)
    with_reducible refine Onward.trans ?_ (State.markUnusable_onward _)
    refine Onward.upd ?_ rfl
    assumption
  try clear_value v7
  split
  extract_lets +onlyGivenNames v10
  try clear_value v10
  extract_lets +onlyGivenNames v11
  have h11 : Onward s v11 := by
    subst v11
    refine Onward.upd ?_ rfl
    assumption
  try clear_value v11
  extract_lets +onlyGivenNames v12
  try clear_value v12
  extract_lets +onlyGivenNames v13
  have h13 : Onward s v13 := by
    subst v13
    refine Onward.ite ?_ ?_
    · with_reducible refine Onward.trans ?_ (State.event_onward _ _ _)
      assumption
    · assumption
  try clear_value v13
  extract_lets +onlyGivenNames v15
  have h15 : Onward s v15 := by
    subst v15
    with_reducible refine Onward.trans ?_ (State.seal_onward _ _ _)
    assumption
  try clear_value v15
  extract_lets +onlyGivenNames v17
  have h17 : Onward s v17 := by
    subst v17
    refine Onward.trans ?_ (Onward.foldl (fun z18 y18 => ?_) _ _)
    · assumption
    · split
      · split
        · with_reducible refine Onward.trans ?_ (State.logCommit_onward _ _ _ _)
          exact Onward.refl _
        · exact Onward.refl _
      · exact Onward.refl _
  try clear_value v17
  refine Onward.fst_mk ?_
  assumption
theorem State.rebuildMaps_onward_eq {s : State} {r1 r2} (hres : State.rebuildMaps s = (r1, r2)) : Onward s r1 := by
  have k := State.rebuildMaps_onward s
  rw [hres] at k
  exact k

theorem State.recover_onward (s : State) (durationMs : Nat) : Onward s (State.recover s durationMs) := by
  unfold State.recover
  extract_lets +onlyGivenNames v1
  have h1 : Onward s v1 := by
    subst v1
    with_reducible refine Onward.trans ?_ (State.bootHorizon_onward _)
    exact Onward.refl _
  try clear_value v1
  split
  extract_lets +onlyGivenNames v3
  have h3 : Onward s v3 := by
    subst v3
    with_reducible refine Onward.trans ?_ (State.scanAll_onward _)
    with_reducible refine Onward.trans ?_ (State.resolveVictims_onward _)
    refine Onward.trans ?_ (State.rebuildMaps_onward_eq (by assumption))
    assumption
  try clear_value v3
  extract_lets +onlyGivenNames v6
  have h6 : Onward s v6 := by
    subst v6
    refine Onward.trans ?_ (Onward.foldl (fun z7 y7 => ?_) _ _)
    · assumption
    · with_reducible refine Onward.trans ?_ (State.releaseFrag_onward _ _ _)
      exact Onward.refl _
  try clear_value v6
  extract_lets +onlyGivenNames v9
  have h9 : Onward s v9 := by
    subst v9
    with_reducible refine Onward.trans ?_ (State.numberEvents_onward _)
    with_reducible refine Onward.trans ?_ (State.forceDisturbed_onward _)
    assumption
  try clear_value v9
  extract_lets +onlyGivenNames v12
  try clear_value v12
  extract_lets +onlyGivenNames v13
  have h13 : Onward s v13 := by
    subst v13
    refine Onward.ite ?_ ?_
    · with_reducible refine Onward.trans ?_ (State.event_onward _ _ _)
      refine Onward.upd ?_ rfl
      assumption
    · assumption
  try clear_value v13
  extract_lets +onlyGivenNames v15
  have h15 : Onward s v15 := by
    subst v15
    with_reducible refine Onward.trans ?_ (State.event_onward _ _ _)
    assumption
  try clear_value v15
  extract_lets +onlyGivenNames v17
  have h17 : Onward s v17 := by
    subst v17
    refine Onward.trans ?_ (Onward.foldl (fun z18 y18 => ?_) _ _)
    · assumption
    · with_reducible refine Onward.trans ?_ (State.retireDie_onward _ _ _ _)
      exact Onward.refl _
  try clear_value v17
  with_reducible refine Onward.trans ?_ (State.checkShort_onward _)
  with_reducible refine Onward.trans ?_ (State.slcResize_onward _)
  with_reducible refine Onward.trans ?_ (State.openAll_onward _)
  with_reducible refine Onward.trans ?_ (State.settleMoves_onward _)
  with_reducible refine Onward.trans ?_ (State.releaseOld_onward _)
  assumption

theorem State.recoverFailed_onward (s : State) (step : Nat) (cause : Nat) : Onward s (State.recoverFailed s step cause) := by
  unfold State.recoverFailed
  with_reducible refine Onward.trans ?_ (State.enterHalt_onward _ _)
  with_reducible refine Onward.trans ?_ (State.eventEmcy_onward _ _ _ _ _)
  exact Onward.refl _

theorem State.leaveMuster_onward (s : State) : Onward s (State.leaveMuster s) := by
  unfold State.leaveMuster
  extract_lets +onlyGivenNames v1
  extract_lets +onlyGivenNames v2
  have h2 : Onward s v2 := by
    subst v2
    with_reducible refine Onward.trans ?_ (State.setNum_onward _ _ _)
    exact Onward.refl _
  extract_lets +onlyGivenNames v4
  have h4 : Onward s v4 := by
    subst v4
    refine Onward.ite ?_ ?_
    · with_reducible refine Onward.trans ?_ (State.powerDowns_onward _ _)
      assumption
    · assumption
  extract_lets +onlyGivenNames v6
  have h6 : Onward s v6 := by
    subst v6
    with_reducible refine Onward.trans ?_ (State.enterMode_onward _ _ _)
    with_reducible refine Onward.trans ?_ (State.siteRelease_onward _)
    assumption
  extract_lets +onlyGivenNames v9
  try clear_value v9
  extract_lets +onlyGivenNames v10
  try clear_value v10
  extract_lets +onlyGivenNames v11
  try clear_value v11
  extract_lets +onlyGivenNames v12
  have h12 : Onward s v12 := by
    subst v12
    refine Onward.upd ?_ rfl
    assumption
  extract_lets +onlyGivenNames v13
  have h13 : Onward s v13 := by
    subst v13
    refine Onward.ite ?_ ?_
    · with_reducible refine Onward.trans ?_ (State.noteMembers_onward _)
      with_reducible refine Onward.trans ?_ (State.queueMoves_onward _)
      assumption
    · assumption
  try clear_value v13
  with_reducible refine Onward.trans ?_ (State.noteFaults_onward _)
  with_reducible refine Onward.trans ?_ (State.takeWaiting_onward _)
  with_reducible refine Onward.trans ?_ (State.startPass_onward _)
  assumption

theorem execRecoveryComplete_onward (t : Nat) (r : RecoveryReport) (s : State) : Goes (State.advance s t) (execRecoveryComplete t r s) := by
  unfold execRecoveryComplete
  extract_lets +onlyGivenNames v1
  have h1 : Onward (s.advance t) v1 := by
    subst v1
    exact Onward.refl _
  try clear_value v1
  refine Goes.ite ?_ ?_
  · refine Goes.done ?_
    assumption
  · refine Goes.ite ?_ ?_
    · refine State.afterReply_onward ?_
      with_reducible refine Onward.trans ?_ (State.leaveMuster_onward _)
      with_reducible refine Onward.trans ?_ (State.numberEvents_onward _)
      assumption
    · refine Goes.ite ?_ ?_
      · refine Goes.done ?_
        with_reducible refine Onward.trans ?_ (State.recoverFailed_onward _ _ _)
        assumption
      · split
        · refine Goes.done ?_
          with_reducible refine Onward.trans ?_ (State.recoverFailed_onward _ _ _)
          assumption
        · refine Goes.ite ?_ ?_
          · refine Goes.done ?_
            with_reducible refine Onward.trans ?_ (State.recoverFailed_onward _ _ _)
            assumption
          · extract_lets +onlyGivenNames v7
            have h7 : Onward (s.advance t) v7 := by
              subst v7
              with_reducible refine Onward.trans ?_ (State.setNum_onward _ _ _)
              with_reducible refine Onward.trans ?_ (State.recover_onward _ _)
              assumption
            try clear_value v7
            refine State.afterReply_onward ?_
            with_reducible refine Onward.trans ?_ (State.leaveMuster_onward _)
            assumption

end Sys2Proof.Machine
end

