-- ==== Sys2Proof/Laws/OnwardPorts.lean ====
section
/-! SUPPORT. What the operations and meanings of ports, shelf bus, firmware commands, registers and timers do: each only goes onward (Laws/Onward.lean). -/

namespace Sys2Proof.Machine

theorem execTrainingTimeout_onward (t : Nat) (port : PortId) (mode : Nat) (lane : Nat) (s : State) : Goes (State.advance s t) (execTrainingTimeout t port mode lane s) := by
  unfold execTrainingTimeout
  extract_lets +onlyGivenNames v1
  have h1 : Onward (s.advance t) v1 := by
    subst v1
    exact Onward.refl _
  try clear_value v1
  refine Goes.done ?_
  refine Onward.ite ?_ ?_
  · with_reducible refine Onward.trans ?_ (State.event_onward _ _ _)
    with_reducible refine Onward.trans ?_ (State.portStart_onward _ _)
    assumption
  · assumption

theorem execTrainingComplete_onward (t : Nat) (port : PortId) (mode : Nat) (fec : Nat) (s : State) : Goes (State.advance s t) (execTrainingComplete t port mode fec s) := by
  unfold execTrainingComplete
  extract_lets +onlyGivenNames v1
  have h1 : Onward (s.advance t) v1 := by
    subst v1
    exact Onward.refl _
  try clear_value v1
  extract_lets +onlyGivenNames v2
  try clear_value v2
  refine Goes.done ?_
  refine Onward.ite ?_ ?_
  · with_reducible refine Onward.trans ?_ (State.setPort_onward _ _ _)
    assumption
  · assumption

theorem execLinkUpHoldEnd_onward (t : Nat) (port : PortId) (s : State) : Goes (State.advance s t) (execLinkUpHoldEnd t port s) := by
  unfold execLinkUpHoldEnd
  extract_lets +onlyGivenNames v1
  have h1 : Onward (s.advance t) v1 := by
    subst v1
    exact Onward.refl _
  try clear_value v1
  extract_lets +onlyGivenNames v2
  try clear_value v2
  refine Goes.ite ?_ ?_
  · extract_lets +onlyGivenNames v3
    have h3 : Onward (s.advance t) v3 := by
      subst v3
      with_reducible refine Onward.trans ?_ (State.setPort_onward _ _ _)
      assumption
    try clear_value v3
    extract_lets +onlyGivenNames v5
    try clear_value v5
    split
    extract_lets +onlyGivenNames v6
    have h6 : Onward (s.advance t) v6 := by
      subst v6
      with_reducible refine Onward.trans ?_ (State.srcTo_onward _ _ _ _)
      with_reducible refine Onward.trans ?_ (State.linkCond_onward _ _ _ _)
      refine Onward.trans ?_ (State.eventSeq_onward_eq (by assumption))
      assumption
    try clear_value v6
    refine State.afterReply_onward ?_
    with_reducible refine Onward.trans ?_ (State.clkoutCheck_onward _)
    assumption
  · refine Goes.done ?_
    assumption

theorem execLinkDown_onward (t : Nat) (port : PortId) (cause : Nat) (s : State) : Goes (State.advance s t) (execLinkDown t port cause s) := by
  unfold execLinkDown
  extract_lets +onlyGivenNames v1
  have h1 : Onward (s.advance t) v1 := by
    subst v1
    exact Onward.refl _
  try clear_value v1
  refine State.afterReply_onward ?_
  with_reducible refine Onward.trans ?_ (State.linkDown_onward _ _ _)
  assumption

theorem execNeighbourFrame_onward (t : Nat) (port : PortId) (f : NeighbourFrame) (s : State) : Goes (State.advance s t) (execNeighbourFrame t port f s) := by
  unfold execNeighbourFrame
  extract_lets +onlyGivenNames v1
  have h1 : Onward (s.advance t) v1 := by
    subst v1
    exact Onward.refl _
  try clear_value v1
  refine Goes.ite ?_ ?_
  · refine Goes.done ?_
    assumption
  · extract_lets +onlyGivenNames v2
    have h2 : Onward (s.advance t) v2 := by
      subst v2
      with_reducible refine Onward.trans ?_ (State.rxFrame_onward _ _ _)
      assumption
    try clear_value v2
    extract_lets +onlyGivenNames v4
    try clear_value v4
    extract_lets +onlyGivenNames v5
    try clear_value v5
    extract_lets +onlyGivenNames v6
    try clear_value v6
    refine Goes.ite ?_ ?_
    · refine Goes.done ?_
      with_reducible refine Onward.trans ?_ (State.emitOn_onward _ _ _)
      with_reducible refine Onward.trans ?_ (State.txFrame_onward _ _ _)
      assumption
    · refine Goes.done ?_
      assumption

theorem execIcmpPtb_onward (t : Nat) (port : PortId) (len : Nat) (s : State) : Goes (State.advance s t) (execIcmpPtb t port len s) := by
  unfold execIcmpPtb
  extract_lets +onlyGivenNames v1
  have h1 : Onward (s.advance t) v1 := by
    subst v1
    exact Onward.refl _
  try clear_value v1
  refine Goes.done ?_
  refine Onward.ite ?_ ?_
  · with_reducible refine Onward.trans ?_ (State.bump_onward _ _)
    with_reducible refine Onward.trans ?_ (State.rxFrame_onward _ _ _)
    assumption
  · assumption

theorem State.countFec_onward (s : State) (p : PortId) (f : FrameFacts) : Onward s (State.countFec s p f) := by
  unfold State.countFec
  with_reducible refine Onward.trans ?_ (State.addTo_onward _ _ _)
  with_reducible refine Onward.trans ?_ (State.addTo_onward _ _ _)
  exact Onward.refl _

theorem State.captureFrame_onward (s : State) (p : PortId) (f : FrameFacts) (b : Bytes) (fails : List Nat) : Onward s (State.captureFrame s p f b fails) := by
  unfold State.captureFrame
  extract_lets +onlyGivenNames v1
  try clear_value v1
  extract_lets +onlyGivenNames v2
  try clear_value v2
  extract_lets +onlyGivenNames v3
  try clear_value v3
  extract_lets +onlyGivenNames v4
  try clear_value v4
  extract_lets +onlyGivenNames v5
  try clear_value v5
  extract_lets +onlyGivenNames v6
  try clear_value v6
  refine Onward.ite ?_ ?_
  · with_reducible refine Onward.trans ?_ (State.bump_onward _ _)
    refine Onward.upd ?_ rfl
    exact Onward.refl _
  · with_reducible refine Onward.trans ?_ (State.bump_onward _ _)
    exact Onward.refl _

theorem State.echoFrame_onward (s : State) (p : PortId) (f : FrameFacts) (b : Bytes) : Onward s (State.echoFrame s p f b) := by
  unfold State.echoFrame
  extract_lets +onlyGivenNames v1
  try clear_value v1
  extract_lets +onlyGivenNames v2
  try clear_value v2
  refine Onward.ite ?_ ?_
  · with_reducible refine Onward.trans ?_ (State.bump_onward _ _)
    exact Onward.refl _
  · split
    extract_lets +onlyGivenNames v4
    try clear_value v4
    extract_lets +onlyGivenNames v5
    have h5 : Onward s v5 := by
      subst v5
      with_reducible refine Onward.trans ?_ (State.setPort_onward _ _ _)
      refine Onward.trans ?_ (State.drawFree_onward_eq (by assumption))
      exact Onward.refl _
    try clear_value v5
    with_reducible refine Onward.trans ?_ (State.emitOn_onward _ _ _)
    with_reducible refine Onward.trans ?_ (State.bump_onward _ _)
    with_reducible refine Onward.trans ?_ (State.txFrame_onward _ _ _)
    assumption

theorem State.diagFrame_onward (s : State) (p : PortId) (d : DiagFrame) : Onward s (State.diagFrame s p d) := by
  unfold State.diagFrame
  extract_lets +onlyGivenNames v1
  try clear_value v1
  extract_lets +onlyGivenNames v2
  try clear_value v2
  extract_lets +onlyGivenNames v3
  try clear_value v3
  extract_lets +onlyGivenNames v4
  try clear_value v4
  extract_lets +onlyGivenNames v5
  try clear_value v5
  extract_lets +onlyGivenNames v6
  have h6 : Onward s v6 := by
    subst v6
    with_reducible refine Onward.trans ?_ (State.countFec_onward _ _ _)
    exact Onward.refl _
  try clear_value v6
  split
  · refine Onward.ite ?_ ?_
    · with_reducible refine Onward.trans ?_ (State.bump_onward _ _)
      assumption
    · refine Onward.ite ?_ ?_
      · with_reducible refine Onward.trans ?_ (State.captureFrame_onward _ _ _ _ _)
        assumption
      · with_reducible refine Onward.trans ?_ (State.bump_onward _ _)
        assumption
  · refine Onward.ite ?_ ?_
    · with_reducible refine Onward.trans ?_ (State.bump_onward _ _)
      assumption
    · extract_lets +onlyGivenNames v12
      have h12 : Onward s v12 := by
        subst v12
        with_reducible refine Onward.trans ?_ (State.rxFrame_onward _ _ _)
        assumption
      try clear_value v12
      refine Onward.ite ?_ ?_
      · refine Onward.ite ?_ ?_
        · with_reducible refine Onward.trans ?_ (State.echoFrame_onward _ _ _ _)
          assumption
        · with_reducible refine Onward.trans ?_ (State.bump_onward _ _)
          assumption
      · refine Onward.ite ?_ ?_
        · with_reducible refine Onward.trans ?_ (State.captureFrame_onward _ _ _ _ _)
          assumption
        · with_reducible refine Onward.trans ?_ (State.bump_onward _ _)
          assumption

theorem execFilteredFrame_onward (t : Nat) (port : PortId) (f : FrameFacts) (s : State) : Goes (State.advance s t) (execFilteredFrame t port f s) := by
  unfold execFilteredFrame
  extract_lets +onlyGivenNames v1
  have h1 : Onward (s.advance t) v1 := by
    subst v1
    exact Onward.refl _
  try clear_value v1
  refine Goes.ite ?_ ?_
  · refine Goes.done ?_
    assumption
  · extract_lets +onlyGivenNames v2
    have h2 : Onward (s.advance t) v2 := by
      subst v2
      with_reducible refine Onward.trans ?_ (State.countFec_onward _ _ _)
      assumption
    try clear_value v2
    refine Goes.ite ?_ ?_
    · refine Goes.done ?_
      with_reducible refine Onward.trans ?_ (State.bump_onward _ _)
      assumption
    · split
      · refine Goes.done ?_
        with_reducible refine Onward.trans ?_ (State.bump_onward _ _)
        assumption
      · refine Goes.done ?_
        assumption

theorem execDiagCaptureFrame_onward (t : Nat) (port : PortId) (f : DiagFrame) (s : State) : Goes (State.advance s t) (execDiagCaptureFrame t port f s) := by
  unfold execDiagCaptureFrame
  extract_lets +onlyGivenNames v1
  have h1 : Onward (s.advance t) v1 := by
    subst v1
    exact Onward.refl _
  try clear_value v1
  refine Goes.done ?_
  refine Onward.ite ?_ ?_
  · with_reducible refine Onward.trans ?_ (State.diagFrame_onward _ _ _)
    assumption
  · assumption

theorem execDiagEchoFrame_onward (t : Nat) (port : PortId) (f : DiagFrame) (s : State) : Goes (State.advance s t) (execDiagEchoFrame t port f s) := by
  unfold execDiagEchoFrame
  extract_lets +onlyGivenNames v1
  have h1 : Onward (s.advance t) v1 := by
    subst v1
    exact Onward.refl _
  try clear_value v1
  refine Goes.done ?_
  refine Onward.ite ?_ ?_
  · with_reducible refine Onward.trans ?_ (State.diagFrame_onward _ _ _)
    assumption
  · assumption

theorem State.pausePrio_onward (s : State) (p : PortId) (prio : Nat) (q : Nat) : Onward s (State.pausePrio s p prio q) := by
  unfold State.pausePrio
  extract_lets +onlyGivenNames v1
  try clear_value v1
  extract_lets +onlyGivenNames v2
  try clear_value v2
  refine Onward.ite ?_ ?_
  · with_reducible refine Onward.trans ?_ (State.resumeTx_onward _ _)
    with_reducible refine Onward.trans ?_ (State.setPort_onward _ _ _)
    exact Onward.refl _
  · extract_lets +onlyGivenNames v5
    try clear_value v5
    with_reducible refine Onward.trans ?_ (State.setPort_onward _ _ _)
    exact Onward.refl _

theorem execPauseFrame_onward (t : Nat) (port : PortId) (f : PauseFrame) (s : State) : Goes (State.advance s t) (execPauseFrame t port f s) := by
  unfold execPauseFrame
  extract_lets +onlyGivenNames v1
  have h1 : Onward (s.advance t) v1 := by
    subst v1
    exact Onward.refl _
  try clear_value v1
  refine Goes.ite ?_ ?_
  · refine Goes.done ?_
    assumption
  · extract_lets +onlyGivenNames v2
    have h2 : Onward (s.advance t) v2 := by
      subst v2
      with_reducible refine Onward.trans ?_ (State.bump_onward _ _)
      with_reducible refine Onward.trans ?_ (State.rxFrame_onward _ _ _)
      assumption
    try clear_value v2
    extract_lets +onlyGivenNames v5
    try clear_value v5
    refine Goes.done ?_
    refine Onward.ite ?_ ?_
    · refine Onward.trans ?_ (Onward.foldl (fun z6 y6 => ?_) _ _)
      · assumption
      · with_reducible refine Onward.trans ?_ (State.pausePrio_onward _ _ _ _)
        exact Onward.refl _
    · assumption

theorem execPauseTimeExpiry_onward (t : Nat) (port : PortId) (prio : Nat) (s : State) : Goes (State.advance s t) (execPauseTimeExpiry t port prio s) := by
  unfold execPauseTimeExpiry
  extract_lets +onlyGivenNames v1
  have h1 : Onward (s.advance t) v1 := by
    subst v1
    exact Onward.refl _
  try clear_value v1
  extract_lets +onlyGivenNames v2
  try clear_value v2
  refine Goes.done ?_
  refine Onward.ite ?_ ?_
  · with_reducible refine Onward.trans ?_ (State.resumeTx_onward _ _)
    with_reducible refine Onward.trans ?_ (State.setPort_onward _ _ _)
    assumption
  · assumption

theorem State.sendPause_onward (s : State) (p : PortId) (quanta : Nat) : Onward s (State.sendPause s p quanta) := by
  unfold State.sendPause
  extract_lets +onlyGivenNames v1
  try clear_value v1
  with_reducible refine Onward.trans ?_ (State.emit_onward _ _)
  with_reducible refine Onward.trans ?_ (State.bump_onward _ _)
  with_reducible refine Onward.trans ?_ (State.txFrame_onward _ _ _)
  exact Onward.refl _

theorem execPauseTxRepeat_onward (t : Nat) (port : PortId) (used : Nat) (s : State) : Goes (State.advance s t) (execPauseTxRepeat t port used s) := by
  unfold execPauseTxRepeat
  extract_lets +onlyGivenNames v1
  have h1 : Onward (s.advance t) v1 := by
    subst v1
    exact Onward.refl _
  try clear_value v1
  extract_lets +onlyGivenNames v2
  try clear_value v2
  refine Goes.ite ?_ ?_
  · refine Goes.done ?_
    assumption
  · extract_lets +onlyGivenNames v3
    try clear_value v3
    extract_lets +onlyGivenNames v4
    try clear_value v4
    refine Goes.ite ?_ ?_
    · refine Goes.ite ?_ ?_
      · refine Goes.done ?_
        with_reducible refine Onward.trans ?_ (State.sendPause_onward _ _ _)
        with_reducible refine Onward.trans ?_ (State.setPort_onward _ _ _)
        assumption
      · refine Goes.done ?_
        with_reducible refine Onward.trans ?_ (State.setPort_onward _ _ _)
        assumption
    · refine Goes.ite ?_ ?_
      · refine Goes.done ?_
        with_reducible refine Onward.trans ?_ (State.sendPause_onward _ _ _)
        with_reducible refine Onward.trans ?_ (State.setPort_onward _ _ _)
        assumption
      · refine Goes.ite ?_ ?_
        · refine Goes.done ?_
          with_reducible refine Onward.trans ?_ (State.sendPause_onward _ _ _)
          with_reducible refine Onward.trans ?_ (State.setPort_onward _ _ _)
          assumption
        · refine Goes.done ?_
          with_reducible refine Onward.trans ?_ (State.setPort_onward _ _ _)
          assumption

theorem execPauseWatchdogTrip_onward (t : Nat) (port : PortId) (s : State) : Goes (State.advance s t) (execPauseWatchdogTrip t port s) := by
  unfold execPauseWatchdogTrip
  extract_lets +onlyGivenNames v1
  have h1 : Onward (s.advance t) v1 := by
    subst v1
    exact Onward.refl _
  try clear_value v1
  extract_lets +onlyGivenNames v2
  try clear_value v2
  extract_lets +onlyGivenNames v3
  try clear_value v3
  split
  · extract_lets +onlyGivenNames v4
    have h4 : Onward (s.advance t) v4 := by
      subst v4
      with_reducible refine Onward.trans ?_ (State.setPort_onward _ _ _)
      assumption
    try clear_value v4
    extract_lets +onlyGivenNames v6
    have h6 : Onward (s.advance t) v6 := by
      subst v6
      with_reducible refine Onward.trans ?_ (State.event_onward _ _ _)
      with_reducible refine Onward.trans ?_ (State.bump_onward _ _)
      assumption
    try clear_value v6
    refine Goes.done ?_
    with_reducible refine Onward.trans ?_ (State.resumeTx_onward _ _)
    assumption
  · refine Goes.done ?_
    assumption

theorem execPauseIgnoreEnd_onward (t : Nat) (port : PortId) (s : State) : Goes (State.advance s t) (execPauseIgnoreEnd t port s) := by
  unfold execPauseIgnoreEnd
  extract_lets +onlyGivenNames v1
  have h1 : Onward (s.advance t) v1 := by
    subst v1
    exact Onward.refl _
  try clear_value v1
  extract_lets +onlyGivenNames v2
  try clear_value v2
  refine Goes.done ?_
  split
  · refine Onward.ite ?_ ?_
    · with_reducible refine Onward.trans ?_ (State.setPort_onward _ _ _)
      assumption
    · assumption
  · assumption

theorem execPreemptVerifyResponse_onward (t : Nat) (port : PortId) (s : State) : Goes (State.advance s t) (execPreemptVerifyResponse t port s) := by
  unfold execPreemptVerifyResponse
  extract_lets +onlyGivenNames v1
  have h1 : Onward (s.advance t) v1 := by
    subst v1
    exact Onward.refl _
  try clear_value v1
  refine Goes.done ?_
  refine Onward.ite ?_ ?_
  · with_reducible refine Onward.trans ?_ (State.setPort_onward _ _ _)
    assumption
  · assumption

theorem execPreemptVerifyFail_onward (t : Nat) (port : PortId) (s : State) : Goes (State.advance s t) (execPreemptVerifyFail t port s) := by
  unfold execPreemptVerifyFail
  extract_lets +onlyGivenNames v1
  have h1 : Onward (s.advance t) v1 := by
    subst v1
    exact Onward.refl _
  try clear_value v1
  extract_lets +onlyGivenNames v2
  try clear_value v2
  refine Goes.done ?_
  refine Onward.ite ?_ ?_
  · with_reducible refine Onward.trans ?_ (State.event_onward _ _ _)
    with_reducible refine Onward.trans ?_ (State.setPort_onward _ _ _)
    assumption
  · assumption

theorem State.ptpAnnounce_onward (s : State) (port : PortId) (gm : Bytes) (rank : Nat) : Onward s (State.ptpAnnounce s port gm rank) := by
  unfold State.ptpAnnounce
  extract_lets +onlyGivenNames v1
  try clear_value v1
  extract_lets +onlyGivenNames v2
  try clear_value v2
  extract_lets +onlyGivenNames v3
  have h3 : Onward s v3 := by
    subst v3
    with_reducible refine Onward.trans ?_ (State.setPtp_onward _ _)
    exact Onward.refl _
  try clear_value v3
  split
  · assumption
  · extract_lets +onlyGivenNames v5
    try clear_value v5
    refine Onward.ite ?_ ?_
    · assumption
    · extract_lets +onlyGivenNames v6
      try clear_value v6
      extract_lets +onlyGivenNames v7
      have h7 : Onward s v7 := by
        subst v7
        with_reducible refine Onward.trans ?_ (State.setPtp_onward _ _)
        assumption
      try clear_value v7
      refine Onward.ite ?_ ?_
      · assumption
      · with_reducible refine Onward.trans ?_ (State.ptpTo_onward _ _)
        assumption

theorem State.ptpSync_onward (s : State) (port : PortId) (gm : Bytes) (offset : Option Int) : Onward s (State.ptpSync s port gm offset) := by
  unfold State.ptpSync
  extract_lets +onlyGivenNames v1
  try clear_value v1
  refine Onward.ite ?_ ?_
  · exact Onward.refl _
  · split
    · with_reducible refine Onward.trans ?_ (State.setPtp_onward _ _)
      exact Onward.refl _
    · extract_lets +onlyGivenNames v3
      try clear_value v3
      extract_lets +onlyGivenNames v4
      have h4 : Onward s v4 := by
        subst v4
        with_reducible refine Onward.trans ?_ (State.ptpTo_onward _ _)
        with_reducible refine Onward.trans ?_ (State.setPtp_onward _ _)
        exact Onward.refl _
      try clear_value v4
      refine Onward.ite ?_ ?_
      · with_reducible refine Onward.trans ?_ (State.event_onward _ _ _)
        assumption
      · assumption

theorem execPtpMessage_onward (t : Nat) (port : PortId) (m : PtpMsg) (s : State) : Goes (State.advance s t) (execPtpMessage t port m s) := by
  unfold execPtpMessage
  extract_lets +onlyGivenNames v1
  have h1 : Onward (s.advance t) v1 := by
    subst v1
    exact Onward.refl _
  try clear_value v1
  refine Goes.ite ?_ ?_
  · refine Goes.done ?_
    assumption
  · extract_lets +onlyGivenNames v2
    have h2 : Onward (s.advance t) v2 := by
      subst v2
      with_reducible refine Onward.trans ?_ (State.bump_onward _ _)
      with_reducible refine Onward.trans ?_ (State.rxFrame_onward _ _ _)
      assumption
    try clear_value v2
    refine Goes.ite ?_ ?_
    · refine Goes.done ?_
      assumption
    · split
      · refine State.afterReply_onward ?_
        with_reducible refine Onward.trans ?_ (State.ptpAnnounce_onward _ _ _ _)
        assumption
      · refine State.afterReply_onward ?_
        with_reducible refine Onward.trans ?_ (State.ptpSync_onward _ _ _ _)
        assumption
      · refine Goes.done ?_
        assumption

theorem execPtpLossTimeout_onward (t : Nat) (s : State) : Goes (State.advance s t) (execPtpLossTimeout t s) := by
  unfold execPtpLossTimeout
  extract_lets +onlyGivenNames v1
  have h1 : Onward (s.advance t) v1 := by
    subst v1
    exact Onward.refl _
  try clear_value v1
  extract_lets +onlyGivenNames v2
  try clear_value v2
  refine Goes.ite ?_ ?_
  · refine State.afterReply_onward ?_
    with_reducible refine Onward.trans ?_ (State.ptpHoldover_onward _ _)
    assumption
  · refine Goes.done ?_
    assumption

theorem execPtpPpsEdge_onward (t : Nat) (rise : Bool) (s : State) : Goes (State.advance s t) (execPtpPpsEdge t rise s) := by
  unfold execPtpPpsEdge
  extract_lets +onlyGivenNames v1
  have h1 : Onward (s.advance t) v1 := by
    subst v1
    exact Onward.refl _
  try clear_value v1
  extract_lets +onlyGivenNames v2
  try clear_value v2
  extract_lets +onlyGivenNames v3
  try clear_value v3
  refine Goes.ite ?_ ?_
  · refine Goes.ite ?_ ?_
    · refine Goes.done ?_
      with_reducible refine Onward.trans ?_ (State.emit_onward _ _)
      with_reducible refine Onward.trans ?_ (State.setPtp_onward _ _)
      assumption
    · refine Goes.done ?_
      assumption
  · refine Goes.ite ?_ ?_
    · refine Goes.done ?_
      with_reducible refine Onward.trans ?_ (State.emit_onward _ _)
      with_reducible refine Onward.trans ?_ (State.setPtp_onward _ _)
      assumption
    · refine Goes.done ?_
      assumption

theorem State.countWindow_onward (s : State) (sum : Nat) (fig : Nat) (last : Nat) (mean : Nat) (count : Nat) : Onward s (State.countWindow s sum fig last mean count) := by
  unfold State.countWindow
  extract_lets +onlyGivenNames v1
  try clear_value v1
  with_reducible refine Onward.trans ?_ (State.setNum_onward _ _ _)
  with_reducible refine Onward.trans ?_ (State.setNum_onward _ _ _)
  with_reducible refine Onward.trans ?_ (State.setNum_onward _ _ _)
  exact Onward.refl _

theorem execEfficiencyWindowEnd_onward (t : Nat) (w : EffWindow) (s : State) : Goes (State.advance s t) (execEfficiencyWindowEnd t w s) := by
  unfold execEfficiencyWindowEnd
  extract_lets +onlyGivenNames v1
  have h1 : Onward (s.advance t) v1 := by
    subst v1
    exact Onward.refl _
  try clear_value v1
  refine Goes.ite ?_ ?_
  · refine Goes.done ?_
    assumption
  · extract_lets +onlyGivenNames v2
    try clear_value v2
    extract_lets +onlyGivenNames v3
    try clear_value v3
    extract_lets +onlyGivenNames v4
    try clear_value v4
    extract_lets +onlyGivenNames v5
    have h5 : Onward (s.advance t) v5 := by
      subst v5
      refine Onward.upd ?_ rfl
      assumption
    try clear_value v5
    extract_lets +onlyGivenNames v6
    have h6 : Onward (s.advance t) v6 := by
      subst v6
      with_reducible refine Onward.trans ?_ (State.countWindow_onward _ _ _ _ _ _)
      assumption
    try clear_value v6
    extract_lets +onlyGivenNames v8
    try clear_value v8
    extract_lets +onlyGivenNames v9
    have h9 : Onward (s.advance t) v9 := by
      subst v9
      refine Onward.ite ?_ ?_
      · refine Onward.upd ?_ rfl
        assumption
      · assumption
    try clear_value v9
    extract_lets +onlyGivenNames v10
    have h10 : Onward (s.advance t) v10 := by
      subst v10
      with_reducible refine Onward.trans ?_ (State.countWindow_onward _ _ _ _ _ _)
      assumption
    try clear_value v10
    extract_lets +onlyGivenNames v12
    try clear_value v12
    extract_lets +onlyGivenNames v13
    have h13 : Onward (s.advance t) v13 := by
      subst v13
      refine Onward.ite ?_ ?_
      · refine Onward.upd ?_ rfl
        assumption
      · assumption
    try clear_value v13
    refine Goes.done ?_
    assumption

theorem State.canRx_onward (s : State) (addressed : Bool) : Onward s (State.canRx s addressed) := by
  unfold State.canRx
  extract_lets +onlyGivenNames v1
  have h1 : Onward s v1 := by
    subst v1
    with_reducible refine Onward.trans ?_ (State.bump_onward _ _)
    exact Onward.refl _
  try clear_value v1
  refine Onward.ite ?_ ?_
  · refine Onward.upd ?_ rfl
    assumption
  · assumption

theorem State.usdoAbort_onward (s : State) (node : Nat) (idx : Nat) (sub : Nat) (code : Nat) : Onward s (State.usdoAbort s node idx sub code) := by
  unfold State.usdoAbort
  with_reducible refine Onward.trans ?_ (State.canSend_onward _ _ _)
  exact Onward.refl _

theorem State.dropTransfer_onward (s : State) (node : Nat) : Onward s (State.dropTransfer s node) := by
  unfold State.dropTransfer
  refine Onward.upd ?_ rfl
  exact Onward.refl _

theorem State.setTransfer_onward (s : State) (a1 : Usdo) : Onward s (State.setTransfer s a1) := by
  unfold State.setTransfer
  extract_lets +onlyGivenNames v1
  have h1 : Onward s v1 := by
    subst v1
    with_reducible refine Onward.trans ?_ (State.dropTransfer_onward _ _)
    exact Onward.refl _
  try clear_value v1
  refine Onward.upd ?_ rfl
  assumption

theorem State.usdoUpload_onward (s : State) (node : Nat) (idx : Nat) (sub : Nat) (seg : Bool) : Onward s (State.usdoUpload s node idx sub seg) := by
  unfold State.usdoUpload
  refine Onward.ite ?_ ?_
  · with_reducible refine Onward.trans ?_ (State.usdoAbort_onward _ _ _ _ _)
    exact Onward.refl _
  · extract_lets +onlyGivenNames v2
    extract_lets +onlyGivenNames v3
    have h3 : Onward s v3 := by
      subst v3
      subst v2
      with_reducible refine Onward.trans ?_ (State.dictGet_onward _ _ _ _)
      exact Onward.refl _
    try clear_value v3
    split
    · with_reducible refine Onward.trans ?_ (State.usdoAbort_onward _ _ _ _ _)
      assumption
    · split
      · with_reducible refine Onward.trans ?_ (State.usdoAbort_onward _ _ _ _ _)
        assumption
      · refine Onward.ite ?_ ?_
        · with_reducible refine Onward.trans ?_ (State.usdoAbort_onward _ _ _ _ _)
          assumption
        · extract_lets +onlyGivenNames v7
          try clear_value v7
          refine Onward.ite ?_ ?_
          · extract_lets +onlyGivenNames v8
            have h8 : Onward s v8 := by
              subst v8
              with_reducible refine Onward.trans ?_ (State.setTransfer_onward _ _)
              assumption
            try clear_value v8
            with_reducible refine Onward.trans ?_ (State.canSend_onward _ _ _)
            assumption
          · with_reducible refine Onward.trans ?_ (State.canSend_onward _ _ _)
            assumption

theorem State.usdoApply_onward (s : State) (node : Nat) (idx : Nat) (sub : Nat) (b : Bytes) : Onward s (State.usdoApply s node idx sub b) := by
  unfold State.usdoApply
  extract_lets +onlyGivenNames v1
  extract_lets +onlyGivenNames v2
  have h2 : Onward s v2 := by
    subst v2
    subst v1
    with_reducible refine Onward.trans ?_ (State.dictSet_onward _ _ _ _ _)
    exact Onward.refl _
  try clear_value v2
  split
  · with_reducible refine Onward.trans ?_ (State.usdoAbort_onward _ _ _ _ _)
    assumption
  · with_reducible refine Onward.trans ?_ (State.canSend_onward _ _ _)
    assumption
  · with_reducible refine Onward.trans ?_ (State.awaitStore_onward _ _)
    assumption

theorem State.usdoUploadSegment_onward (s : State) (node : Nat) : Onward s (State.usdoUploadSegment s node) := by
  unfold State.usdoUploadSegment
  split
  · refine Onward.ite ?_ ?_
    · extract_lets +onlyGivenNames v1
      try clear_value v1
      extract_lets +onlyGivenNames v2
      try clear_value v2
      extract_lets +onlyGivenNames v3
      try clear_value v3
      extract_lets +onlyGivenNames v4
      have h4 : Onward s v4 := by
        subst v4
        refine Onward.ite ?_ ?_
        · with_reducible refine Onward.trans ?_ (State.dropTransfer_onward _ _)
          exact Onward.refl _
        · with_reducible refine Onward.trans ?_ (State.setTransfer_onward _ _)
          exact Onward.refl _
      try clear_value v4
      with_reducible refine Onward.trans ?_ (State.canSend_onward _ _ _)
      assumption
    · with_reducible refine Onward.trans ?_ (State.usdoAbort_onward _ _ _ _ _)
      with_reducible refine Onward.trans ?_ (State.dropTransfer_onward _ _)
      exact Onward.refl _
  · with_reducible refine Onward.trans ?_ (State.usdoAbort_onward _ _ _ _ _)
    exact Onward.refl _

theorem State.usdoDownload_onward (s : State) (node : Nat) (index : Nat) (sub : Nat) (bytes : Bytes) : Onward s (State.usdoDownload s node index sub bytes) := by
  unfold State.usdoDownload
  refine Onward.ite ?_ ?_
  · with_reducible refine Onward.trans ?_ (State.usdoAbort_onward _ _ _ _ _)
    exact Onward.refl _
  · with_reducible refine Onward.trans ?_ (State.usdoApply_onward _ _ _ _ _)
    exact Onward.refl _

theorem State.usdoDownloadInit_onward (s : State) (node : Nat) (index : Nat) (sub : Nat) (total : Nat) (bytes : Bytes) : Onward s (State.usdoDownloadInit s node index sub total bytes) := by
  unfold State.usdoDownloadInit
  refine Onward.ite ?_ ?_
  · with_reducible refine Onward.trans ?_ (State.usdoAbort_onward _ _ _ _ _)
    exact Onward.refl _
  · extract_lets +onlyGivenNames v2
    have h2 : Onward s v2 := by
      subst v2
      with_reducible refine Onward.trans ?_ (State.setTransfer_onward _ _)
      exact Onward.refl _
    try clear_value v2
    with_reducible refine Onward.trans ?_ (State.canSend_onward _ _ _)
    assumption

theorem State.usdoDownloadSegment_onward (s : State) (node : Nat) (bytes : Bytes) (last : Bool) : Onward s (State.usdoDownloadSegment s node bytes last) := by
  unfold State.usdoDownloadSegment
  split
  · extract_lets +onlyGivenNames v1
    try clear_value v1
    refine Onward.ite ?_ ?_
    · with_reducible refine Onward.trans ?_ (State.usdoAbort_onward _ _ _ _ _)
      with_reducible refine Onward.trans ?_ (State.dropTransfer_onward _ _)
      exact Onward.refl _
    · refine Onward.ite ?_ ?_
      · with_reducible refine Onward.trans ?_ (State.usdoAbort_onward _ _ _ _ _)
        with_reducible refine Onward.trans ?_ (State.dropTransfer_onward _ _)
        exact Onward.refl _
      · refine Onward.ite ?_ ?_
        · with_reducible refine Onward.trans ?_ (State.canSend_onward _ _ _)
          with_reducible refine Onward.trans ?_ (State.setTransfer_onward _ _)
          exact Onward.refl _
        · refine Onward.ite ?_ ?_
          · with_reducible refine Onward.trans ?_ (State.usdoAbort_onward _ _ _ _ _)
            with_reducible refine Onward.trans ?_ (State.dropTransfer_onward _ _)
            exact Onward.refl _
          · with_reducible refine Onward.trans ?_ (State.usdoApply_onward _ _ _ _ _)
            with_reducible refine Onward.trans ?_ (State.dropTransfer_onward _ _)
            exact Onward.refl _
  · with_reducible refine Onward.trans ?_ (State.usdoAbort_onward _ _ _ _ _)
    exact Onward.refl _

theorem State.dictAct_onward (s : State) (a1 : Delayed) : Onward s (State.dictAct s a1) := by
  unfold State.dictAct
  split
  · with_reducible refine Onward.trans ?_ (State.dictWrite_onward _ _ _ _)
    exact Onward.refl _
  · with_reducible refine Onward.trans ?_ (State.otpApply_onward _ _ _ _)
    exact Onward.refl _
  · with_reducible refine Onward.trans ?_ (State.usdoUpload_onward _ _ _ _ _)
    exact Onward.refl _
  · with_reducible refine Onward.trans ?_ (State.usdoUploadSegment_onward _ _)
    exact Onward.refl _
  · with_reducible refine Onward.trans ?_ (State.usdoDownload_onward _ _ _ _ _)
    exact Onward.refl _
  · with_reducible refine Onward.trans ?_ (State.usdoDownloadInit_onward _ _ _ _ _ _)
    exact Onward.refl _
  · with_reducible refine Onward.trans ?_ (State.usdoDownloadSegment_onward _ _ _ _)
    exact Onward.refl _
  · with_reducible refine Onward.trans ?_ (State.dropTransfer_onward _ _)
    exact Onward.refl _

theorem State.resume_onward (s : State) : Onward s (State.resume s) := by
  unfold State.resume
  extract_lets +onlyGivenNames v1
  try clear_value v1
  extract_lets +onlyGivenNames v2
  try clear_value v2
  extract_lets +onlyGivenNames v3
  have h3 : Onward s v3 := by
    subst v3
    refine Onward.upd ?_ rfl
    exact Onward.refl _
  try clear_value v3
  with_reducible refine Onward.trans ?_ (State.mbxRejectBad_onward _ _)
  refine Onward.trans ?_ (Onward.foldl (fun z5 y5 => ?_) _ _)
  · assumption
  · with_reducible refine Onward.trans ?_ (State.dictAct_onward _ _)
    exact Onward.refl _

theorem State.usdo_onward (s : State) (d : Delayed) : Onward s (State.usdo s d) := by
  unfold State.usdo
  refine Onward.ite ?_ ?_
  · exact Onward.refl _
  · extract_lets +onlyGivenNames v1
    have h1 : Onward s v1 := by
      subst v1
      with_reducible refine Onward.trans ?_ (State.canRx_onward _ _)
      exact Onward.refl _
    try clear_value v1
    refine Onward.ite ?_ ?_
    · with_reducible refine Onward.trans ?_ (State.delay_onward _ _)
      assumption
    · with_reducible refine Onward.trans ?_ (State.dictAct_onward _ _)
      assumption

theorem execUsdoExpeditedUpload_onward (t : Nat) (node : Nat) (index : Nat) (sub : Nat) (s : State) : Goes (State.advance s t) (execUsdoExpeditedUpload t node index sub s) := by
  unfold execUsdoExpeditedUpload
  refine Goes.done ?_
  with_reducible refine Onward.trans ?_ (State.usdo_onward _ _)
  exact Onward.refl _

theorem execUsdoExpeditedDownload_onward (t : Nat) (node : Nat) (index : Nat) (sub : Nat) (bytes : Bytes) (s : State) : Goes (State.advance s t) (execUsdoExpeditedDownload t node index sub bytes s) := by
  unfold execUsdoExpeditedDownload
  refine Goes.done ?_
  with_reducible refine Onward.trans ?_ (State.usdo_onward _ _)
  exact Onward.refl _

theorem execUsdoSegmentedUploadInit_onward (t : Nat) (node : Nat) (index : Nat) (sub : Nat) (s : State) : Goes (State.advance s t) (execUsdoSegmentedUploadInit t node index sub s) := by
  unfold execUsdoSegmentedUploadInit
  refine Goes.done ?_
  with_reducible refine Onward.trans ?_ (State.usdo_onward _ _)
  exact Onward.refl _

theorem execUsdoUploadSegment_onward (t : Nat) (node : Nat) (s : State) : Goes (State.advance s t) (execUsdoUploadSegment t node s) := by
  unfold execUsdoUploadSegment
  refine Goes.done ?_
  with_reducible refine Onward.trans ?_ (State.usdo_onward _ _)
  exact Onward.refl _

theorem execUsdoSegmentedDownloadInit_onward (t : Nat) (node : Nat) (index : Nat) (sub : Nat) (total : Nat) (bytes : Bytes) (s : State) : Goes (State.advance s t) (execUsdoSegmentedDownloadInit t node index sub total bytes s) := by
  unfold execUsdoSegmentedDownloadInit
  refine Goes.done ?_
  with_reducible refine Onward.trans ?_ (State.usdo_onward _ _)
  exact Onward.refl _

theorem execUsdoDownloadSegment_onward (t : Nat) (node : Nat) (bytes : Bytes) (last : Bool) (s : State) : Goes (State.advance s t) (execUsdoDownloadSegment t node bytes last s) := by
  unfold execUsdoDownloadSegment
  refine Goes.done ?_
  with_reducible refine Onward.trans ?_ (State.usdo_onward _ _)
  exact Onward.refl _

theorem execUsdoAbort_onward (t : Nat) (node : Nat) (s : State) : Goes (State.advance s t) (execUsdoAbort t node s) := by
  unfold execUsdoAbort
  refine Goes.done ?_
  with_reducible refine Onward.trans ?_ (State.usdo_onward _ _)
  exact Onward.refl _

theorem execUsdoTimeout_onward (t : Nat) (node : Nat) (s : State) : Goes (State.advance s t) (execUsdoTimeout t node s) := by
  unfold execUsdoTimeout
  extract_lets +onlyGivenNames v1
  have h1 : Onward (s.advance t) v1 := by
    subst v1
    exact Onward.refl _
  try clear_value v1
  refine Goes.done ?_
  split
  · refine Onward.ite ?_ ?_
    · with_reducible refine Onward.trans ?_ (State.usdoAbort_onward _ _ _ _ _)
      with_reducible refine Onward.trans ?_ (State.dropTransfer_onward _ _)
      assumption
    · assumption
  · assumption

theorem State.nmt_onward (s : State) (node : Nat) (f : State → State × Bool) (hf : ∀ s, Onward s (f s).1) : Onward s (State.nmt s node f) := by
  unfold State.nmt
  refine Onward.ite (.refl _) (Onward.ite (State.canRx_onward ..) ?_)
  extract_lets v1 vm v2 x
  have h1 : Onward s v1 := State.canRx_onward ..
  have h2 : Onward s v2 := (Onward.upd h1 rfl).trans (State.wakeLull_onward ..)
  have h3 : Onward s x.1 := h2.trans (hf ..)
  exact Onward.ite (h1.trans (State.bump_onward ..)) (Onward.ite h3 (h3.trans (State.bump_onward ..)))

theorem State.commReset_onward (s : State) : Onward s (State.commReset s) := by
  unfold State.commReset
  with_reducible refine Onward.trans ?_ (State.bootUp_onward _)
  with_reducible refine Onward.trans ?_ (State.abortTransfers_onward _)
  exact Onward.refl _

theorem execNmtStartRemoteNode_onward (t : Nat) (node : Nat) (s : State) : Goes (State.advance s t) (execNmtStartRemoteNode t node s) := by
  unfold execNmtStartRemoteNode
  extract_lets +onlyGivenNames v1
  have h1 : Onward (s.advance t) v1 := by
    subst v1
    exact Onward.refl _
  try clear_value v1
  refine Goes.done ?_
  with_reducible refine Onward.trans ?_ (State.nmt_onward _ _ _ (fun z2 => ?_))
  · assumption
  · with_reducible refine Onward.trans ?_ (State.requestMode_onward _ _ _)
    exact Onward.refl _

theorem execNmtStopRemoteNode_onward (t : Nat) (node : Nat) (s : State) : Goes (State.advance s t) (execNmtStopRemoteNode t node s) := by
  unfold execNmtStopRemoteNode
  extract_lets +onlyGivenNames v1
  have h1 : Onward (s.advance t) v1 := by
    subst v1
    exact Onward.refl _
  try clear_value v1
  refine Goes.done ?_
  with_reducible refine Onward.trans ?_ (State.nmt_onward _ _ _ (fun z2 => ?_))
  · assumption
  · with_reducible refine Onward.trans ?_ (State.requestMode_onward _ _ _)
    exact Onward.refl _

theorem execNmtEnterPreOperational_onward (t : Nat) (node : Nat) (s : State) : Goes (State.advance s t) (execNmtEnterPreOperational t node s) := by
  unfold execNmtEnterPreOperational
  extract_lets +onlyGivenNames v1
  have h1 : Onward (s.advance t) v1 := by
    subst v1
    exact Onward.refl _
  try clear_value v1
  refine Goes.done ?_
  with_reducible refine Onward.trans ?_ (State.nmt_onward _ _ _ (fun z2 => ?_))
  · assumption
  · with_reducible refine Onward.trans ?_ (State.requestMode_onward _ _ _)
    exact Onward.refl _

theorem execNmtResetNode_onward (t : Nat) (node : Nat) (s : State) : Goes (State.advance s t) (execNmtResetNode t node s) := by
  unfold execNmtResetNode
  extract_lets +onlyGivenNames v1
  have h1 : Onward (s.advance t) v1 := by
    subst v1
    exact Onward.refl _
  try clear_value v1
  refine Goes.done ?_
  with_reducible refine Onward.trans ?_ (State.nmt_onward _ _ _ (fun z2 => ?_))
  · assumption
  · extract_lets +onlyGivenNames v3
    have h3 : Onward z2 v3 := by
      subst v3
      with_reducible refine Onward.trans ?_ (State.commReset_onward _)
      exact Onward.refl _
    try clear_value v3
    refine Onward.fst_mk ?_
    split
    · assumption
    · assumption
    · with_reducible refine Onward.trans ?_ (State.resetFlush_onward _ _)
      assumption

theorem execNmtResetCommunication_onward (t : Nat) (node : Nat) (s : State) : Goes (State.advance s t) (execNmtResetCommunication t node s) := by
  unfold execNmtResetCommunication
  extract_lets +onlyGivenNames v1
  have h1 : Onward (s.advance t) v1 := by
    subst v1
    exact Onward.refl _
  try clear_value v1
  refine Goes.done ?_
  with_reducible refine Onward.trans ?_ (State.nmt_onward _ _ _ (fun z2 => ?_))
  · assumption
  · refine Onward.fst_mk ?_
    with_reducible refine Onward.trans ?_ (State.commReset_onward _)
    exact Onward.refl _

theorem execTimeFrame_onward (t : Nat) (cobid : Nat) (ms : Nat) (days : Nat) (s : State) : Goes (State.advance s t) (execTimeFrame t cobid ms days s) := by
  unfold execTimeFrame
  extract_lets +onlyGivenNames v1
  have h1 : Onward (s.advance t) v1 := by
    subst v1
    exact Onward.refl _
  try clear_value v1
  extract_lets +onlyGivenNames v2
  try clear_value v2
  refine Goes.done ?_
  refine Onward.ite ?_ ?_
  · assumption
  · refine Onward.ite ?_ ?_
    · extract_lets +onlyGivenNames v3
      have h3 : Onward (s.advance t) v3 := by
        subst v3
        with_reducible refine Onward.trans ?_ (State.bump_onward _ _)
        with_reducible refine Onward.trans ?_ (State.canRx_onward _ _)
        assumption
      try clear_value v3
      refine Onward.ite ?_ ?_
      · assumption
      · extract_lets +onlyGivenNames v6
        have h6 : Onward (s.advance t) v6 := by
          subst v6
          with_reducible refine Onward.trans ?_ (State.setRtc_onward _ _)
          assumption
        try clear_value v6
        refine Onward.upd ?_ rfl
        assumption
    · with_reducible refine Onward.trans ?_ (State.canRx_onward _ _)
      assumption

theorem execWakeFrame_onward (t : Nat) (s : State) : Goes (State.advance s t) (execWakeFrame t s) := by
  unfold execWakeFrame
  extract_lets +onlyGivenNames v1
  have h1 : Onward (s.advance t) v1 := by
    subst v1
    exact Onward.refl _
  try clear_value v1
  refine Goes.done ?_
  refine Onward.ite ?_ ?_
  · with_reducible refine Onward.trans ?_ (State.canRx_onward _ _)
    assumption
  · assumption

theorem execCanWakeDominant_onward (t : Nat) (durNs : Nat) (takes : Bool) (s : State) : Goes (State.advance s t) (execCanWakeDominant t durNs takes s) := by
  unfold execCanWakeDominant
  extract_lets +onlyGivenNames v1
  have h1 : Onward (s.advance t) v1 := by
    subst v1
    exact Onward.refl _
  try clear_value v1
  extract_lets +onlyGivenNames v2
  try clear_value v2
  refine Goes.done ?_
  refine Onward.ite ?_ ?_
  · extract_lets +onlyGivenNames v3
    have h3 : Onward (s.advance t) v3 := by
      subst v3
      with_reducible refine Onward.trans ?_ (State.setSrc_onward _ _ _)
      assumption
    try clear_value v3
    refine Onward.upd ?_ rfl
    assumption
  · assumption

theorem execWakeIdleTimeout_onward (t : Nat) (s : State) : Goes (State.advance s t) (execWakeIdleTimeout t s) := by
  unfold execWakeIdleTimeout
  extract_lets +onlyGivenNames v1
  have h1 : Onward (s.advance t) v1 := by
    subst v1
    exact Onward.refl _
  try clear_value v1
  refine Goes.done ?_
  refine Onward.ite ?_ ?_
  · extract_lets +onlyGivenNames v2
    have h2 : Onward (s.advance t) v2 := by
      subst v2
      with_reducible refine Onward.trans ?_ (State.setSrc_onward _ _ _)
      assumption
    try clear_value v2
    refine Onward.upd ?_ rfl
    assumption
  · assumption

theorem execHeartbeat_onward (t : Nat) (s : State) : Goes (State.advance s t) (execHeartbeat t s) := by
  unfold execHeartbeat
  extract_lets +onlyGivenNames v1
  have h1 : Onward (s.advance t) v1 := by
    subst v1
    exact Onward.refl _
  try clear_value v1
  refine Goes.done ?_
  refine Onward.ite ?_ ?_
  · with_reducible refine Onward.trans ?_ (State.heartbeatNow_onward _)
    assumption
  · assumption

theorem execEmcySend_onward (t : Nat) (s : State) : Goes (State.advance s t) (execEmcySend t s) := by
  unfold execEmcySend
  extract_lets +onlyGivenNames v1
  have h1 : Onward (s.advance t) v1 := by
    subst v1
    exact Onward.refl _
  try clear_value v1
  extract_lets +onlyGivenNames v2
  try clear_value v2
  refine Goes.done ?_
  split
  · assumption
  · refine Onward.ite ?_ ?_
    · extract_lets +onlyGivenNames v3
      have h3 : Onward (s.advance t) v3 := by
        subst v3
        with_reducible refine Onward.trans ?_ (State.canSend_onward _ _ _)
        assumption
      try clear_value v3
      refine Onward.upd ?_ rfl
      assumption
    · assumption

theorem execCanBusOffRecovery_onward (t : Nat) (s : State) : Goes (State.advance s t) (execCanBusOffRecovery t s) := by
  unfold execCanBusOffRecovery
  extract_lets +onlyGivenNames v1
  have h1 : Onward (s.advance t) v1 := by
    subst v1
    exact Onward.refl _
  try clear_value v1
  refine Goes.done ?_
  refine Onward.ite ?_ ?_
  · with_reducible refine Onward.trans ?_ (State.emcy_onward _ _ _ _ _)
    with_reducible refine Onward.trans ?_ (State.bump_onward _ _)
    assumption
  · assumption

theorem execCanErrorPassive_onward (t : Nat) (s : State) : Goes (State.advance s t) (execCanErrorPassive t s) := by
  unfold execCanErrorPassive
  extract_lets +onlyGivenNames v1
  have h1 : Onward (s.advance t) v1 := by
    subst v1
    exact Onward.refl _
  try clear_value v1
  refine Goes.done ?_
  refine Onward.ite ?_ ?_
  · with_reducible refine Onward.trans ?_ (State.emcy_onward _ _ _ _ _)
    with_reducible refine Onward.trans ?_ (State.condOn_onward _ _)
    refine Onward.upd ?_ rfl
    assumption
  · assumption

theorem execCanErrorPassiveEnd_onward (t : Nat) (s : State) : Goes (State.advance s t) (execCanErrorPassiveEnd t s) := by
  unfold execCanErrorPassiveEnd
  extract_lets +onlyGivenNames v1
  have h1 : Onward (s.advance t) v1 := by
    subst v1
    exact Onward.refl _
  try clear_value v1
  refine Goes.done ?_
  refine Onward.ite ?_ ?_
  · with_reducible refine Onward.trans ?_ (State.condOff_onward _ _)
    refine Onward.upd ?_ rfl
    assumption
  · assumption

theorem State.handoverPlaces_onward (s : State) : Onward s (State.handoverPlaces s).2 := by
  unfold State.handoverPlaces
  split
  split
  split
  split
  refine Onward.snd_mk ?_
  refine Onward.trans ?_ (State.drawFree_onward_eq (by assumption))
  refine Onward.trans ?_ (State.drawFree_onward_eq (by assumption))
  refine Onward.trans ?_ (State.drawFree_onward_eq (by assumption))
  refine Onward.trans ?_ (State.drawFree_onward_eq (by assumption))
  exact Onward.refl _
theorem State.handoverPlaces_onward_eq {s : State} {r1 r2} (hres : State.handoverPlaces s = (r2, r1)) : Onward s r1 := by
  have k := State.handoverPlaces_onward s
  rw [hres] at k
  exact k

theorem execActivationPauseStart_onward (t : Nat) (s : State) : Goes (State.advance s t) (execActivationPauseStart t s) := by
  unfold execActivationPauseStart
  extract_lets +onlyGivenNames v1
  have h1 : Onward (s.advance t) v1 := by
    subst v1
    exact Onward.refl _
  try clear_value v1
  refine Goes.done ?_
  refine Onward.ite ?_ ?_
  · extract_lets +onlyGivenNames v2
    try clear_value v2
    extract_lets +onlyGivenNames v3
    try clear_value v3
    extract_lets +onlyGivenNames v4
    have h4 : Onward (s.advance t) v4 := by
      subst v4
      with_reducible refine Onward.trans ?_ (State.migrate_onward _ _)
      assumption
    try clear_value v4
    split
    split
    extract_lets +onlyGivenNames v6
    try clear_value v6
    refine Onward.upd ?_ rfl
    refine Onward.trans ?_ (State.handoverPlaces_onward_eq (by assumption))
    refine Onward.trans ?_ (State.drawFree_onward_eq (by assumption))
    assumption
  · assumption

theorem execActivationTakeover_onward (t : Nat) (checks : Bool) (s : State) : Goes (State.advance s t) (execActivationTakeover t checks s) := by
  unfold execActivationTakeover
  extract_lets +onlyGivenNames v1
  have h1 : Onward (s.advance t) v1 := by
    subst v1
    exact Onward.refl _
  try clear_value v1
  refine Goes.ite ?_ ?_
  · refine State.afterReply_onward ?_
    with_reducible refine Onward.trans ?_ (State.resume_onward _)
    refine Onward.ite ?_ ?_
    · with_reducible refine Onward.trans ?_ (State.actFail_onward _ _ _)
      assumption
    · refine Onward.ite ?_ ?_
      · with_reducible refine Onward.trans ?_ (State.handoverDone_onward _)
        assumption
      · with_reducible refine Onward.trans ?_ (State.actFail_onward _ _ _)
        assumption
  · refine Goes.done ?_
    assumption

theorem execActivationRejoin_onward (t : Nat) (s : State) : Goes (State.advance s t) (execActivationRejoin t s) := by
  unfold execActivationRejoin
  extract_lets +onlyGivenNames v1
  have h1 : Onward (s.advance t) v1 := by
    subst v1
    exact Onward.refl _
  try clear_value v1
  refine Goes.done ?_
  refine Onward.ite ?_ ?_
  · extract_lets +onlyGivenNames v2
    try clear_value v2
    extract_lets +onlyGivenNames v3
    extract_lets +onlyGivenNames v4
    have h4 : Onward (s.advance t) v4 := by
      subst v4
      refine Onward.upd ?_ rfl
      assumption
    try clear_value v4
    with_reducible refine Onward.trans ?_ (State.bumpSys_onward _ _)
    with_reducible refine Onward.trans ?_ (State.event_onward _ _ _)
    assumption
  · assumption

theorem execActivationFailure_onward (t : Nat) (step : Nat) (cause : Nat) (s : State) : Goes (State.advance s t) (execActivationFailure t step cause s) := by
  unfold execActivationFailure
  extract_lets +onlyGivenNames v1
  have h1 : Onward (s.advance t) v1 := by
    subst v1
    exact Onward.refl _
  try clear_value v1
  refine Goes.ite ?_ ?_
  · refine State.afterReply_onward ?_
    with_reducible refine Onward.trans ?_ (State.resume_onward _)
    with_reducible refine Onward.trans ?_ (State.actFail_onward _ _ _)
    assumption
  · refine Goes.done ?_
    assumption

theorem execFwCopyComplete_onward (t : Nat) (ok : Bool) (s : State) : Goes (State.advance s t) (execFwCopyComplete t ok s) := by
  unfold execFwCopyComplete
  extract_lets +onlyGivenNames v1
  have h1 : Onward (s.advance t) v1 := by
    subst v1
    exact Onward.refl _
  try clear_value v1
  extract_lets +onlyGivenNames v2
  try clear_value v2
  refine Goes.done ?_
  refine Onward.ite ?_ ?_
  · extract_lets +onlyGivenNames v3
    try clear_value v3
    refine Onward.ite ?_ ?_
    · extract_lets +onlyGivenNames v4
      have h4 : Onward (s.advance t) v4 := by
        subst v4
        with_reducible refine Onward.trans ?_ (State.setStaged_onward _ _)
        with_reducible refine Onward.trans ?_ (State.setSlot_onward _ _ _)
        assumption
      try clear_value v4
      refine Onward.ite ?_ ?_
      · with_reducible refine Onward.trans ?_ (State.laceOffer_onward _ _)
        assumption
      · assumption
    · with_reducible refine Onward.trans ?_ (State.event_onward _ _ _)
      with_reducible refine Onward.trans ?_ (State.setStaged_onward _ _)
      assumption
  · assumption

theorem execLaceForward_onward (t : Nat) (s : State) : Goes (State.advance s t) (execLaceForward t s) := by
  unfold execLaceForward
  refine Goes.done ?_
  with_reducible refine Onward.trans ?_ (State.laceNext_onward _)
  exact Onward.refl _

theorem execLaceSkipTimeout_onward (t : Nat) (s : State) : Goes (State.advance s t) (execLaceSkipTimeout t s) := by
  unfold execLaceSkipTimeout
  extract_lets +onlyGivenNames v1
  have h1 : Onward (s.advance t) v1 := by
    subst v1
    exact Onward.refl _
  try clear_value v1
  extract_lets +onlyGivenNames v2
  try clear_value v2
  refine Goes.done ?_
  refine Onward.ite ?_ ?_
  · with_reducible refine Onward.trans ?_ (State.laceSkip_onward _ _)
    assumption
  · assumption

theorem State.laceSegment_onward (s : State) (status : Nat) (body : Bytes) : Onward s (State.laceSegment s status body) := by
  unfold State.laceSegment
  extract_lets +onlyGivenNames v1
  try clear_value v1
  refine Onward.ite ?_ ?_
  · refine Onward.upd ?_ rfl
    exact Onward.refl _
  · refine Onward.ite ?_ ?_
    · with_reducible refine Onward.trans ?_ (State.laceSkip_onward _ _)
      exact Onward.refl _
    · extract_lets +onlyGivenNames v3
      try clear_value v3
      extract_lets +onlyGivenNames v4
      extract_lets +onlyGivenNames v5
      extract_lets +onlyGivenNames v6
      have h6 : Onward s v6 := by
        subst v6
        refine Onward.upd ?_ rfl
        exact Onward.refl _
      try clear_value v6
      with_reducible refine Onward.trans ?_ (State.laceNext_onward _)
      assumption

theorem execLaceReply_onward (t : Nat) (r : PeerReply) (s : State) : Goes (State.advance s t) (execLaceReply t r s) := by
  unfold execLaceReply
  extract_lets +onlyGivenNames v1
  have h1 : Onward (s.advance t) v1 := by
    subst v1
    exact Onward.refl _
  try clear_value v1
  refine Goes.done ?_
  split
  · refine Onward.trans ?_ (State.peerReply_onward_eq (by assumption))
    assumption
  · extract_lets +onlyGivenNames v2
    try clear_value v2
    refine Onward.ite ?_ ?_
    · refine Onward.trans ?_ (State.peerReply_onward_eq (by assumption))
      assumption
    · refine Onward.ite ?_ ?_
      · with_reducible refine Onward.trans ?_ (State.laceSegment_onward _ _ _)
        refine Onward.trans ?_ (State.peerReply_onward_eq (by assumption))
        assumption
      · refine Onward.ite ?_ ?_
        · refine Onward.upd ?_ rfl
          refine Onward.trans ?_ (State.peerReply_onward_eq (by assumption))
          assumption
        · refine Onward.trans ?_ (State.peerReply_onward_eq (by assumption))
          assumption

theorem execEventBatchAppend_onward (t : Nat) (s : State) : Goes (State.advance s t) (execEventBatchAppend t s) := by
  unfold execEventBatchAppend
  extract_lets +onlyGivenNames v1
  have h1 : Onward (s.advance t) v1 := by
    subst v1
    exact Onward.refl _
  try clear_value v1
  extract_lets +onlyGivenNames v2
  try clear_value v2
  extract_lets +onlyGivenNames v3
  try clear_value v3
  refine Goes.ite ?_ ?_
  · refine State.afterReply_onward ?_
    with_reducible refine Onward.trans ?_ (State.logTrim_onward _)
    with_reducible refine Onward.trans ?_ (State.appendBatch_onward _)
    assumption
  · refine Goes.done ?_
    assumption

theorem execOperatingSecondsSave_onward (t : Nat) (s : State) : Goes (State.advance s t) (execOperatingSecondsSave t s) := by
  unfold execOperatingSecondsSave
  extract_lets +onlyGivenNames v1
  have h1 : Onward (s.advance t) v1 := by
    subst v1
    exact Onward.refl _
  try clear_value v1
  extract_lets +onlyGivenNames v2
  try clear_value v2
  refine Goes.done ?_
  refine Onward.ite ?_ ?_
  · refine Onward.upd ?_ rfl
    assumption
  · assumption

theorem execSmbusPoll_onward (t : Nat) (results : List (Nat × Nat)) (s : State) : Goes (State.advance s t) (execSmbusPoll t results s) := by
  unfold execSmbusPoll
  extract_lets +onlyGivenNames v1
  have h1 : Onward (s.advance t) v1 := by
    subst v1
    exact Onward.refl _
  try clear_value v1
  extract_lets +onlyGivenNames v2
  try clear_value v2
  extract_lets +onlyGivenNames v3
  try clear_value v3
  extract_lets +onlyGivenNames v4
  try clear_value v4
  refine Goes.done ?_
  refine Onward.ite ?_ ?_
  · extract_lets +onlyGivenNames v5
    try clear_value v5
    extract_lets +onlyGivenNames v6
    have h6 : Onward (s.advance t) v6 := by
      subst v6
      refine Onward.upd ?_ rfl
      assumption
    try clear_value v6
    extract_lets +onlyGivenNames v7
    have h7 : Onward (s.advance t) v7 := by
      subst v7
      with_reducible refine Onward.trans ?_ (State.setStr_onward _ _ _)
      assumption
    try clear_value v7
    with_reducible refine Onward.trans ?_ (State.addTo_onward _ _ _)
    assumption
  · assumption

theorem State.mbxStore_onward (s : State) (o : Nat) (v : Nat) : Onward s (State.mbxStore s o v) := by
  unfold State.mbxStore
  split
  · refine Onward.upd ?_ rfl
    exact Onward.refl _
  · refine Onward.upd ?_ rfl
    exact Onward.refl _
  · exact Onward.refl _

theorem State.dmaStore_onward (s : State) (n : Nat) (o : Nat) (v : Nat) : Onward s (State.dmaStore s n o v) := by
  unfold State.dmaStore
  extract_lets +onlyGivenNames v1
  try clear_value v1
  split
  · refine Onward.ite ?_ ?_
    · exact Onward.refl _
    · with_reducible refine Onward.trans ?_ (State.setCh_onward _ _ _)
      exact Onward.refl _
  · with_reducible refine Onward.trans ?_ (State.setCh_onward _ _ _)
    exact Onward.refl _
  · with_reducible refine Onward.trans ?_ (State.setCh_onward _ _ _)
    exact Onward.refl _
  · exact Onward.refl _

theorem State.awlBadOp_onward (s : State) (v : Nat) : Onward s (State.awlBadOp s v) := by
  unfold State.awlBadOp
  refine Onward.ite ?_ ?_
  · exact Onward.refl _
  · refine Onward.ite ?_ ?_
    · with_reducible refine Onward.trans ?_ (State.siteErr_onward _ _)
      exact Onward.refl _
    · with_reducible refine Onward.trans ?_ (State.siteErr_onward _ _)
      with_reducible refine Onward.trans ?_ (State.awlSettle_onward _)
      exact Onward.refl _

theorem State.awlStore_onward (s : State) (o : Nat) (v : Nat) : Onward s (State.awlStore s o v) := by
  unfold State.awlStore
  extract_lets +onlyGivenNames v1
  try clear_value v1
  refine Onward.ite ?_ ?_
  · with_reducible refine Onward.trans ?_ (State.awlBadOp_onward _ _)
    exact Onward.refl _
  · refine Onward.ite ?_ ?_
    · extract_lets +onlyGivenNames v3
      try clear_value v3
      refine Onward.upd ?_ rfl
      exact Onward.refl _
    · refine Onward.ite ?_ ?_
      · refine Onward.upd ?_ rfl
        exact Onward.refl _
      · refine Onward.ite ?_ ?_
        · refine Onward.upd ?_ rfl
          exact Onward.refl _
        · refine Onward.ite ?_ ?_
          · refine Onward.upd ?_ rfl
            exact Onward.refl _
          · refine Onward.ite ?_ ?_
            · refine Onward.upd ?_ rfl
              exact Onward.refl _
            · refine Onward.ite ?_ ?_
              · refine Onward.upd ?_ rfl
                exact Onward.refl _
              · refine Onward.ite ?_ ?_
                · refine Onward.upd ?_ rfl
                  exact Onward.refl _
                · refine Onward.ite ?_ ?_
                  · refine Onward.upd ?_ rfl
                    exact Onward.refl _
                  · exact Onward.refl _

theorem State.evrStore_onward (s : State) (o : Nat) (v : Nat) : Onward s (State.evrStore s o v) := by
  unfold State.evrStore
  extract_lets +onlyGivenNames v1
  try clear_value v1
  split
  · refine Onward.upd ?_ rfl
    exact Onward.refl _
  · refine Onward.upd ?_ rfl
    exact Onward.refl _
  · refine Onward.upd ?_ rfl
    exact Onward.refl _
  · refine Onward.upd ?_ rfl
    exact Onward.refl _
  · refine Onward.upd ?_ rfl
    exact Onward.refl _
  · refine Onward.upd ?_ rfl
    exact Onward.refl _
  · refine Onward.upd ?_ rfl
    exact Onward.refl _
  · refine Onward.upd ?_ rfl
    exact Onward.refl _
  · exact Onward.refl _

theorem State.cpcStore_onward (s : State) (o : Nat) (v : Nat) : Onward s (State.cpcStore s o v) := by
  unfold State.cpcStore
  split
  · refine Onward.upd ?_ rfl
    exact Onward.refl _
  · refine Onward.upd ?_ rfl
    exact Onward.refl _
  · refine Onward.upd ?_ rfl
    exact Onward.refl _
  · exact Onward.refl _

theorem State.fmcStore_onward (s : State) (o : Nat) (v : Nat) : Onward s (State.fmcStore s o v) := by
  unfold State.fmcStore
  extract_lets +onlyGivenNames v1
  try clear_value v1
  split
  · with_reducible refine Onward.trans ?_ (State.setFmc_onward _ _)
    exact Onward.refl _
  · with_reducible refine Onward.trans ?_ (State.setFmc_onward _ _)
    exact Onward.refl _
  · with_reducible refine Onward.trans ?_ (State.setFmc_onward _ _)
    exact Onward.refl _
  · exact Onward.refl _

theorem State.tmrStore_onward (s : State) (o : Nat) (v : Nat) : Onward s (State.tmrStore s o v) := by
  unfold State.tmrStore
  split
  · refine Onward.upd ?_ rfl
    exact Onward.refl _
  · refine Onward.upd ?_ rfl
    exact Onward.refl _
  · exact Onward.refl _

theorem State.memStore_onward (s : State) (a v : Nat) : Onward s (State.memStore s a v) := by
  unfold State.memStore
  extract_lets on
  split
  · exact Onward.updMem (.refl s) (memWrite_wf _ _) rfl
  · exact .refl _

theorem execRegisterWrite_onward (t : Nat) (addr : Nat) (value : Nat) (s : State) : Goes (State.advance s t) (execRegisterWrite t addr value s) := by
  unfold execRegisterWrite
  extract_lets +onlyGivenNames v1
  have h1 : Onward (s.advance t) v1 := by
    subst v1
    exact Onward.refl _
  try clear_value v1
  extract_lets +onlyGivenNames v2
  try clear_value v2
  extract_lets +onlyGivenNames v3
  try clear_value v3
  refine Goes.done ?_
  refine Onward.ite ?_ ?_
  · assumption
  · split
    · with_reducible refine Onward.trans ?_ (State.mbxStore_onward _ _ _)
      assumption
    · assumption
    · with_reducible refine Onward.trans ?_ (State.dmaStore_onward _ _ _ _)
      assumption
    · refine Onward.ite ?_ ?_
      · with_reducible refine Onward.trans ?_ (State.awlStore_onward _ _ _)
        assumption
      · assumption
    · with_reducible refine Onward.trans ?_ (State.evrStore_onward _ _ _)
      assumption
    · with_reducible refine Onward.trans ?_ (State.cpcStore_onward _ _ _)
      assumption
    · with_reducible refine Onward.trans ?_ (State.fmcStore_onward _ _ _)
      assumption
    · with_reducible refine Onward.trans ?_ (State.tmrStore_onward _ _ _)
      assumption
    · with_reducible refine Onward.trans ?_ (State.memStore_onward _ _ _)
      assumption

end Sys2Proof.Machine
end

