-- ==== Sys2Proof/Laws/State.lean ====
section
/-! SUPPORT. What each named update of State leaves alone, and what it sets: one lemma per field, true by unfolding the
update once, so that no later proof unfolds a record update. -/

namespace Sys2Proof.Machine

@[simp] theorem State.advance_now (s : State) (t : Nat) : (s.advance t).now = max s.now t := rfl
@[simp] theorem State.advance_pending (s : State) (t : Nat) : (s.advance t).pending = s.pending := rfl
@[simp] theorem State.advance_out (s : State) (t : Nat) : (s.advance t).out = s.out := rfl
@[simp] theorem State.advance_mem (s : State) (t : Nat) : (s.advance t).mem = s.mem := rfl
@[simp] theorem State.advance_mode (s : State) (t : Nat) : (s.advance t).mode = s.mode := rfl
@[simp] theorem State.advance_clk (s : State) (t : Nat) : (s.advance t).clk = s.clk := rfl
@[simp] theorem State.advance_eth (s : State) (t : Nat) : (s.advance t).eth = s.eth := rfl
@[simp] theorem State.advance_shelf (s : State) (t : Nat) : (s.advance t).shelf = s.shelf := rfl
@[simp] theorem State.advance_dict (s : State) (t : Nat) : (s.advance t).dict = s.dict := rfl
@[simp] theorem State.advance_evs (s : State) (t : Nat) : (s.advance t).evs = s.evs := rfl
@[simp] theorem State.advance_site (s : State) (t : Nat) : (s.advance t).site = s.site := rfl
@[simp] theorem State.advance_dma (s : State) (t : Nat) : (s.advance t).dma = s.dma := rfl
@[simp] theorem State.advance_fw (s : State) (t : Nat) : (s.advance t).fw = s.fw := rfl
@[simp] theorem State.advance_sec (s : State) (t : Nat) : (s.advance t).sec = s.sec := rfl
@[simp] theorem State.advance_net (s : State) (t : Nat) : (s.advance t).net = s.net := rfl
@[simp] theorem State.advance_kv (s : State) (t : Nat) : (s.advance t).kv = s.kv := rfl
@[simp] theorem State.advance_shank (s : State) (t : Nat) : (s.advance t).shank = s.shank := rfl
@[simp] theorem State.advance_idx (s : State) (t : Nat) : (s.advance t).idx = s.idx := rfl
@[simp] theorem State.advance_awl (s : State) (t : Nat) : (s.advance t).awl = s.awl := rfl
@[simp] theorem State.advance_welt (s : State) (t : Nat) : (s.advance t).welt = s.welt := rfl
@[simp] theorem State.advance_media (s : State) (t : Nat) : (s.advance t).media = s.media := rfl
@[simp] theorem State.advance_sets (s : State) (t : Nat) : (s.advance t).sets = s.sets := rfl
@[simp] theorem State.advance_free (s : State) (t : Nat) : (s.advance t).free = s.free := rfl

@[simp] theorem State.stirred_now (s : State) : (s.stirred).now = s.now := rfl
@[simp] theorem State.stirred_pending (s : State) : (s.stirred).pending = s.pending := rfl
@[simp] theorem State.stirred_out (s : State) : (s.stirred).out = s.out := rfl
@[simp] theorem State.stirred_mem (s : State) : (s.stirred).mem = s.mem := rfl
@[simp] theorem State.stirred_mode (s : State) : (s.stirred).mode = { s.mode with idleSince := s.now } := rfl
@[simp] theorem State.stirred_clk (s : State) : (s.stirred).clk = s.clk := rfl
@[simp] theorem State.stirred_eth (s : State) : (s.stirred).eth = s.eth := rfl
@[simp] theorem State.stirred_shelf (s : State) : (s.stirred).shelf = s.shelf := rfl
@[simp] theorem State.stirred_dict (s : State) : (s.stirred).dict = s.dict := rfl
@[simp] theorem State.stirred_evs (s : State) : (s.stirred).evs = s.evs := rfl
@[simp] theorem State.stirred_site (s : State) : (s.stirred).site = s.site := rfl
@[simp] theorem State.stirred_dma (s : State) : (s.stirred).dma = s.dma := rfl
@[simp] theorem State.stirred_fw (s : State) : (s.stirred).fw = s.fw := rfl
@[simp] theorem State.stirred_sec (s : State) : (s.stirred).sec = s.sec := rfl
@[simp] theorem State.stirred_net (s : State) : (s.stirred).net = s.net := rfl
@[simp] theorem State.stirred_kv (s : State) : (s.stirred).kv = s.kv := rfl
@[simp] theorem State.stirred_shank (s : State) : (s.stirred).shank = s.shank := rfl
@[simp] theorem State.stirred_idx (s : State) : (s.stirred).idx = s.idx := rfl
@[simp] theorem State.stirred_awl (s : State) : (s.stirred).awl = s.awl := rfl
@[simp] theorem State.stirred_welt (s : State) : (s.stirred).welt = s.welt := rfl
@[simp] theorem State.stirred_media (s : State) : (s.stirred).media = s.media := rfl
@[simp] theorem State.stirred_sets (s : State) : (s.stirred).sets = s.sets := rfl
@[simp] theorem State.stirred_free (s : State) : (s.stirred).free = s.free := rfl

@[simp] theorem State.emit_now (s : State) (o : Out) : (s.emit o).now = s.now := rfl
@[simp] theorem State.emit_pending (s : State) (o : Out) : (s.emit o).pending = s.pending := rfl
@[simp] theorem State.emit_out (s : State) (o : Out) : (s.emit o).out = s.out ++ [o] := rfl
@[simp] theorem State.emit_mem (s : State) (o : Out) : (s.emit o).mem = s.mem := rfl
@[simp] theorem State.emit_mode (s : State) (o : Out) : (s.emit o).mode = s.mode := rfl
@[simp] theorem State.emit_clk (s : State) (o : Out) : (s.emit o).clk = s.clk := rfl
@[simp] theorem State.emit_eth (s : State) (o : Out) : (s.emit o).eth = s.eth := rfl
@[simp] theorem State.emit_shelf (s : State) (o : Out) : (s.emit o).shelf = s.shelf := rfl
@[simp] theorem State.emit_dict (s : State) (o : Out) : (s.emit o).dict = s.dict := rfl
@[simp] theorem State.emit_evs (s : State) (o : Out) : (s.emit o).evs = s.evs := rfl
@[simp] theorem State.emit_site (s : State) (o : Out) : (s.emit o).site = s.site := rfl
@[simp] theorem State.emit_dma (s : State) (o : Out) : (s.emit o).dma = s.dma := rfl
@[simp] theorem State.emit_fw (s : State) (o : Out) : (s.emit o).fw = s.fw := rfl
@[simp] theorem State.emit_sec (s : State) (o : Out) : (s.emit o).sec = s.sec := rfl
@[simp] theorem State.emit_net (s : State) (o : Out) : (s.emit o).net = s.net := rfl
@[simp] theorem State.emit_kv (s : State) (o : Out) : (s.emit o).kv = s.kv := rfl
@[simp] theorem State.emit_shank (s : State) (o : Out) : (s.emit o).shank = s.shank := rfl
@[simp] theorem State.emit_idx (s : State) (o : Out) : (s.emit o).idx = s.idx := rfl
@[simp] theorem State.emit_awl (s : State) (o : Out) : (s.emit o).awl = s.awl := rfl
@[simp] theorem State.emit_welt (s : State) (o : Out) : (s.emit o).welt = s.welt := rfl
@[simp] theorem State.emit_media (s : State) (o : Out) : (s.emit o).media = s.media := rfl
@[simp] theorem State.emit_sets (s : State) (o : Out) : (s.emit o).sets = s.sets := rfl
@[simp] theorem State.emit_free (s : State) (o : Out) : (s.emit o).free = s.free := rfl

@[simp] theorem State.random_now (s : State) (n : Nat) : ((s.random n).2).now = s.now := rfl
@[simp] theorem State.random_pending (s : State) (n : Nat) : ((s.random n).2).pending = s.pending := rfl
@[simp] theorem State.random_out (s : State) (n : Nat) : ((s.random n).2).out = s.out := rfl
@[simp] theorem State.random_mem (s : State) (n : Nat) : ((s.random n).2).mem = s.mem := rfl
@[simp] theorem State.random_mode (s : State) (n : Nat) : ((s.random n).2).mode = s.mode := rfl
@[simp] theorem State.random_clk (s : State) (n : Nat) : ((s.random n).2).clk = s.clk := rfl
@[simp] theorem State.random_eth (s : State) (n : Nat) : ((s.random n).2).eth = s.eth := rfl
@[simp] theorem State.random_shelf (s : State) (n : Nat) : ((s.random n).2).shelf = s.shelf := rfl
@[simp] theorem State.random_dict (s : State) (n : Nat) : ((s.random n).2).dict = s.dict := rfl
@[simp] theorem State.random_evs (s : State) (n : Nat) : ((s.random n).2).evs = s.evs := rfl
@[simp] theorem State.random_site (s : State) (n : Nat) : ((s.random n).2).site = s.site := rfl
@[simp] theorem State.random_dma (s : State) (n : Nat) : ((s.random n).2).dma = s.dma := rfl
@[simp] theorem State.random_fw (s : State) (n : Nat) : ((s.random n).2).fw = s.fw := rfl
@[simp] theorem State.random_sec (s : State) (n : Nat) : ((s.random n).2).sec = { s.sec with drawn := s.sec.drawn + n } := rfl
@[simp] theorem State.random_net (s : State) (n : Nat) : ((s.random n).2).net = s.net := rfl
@[simp] theorem State.random_kv (s : State) (n : Nat) : ((s.random n).2).kv = s.kv := rfl
@[simp] theorem State.random_shank (s : State) (n : Nat) : ((s.random n).2).shank = s.shank := rfl
@[simp] theorem State.random_idx (s : State) (n : Nat) : ((s.random n).2).idx = s.idx := rfl
@[simp] theorem State.random_awl (s : State) (n : Nat) : ((s.random n).2).awl = s.awl := rfl
@[simp] theorem State.random_welt (s : State) (n : Nat) : ((s.random n).2).welt = s.welt := rfl
@[simp] theorem State.random_media (s : State) (n : Nat) : ((s.random n).2).media = s.media := rfl
@[simp] theorem State.random_sets (s : State) (n : Nat) : ((s.random n).2).sets = s.sets := rfl
@[simp] theorem State.random_free (s : State) (n : Nat) : ((s.random n).2).free = s.free := rfl

@[simp] theorem State.drawFree_now (s : State) : (s.drawFree.2).now = s.now := rfl
@[simp] theorem State.drawFree_pending (s : State) : (s.drawFree.2).pending = s.pending := rfl
@[simp] theorem State.drawFree_out (s : State) : (s.drawFree.2).out = s.out := rfl
@[simp] theorem State.drawFree_mem (s : State) : (s.drawFree.2).mem = s.mem := rfl
@[simp] theorem State.drawFree_mode (s : State) : (s.drawFree.2).mode = s.mode := rfl
@[simp] theorem State.drawFree_clk (s : State) : (s.drawFree.2).clk = s.clk := rfl
@[simp] theorem State.drawFree_eth (s : State) : (s.drawFree.2).eth = s.eth := rfl
@[simp] theorem State.drawFree_shelf (s : State) : (s.drawFree.2).shelf = s.shelf := rfl
@[simp] theorem State.drawFree_dict (s : State) : (s.drawFree.2).dict = s.dict := rfl
@[simp] theorem State.drawFree_evs (s : State) : (s.drawFree.2).evs = s.evs := rfl
@[simp] theorem State.drawFree_site (s : State) : (s.drawFree.2).site = s.site := rfl
@[simp] theorem State.drawFree_dma (s : State) : (s.drawFree.2).dma = s.dma := rfl
@[simp] theorem State.drawFree_fw (s : State) : (s.drawFree.2).fw = s.fw := rfl
@[simp] theorem State.drawFree_sec (s : State) : (s.drawFree.2).sec = s.sec := rfl
@[simp] theorem State.drawFree_net (s : State) : (s.drawFree.2).net = s.net := rfl
@[simp] theorem State.drawFree_kv (s : State) : (s.drawFree.2).kv = s.kv := rfl
@[simp] theorem State.drawFree_shank (s : State) : (s.drawFree.2).shank = s.shank := rfl
@[simp] theorem State.drawFree_idx (s : State) : (s.drawFree.2).idx = s.idx := rfl
@[simp] theorem State.drawFree_awl (s : State) : (s.drawFree.2).awl = s.awl := rfl
@[simp] theorem State.drawFree_welt (s : State) : (s.drawFree.2).welt = s.welt := rfl
@[simp] theorem State.drawFree_media (s : State) : (s.drawFree.2).media = s.media := rfl
@[simp] theorem State.drawFree_sets (s : State) : (s.drawFree.2).sets = s.sets := rfl
@[simp] theorem State.drawFree_free (s : State) : (s.drawFree.2).free = s.free + 1 := rfl

@[simp] theorem State.setVal_now (s : State) (k : Nat) (v : DVal) : (s.setVal k v).now = s.now := rfl
@[simp] theorem State.setVal_pending (s : State) (k : Nat) (v : DVal) : (s.setVal k v).pending = s.pending := rfl
@[simp] theorem State.setVal_out (s : State) (k : Nat) (v : DVal) : (s.setVal k v).out = s.out := rfl
@[simp] theorem State.setVal_mem (s : State) (k : Nat) (v : DVal) : (s.setVal k v).mem = s.mem := rfl
@[simp] theorem State.setVal_mode (s : State) (k : Nat) (v : DVal) : (s.setVal k v).mode = s.mode := rfl
@[simp] theorem State.setVal_clk (s : State) (k : Nat) (v : DVal) : (s.setVal k v).clk = s.clk := rfl
@[simp] theorem State.setVal_eth (s : State) (k : Nat) (v : DVal) : (s.setVal k v).eth = s.eth := rfl
@[simp] theorem State.setVal_shelf (s : State) (k : Nat) (v : DVal) : (s.setVal k v).shelf = s.shelf := rfl
@[simp] theorem State.setVal_dict (s : State) (k : Nat) (v : DVal) : (s.setVal k v).dict = { s.dict with vals := mapPut s.dict.vals k (dictCell k v) } := rfl
@[simp] theorem State.setVal_evs (s : State) (k : Nat) (v : DVal) : (s.setVal k v).evs = s.evs := rfl
@[simp] theorem State.setVal_site (s : State) (k : Nat) (v : DVal) : (s.setVal k v).site = s.site := rfl
@[simp] theorem State.setVal_dma (s : State) (k : Nat) (v : DVal) : (s.setVal k v).dma = s.dma := rfl
@[simp] theorem State.setVal_fw (s : State) (k : Nat) (v : DVal) : (s.setVal k v).fw = s.fw := rfl
@[simp] theorem State.setVal_sec (s : State) (k : Nat) (v : DVal) : (s.setVal k v).sec = s.sec := rfl
@[simp] theorem State.setVal_net (s : State) (k : Nat) (v : DVal) : (s.setVal k v).net = s.net := rfl
@[simp] theorem State.setVal_kv (s : State) (k : Nat) (v : DVal) : (s.setVal k v).kv = s.kv := rfl
@[simp] theorem State.setVal_shank (s : State) (k : Nat) (v : DVal) : (s.setVal k v).shank = s.shank := rfl
@[simp] theorem State.setVal_idx (s : State) (k : Nat) (v : DVal) : (s.setVal k v).idx = s.idx := rfl
@[simp] theorem State.setVal_awl (s : State) (k : Nat) (v : DVal) : (s.setVal k v).awl = s.awl := rfl
@[simp] theorem State.setVal_welt (s : State) (k : Nat) (v : DVal) : (s.setVal k v).welt = s.welt := rfl
@[simp] theorem State.setVal_media (s : State) (k : Nat) (v : DVal) : (s.setVal k v).media = s.media := rfl
@[simp] theorem State.setVal_sets (s : State) (k : Nat) (v : DVal) : (s.setVal k v).sets = s.sets := rfl
@[simp] theorem State.setVal_free (s : State) (k : Nat) (v : DVal) : (s.setVal k v).free = s.free := rfl

@[simp] theorem State.setNum_now (s : State) (k n : Nat) : (s.setNum k n).now = s.now := rfl
@[simp] theorem State.setNum_pending (s : State) (k n : Nat) : (s.setNum k n).pending = s.pending := rfl
@[simp] theorem State.setNum_out (s : State) (k n : Nat) : (s.setNum k n).out = s.out := rfl
@[simp] theorem State.setNum_mem (s : State) (k n : Nat) : (s.setNum k n).mem = s.mem := rfl
@[simp] theorem State.setNum_mode (s : State) (k n : Nat) : (s.setNum k n).mode = s.mode := rfl
@[simp] theorem State.setNum_clk (s : State) (k n : Nat) : (s.setNum k n).clk = s.clk := rfl
@[simp] theorem State.setNum_eth (s : State) (k n : Nat) : (s.setNum k n).eth = s.eth := rfl
@[simp] theorem State.setNum_shelf (s : State) (k n : Nat) : (s.setNum k n).shelf = s.shelf := rfl
@[simp] theorem State.setNum_dict (s : State) (k n : Nat) : (s.setNum k n).dict = { s.dict with vals := mapPut s.dict.vals k (dictCell k (.num n)) } := rfl
@[simp] theorem State.setNum_evs (s : State) (k n : Nat) : (s.setNum k n).evs = s.evs := rfl
@[simp] theorem State.setNum_site (s : State) (k n : Nat) : (s.setNum k n).site = s.site := rfl
@[simp] theorem State.setNum_dma (s : State) (k n : Nat) : (s.setNum k n).dma = s.dma := rfl
@[simp] theorem State.setNum_fw (s : State) (k n : Nat) : (s.setNum k n).fw = s.fw := rfl
@[simp] theorem State.setNum_sec (s : State) (k n : Nat) : (s.setNum k n).sec = s.sec := rfl
@[simp] theorem State.setNum_net (s : State) (k n : Nat) : (s.setNum k n).net = s.net := rfl
@[simp] theorem State.setNum_kv (s : State) (k n : Nat) : (s.setNum k n).kv = s.kv := rfl
@[simp] theorem State.setNum_shank (s : State) (k n : Nat) : (s.setNum k n).shank = s.shank := rfl
@[simp] theorem State.setNum_idx (s : State) (k n : Nat) : (s.setNum k n).idx = s.idx := rfl
@[simp] theorem State.setNum_awl (s : State) (k n : Nat) : (s.setNum k n).awl = s.awl := rfl
@[simp] theorem State.setNum_welt (s : State) (k n : Nat) : (s.setNum k n).welt = s.welt := rfl
@[simp] theorem State.setNum_media (s : State) (k n : Nat) : (s.setNum k n).media = s.media := rfl
@[simp] theorem State.setNum_sets (s : State) (k n : Nat) : (s.setNum k n).sets = s.sets := rfl
@[simp] theorem State.setNum_free (s : State) (k n : Nat) : (s.setNum k n).free = s.free := rfl

@[simp] theorem State.setStr_now (s : State) (k : Nat) (b : Bytes) : (s.setStr k b).now = s.now := rfl
@[simp] theorem State.setStr_pending (s : State) (k : Nat) (b : Bytes) : (s.setStr k b).pending = s.pending := rfl
@[simp] theorem State.setStr_out (s : State) (k : Nat) (b : Bytes) : (s.setStr k b).out = s.out := rfl
@[simp] theorem State.setStr_mem (s : State) (k : Nat) (b : Bytes) : (s.setStr k b).mem = s.mem := rfl
@[simp] theorem State.setStr_mode (s : State) (k : Nat) (b : Bytes) : (s.setStr k b).mode = s.mode := rfl
@[simp] theorem State.setStr_clk (s : State) (k : Nat) (b : Bytes) : (s.setStr k b).clk = s.clk := rfl
@[simp] theorem State.setStr_eth (s : State) (k : Nat) (b : Bytes) : (s.setStr k b).eth = s.eth := rfl
@[simp] theorem State.setStr_shelf (s : State) (k : Nat) (b : Bytes) : (s.setStr k b).shelf = s.shelf := rfl
@[simp] theorem State.setStr_dict (s : State) (k : Nat) (b : Bytes) : (s.setStr k b).dict = { s.dict with vals := mapPut s.dict.vals k (dictCell k (.bytes b)) } := rfl
@[simp] theorem State.setStr_evs (s : State) (k : Nat) (b : Bytes) : (s.setStr k b).evs = s.evs := rfl
@[simp] theorem State.setStr_site (s : State) (k : Nat) (b : Bytes) : (s.setStr k b).site = s.site := rfl
@[simp] theorem State.setStr_dma (s : State) (k : Nat) (b : Bytes) : (s.setStr k b).dma = s.dma := rfl
@[simp] theorem State.setStr_fw (s : State) (k : Nat) (b : Bytes) : (s.setStr k b).fw = s.fw := rfl
@[simp] theorem State.setStr_sec (s : State) (k : Nat) (b : Bytes) : (s.setStr k b).sec = s.sec := rfl
@[simp] theorem State.setStr_net (s : State) (k : Nat) (b : Bytes) : (s.setStr k b).net = s.net := rfl
@[simp] theorem State.setStr_kv (s : State) (k : Nat) (b : Bytes) : (s.setStr k b).kv = s.kv := rfl
@[simp] theorem State.setStr_shank (s : State) (k : Nat) (b : Bytes) : (s.setStr k b).shank = s.shank := rfl
@[simp] theorem State.setStr_idx (s : State) (k : Nat) (b : Bytes) : (s.setStr k b).idx = s.idx := rfl
@[simp] theorem State.setStr_awl (s : State) (k : Nat) (b : Bytes) : (s.setStr k b).awl = s.awl := rfl
@[simp] theorem State.setStr_welt (s : State) (k : Nat) (b : Bytes) : (s.setStr k b).welt = s.welt := rfl
@[simp] theorem State.setStr_media (s : State) (k : Nat) (b : Bytes) : (s.setStr k b).media = s.media := rfl
@[simp] theorem State.setStr_sets (s : State) (k : Nat) (b : Bytes) : (s.setStr k b).sets = s.sets := rfl
@[simp] theorem State.setStr_free (s : State) (k : Nat) (b : Bytes) : (s.setStr k b).free = s.free := rfl

@[simp] theorem State.setSys_now (s : State) (k : Nat) (v : DVal) : (s.setSys k v).now = s.now := rfl
@[simp] theorem State.setSys_pending (s : State) (k : Nat) (v : DVal) : (s.setSys k v).pending = s.pending := rfl
@[simp] theorem State.setSys_out (s : State) (k : Nat) (v : DVal) : (s.setSys k v).out = s.out := rfl
@[simp] theorem State.setSys_mem (s : State) (k : Nat) (v : DVal) : (s.setSys k v).mem = s.mem := rfl
@[simp] theorem State.setSys_mode (s : State) (k : Nat) (v : DVal) : (s.setSys k v).mode = s.mode := rfl
@[simp] theorem State.setSys_clk (s : State) (k : Nat) (v : DVal) : (s.setSys k v).clk = s.clk := rfl
@[simp] theorem State.setSys_eth (s : State) (k : Nat) (v : DVal) : (s.setSys k v).eth = s.eth := rfl
@[simp] theorem State.setSys_shelf (s : State) (k : Nat) (v : DVal) : (s.setSys k v).shelf = s.shelf := rfl
@[simp] theorem State.setSys_evs (s : State) (k : Nat) (v : DVal) : (s.setSys k v).evs = s.evs := rfl
@[simp] theorem State.setSys_site (s : State) (k : Nat) (v : DVal) : (s.setSys k v).site = s.site := rfl
@[simp] theorem State.setSys_dma (s : State) (k : Nat) (v : DVal) : (s.setSys k v).dma = s.dma := rfl
@[simp] theorem State.setSys_fw (s : State) (k : Nat) (v : DVal) : (s.setSys k v).fw = s.fw := rfl
@[simp] theorem State.setSys_sec (s : State) (k : Nat) (v : DVal) : (s.setSys k v).sec = s.sec := rfl
@[simp] theorem State.setSys_net (s : State) (k : Nat) (v : DVal) : (s.setSys k v).net = s.net := rfl
@[simp] theorem State.setSys_kv (s : State) (k : Nat) (v : DVal) : (s.setSys k v).kv = s.kv := rfl
@[simp] theorem State.setSys_shank (s : State) (k : Nat) (v : DVal) : (s.setSys k v).shank = s.shank := rfl
@[simp] theorem State.setSys_idx (s : State) (k : Nat) (v : DVal) : (s.setSys k v).idx = s.idx := rfl
@[simp] theorem State.setSys_awl (s : State) (k : Nat) (v : DVal) : (s.setSys k v).awl = s.awl := rfl
@[simp] theorem State.setSys_welt (s : State) (k : Nat) (v : DVal) : (s.setSys k v).welt = s.welt := rfl
@[simp] theorem State.setSys_media (s : State) (k : Nat) (v : DVal) : (s.setSys k v).media = s.media := rfl
@[simp] theorem State.setSys_sets (s : State) (k : Nat) (v : DVal) : (s.setSys k v).sets = s.sets := rfl
@[simp] theorem State.setSys_free (s : State) (k : Nat) (v : DVal) : (s.setSys k v).free = s.free := rfl

@[simp] theorem State.addTo_now (s : State) (k n : Nat) : (s.addTo k n).now = s.now := rfl
@[simp] theorem State.addTo_pending (s : State) (k n : Nat) : (s.addTo k n).pending = s.pending := rfl
@[simp] theorem State.addTo_out (s : State) (k n : Nat) : (s.addTo k n).out = s.out := rfl
@[simp] theorem State.addTo_mem (s : State) (k n : Nat) : (s.addTo k n).mem = s.mem := rfl
@[simp] theorem State.addTo_mode (s : State) (k n : Nat) : (s.addTo k n).mode = s.mode := rfl
@[simp] theorem State.addTo_clk (s : State) (k n : Nat) : (s.addTo k n).clk = s.clk := rfl
@[simp] theorem State.addTo_eth (s : State) (k n : Nat) : (s.addTo k n).eth = s.eth := rfl
@[simp] theorem State.addTo_shelf (s : State) (k n : Nat) : (s.addTo k n).shelf = s.shelf := rfl
@[simp] theorem State.addTo_evs (s : State) (k n : Nat) : (s.addTo k n).evs = s.evs := rfl
@[simp] theorem State.addTo_site (s : State) (k n : Nat) : (s.addTo k n).site = s.site := rfl
@[simp] theorem State.addTo_dma (s : State) (k n : Nat) : (s.addTo k n).dma = s.dma := rfl
@[simp] theorem State.addTo_fw (s : State) (k n : Nat) : (s.addTo k n).fw = s.fw := rfl
@[simp] theorem State.addTo_sec (s : State) (k n : Nat) : (s.addTo k n).sec = s.sec := rfl
@[simp] theorem State.addTo_net (s : State) (k n : Nat) : (s.addTo k n).net = s.net := rfl
@[simp] theorem State.addTo_kv (s : State) (k n : Nat) : (s.addTo k n).kv = s.kv := rfl
@[simp] theorem State.addTo_shank (s : State) (k n : Nat) : (s.addTo k n).shank = s.shank := rfl
@[simp] theorem State.addTo_idx (s : State) (k n : Nat) : (s.addTo k n).idx = s.idx := rfl
@[simp] theorem State.addTo_awl (s : State) (k n : Nat) : (s.addTo k n).awl = s.awl := rfl
@[simp] theorem State.addTo_welt (s : State) (k n : Nat) : (s.addTo k n).welt = s.welt := rfl
@[simp] theorem State.addTo_media (s : State) (k n : Nat) : (s.addTo k n).media = s.media := rfl
@[simp] theorem State.addTo_sets (s : State) (k n : Nat) : (s.addTo k n).sets = s.sets := rfl
@[simp] theorem State.addTo_free (s : State) (k n : Nat) : (s.addTo k n).free = s.free := rfl

@[simp] theorem State.bump_now (s : State) (k : Nat) : (s.bump k).now = s.now := rfl
@[simp] theorem State.bump_pending (s : State) (k : Nat) : (s.bump k).pending = s.pending := rfl
@[simp] theorem State.bump_out (s : State) (k : Nat) : (s.bump k).out = s.out := rfl
@[simp] theorem State.bump_mem (s : State) (k : Nat) : (s.bump k).mem = s.mem := rfl
@[simp] theorem State.bump_mode (s : State) (k : Nat) : (s.bump k).mode = s.mode := rfl
@[simp] theorem State.bump_clk (s : State) (k : Nat) : (s.bump k).clk = s.clk := rfl
@[simp] theorem State.bump_eth (s : State) (k : Nat) : (s.bump k).eth = s.eth := rfl
@[simp] theorem State.bump_shelf (s : State) (k : Nat) : (s.bump k).shelf = s.shelf := rfl
@[simp] theorem State.bump_evs (s : State) (k : Nat) : (s.bump k).evs = s.evs := rfl
@[simp] theorem State.bump_site (s : State) (k : Nat) : (s.bump k).site = s.site := rfl
@[simp] theorem State.bump_dma (s : State) (k : Nat) : (s.bump k).dma = s.dma := rfl
@[simp] theorem State.bump_fw (s : State) (k : Nat) : (s.bump k).fw = s.fw := rfl
@[simp] theorem State.bump_sec (s : State) (k : Nat) : (s.bump k).sec = s.sec := rfl
@[simp] theorem State.bump_net (s : State) (k : Nat) : (s.bump k).net = s.net := rfl
@[simp] theorem State.bump_kv (s : State) (k : Nat) : (s.bump k).kv = s.kv := rfl
@[simp] theorem State.bump_shank (s : State) (k : Nat) : (s.bump k).shank = s.shank := rfl
@[simp] theorem State.bump_idx (s : State) (k : Nat) : (s.bump k).idx = s.idx := rfl
@[simp] theorem State.bump_awl (s : State) (k : Nat) : (s.bump k).awl = s.awl := rfl
@[simp] theorem State.bump_welt (s : State) (k : Nat) : (s.bump k).welt = s.welt := rfl
@[simp] theorem State.bump_media (s : State) (k : Nat) : (s.bump k).media = s.media := rfl
@[simp] theorem State.bump_sets (s : State) (k : Nat) : (s.bump k).sets = s.sets := rfl
@[simp] theorem State.bump_free (s : State) (k : Nat) : (s.bump k).free = s.free := rfl

@[simp] theorem State.bumpSys_now (s : State) (k : Nat) : (s.bumpSys k).now = s.now := rfl
@[simp] theorem State.bumpSys_pending (s : State) (k : Nat) : (s.bumpSys k).pending = s.pending := rfl
@[simp] theorem State.bumpSys_out (s : State) (k : Nat) : (s.bumpSys k).out = s.out := rfl
@[simp] theorem State.bumpSys_mem (s : State) (k : Nat) : (s.bumpSys k).mem = s.mem := rfl
@[simp] theorem State.bumpSys_mode (s : State) (k : Nat) : (s.bumpSys k).mode = s.mode := rfl
@[simp] theorem State.bumpSys_clk (s : State) (k : Nat) : (s.bumpSys k).clk = s.clk := rfl
@[simp] theorem State.bumpSys_eth (s : State) (k : Nat) : (s.bumpSys k).eth = s.eth := rfl
@[simp] theorem State.bumpSys_shelf (s : State) (k : Nat) : (s.bumpSys k).shelf = s.shelf := rfl
@[simp] theorem State.bumpSys_evs (s : State) (k : Nat) : (s.bumpSys k).evs = s.evs := rfl
@[simp] theorem State.bumpSys_site (s : State) (k : Nat) : (s.bumpSys k).site = s.site := rfl
@[simp] theorem State.bumpSys_dma (s : State) (k : Nat) : (s.bumpSys k).dma = s.dma := rfl
@[simp] theorem State.bumpSys_fw (s : State) (k : Nat) : (s.bumpSys k).fw = s.fw := rfl
@[simp] theorem State.bumpSys_sec (s : State) (k : Nat) : (s.bumpSys k).sec = s.sec := rfl
@[simp] theorem State.bumpSys_net (s : State) (k : Nat) : (s.bumpSys k).net = s.net := rfl
@[simp] theorem State.bumpSys_kv (s : State) (k : Nat) : (s.bumpSys k).kv = s.kv := rfl
@[simp] theorem State.bumpSys_shank (s : State) (k : Nat) : (s.bumpSys k).shank = s.shank := rfl
@[simp] theorem State.bumpSys_idx (s : State) (k : Nat) : (s.bumpSys k).idx = s.idx := rfl
@[simp] theorem State.bumpSys_awl (s : State) (k : Nat) : (s.bumpSys k).awl = s.awl := rfl
@[simp] theorem State.bumpSys_welt (s : State) (k : Nat) : (s.bumpSys k).welt = s.welt := rfl
@[simp] theorem State.bumpSys_media (s : State) (k : Nat) : (s.bumpSys k).media = s.media := rfl
@[simp] theorem State.bumpSys_sets (s : State) (k : Nat) : (s.bumpSys k).sets = s.sets := rfl
@[simp] theorem State.bumpSys_free (s : State) (k : Nat) : (s.bumpSys k).free = s.free := rfl

@[simp] theorem State.setDom_now (s : State) (d : Dom) (x : DomState) : (s.setDom d x).now = s.now := rfl
@[simp] theorem State.setDom_pending (s : State) (d : Dom) (x : DomState) : (s.setDom d x).pending = s.pending := rfl
@[simp] theorem State.setDom_out (s : State) (d : Dom) (x : DomState) : (s.setDom d x).out = s.out := rfl
@[simp] theorem State.setDom_mem (s : State) (d : Dom) (x : DomState) : (s.setDom d x).mem = s.mem := rfl
@[simp] theorem State.setDom_mode (s : State) (d : Dom) (x : DomState) : (s.setDom d x).mode = s.mode := rfl
@[simp] theorem State.setDom_clk (s : State) (d : Dom) (x : DomState) : (s.setDom d x).clk = { s.clk with doms := s.clk.doms.setIfInBounds d.idx x } := rfl
@[simp] theorem State.setDom_eth (s : State) (d : Dom) (x : DomState) : (s.setDom d x).eth = s.eth := rfl
@[simp] theorem State.setDom_shelf (s : State) (d : Dom) (x : DomState) : (s.setDom d x).shelf = s.shelf := rfl
@[simp] theorem State.setDom_dict (s : State) (d : Dom) (x : DomState) : (s.setDom d x).dict = s.dict := rfl
@[simp] theorem State.setDom_evs (s : State) (d : Dom) (x : DomState) : (s.setDom d x).evs = s.evs := rfl
@[simp] theorem State.setDom_site (s : State) (d : Dom) (x : DomState) : (s.setDom d x).site = s.site := rfl
@[simp] theorem State.setDom_dma (s : State) (d : Dom) (x : DomState) : (s.setDom d x).dma = s.dma := rfl
@[simp] theorem State.setDom_fw (s : State) (d : Dom) (x : DomState) : (s.setDom d x).fw = s.fw := rfl
@[simp] theorem State.setDom_sec (s : State) (d : Dom) (x : DomState) : (s.setDom d x).sec = s.sec := rfl
@[simp] theorem State.setDom_net (s : State) (d : Dom) (x : DomState) : (s.setDom d x).net = s.net := rfl
@[simp] theorem State.setDom_kv (s : State) (d : Dom) (x : DomState) : (s.setDom d x).kv = s.kv := rfl
@[simp] theorem State.setDom_shank (s : State) (d : Dom) (x : DomState) : (s.setDom d x).shank = s.shank := rfl
@[simp] theorem State.setDom_idx (s : State) (d : Dom) (x : DomState) : (s.setDom d x).idx = s.idx := rfl
@[simp] theorem State.setDom_awl (s : State) (d : Dom) (x : DomState) : (s.setDom d x).awl = s.awl := rfl
@[simp] theorem State.setDom_welt (s : State) (d : Dom) (x : DomState) : (s.setDom d x).welt = s.welt := rfl
@[simp] theorem State.setDom_media (s : State) (d : Dom) (x : DomState) : (s.setDom d x).media = s.media := rfl
@[simp] theorem State.setDom_sets (s : State) (d : Dom) (x : DomState) : (s.setDom d x).sets = s.sets := rfl
@[simp] theorem State.setDom_free (s : State) (d : Dom) (x : DomState) : (s.setDom d x).free = s.free := rfl

@[simp] theorem State.setPort_now (s : State) (p : PortId) (x : Port) : (s.setPort p x).now = s.now := by cases p <;> rfl
@[simp] theorem State.setPort_pending (s : State) (p : PortId) (x : Port) : (s.setPort p x).pending = s.pending := by cases p <;> rfl
@[simp] theorem State.setPort_out (s : State) (p : PortId) (x : Port) : (s.setPort p x).out = s.out := by cases p <;> rfl
@[simp] theorem State.setPort_mem (s : State) (p : PortId) (x : Port) : (s.setPort p x).mem = s.mem := by cases p <;> rfl
@[simp] theorem State.setPort_mode (s : State) (p : PortId) (x : Port) : (s.setPort p x).mode = s.mode := by cases p <;> rfl
@[simp] theorem State.setPort_clk (s : State) (p : PortId) (x : Port) : (s.setPort p x).clk = s.clk := by cases p <;> rfl
@[simp] theorem State.setPort_shelf (s : State) (p : PortId) (x : Port) : (s.setPort p x).shelf = s.shelf := by cases p <;> rfl
@[simp] theorem State.setPort_dict (s : State) (p : PortId) (x : Port) : (s.setPort p x).dict = s.dict := by cases p <;> rfl
@[simp] theorem State.setPort_evs (s : State) (p : PortId) (x : Port) : (s.setPort p x).evs = s.evs := by cases p <;> rfl
@[simp] theorem State.setPort_site (s : State) (p : PortId) (x : Port) : (s.setPort p x).site = s.site := by cases p <;> rfl
@[simp] theorem State.setPort_dma (s : State) (p : PortId) (x : Port) : (s.setPort p x).dma = s.dma := by cases p <;> rfl
@[simp] theorem State.setPort_fw (s : State) (p : PortId) (x : Port) : (s.setPort p x).fw = s.fw := by cases p <;> rfl
@[simp] theorem State.setPort_sec (s : State) (p : PortId) (x : Port) : (s.setPort p x).sec = s.sec := by cases p <;> rfl
@[simp] theorem State.setPort_net (s : State) (p : PortId) (x : Port) : (s.setPort p x).net = s.net := by cases p <;> rfl
@[simp] theorem State.setPort_kv (s : State) (p : PortId) (x : Port) : (s.setPort p x).kv = s.kv := by cases p <;> rfl
@[simp] theorem State.setPort_shank (s : State) (p : PortId) (x : Port) : (s.setPort p x).shank = s.shank := by cases p <;> rfl
@[simp] theorem State.setPort_idx (s : State) (p : PortId) (x : Port) : (s.setPort p x).idx = s.idx := by cases p <;> rfl
@[simp] theorem State.setPort_awl (s : State) (p : PortId) (x : Port) : (s.setPort p x).awl = s.awl := by cases p <;> rfl
@[simp] theorem State.setPort_welt (s : State) (p : PortId) (x : Port) : (s.setPort p x).welt = s.welt := by cases p <;> rfl
@[simp] theorem State.setPort_media (s : State) (p : PortId) (x : Port) : (s.setPort p x).media = s.media := by cases p <;> rfl
@[simp] theorem State.setPort_sets (s : State) (p : PortId) (x : Port) : (s.setPort p x).sets = s.sets := by cases p <;> rfl
@[simp] theorem State.setPort_free (s : State) (p : PortId) (x : Port) : (s.setPort p x).free = s.free := by cases p <;> rfl

@[simp] theorem State.setPtp_now (s : State) (x : Ptp) : (s.setPtp x).now = s.now := rfl
@[simp] theorem State.setPtp_pending (s : State) (x : Ptp) : (s.setPtp x).pending = s.pending := rfl
@[simp] theorem State.setPtp_out (s : State) (x : Ptp) : (s.setPtp x).out = s.out := rfl
@[simp] theorem State.setPtp_mem (s : State) (x : Ptp) : (s.setPtp x).mem = s.mem := rfl
@[simp] theorem State.setPtp_mode (s : State) (x : Ptp) : (s.setPtp x).mode = s.mode := rfl
@[simp] theorem State.setPtp_clk (s : State) (x : Ptp) : (s.setPtp x).clk = s.clk := rfl
@[simp] theorem State.setPtp_eth (s : State) (x : Ptp) : (s.setPtp x).eth = { s.eth with ptp := x } := rfl
@[simp] theorem State.setPtp_shelf (s : State) (x : Ptp) : (s.setPtp x).shelf = s.shelf := rfl
@[simp] theorem State.setPtp_dict (s : State) (x : Ptp) : (s.setPtp x).dict = s.dict := rfl
@[simp] theorem State.setPtp_evs (s : State) (x : Ptp) : (s.setPtp x).evs = s.evs := rfl
@[simp] theorem State.setPtp_site (s : State) (x : Ptp) : (s.setPtp x).site = s.site := rfl
@[simp] theorem State.setPtp_dma (s : State) (x : Ptp) : (s.setPtp x).dma = s.dma := rfl
@[simp] theorem State.setPtp_fw (s : State) (x : Ptp) : (s.setPtp x).fw = s.fw := rfl
@[simp] theorem State.setPtp_sec (s : State) (x : Ptp) : (s.setPtp x).sec = s.sec := rfl
@[simp] theorem State.setPtp_net (s : State) (x : Ptp) : (s.setPtp x).net = s.net := rfl
@[simp] theorem State.setPtp_kv (s : State) (x : Ptp) : (s.setPtp x).kv = s.kv := rfl
@[simp] theorem State.setPtp_shank (s : State) (x : Ptp) : (s.setPtp x).shank = s.shank := rfl
@[simp] theorem State.setPtp_idx (s : State) (x : Ptp) : (s.setPtp x).idx = s.idx := rfl
@[simp] theorem State.setPtp_awl (s : State) (x : Ptp) : (s.setPtp x).awl = s.awl := rfl
@[simp] theorem State.setPtp_welt (s : State) (x : Ptp) : (s.setPtp x).welt = s.welt := rfl
@[simp] theorem State.setPtp_media (s : State) (x : Ptp) : (s.setPtp x).media = s.media := rfl
@[simp] theorem State.setPtp_sets (s : State) (x : Ptp) : (s.setPtp x).sets = s.sets := rfl
@[simp] theorem State.setPtp_free (s : State) (x : Ptp) : (s.setPtp x).free = s.free := rfl

@[simp] theorem State.setSrc_now (s : State) (x : Source) (v : Src) : (s.setSrc x v).now = s.now := rfl
@[simp] theorem State.setSrc_pending (s : State) (x : Source) (v : Src) : (s.setSrc x v).pending = s.pending := rfl
@[simp] theorem State.setSrc_out (s : State) (x : Source) (v : Src) : (s.setSrc x v).out = s.out := rfl
@[simp] theorem State.setSrc_mem (s : State) (x : Source) (v : Src) : (s.setSrc x v).mem = s.mem := rfl
@[simp] theorem State.setSrc_mode (s : State) (x : Source) (v : Src) : (s.setSrc x v).mode = s.mode := rfl
@[simp] theorem State.setSrc_eth (s : State) (x : Source) (v : Src) : (s.setSrc x v).eth = s.eth := rfl
@[simp] theorem State.setSrc_shelf (s : State) (x : Source) (v : Src) : (s.setSrc x v).shelf = s.shelf := rfl
@[simp] theorem State.setSrc_dict (s : State) (x : Source) (v : Src) : (s.setSrc x v).dict = s.dict := rfl
@[simp] theorem State.setSrc_evs (s : State) (x : Source) (v : Src) : (s.setSrc x v).evs = s.evs := rfl
@[simp] theorem State.setSrc_site (s : State) (x : Source) (v : Src) : (s.setSrc x v).site = s.site := rfl
@[simp] theorem State.setSrc_dma (s : State) (x : Source) (v : Src) : (s.setSrc x v).dma = s.dma := rfl
@[simp] theorem State.setSrc_fw (s : State) (x : Source) (v : Src) : (s.setSrc x v).fw = s.fw := rfl
@[simp] theorem State.setSrc_sec (s : State) (x : Source) (v : Src) : (s.setSrc x v).sec = s.sec := rfl
@[simp] theorem State.setSrc_net (s : State) (x : Source) (v : Src) : (s.setSrc x v).net = s.net := rfl
@[simp] theorem State.setSrc_kv (s : State) (x : Source) (v : Src) : (s.setSrc x v).kv = s.kv := rfl
@[simp] theorem State.setSrc_shank (s : State) (x : Source) (v : Src) : (s.setSrc x v).shank = s.shank := rfl
@[simp] theorem State.setSrc_idx (s : State) (x : Source) (v : Src) : (s.setSrc x v).idx = s.idx := rfl
@[simp] theorem State.setSrc_awl (s : State) (x : Source) (v : Src) : (s.setSrc x v).awl = s.awl := rfl
@[simp] theorem State.setSrc_welt (s : State) (x : Source) (v : Src) : (s.setSrc x v).welt = s.welt := rfl
@[simp] theorem State.setSrc_media (s : State) (x : Source) (v : Src) : (s.setSrc x v).media = s.media := rfl
@[simp] theorem State.setSrc_sets (s : State) (x : Source) (v : Src) : (s.setSrc x v).sets = s.sets := rfl
@[simp] theorem State.setSrc_free (s : State) (x : Source) (v : Src) : (s.setSrc x v).free = s.free := rfl

@[simp] theorem State.setPll_now (s : State) (p : Pll) (v : PllSt) : (s.setPll p v).now = s.now := rfl
@[simp] theorem State.setPll_pending (s : State) (p : Pll) (v : PllSt) : (s.setPll p v).pending = s.pending := rfl
@[simp] theorem State.setPll_out (s : State) (p : Pll) (v : PllSt) : (s.setPll p v).out = s.out := rfl
@[simp] theorem State.setPll_mem (s : State) (p : Pll) (v : PllSt) : (s.setPll p v).mem = s.mem := rfl
@[simp] theorem State.setPll_mode (s : State) (p : Pll) (v : PllSt) : (s.setPll p v).mode = s.mode := rfl
@[simp] theorem State.setPll_eth (s : State) (p : Pll) (v : PllSt) : (s.setPll p v).eth = s.eth := rfl
@[simp] theorem State.setPll_shelf (s : State) (p : Pll) (v : PllSt) : (s.setPll p v).shelf = s.shelf := rfl
@[simp] theorem State.setPll_dict (s : State) (p : Pll) (v : PllSt) : (s.setPll p v).dict = s.dict := rfl
@[simp] theorem State.setPll_evs (s : State) (p : Pll) (v : PllSt) : (s.setPll p v).evs = s.evs := rfl
@[simp] theorem State.setPll_site (s : State) (p : Pll) (v : PllSt) : (s.setPll p v).site = s.site := rfl
@[simp] theorem State.setPll_dma (s : State) (p : Pll) (v : PllSt) : (s.setPll p v).dma = s.dma := rfl
@[simp] theorem State.setPll_fw (s : State) (p : Pll) (v : PllSt) : (s.setPll p v).fw = s.fw := rfl
@[simp] theorem State.setPll_sec (s : State) (p : Pll) (v : PllSt) : (s.setPll p v).sec = s.sec := rfl
@[simp] theorem State.setPll_net (s : State) (p : Pll) (v : PllSt) : (s.setPll p v).net = s.net := rfl
@[simp] theorem State.setPll_kv (s : State) (p : Pll) (v : PllSt) : (s.setPll p v).kv = s.kv := rfl
@[simp] theorem State.setPll_shank (s : State) (p : Pll) (v : PllSt) : (s.setPll p v).shank = s.shank := rfl
@[simp] theorem State.setPll_idx (s : State) (p : Pll) (v : PllSt) : (s.setPll p v).idx = s.idx := rfl
@[simp] theorem State.setPll_awl (s : State) (p : Pll) (v : PllSt) : (s.setPll p v).awl = s.awl := rfl
@[simp] theorem State.setPll_welt (s : State) (p : Pll) (v : PllSt) : (s.setPll p v).welt = s.welt := rfl
@[simp] theorem State.setPll_media (s : State) (p : Pll) (v : PllSt) : (s.setPll p v).media = s.media := rfl
@[simp] theorem State.setPll_sets (s : State) (p : Pll) (v : PllSt) : (s.setPll p v).sets = s.sets := rfl
@[simp] theorem State.setPll_free (s : State) (p : Pll) (v : PllSt) : (s.setPll p v).free = s.free := rfl

@[simp] theorem State.setFmc_now (s : State) (f : Fmc) : (s.setFmc f).now = s.now := rfl
@[simp] theorem State.setFmc_pending (s : State) (f : Fmc) : (s.setFmc f).pending = s.pending := rfl
@[simp] theorem State.setFmc_out (s : State) (f : Fmc) : (s.setFmc f).out = s.out := rfl
@[simp] theorem State.setFmc_mem (s : State) (f : Fmc) : (s.setFmc f).mem = s.mem := rfl
@[simp] theorem State.setFmc_mode (s : State) (f : Fmc) : (s.setFmc f).mode = s.mode := rfl
@[simp] theorem State.setFmc_clk (s : State) (f : Fmc) : (s.setFmc f).clk = { s.clk with fmc := f } := rfl
@[simp] theorem State.setFmc_eth (s : State) (f : Fmc) : (s.setFmc f).eth = s.eth := rfl
@[simp] theorem State.setFmc_shelf (s : State) (f : Fmc) : (s.setFmc f).shelf = s.shelf := rfl
@[simp] theorem State.setFmc_dict (s : State) (f : Fmc) : (s.setFmc f).dict = s.dict := rfl
@[simp] theorem State.setFmc_evs (s : State) (f : Fmc) : (s.setFmc f).evs = s.evs := rfl
@[simp] theorem State.setFmc_site (s : State) (f : Fmc) : (s.setFmc f).site = s.site := rfl
@[simp] theorem State.setFmc_dma (s : State) (f : Fmc) : (s.setFmc f).dma = s.dma := rfl
@[simp] theorem State.setFmc_fw (s : State) (f : Fmc) : (s.setFmc f).fw = s.fw := rfl
@[simp] theorem State.setFmc_sec (s : State) (f : Fmc) : (s.setFmc f).sec = s.sec := rfl
@[simp] theorem State.setFmc_net (s : State) (f : Fmc) : (s.setFmc f).net = s.net := rfl
@[simp] theorem State.setFmc_kv (s : State) (f : Fmc) : (s.setFmc f).kv = s.kv := rfl
@[simp] theorem State.setFmc_shank (s : State) (f : Fmc) : (s.setFmc f).shank = s.shank := rfl
@[simp] theorem State.setFmc_idx (s : State) (f : Fmc) : (s.setFmc f).idx = s.idx := rfl
@[simp] theorem State.setFmc_awl (s : State) (f : Fmc) : (s.setFmc f).awl = s.awl := rfl
@[simp] theorem State.setFmc_welt (s : State) (f : Fmc) : (s.setFmc f).welt = s.welt := rfl
@[simp] theorem State.setFmc_media (s : State) (f : Fmc) : (s.setFmc f).media = s.media := rfl
@[simp] theorem State.setFmc_sets (s : State) (f : Fmc) : (s.setFmc f).sets = s.sets := rfl
@[simp] theorem State.setFmc_free (s : State) (f : Fmc) : (s.setFmc f).free = s.free := rfl

@[simp] theorem State.setGate_now (s : State) (g : Gate) : (s.setGate g).now = s.now := rfl
@[simp] theorem State.setGate_pending (s : State) (g : Gate) : (s.setGate g).pending = s.pending := rfl
@[simp] theorem State.setGate_out (s : State) (g : Gate) : (s.setGate g).out = s.out := rfl
@[simp] theorem State.setGate_mem (s : State) (g : Gate) : (s.setGate g).mem = s.mem := rfl
@[simp] theorem State.setGate_mode (s : State) (g : Gate) : (s.setGate g).mode = s.mode := rfl
@[simp] theorem State.setGate_eth (s : State) (g : Gate) : (s.setGate g).eth = s.eth := rfl
@[simp] theorem State.setGate_shelf (s : State) (g : Gate) : (s.setGate g).shelf = s.shelf := rfl
@[simp] theorem State.setGate_dict (s : State) (g : Gate) : (s.setGate g).dict = s.dict := rfl
@[simp] theorem State.setGate_evs (s : State) (g : Gate) : (s.setGate g).evs = s.evs := rfl
@[simp] theorem State.setGate_site (s : State) (g : Gate) : (s.setGate g).site = s.site := rfl
@[simp] theorem State.setGate_dma (s : State) (g : Gate) : (s.setGate g).dma = s.dma := rfl
@[simp] theorem State.setGate_fw (s : State) (g : Gate) : (s.setGate g).fw = s.fw := rfl
@[simp] theorem State.setGate_sec (s : State) (g : Gate) : (s.setGate g).sec = s.sec := rfl
@[simp] theorem State.setGate_net (s : State) (g : Gate) : (s.setGate g).net = s.net := rfl
@[simp] theorem State.setGate_kv (s : State) (g : Gate) : (s.setGate g).kv = s.kv := rfl
@[simp] theorem State.setGate_shank (s : State) (g : Gate) : (s.setGate g).shank = s.shank := rfl
@[simp] theorem State.setGate_idx (s : State) (g : Gate) : (s.setGate g).idx = s.idx := rfl
@[simp] theorem State.setGate_awl (s : State) (g : Gate) : (s.setGate g).awl = s.awl := rfl
@[simp] theorem State.setGate_welt (s : State) (g : Gate) : (s.setGate g).welt = s.welt := rfl
@[simp] theorem State.setGate_media (s : State) (g : Gate) : (s.setGate g).media = s.media := rfl
@[simp] theorem State.setGate_sets (s : State) (g : Gate) : (s.setGate g).sets = s.sets := rfl
@[simp] theorem State.setGate_free (s : State) (g : Gate) : (s.setGate g).free = s.free := rfl

@[simp] theorem State.setCh_now (s : State) (n : Nat) (c : DmaCh) : (s.setCh n c).now = s.now := rfl
@[simp] theorem State.setCh_pending (s : State) (n : Nat) (c : DmaCh) : (s.setCh n c).pending = s.pending := rfl
@[simp] theorem State.setCh_out (s : State) (n : Nat) (c : DmaCh) : (s.setCh n c).out = s.out := rfl
@[simp] theorem State.setCh_mem (s : State) (n : Nat) (c : DmaCh) : (s.setCh n c).mem = s.mem := rfl
@[simp] theorem State.setCh_mode (s : State) (n : Nat) (c : DmaCh) : (s.setCh n c).mode = s.mode := rfl
@[simp] theorem State.setCh_clk (s : State) (n : Nat) (c : DmaCh) : (s.setCh n c).clk = s.clk := rfl
@[simp] theorem State.setCh_eth (s : State) (n : Nat) (c : DmaCh) : (s.setCh n c).eth = s.eth := rfl
@[simp] theorem State.setCh_shelf (s : State) (n : Nat) (c : DmaCh) : (s.setCh n c).shelf = s.shelf := rfl
@[simp] theorem State.setCh_dict (s : State) (n : Nat) (c : DmaCh) : (s.setCh n c).dict = s.dict := rfl
@[simp] theorem State.setCh_evs (s : State) (n : Nat) (c : DmaCh) : (s.setCh n c).evs = s.evs := rfl
@[simp] theorem State.setCh_site (s : State) (n : Nat) (c : DmaCh) : (s.setCh n c).site = s.site := rfl
@[simp] theorem State.setCh_dma (s : State) (n : Nat) (c : DmaCh) : (s.setCh n c).dma = s.dma.setIfInBounds n c := rfl
@[simp] theorem State.setCh_fw (s : State) (n : Nat) (c : DmaCh) : (s.setCh n c).fw = s.fw := rfl
@[simp] theorem State.setCh_sec (s : State) (n : Nat) (c : DmaCh) : (s.setCh n c).sec = s.sec := rfl
@[simp] theorem State.setCh_net (s : State) (n : Nat) (c : DmaCh) : (s.setCh n c).net = s.net := rfl
@[simp] theorem State.setCh_kv (s : State) (n : Nat) (c : DmaCh) : (s.setCh n c).kv = s.kv := rfl
@[simp] theorem State.setCh_shank (s : State) (n : Nat) (c : DmaCh) : (s.setCh n c).shank = s.shank := rfl
@[simp] theorem State.setCh_idx (s : State) (n : Nat) (c : DmaCh) : (s.setCh n c).idx = s.idx := rfl
@[simp] theorem State.setCh_awl (s : State) (n : Nat) (c : DmaCh) : (s.setCh n c).awl = s.awl := rfl
@[simp] theorem State.setCh_welt (s : State) (n : Nat) (c : DmaCh) : (s.setCh n c).welt = s.welt := rfl
@[simp] theorem State.setCh_media (s : State) (n : Nat) (c : DmaCh) : (s.setCh n c).media = s.media := rfl
@[simp] theorem State.setCh_sets (s : State) (n : Nat) (c : DmaCh) : (s.setCh n c).sets = s.sets := rfl
@[simp] theorem State.setCh_free (s : State) (n : Nat) (c : DmaCh) : (s.setCh n c).free = s.free := rfl

@[simp] theorem State.setBucket_now (s : State) (b : Bucket) : (s.setBucket b).now = s.now := rfl
@[simp] theorem State.setBucket_pending (s : State) (b : Bucket) : (s.setBucket b).pending = s.pending := rfl
@[simp] theorem State.setBucket_out (s : State) (b : Bucket) : (s.setBucket b).out = s.out := rfl
@[simp] theorem State.setBucket_mem (s : State) (b : Bucket) : (s.setBucket b).mem = s.mem := rfl
@[simp] theorem State.setBucket_mode (s : State) (b : Bucket) : (s.setBucket b).mode = s.mode := rfl
@[simp] theorem State.setBucket_clk (s : State) (b : Bucket) : (s.setBucket b).clk = s.clk := rfl
@[simp] theorem State.setBucket_eth (s : State) (b : Bucket) : (s.setBucket b).eth = s.eth := rfl
@[simp] theorem State.setBucket_shelf (s : State) (b : Bucket) : (s.setBucket b).shelf = s.shelf := rfl
@[simp] theorem State.setBucket_dict (s : State) (b : Bucket) : (s.setBucket b).dict = s.dict := rfl
@[simp] theorem State.setBucket_site (s : State) (b : Bucket) : (s.setBucket b).site = s.site := rfl
@[simp] theorem State.setBucket_dma (s : State) (b : Bucket) : (s.setBucket b).dma = s.dma := rfl
@[simp] theorem State.setBucket_fw (s : State) (b : Bucket) : (s.setBucket b).fw = s.fw := rfl
@[simp] theorem State.setBucket_sec (s : State) (b : Bucket) : (s.setBucket b).sec = s.sec := rfl
@[simp] theorem State.setBucket_net (s : State) (b : Bucket) : (s.setBucket b).net = s.net := rfl
@[simp] theorem State.setBucket_kv (s : State) (b : Bucket) : (s.setBucket b).kv = s.kv := rfl
@[simp] theorem State.setBucket_shank (s : State) (b : Bucket) : (s.setBucket b).shank = s.shank := rfl
@[simp] theorem State.setBucket_idx (s : State) (b : Bucket) : (s.setBucket b).idx = s.idx := rfl
@[simp] theorem State.setBucket_awl (s : State) (b : Bucket) : (s.setBucket b).awl = s.awl := rfl
@[simp] theorem State.setBucket_welt (s : State) (b : Bucket) : (s.setBucket b).welt = s.welt := rfl
@[simp] theorem State.setBucket_media (s : State) (b : Bucket) : (s.setBucket b).media = s.media := rfl
@[simp] theorem State.setBucket_sets (s : State) (b : Bucket) : (s.setBucket b).sets = s.sets := rfl
@[simp] theorem State.setBucket_free (s : State) (b : Bucket) : (s.setBucket b).free = s.free := rfl

@[simp] theorem State.setSession_now (s : State) (x : Session) : (s.setSession x).now = s.now := rfl
@[simp] theorem State.setSession_pending (s : State) (x : Session) : (s.setSession x).pending = s.pending := rfl
@[simp] theorem State.setSession_out (s : State) (x : Session) : (s.setSession x).out = s.out := rfl
@[simp] theorem State.setSession_mem (s : State) (x : Session) : (s.setSession x).mem = s.mem := rfl
@[simp] theorem State.setSession_mode (s : State) (x : Session) : (s.setSession x).mode = s.mode := rfl
@[simp] theorem State.setSession_clk (s : State) (x : Session) : (s.setSession x).clk = s.clk := rfl
@[simp] theorem State.setSession_eth (s : State) (x : Session) : (s.setSession x).eth = s.eth := rfl
@[simp] theorem State.setSession_shelf (s : State) (x : Session) : (s.setSession x).shelf = s.shelf := rfl
@[simp] theorem State.setSession_dict (s : State) (x : Session) : (s.setSession x).dict = s.dict := rfl
@[simp] theorem State.setSession_evs (s : State) (x : Session) : (s.setSession x).evs = s.evs := rfl
@[simp] theorem State.setSession_site (s : State) (x : Session) : (s.setSession x).site = s.site := rfl
@[simp] theorem State.setSession_dma (s : State) (x : Session) : (s.setSession x).dma = s.dma := rfl
@[simp] theorem State.setSession_fw (s : State) (x : Session) : (s.setSession x).fw = s.fw := rfl
@[simp] theorem State.setSession_sec (s : State) (x : Session) : (s.setSession x).sec = s.sec := rfl
@[simp] theorem State.setSession_kv (s : State) (x : Session) : (s.setSession x).kv = s.kv := rfl
@[simp] theorem State.setSession_shank (s : State) (x : Session) : (s.setSession x).shank = s.shank := rfl
@[simp] theorem State.setSession_idx (s : State) (x : Session) : (s.setSession x).idx = s.idx := rfl
@[simp] theorem State.setSession_awl (s : State) (x : Session) : (s.setSession x).awl = s.awl := rfl
@[simp] theorem State.setSession_welt (s : State) (x : Session) : (s.setSession x).welt = s.welt := rfl
@[simp] theorem State.setSession_media (s : State) (x : Session) : (s.setSession x).media = s.media := rfl
@[simp] theorem State.setSession_sets (s : State) (x : Session) : (s.setSession x).sets = s.sets := rfl
@[simp] theorem State.setSession_free (s : State) (x : Session) : (s.setSession x).free = s.free := rfl

@[simp] theorem State.dropSession_now (s : State) (sid : Nat) : (s.dropSession sid).now = s.now := rfl
@[simp] theorem State.dropSession_pending (s : State) (sid : Nat) : (s.dropSession sid).pending = s.pending := rfl
@[simp] theorem State.dropSession_out (s : State) (sid : Nat) : (s.dropSession sid).out = s.out := rfl
@[simp] theorem State.dropSession_mem (s : State) (sid : Nat) : (s.dropSession sid).mem = s.mem := rfl
@[simp] theorem State.dropSession_mode (s : State) (sid : Nat) : (s.dropSession sid).mode = s.mode := rfl
@[simp] theorem State.dropSession_clk (s : State) (sid : Nat) : (s.dropSession sid).clk = s.clk := rfl
@[simp] theorem State.dropSession_eth (s : State) (sid : Nat) : (s.dropSession sid).eth = s.eth := rfl
@[simp] theorem State.dropSession_shelf (s : State) (sid : Nat) : (s.dropSession sid).shelf = s.shelf := rfl
@[simp] theorem State.dropSession_evs (s : State) (sid : Nat) : (s.dropSession sid).evs = s.evs := rfl
@[simp] theorem State.dropSession_site (s : State) (sid : Nat) : (s.dropSession sid).site = s.site := rfl
@[simp] theorem State.dropSession_dma (s : State) (sid : Nat) : (s.dropSession sid).dma = s.dma := rfl
@[simp] theorem State.dropSession_fw (s : State) (sid : Nat) : (s.dropSession sid).fw = s.fw := rfl
@[simp] theorem State.dropSession_sec (s : State) (sid : Nat) : (s.dropSession sid).sec = s.sec := rfl
@[simp] theorem State.dropSession_kv (s : State) (sid : Nat) : (s.dropSession sid).kv = s.kv := rfl
@[simp] theorem State.dropSession_shank (s : State) (sid : Nat) : (s.dropSession sid).shank = s.shank := rfl
@[simp] theorem State.dropSession_idx (s : State) (sid : Nat) : (s.dropSession sid).idx = s.idx := rfl
@[simp] theorem State.dropSession_awl (s : State) (sid : Nat) : (s.dropSession sid).awl = s.awl := rfl
@[simp] theorem State.dropSession_welt (s : State) (sid : Nat) : (s.dropSession sid).welt = s.welt := rfl
@[simp] theorem State.dropSession_media (s : State) (sid : Nat) : (s.dropSession sid).media = s.media := rfl
@[simp] theorem State.dropSession_sets (s : State) (sid : Nat) : (s.dropSession sid).sets = s.sets := rfl
@[simp] theorem State.dropSession_free (s : State) (sid : Nat) : (s.dropSession sid).free = s.free := rfl

@[simp] theorem State.setCmd_now (s : State) (c : CmdCtx) : (s.setCmd c).now = s.now := rfl
@[simp] theorem State.setCmd_pending (s : State) (c : CmdCtx) : (s.setCmd c).pending = s.pending := rfl
@[simp] theorem State.setCmd_out (s : State) (c : CmdCtx) : (s.setCmd c).out = s.out := rfl
@[simp] theorem State.setCmd_mem (s : State) (c : CmdCtx) : (s.setCmd c).mem = s.mem := rfl
@[simp] theorem State.setCmd_mode (s : State) (c : CmdCtx) : (s.setCmd c).mode = s.mode := rfl
@[simp] theorem State.setCmd_clk (s : State) (c : CmdCtx) : (s.setCmd c).clk = s.clk := rfl
@[simp] theorem State.setCmd_eth (s : State) (c : CmdCtx) : (s.setCmd c).eth = s.eth := rfl
@[simp] theorem State.setCmd_shelf (s : State) (c : CmdCtx) : (s.setCmd c).shelf = s.shelf := rfl
@[simp] theorem State.setCmd_dict (s : State) (c : CmdCtx) : (s.setCmd c).dict = s.dict := rfl
@[simp] theorem State.setCmd_evs (s : State) (c : CmdCtx) : (s.setCmd c).evs = s.evs := rfl
@[simp] theorem State.setCmd_site (s : State) (c : CmdCtx) : (s.setCmd c).site = s.site := rfl
@[simp] theorem State.setCmd_dma (s : State) (c : CmdCtx) : (s.setCmd c).dma = s.dma := rfl
@[simp] theorem State.setCmd_fw (s : State) (c : CmdCtx) : (s.setCmd c).fw = s.fw := rfl
@[simp] theorem State.setCmd_sec (s : State) (c : CmdCtx) : (s.setCmd c).sec = s.sec := rfl
@[simp] theorem State.setCmd_net (s : State) (c : CmdCtx) : (s.setCmd c).net = s.net := rfl
@[simp] theorem State.setCmd_shank (s : State) (c : CmdCtx) : (s.setCmd c).shank = s.shank := rfl
@[simp] theorem State.setCmd_idx (s : State) (c : CmdCtx) : (s.setCmd c).idx = s.idx := rfl
@[simp] theorem State.setCmd_awl (s : State) (c : CmdCtx) : (s.setCmd c).awl = s.awl := rfl
@[simp] theorem State.setCmd_welt (s : State) (c : CmdCtx) : (s.setCmd c).welt = s.welt := rfl
@[simp] theorem State.setCmd_media (s : State) (c : CmdCtx) : (s.setCmd c).media = s.media := rfl
@[simp] theorem State.setCmd_sets (s : State) (c : CmdCtx) : (s.setCmd c).sets = s.sets := rfl
@[simp] theorem State.setCmd_free (s : State) (c : CmdCtx) : (s.setCmd c).free = s.free := rfl

@[simp] theorem State.setNs_now (s : State) (x : Ns) : (s.setNs x).now = s.now := rfl
@[simp] theorem State.setNs_pending (s : State) (x : Ns) : (s.setNs x).pending = s.pending := rfl
@[simp] theorem State.setNs_out (s : State) (x : Ns) : (s.setNs x).out = s.out := rfl
@[simp] theorem State.setNs_mem (s : State) (x : Ns) : (s.setNs x).mem = s.mem := rfl
@[simp] theorem State.setNs_mode (s : State) (x : Ns) : (s.setNs x).mode = s.mode := rfl
@[simp] theorem State.setNs_clk (s : State) (x : Ns) : (s.setNs x).clk = s.clk := rfl
@[simp] theorem State.setNs_eth (s : State) (x : Ns) : (s.setNs x).eth = s.eth := rfl
@[simp] theorem State.setNs_shelf (s : State) (x : Ns) : (s.setNs x).shelf = s.shelf := rfl
@[simp] theorem State.setNs_dict (s : State) (x : Ns) : (s.setNs x).dict = s.dict := rfl
@[simp] theorem State.setNs_evs (s : State) (x : Ns) : (s.setNs x).evs = s.evs := rfl
@[simp] theorem State.setNs_site (s : State) (x : Ns) : (s.setNs x).site = s.site := rfl
@[simp] theorem State.setNs_dma (s : State) (x : Ns) : (s.setNs x).dma = s.dma := rfl
@[simp] theorem State.setNs_fw (s : State) (x : Ns) : (s.setNs x).fw = s.fw := rfl
@[simp] theorem State.setNs_sec (s : State) (x : Ns) : (s.setNs x).sec = s.sec := rfl
@[simp] theorem State.setNs_net (s : State) (x : Ns) : (s.setNs x).net = s.net := rfl
@[simp] theorem State.setNs_shank (s : State) (x : Ns) : (s.setNs x).shank = s.shank := rfl
@[simp] theorem State.setNs_idx (s : State) (x : Ns) : (s.setNs x).idx = s.idx := rfl
@[simp] theorem State.setNs_awl (s : State) (x : Ns) : (s.setNs x).awl = s.awl := rfl
@[simp] theorem State.setNs_welt (s : State) (x : Ns) : (s.setNs x).welt = s.welt := rfl
@[simp] theorem State.setNs_media (s : State) (x : Ns) : (s.setNs x).media = s.media := rfl
@[simp] theorem State.setNs_sets (s : State) (x : Ns) : (s.setNs x).sets = s.sets := rfl
@[simp] theorem State.setNs_free (s : State) (x : Ns) : (s.setNs x).free = s.free := rfl

@[simp] theorem State.setCell_now (s : State) (a : Nat) (e : Option IdxEntry) : (s.setCell a e).now = s.now := rfl
@[simp] theorem State.setCell_pending (s : State) (a : Nat) (e : Option IdxEntry) : (s.setCell a e).pending = s.pending := rfl
@[simp] theorem State.setCell_out (s : State) (a : Nat) (e : Option IdxEntry) : (s.setCell a e).out = s.out := rfl
@[simp] theorem State.setCell_mem (s : State) (a : Nat) (e : Option IdxEntry) : (s.setCell a e).mem = s.mem := rfl
@[simp] theorem State.setCell_mode (s : State) (a : Nat) (e : Option IdxEntry) : (s.setCell a e).mode = s.mode := rfl
@[simp] theorem State.setCell_clk (s : State) (a : Nat) (e : Option IdxEntry) : (s.setCell a e).clk = s.clk := rfl
@[simp] theorem State.setCell_eth (s : State) (a : Nat) (e : Option IdxEntry) : (s.setCell a e).eth = s.eth := rfl
@[simp] theorem State.setCell_shelf (s : State) (a : Nat) (e : Option IdxEntry) : (s.setCell a e).shelf = s.shelf := rfl
@[simp] theorem State.setCell_dict (s : State) (a : Nat) (e : Option IdxEntry) : (s.setCell a e).dict = s.dict := rfl
@[simp] theorem State.setCell_evs (s : State) (a : Nat) (e : Option IdxEntry) : (s.setCell a e).evs = s.evs := rfl
@[simp] theorem State.setCell_site (s : State) (a : Nat) (e : Option IdxEntry) : (s.setCell a e).site = s.site := rfl
@[simp] theorem State.setCell_dma (s : State) (a : Nat) (e : Option IdxEntry) : (s.setCell a e).dma = s.dma := rfl
@[simp] theorem State.setCell_fw (s : State) (a : Nat) (e : Option IdxEntry) : (s.setCell a e).fw = s.fw := rfl
@[simp] theorem State.setCell_sec (s : State) (a : Nat) (e : Option IdxEntry) : (s.setCell a e).sec = s.sec := rfl
@[simp] theorem State.setCell_net (s : State) (a : Nat) (e : Option IdxEntry) : (s.setCell a e).net = s.net := rfl
@[simp] theorem State.setCell_kv (s : State) (a : Nat) (e : Option IdxEntry) : (s.setCell a e).kv = s.kv := rfl
@[simp] theorem State.setCell_shank (s : State) (a : Nat) (e : Option IdxEntry) : (s.setCell a e).shank = s.shank := rfl
@[simp] theorem State.setCell_awl (s : State) (a : Nat) (e : Option IdxEntry) : (s.setCell a e).awl = s.awl := rfl
@[simp] theorem State.setCell_welt (s : State) (a : Nat) (e : Option IdxEntry) : (s.setCell a e).welt = s.welt := rfl
@[simp] theorem State.setCell_media (s : State) (a : Nat) (e : Option IdxEntry) : (s.setCell a e).media = s.media := rfl
@[simp] theorem State.setCell_sets (s : State) (a : Nat) (e : Option IdxEntry) : (s.setCell a e).sets = s.sets := rfl
@[simp] theorem State.setCell_free (s : State) (a : Nat) (e : Option IdxEntry) : (s.setCell a e).free = s.free := rfl

@[simp] theorem State.setSb_now (s : State) (x : Superblock) : (s.setSb x).now = s.now := rfl
@[simp] theorem State.setSb_pending (s : State) (x : Superblock) : (s.setSb x).pending = s.pending := rfl
@[simp] theorem State.setSb_out (s : State) (x : Superblock) : (s.setSb x).out = s.out := rfl
@[simp] theorem State.setSb_mem (s : State) (x : Superblock) : (s.setSb x).mem = s.mem := rfl
@[simp] theorem State.setSb_mode (s : State) (x : Superblock) : (s.setSb x).mode = s.mode := rfl
@[simp] theorem State.setSb_clk (s : State) (x : Superblock) : (s.setSb x).clk = s.clk := rfl
@[simp] theorem State.setSb_eth (s : State) (x : Superblock) : (s.setSb x).eth = s.eth := rfl
@[simp] theorem State.setSb_shelf (s : State) (x : Superblock) : (s.setSb x).shelf = s.shelf := rfl
@[simp] theorem State.setSb_dict (s : State) (x : Superblock) : (s.setSb x).dict = s.dict := rfl
@[simp] theorem State.setSb_evs (s : State) (x : Superblock) : (s.setSb x).evs = s.evs := rfl
@[simp] theorem State.setSb_site (s : State) (x : Superblock) : (s.setSb x).site = s.site := rfl
@[simp] theorem State.setSb_dma (s : State) (x : Superblock) : (s.setSb x).dma = s.dma := rfl
@[simp] theorem State.setSb_fw (s : State) (x : Superblock) : (s.setSb x).fw = s.fw := rfl
@[simp] theorem State.setSb_sec (s : State) (x : Superblock) : (s.setSb x).sec = s.sec := rfl
@[simp] theorem State.setSb_net (s : State) (x : Superblock) : (s.setSb x).net = s.net := rfl
@[simp] theorem State.setSb_kv (s : State) (x : Superblock) : (s.setSb x).kv = s.kv := rfl
@[simp] theorem State.setSb_shank (s : State) (x : Superblock) : (s.setSb x).shank = s.shank := rfl
@[simp] theorem State.setSb_idx (s : State) (x : Superblock) : (s.setSb x).idx = s.idx := rfl
@[simp] theorem State.setSb_awl (s : State) (x : Superblock) : (s.setSb x).awl = s.awl := rfl
@[simp] theorem State.setSb_welt (s : State) (x : Superblock) : (s.setSb x).welt = s.welt := rfl
@[simp] theorem State.setSb_sets (s : State) (x : Superblock) : (s.setSb x).sets = s.sets := rfl
@[simp] theorem State.setSb_free (s : State) (x : Superblock) : (s.setSb x).free = s.free := rfl

@[simp] theorem State.setStream_now (s : State) (x : Stream) : (s.setStream x).now = s.now := rfl
@[simp] theorem State.setStream_pending (s : State) (x : Stream) : (s.setStream x).pending = s.pending := rfl
@[simp] theorem State.setStream_out (s : State) (x : Stream) : (s.setStream x).out = s.out := rfl
@[simp] theorem State.setStream_mem (s : State) (x : Stream) : (s.setStream x).mem = s.mem := rfl
@[simp] theorem State.setStream_mode (s : State) (x : Stream) : (s.setStream x).mode = s.mode := rfl
@[simp] theorem State.setStream_clk (s : State) (x : Stream) : (s.setStream x).clk = s.clk := rfl
@[simp] theorem State.setStream_eth (s : State) (x : Stream) : (s.setStream x).eth = s.eth := rfl
@[simp] theorem State.setStream_shelf (s : State) (x : Stream) : (s.setStream x).shelf = s.shelf := rfl
@[simp] theorem State.setStream_dict (s : State) (x : Stream) : (s.setStream x).dict = s.dict := rfl
@[simp] theorem State.setStream_evs (s : State) (x : Stream) : (s.setStream x).evs = s.evs := rfl
@[simp] theorem State.setStream_site (s : State) (x : Stream) : (s.setStream x).site = s.site := rfl
@[simp] theorem State.setStream_dma (s : State) (x : Stream) : (s.setStream x).dma = s.dma := rfl
@[simp] theorem State.setStream_fw (s : State) (x : Stream) : (s.setStream x).fw = s.fw := rfl
@[simp] theorem State.setStream_sec (s : State) (x : Stream) : (s.setStream x).sec = s.sec := rfl
@[simp] theorem State.setStream_net (s : State) (x : Stream) : (s.setStream x).net = s.net := rfl
@[simp] theorem State.setStream_kv (s : State) (x : Stream) : (s.setStream x).kv = s.kv := rfl
@[simp] theorem State.setStream_shank (s : State) (x : Stream) : (s.setStream x).shank = s.shank := rfl
@[simp] theorem State.setStream_idx (s : State) (x : Stream) : (s.setStream x).idx = s.idx := rfl
@[simp] theorem State.setStream_awl (s : State) (x : Stream) : (s.setStream x).awl = s.awl := rfl
@[simp] theorem State.setStream_welt (s : State) (x : Stream) : (s.setStream x).welt = s.welt := rfl
@[simp] theorem State.setStream_sets (s : State) (x : Stream) : (s.setStream x).sets = s.sets := rfl
@[simp] theorem State.setStream_free (s : State) (x : Stream) : (s.setStream x).free = s.free := rfl

@[simp] theorem State.setFrag_now (s : State) (f : Frag) : (s.setFrag f).now = s.now := rfl
@[simp] theorem State.setFrag_pending (s : State) (f : Frag) : (s.setFrag f).pending = s.pending := rfl
@[simp] theorem State.setFrag_out (s : State) (f : Frag) : (s.setFrag f).out = s.out := rfl
@[simp] theorem State.setFrag_mem (s : State) (f : Frag) : (s.setFrag f).mem = s.mem := rfl
@[simp] theorem State.setFrag_mode (s : State) (f : Frag) : (s.setFrag f).mode = s.mode := rfl
@[simp] theorem State.setFrag_clk (s : State) (f : Frag) : (s.setFrag f).clk = s.clk := rfl
@[simp] theorem State.setFrag_eth (s : State) (f : Frag) : (s.setFrag f).eth = s.eth := rfl
@[simp] theorem State.setFrag_shelf (s : State) (f : Frag) : (s.setFrag f).shelf = s.shelf := rfl
@[simp] theorem State.setFrag_dict (s : State) (f : Frag) : (s.setFrag f).dict = s.dict := rfl
@[simp] theorem State.setFrag_evs (s : State) (f : Frag) : (s.setFrag f).evs = s.evs := rfl
@[simp] theorem State.setFrag_site (s : State) (f : Frag) : (s.setFrag f).site = s.site := rfl
@[simp] theorem State.setFrag_dma (s : State) (f : Frag) : (s.setFrag f).dma = s.dma := rfl
@[simp] theorem State.setFrag_fw (s : State) (f : Frag) : (s.setFrag f).fw = s.fw := rfl
@[simp] theorem State.setFrag_sec (s : State) (f : Frag) : (s.setFrag f).sec = s.sec := rfl
@[simp] theorem State.setFrag_net (s : State) (f : Frag) : (s.setFrag f).net = s.net := rfl
@[simp] theorem State.setFrag_kv (s : State) (f : Frag) : (s.setFrag f).kv = s.kv := rfl
@[simp] theorem State.setFrag_shank (s : State) (f : Frag) : (s.setFrag f).shank = s.shank := rfl
@[simp] theorem State.setFrag_idx (s : State) (f : Frag) : (s.setFrag f).idx = s.idx := rfl
@[simp] theorem State.setFrag_awl (s : State) (f : Frag) : (s.setFrag f).awl = s.awl := rfl
@[simp] theorem State.setFrag_media (s : State) (f : Frag) : (s.setFrag f).media = s.media := rfl
@[simp] theorem State.setFrag_sets (s : State) (f : Frag) : (s.setFrag f).sets = s.sets := rfl
@[simp] theorem State.setFrag_free (s : State) (f : Frag) : (s.setFrag f).free = s.free := rfl

@[simp] theorem State.setRepair_now (s : State) (q : Repair) : (s.setRepair q).now = s.now := rfl
@[simp] theorem State.setRepair_pending (s : State) (q : Repair) : (s.setRepair q).pending = s.pending := rfl
@[simp] theorem State.setRepair_out (s : State) (q : Repair) : (s.setRepair q).out = s.out := rfl
@[simp] theorem State.setRepair_mem (s : State) (q : Repair) : (s.setRepair q).mem = s.mem := rfl
@[simp] theorem State.setRepair_mode (s : State) (q : Repair) : (s.setRepair q).mode = s.mode := rfl
@[simp] theorem State.setRepair_clk (s : State) (q : Repair) : (s.setRepair q).clk = s.clk := rfl
@[simp] theorem State.setRepair_eth (s : State) (q : Repair) : (s.setRepair q).eth = s.eth := rfl
@[simp] theorem State.setRepair_shelf (s : State) (q : Repair) : (s.setRepair q).shelf = s.shelf := rfl
@[simp] theorem State.setRepair_dict (s : State) (q : Repair) : (s.setRepair q).dict = s.dict := rfl
@[simp] theorem State.setRepair_evs (s : State) (q : Repair) : (s.setRepair q).evs = s.evs := rfl
@[simp] theorem State.setRepair_site (s : State) (q : Repair) : (s.setRepair q).site = s.site := rfl
@[simp] theorem State.setRepair_dma (s : State) (q : Repair) : (s.setRepair q).dma = s.dma := rfl
@[simp] theorem State.setRepair_fw (s : State) (q : Repair) : (s.setRepair q).fw = s.fw := rfl
@[simp] theorem State.setRepair_sec (s : State) (q : Repair) : (s.setRepair q).sec = s.sec := rfl
@[simp] theorem State.setRepair_net (s : State) (q : Repair) : (s.setRepair q).net = s.net := rfl
@[simp] theorem State.setRepair_kv (s : State) (q : Repair) : (s.setRepair q).kv = s.kv := rfl
@[simp] theorem State.setRepair_shank (s : State) (q : Repair) : (s.setRepair q).shank = s.shank := rfl
@[simp] theorem State.setRepair_idx (s : State) (q : Repair) : (s.setRepair q).idx = s.idx := rfl
@[simp] theorem State.setRepair_awl (s : State) (q : Repair) : (s.setRepair q).awl = s.awl := rfl
@[simp] theorem State.setRepair_media (s : State) (q : Repair) : (s.setRepair q).media = s.media := rfl
@[simp] theorem State.setRepair_sets (s : State) (q : Repair) : (s.setRepair q).sets = s.sets := rfl
@[simp] theorem State.setRepair_free (s : State) (q : Repair) : (s.setRepair q).free = s.free := rfl

@[simp] theorem State.delay_now (s : State) (d : Delayed) : (s.delay d).now = s.now := rfl
@[simp] theorem State.delay_pending (s : State) (d : Delayed) : (s.delay d).pending = s.pending := rfl
@[simp] theorem State.delay_out (s : State) (d : Delayed) : (s.delay d).out = s.out := rfl
@[simp] theorem State.delay_mem (s : State) (d : Delayed) : (s.delay d).mem = s.mem := rfl
@[simp] theorem State.delay_mode (s : State) (d : Delayed) : (s.delay d).mode = s.mode := rfl
@[simp] theorem State.delay_clk (s : State) (d : Delayed) : (s.delay d).clk = s.clk := rfl
@[simp] theorem State.delay_eth (s : State) (d : Delayed) : (s.delay d).eth = s.eth := rfl
@[simp] theorem State.delay_shelf (s : State) (d : Delayed) : (s.delay d).shelf = { s.shelf with delayed := s.shelf.delayed ++ [d] } := rfl
@[simp] theorem State.delay_dict (s : State) (d : Delayed) : (s.delay d).dict = s.dict := rfl
@[simp] theorem State.delay_evs (s : State) (d : Delayed) : (s.delay d).evs = s.evs := rfl
@[simp] theorem State.delay_site (s : State) (d : Delayed) : (s.delay d).site = s.site := rfl
@[simp] theorem State.delay_dma (s : State) (d : Delayed) : (s.delay d).dma = s.dma := rfl
@[simp] theorem State.delay_fw (s : State) (d : Delayed) : (s.delay d).fw = s.fw := rfl
@[simp] theorem State.delay_sec (s : State) (d : Delayed) : (s.delay d).sec = s.sec := rfl
@[simp] theorem State.delay_net (s : State) (d : Delayed) : (s.delay d).net = s.net := rfl
@[simp] theorem State.delay_kv (s : State) (d : Delayed) : (s.delay d).kv = s.kv := rfl
@[simp] theorem State.delay_shank (s : State) (d : Delayed) : (s.delay d).shank = s.shank := rfl
@[simp] theorem State.delay_idx (s : State) (d : Delayed) : (s.delay d).idx = s.idx := rfl
@[simp] theorem State.delay_awl (s : State) (d : Delayed) : (s.delay d).awl = s.awl := rfl
@[simp] theorem State.delay_welt (s : State) (d : Delayed) : (s.delay d).welt = s.welt := rfl
@[simp] theorem State.delay_media (s : State) (d : Delayed) : (s.delay d).media = s.media := rfl
@[simp] theorem State.delay_sets (s : State) (d : Delayed) : (s.delay d).sets = s.sets := rfl
@[simp] theorem State.delay_free (s : State) (d : Delayed) : (s.delay d).free = s.free := rfl

@[simp] theorem State.setSel_now (s : State) (x : Selectors) : (s.setSel x).now = s.now := rfl
@[simp] theorem State.setSel_pending (s : State) (x : Selectors) : (s.setSel x).pending = s.pending := rfl
@[simp] theorem State.setSel_out (s : State) (x : Selectors) : (s.setSel x).out = s.out := rfl
@[simp] theorem State.setSel_mem (s : State) (x : Selectors) : (s.setSel x).mem = s.mem := rfl
@[simp] theorem State.setSel_mode (s : State) (x : Selectors) : (s.setSel x).mode = s.mode := rfl
@[simp] theorem State.setSel_clk (s : State) (x : Selectors) : (s.setSel x).clk = s.clk := rfl
@[simp] theorem State.setSel_eth (s : State) (x : Selectors) : (s.setSel x).eth = s.eth := rfl
@[simp] theorem State.setSel_shelf (s : State) (x : Selectors) : (s.setSel x).shelf = s.shelf := rfl
@[simp] theorem State.setSel_evs (s : State) (x : Selectors) : (s.setSel x).evs = s.evs := rfl
@[simp] theorem State.setSel_site (s : State) (x : Selectors) : (s.setSel x).site = s.site := rfl
@[simp] theorem State.setSel_dma (s : State) (x : Selectors) : (s.setSel x).dma = s.dma := rfl
@[simp] theorem State.setSel_fw (s : State) (x : Selectors) : (s.setSel x).fw = s.fw := rfl
@[simp] theorem State.setSel_sec (s : State) (x : Selectors) : (s.setSel x).sec = s.sec := rfl
@[simp] theorem State.setSel_net (s : State) (x : Selectors) : (s.setSel x).net = s.net := rfl
@[simp] theorem State.setSel_kv (s : State) (x : Selectors) : (s.setSel x).kv = s.kv := rfl
@[simp] theorem State.setSel_shank (s : State) (x : Selectors) : (s.setSel x).shank = s.shank := rfl
@[simp] theorem State.setSel_idx (s : State) (x : Selectors) : (s.setSel x).idx = s.idx := rfl
@[simp] theorem State.setSel_awl (s : State) (x : Selectors) : (s.setSel x).awl = s.awl := rfl
@[simp] theorem State.setSel_welt (s : State) (x : Selectors) : (s.setSel x).welt = s.welt := rfl
@[simp] theorem State.setSel_media (s : State) (x : Selectors) : (s.setSel x).media = s.media := rfl
@[simp] theorem State.setSel_sets (s : State) (x : Selectors) : (s.setSel x).sets = s.sets := rfl
@[simp] theorem State.setSel_free (s : State) (x : Selectors) : (s.setSel x).free = s.free := rfl

@[simp] theorem State.setTransfer_now (s : State) (x : Usdo) : (s.setTransfer x).now = s.now := rfl
@[simp] theorem State.setTransfer_pending (s : State) (x : Usdo) : (s.setTransfer x).pending = s.pending := rfl
@[simp] theorem State.setTransfer_out (s : State) (x : Usdo) : (s.setTransfer x).out = s.out := rfl
@[simp] theorem State.setTransfer_mem (s : State) (x : Usdo) : (s.setTransfer x).mem = s.mem := rfl
@[simp] theorem State.setTransfer_mode (s : State) (x : Usdo) : (s.setTransfer x).mode = s.mode := rfl
@[simp] theorem State.setTransfer_clk (s : State) (x : Usdo) : (s.setTransfer x).clk = s.clk := rfl
@[simp] theorem State.setTransfer_eth (s : State) (x : Usdo) : (s.setTransfer x).eth = s.eth := rfl
@[simp] theorem State.setTransfer_dict (s : State) (x : Usdo) : (s.setTransfer x).dict = s.dict := rfl
@[simp] theorem State.setTransfer_evs (s : State) (x : Usdo) : (s.setTransfer x).evs = s.evs := rfl
@[simp] theorem State.setTransfer_site (s : State) (x : Usdo) : (s.setTransfer x).site = s.site := rfl
@[simp] theorem State.setTransfer_dma (s : State) (x : Usdo) : (s.setTransfer x).dma = s.dma := rfl
@[simp] theorem State.setTransfer_fw (s : State) (x : Usdo) : (s.setTransfer x).fw = s.fw := rfl
@[simp] theorem State.setTransfer_sec (s : State) (x : Usdo) : (s.setTransfer x).sec = s.sec := rfl
@[simp] theorem State.setTransfer_net (s : State) (x : Usdo) : (s.setTransfer x).net = s.net := rfl
@[simp] theorem State.setTransfer_kv (s : State) (x : Usdo) : (s.setTransfer x).kv = s.kv := rfl
@[simp] theorem State.setTransfer_shank (s : State) (x : Usdo) : (s.setTransfer x).shank = s.shank := rfl
@[simp] theorem State.setTransfer_idx (s : State) (x : Usdo) : (s.setTransfer x).idx = s.idx := rfl
@[simp] theorem State.setTransfer_awl (s : State) (x : Usdo) : (s.setTransfer x).awl = s.awl := rfl
@[simp] theorem State.setTransfer_welt (s : State) (x : Usdo) : (s.setTransfer x).welt = s.welt := rfl
@[simp] theorem State.setTransfer_media (s : State) (x : Usdo) : (s.setTransfer x).media = s.media := rfl
@[simp] theorem State.setTransfer_sets (s : State) (x : Usdo) : (s.setTransfer x).sets = s.sets := rfl
@[simp] theorem State.setTransfer_free (s : State) (x : Usdo) : (s.setTransfer x).free = s.free := rfl

@[simp] theorem State.dropTransfer_now (s : State) (node : Nat) : (s.dropTransfer node).now = s.now := rfl
@[simp] theorem State.dropTransfer_pending (s : State) (node : Nat) : (s.dropTransfer node).pending = s.pending := rfl
@[simp] theorem State.dropTransfer_out (s : State) (node : Nat) : (s.dropTransfer node).out = s.out := rfl
@[simp] theorem State.dropTransfer_mem (s : State) (node : Nat) : (s.dropTransfer node).mem = s.mem := rfl
@[simp] theorem State.dropTransfer_mode (s : State) (node : Nat) : (s.dropTransfer node).mode = s.mode := rfl
@[simp] theorem State.dropTransfer_clk (s : State) (node : Nat) : (s.dropTransfer node).clk = s.clk := rfl
@[simp] theorem State.dropTransfer_eth (s : State) (node : Nat) : (s.dropTransfer node).eth = s.eth := rfl
@[simp] theorem State.dropTransfer_dict (s : State) (node : Nat) : (s.dropTransfer node).dict = s.dict := rfl
@[simp] theorem State.dropTransfer_evs (s : State) (node : Nat) : (s.dropTransfer node).evs = s.evs := rfl
@[simp] theorem State.dropTransfer_site (s : State) (node : Nat) : (s.dropTransfer node).site = s.site := rfl
@[simp] theorem State.dropTransfer_dma (s : State) (node : Nat) : (s.dropTransfer node).dma = s.dma := rfl
@[simp] theorem State.dropTransfer_fw (s : State) (node : Nat) : (s.dropTransfer node).fw = s.fw := rfl
@[simp] theorem State.dropTransfer_sec (s : State) (node : Nat) : (s.dropTransfer node).sec = s.sec := rfl
@[simp] theorem State.dropTransfer_net (s : State) (node : Nat) : (s.dropTransfer node).net = s.net := rfl
@[simp] theorem State.dropTransfer_kv (s : State) (node : Nat) : (s.dropTransfer node).kv = s.kv := rfl
@[simp] theorem State.dropTransfer_shank (s : State) (node : Nat) : (s.dropTransfer node).shank = s.shank := rfl
@[simp] theorem State.dropTransfer_idx (s : State) (node : Nat) : (s.dropTransfer node).idx = s.idx := rfl
@[simp] theorem State.dropTransfer_awl (s : State) (node : Nat) : (s.dropTransfer node).awl = s.awl := rfl
@[simp] theorem State.dropTransfer_welt (s : State) (node : Nat) : (s.dropTransfer node).welt = s.welt := rfl
@[simp] theorem State.dropTransfer_media (s : State) (node : Nat) : (s.dropTransfer node).media = s.media := rfl
@[simp] theorem State.dropTransfer_sets (s : State) (node : Nat) : (s.dropTransfer node).sets = s.sets := rfl
@[simp] theorem State.dropTransfer_free (s : State) (node : Nat) : (s.dropTransfer node).free = s.free := rfl

@[simp] theorem State.setRow_now (s : State) (r : AwlRow) : (s.setRow r).now = s.now := rfl
@[simp] theorem State.setRow_pending (s : State) (r : AwlRow) : (s.setRow r).pending = s.pending := rfl
@[simp] theorem State.setRow_out (s : State) (r : AwlRow) : (s.setRow r).out = s.out := rfl
@[simp] theorem State.setRow_mem (s : State) (r : AwlRow) : (s.setRow r).mem = s.mem := rfl
@[simp] theorem State.setRow_mode (s : State) (r : AwlRow) : (s.setRow r).mode = s.mode := rfl
@[simp] theorem State.setRow_clk (s : State) (r : AwlRow) : (s.setRow r).clk = s.clk := rfl
@[simp] theorem State.setRow_eth (s : State) (r : AwlRow) : (s.setRow r).eth = s.eth := rfl
@[simp] theorem State.setRow_shelf (s : State) (r : AwlRow) : (s.setRow r).shelf = s.shelf := rfl
@[simp] theorem State.setRow_dict (s : State) (r : AwlRow) : (s.setRow r).dict = s.dict := rfl
@[simp] theorem State.setRow_evs (s : State) (r : AwlRow) : (s.setRow r).evs = s.evs := rfl
@[simp] theorem State.setRow_site (s : State) (r : AwlRow) : (s.setRow r).site = s.site := rfl
@[simp] theorem State.setRow_dma (s : State) (r : AwlRow) : (s.setRow r).dma = s.dma := rfl
@[simp] theorem State.setRow_fw (s : State) (r : AwlRow) : (s.setRow r).fw = s.fw := rfl
@[simp] theorem State.setRow_sec (s : State) (r : AwlRow) : (s.setRow r).sec = s.sec := rfl
@[simp] theorem State.setRow_net (s : State) (r : AwlRow) : (s.setRow r).net = s.net := rfl
@[simp] theorem State.setRow_kv (s : State) (r : AwlRow) : (s.setRow r).kv = s.kv := rfl
@[simp] theorem State.setRow_shank (s : State) (r : AwlRow) : (s.setRow r).shank = s.shank := rfl
@[simp] theorem State.setRow_idx (s : State) (r : AwlRow) : (s.setRow r).idx = s.idx := rfl
@[simp] theorem State.setRow_welt (s : State) (r : AwlRow) : (s.setRow r).welt = s.welt := rfl
@[simp] theorem State.setRow_media (s : State) (r : AwlRow) : (s.setRow r).media = s.media := rfl
@[simp] theorem State.setRow_sets (s : State) (r : AwlRow) : (s.setRow r).sets = s.sets := rfl
@[simp] theorem State.setRow_free (s : State) (r : AwlRow) : (s.setRow r).free = s.free := rfl

@[simp] theorem State.setStaged_now (s : State) (x : Staged) : (s.setStaged x).now = s.now := rfl
@[simp] theorem State.setStaged_pending (s : State) (x : Staged) : (s.setStaged x).pending = s.pending := rfl
@[simp] theorem State.setStaged_out (s : State) (x : Staged) : (s.setStaged x).out = s.out := rfl
@[simp] theorem State.setStaged_mem (s : State) (x : Staged) : (s.setStaged x).mem = s.mem := rfl
@[simp] theorem State.setStaged_mode (s : State) (x : Staged) : (s.setStaged x).mode = s.mode := rfl
@[simp] theorem State.setStaged_clk (s : State) (x : Staged) : (s.setStaged x).clk = s.clk := rfl
@[simp] theorem State.setStaged_eth (s : State) (x : Staged) : (s.setStaged x).eth = s.eth := rfl
@[simp] theorem State.setStaged_shelf (s : State) (x : Staged) : (s.setStaged x).shelf = s.shelf := rfl
@[simp] theorem State.setStaged_dict (s : State) (x : Staged) : (s.setStaged x).dict = s.dict := rfl
@[simp] theorem State.setStaged_evs (s : State) (x : Staged) : (s.setStaged x).evs = s.evs := rfl
@[simp] theorem State.setStaged_site (s : State) (x : Staged) : (s.setStaged x).site = s.site := rfl
@[simp] theorem State.setStaged_dma (s : State) (x : Staged) : (s.setStaged x).dma = s.dma := rfl
@[simp] theorem State.setStaged_sec (s : State) (x : Staged) : (s.setStaged x).sec = s.sec := rfl
@[simp] theorem State.setStaged_net (s : State) (x : Staged) : (s.setStaged x).net = s.net := rfl
@[simp] theorem State.setStaged_kv (s : State) (x : Staged) : (s.setStaged x).kv = s.kv := rfl
@[simp] theorem State.setStaged_shank (s : State) (x : Staged) : (s.setStaged x).shank = s.shank := rfl
@[simp] theorem State.setStaged_idx (s : State) (x : Staged) : (s.setStaged x).idx = s.idx := rfl
@[simp] theorem State.setStaged_awl (s : State) (x : Staged) : (s.setStaged x).awl = s.awl := rfl
@[simp] theorem State.setStaged_welt (s : State) (x : Staged) : (s.setStaged x).welt = s.welt := rfl
@[simp] theorem State.setStaged_media (s : State) (x : Staged) : (s.setStaged x).media = s.media := rfl
@[simp] theorem State.setStaged_sets (s : State) (x : Staged) : (s.setStaged x).sets = s.sets := rfl
@[simp] theorem State.setStaged_free (s : State) (x : Staged) : (s.setStaged x).free = s.free := rfl

end Sys2Proof.Machine
end

