-- ==== Sys2Proof/Tests/Slice0.lean ====
section
/-! SUPPORT. Tests of the model: single steps on small states, worked examples of the manual, refused operands, and the
witnesses of the obligations: for each one that has hypotheses, a theorem `witness_<name>` gives states and operands that
meet all of them, clause by clause. -/

namespace Sys2Proof.Tests
open Machine

set_option Elab.async false

/-- A drive in SERVE with every domain powered, and a policy entry that allows everything. -/
def serve : State :=
  { State.reset with
    mode := { mode := .serve, pwrReq := true, pwrGoodCore := true, pwrGoodIo := true }
    clk := { State.reset.clk with doms := Vector.replicate 9 .on, srcs := Vector.replicate 7 { st := .healthy }
                                  plls := Vector.replicate 4 { locked := true, ref := some .xtal25 } }
    shelf := { running := true, coreAnswers := true }
    evs := { numbered := true }
    site := { st := 1 }
    eth := { portA := { link := .up, activeMode := 4 } }
    idx := { n := 16 }
    awl := { State.reset.awl with rows := [{ addr := 0, valid := true, entry := ⟨0, 0, 0, 0b1001⟩ }] } }

/-- A path on port A. -/
def path0 : NetPath := { idx := 0, port := .a, addr := 7, st := .active }

/-- An open session. -/
def sess (sid : Nat) : Session :=
  { sid := sid, st := .open_, v1 := false, asHost := none, identity := [1], policy := 0xFF, mpb := 1232, maxOut := 8, hostNonce := [],
    hostPub := [], accept := zeros 205, h2dKey := [], h2dIv := [], d2hKey := [], d2hIv := [], openedAt := 0, lastCmd := 0, lastActive := 0,
    paths := [path0] }

/-- `serve` with one session. -/
def withSess (x : Session) : State := { serve with net := { serve.net with sessions := [x] } }

/-- A packet of session 1 by its path. -/
def rx1 : Rx := { sid := 1, port := .a, addr := 7, path := 0, pn := 1, ce := false, len := 200, tagOk := true }

/-- A CMD of a row without key or value, as it should be. -/
def pkt (op : Nat) : CmdPkt :=
  { opcode := op, flags := 0, tag := 5, cls := 3, inc := 0, ns := 0, gen := 0, seq := 0, keyLen := 0, paramLen := 0, valueLen := 0, params := [],
    key := [], value := [], pktLen := 60 }

/-- A command in flight. -/
def ctx (op : Nat) (st : CmdSt) : CmdCtx :=
  { sid := 1, pkt := pkt op, path := 0, plan := { dies := [], chans := [] }, st := st, ta := 0, bound := 0, deadline := 0, pos := 0, epoch := 0,
    size := 0, arrivedAt := 0, ordered := false }

/-- `serve` with session 1 and one command in flight. -/
def withCmd (c : CmdCtx) : State := { withSess (sess 1) with kv := { serve.kv with cmds := [c] } }

/-- Namespace 1 of generation 1 stands, in instance slot 0. -/
def keyed (s : State) : State :=
  { s with kv := { s.kv with nss := [{ number := 1, gen := 1, live := true, k := 4, m := 1, inst := some 0 }] }
           idx := { s.idx with insts := [{ slot := 0, st := .live, ns := 1, gen := 1 }] } }

/-- A CMD on key [1] of namespace 1. -/
def keyPkt (op : Nat) : CmdPkt := { pkt op with ns := 1, gen := 1, keyLen := 1, key := [1], pktLen := 61 }

/-- A command in flight on key [1] of namespace 1. -/
def keyCtx (op : Nat) (st : CmdSt) : CmdCtx := { ctx op st with pkt := keyPkt op }

theorem witness_StepServesQueue : serve.pending = [] := by decide

theorem witness_InvariantKept_OtpOnlyGains : Inv serve ∧ (∃ u, step { serve with pending := [.mbxS2cProdWrite 0 0] } = .next u) :=
  ⟨rfl, _, rfl⟩

theorem witness_ErrorRegisterBits :
    serve.modeServes (.shelf 9) K.errorRegister false = true ∧ serve.shelf.queue.length < 16 ∧
    ({ serve with shelf := { serve.shelf with conds := [0x4200, 0x6100] } } : State).errorRegister = 0b10001001 := by decide +kernel

/-- A PUT, or with params 8 bytes longer a PUT_IF, with a RetentionClass. -/
def putCls (op off n : Nat) : CmdPkt :=
  { pkt op with cls := 0, ns := 1, gen := 1, keyLen := 1, key := [1], paramLen := 8 + off, params := zeros off ++ beBytes 1 n ++ zeros 7,
                pktLen := 60 + (8 + off) + 1 }

theorem witness_RetentionClassRange :
    (putCls 0x10 0 8).shape false = none ∧ (putCls 0x10 0 8).param 0 1 = 8 ∧ (putCls 0x10 0 0xFE).shape false = none ∧
    (putCls 0x11 8 8).shape false = none ∧ (putCls 0x11 8 8).param 8 1 = 8 ∧ (putCls 0x11 8 0xFE).shape false = none := by decide +kernel

theorem witness_WriteStampsRise :
    let x : Ns := { number := 1, gen := 1, live := true }
    (∀ r : CommitRec, some r = some r) ∧ (serve.newWrite (pkt 0x10) x 0 0 none).stamp = 1 := ⟨fun _ => rfl, by decide +kernel⟩

theorem witness_PacketReceipt :
    let s := withSess { sess 1 with rxHigh := 5000, rxSeen := [(4999, 0)] }
    s.otherPort rx1.dst = false ∧ s.otherPort (some 1) = true ∧ s.session? 2 = none ∧ (s.session? 1).isSome = true ∧ (withSess { sess 1 with st := .closing }).session? 1 = some { sess 1 with st := .closing } ∧
    (sess 1).st ≠ .closing ∧ 904 + 4096 ≤ 5000 ∧ 5000 < 905 + 4096 ∧ (∀ y ∈ [((4999 : Nat), (0 : Nat))], y.1 ≠ 905) ∧
    (sess 1).path? 0 = some path0 ∧ ¬ (path0.port = .b ∧ path0.addr = 7) ∧ (sess 1).path? 1 = none ∧
    (s.receive { rx1 with pn := 904 } 2 false).2 = .dropped ∧ (s.receive { rx1 with pn := 905 } 2 false).2 = .taken := by decide +kernel

/-- A HELLO whose identity is [1] with MPB `n`, without its MAC. -/
def helloHead (n : Nat) : Bytes := [2, 1] ++ zeros 144 ++ beBytes 2 n ++ [1] ++ zeros 3 ++ [1] ++ zeros 63

theorem cmac16_length (k b : Bytes) : (cmac16 k b).length = 16 := by
  simp [cmac16, padTo, zeros]; omega

theorem slice_last (p m : Bytes) (n : Nat) (hp : p.length = n) (hm : m.length = 16) : sliceBytes (p ++ m) n 16 = m := by
  subst hp; simp [sliceBytes, ← hm]

theorem bytes_ne (x : Bytes) : ∃ m : Bytes, m.length = 16 ∧ x ≠ m := by
  by_cases h : x = zeros 16
  · exact ⟨List.replicate 16 1, rfl, by subst h; decide⟩
  · exact ⟨zeros 16, rfl, h⟩

/-- The PSK of identity [1]. -/
def psk1 : Psk := { identity := [1], psk := [], policy := 0xFF }

/-- A table of `n` open sessions of this drive's own. -/
def fullTable (n : Nat) : State := { serve with net := { serve.net with sessions := List.replicate n { sess 1 with asHost := some 2 } } }

theorem fullTable_makeRoom (n : Nat) (hn : 65536 ≤ n) : (fullTable n).makeRoom = none := by
  have h : (fullTable n).openSessions = List.replicate n { sess 1 with asHost := some 2 } := by
    simp [State.openSessions, fullTable, sess]
  simp [State.makeRoom, State.victim, h, Nat.not_lt.mpr hn]

/-- A group with this drive as member 1 and one other, member 2. -/
def group : GroupMap :=
  { epoch := 1, activation := 0, salt := zeros 16, groupId := 9, raw := []
    members := [{ id := 1, active := true, identity := [1], udp := 47714, portMap := 1, addrA := zeros 16, addrB := zeros 16 },
                { id := 2, active := true, identity := [2], udp := 47714, portMap := 1, addrA := zeros 16, addrB := zeros 16 }] }

/-- `serve` in that group. -/
def grouped : State :=
  { serve with welt := { cur := some group }, sec := { serve.sec with psks := [psk1] }, dict := { serve.dict with vals := [(K.selfMemberId, .num 1)] } }

/-- An ACCEPT with a status, without its MAC. -/
def acceptHead (status : Nat) : Bytes := [2, 2] ++ zeros 143 ++ beBytes 1 status ++ zeros 50

/-- `grouped` with a HELLO sent to member 2. -/
def waiting : State := { grouped with net := { grouped.net with hellos := [{ member := 2, nonce := [], priv := [], pub := [], sentAt := 0 }] } }

theorem witness_SessionsOpen :
    badHeader [] 1 232 = true ∧ beAt (helloHead 1231 ++ zeros 16) 146 2 = 1231 ∧ beAt (helloHead 1232 ++ zeros 16) 146 2 = 1232 ∧
    serve.psk? [1] = none ∧ grouped.psk? [1] = some psk1 ∧
    (∀ k : Bytes, ∃ b, badHeader b 1 232 = false ∧ cmac16 k (b.take 216) = sliceBytes b 216 16) ∧
    (∀ k : Bytes, ∃ b, badHeader b 1 232 = false ∧ cmac16 k (b.take 216) ≠ sliceBytes b 216 16) ∧
    (serve.otherPort none = false ∧ serve.otherPort (some 1) = true ∧ (serve.net.sessions.filter (·.st == .halfOpen)).length < 1024 ∧
      ({ port := .a, addr := 7, identity := [1], suites := [0x1302], groups := [0x0018], modes := [1], verifies := true } : TlsHello).accepted = true) ∧
    serve.serving = true ∧ State.reset.serving = false ∧ serve.makeRoom = some serve ∧ (fullTable 65536).makeRoom = none ∧
    (withSess (sess 1)).net.sessions.find? (fun x => x.st == .halfOpen && x.hostNonce == [] && x.hostPub == []) = none ∧
    serve.flag K.rwpV1Enable = true ∧ badHeader [] 2 212 = true ∧ badHeader (acceptHead 0 ++ zeros 16) 2 212 = false ∧ beAt (acceptHead 0 ++ zeros 16) 145 1 = 0 ∧
    waiting.net.hellos.find? (·.member == 2) ≠ none ∧ waiting.welt.cur = some group ∧
    (group.member? waiting.selfId).isSome = true ∧
    (∀ k : Bytes, ∃ b, badHeader b 2 212 = false ∧ beAt b 145 1 = 2 ∧ cmac16 k (b.take 196) = sliceBytes b 196 16) := by
  have h : (helloHead 1232).length = 216 := by decide +kernel
  have g : (acceptHead 2).length = 196 := by decide +kernel
  have take (p m : Bytes) (n : Nat) (hp : p.length = n) : (p ++ m).take n = p := by subst hp; simp
  have head (m : Bytes) (hm : m.length = 16) : badHeader (helloHead 1232 ++ m) 1 232 = false := by
    have : (helloHead 1232 ++ m).length = 232 := by simp [h, hm]
    simp only [badHeader, this]; rfl
  refine ⟨by decide +kernel, by decide +kernel, by decide +kernel, by decide +kernel, by decide +kernel, fun k => ?_, fun k => ?_, by decide +kernel,
    by decide +kernel, by decide +kernel, rfl, fullTable_makeRoom _ (Nat.le_refl _), by decide +kernel, by decide +kernel, by decide +kernel, by decide +kernel, by decide +kernel,
    by decide +kernel, rfl, by decide +kernel, fun k => ?_⟩
  · refine ⟨_, head (cmac16 k (helloHead 1232)) (cmac16_length _ _), ?_⟩
    rw [take _ _ _ h, slice_last _ _ _ h (cmac16_length _ _)]
  · obtain ⟨m, hm, hne⟩ := bytes_ne (cmac16 k (helloHead 1232))
    refine ⟨_, head m hm, ?_⟩
    rw [take _ _ _ h, slice_last _ _ _ h hm]; exact hne
  · have : (acceptHead 2 ++ cmac16 k (acceptHead 2)).length = 212 := by simp [g, cmac16_length]
    refine ⟨acceptHead 2 ++ cmac16 k (acceptHead 2), ?_, rfl, ?_⟩
    · simp only [badHeader, this]; rfl
    · rw [take _ _ _ g, slice_last _ _ _ g (cmac16_length _ _)]

theorem witness_SessionTimers :
    let x : Session := { sess 1 with ackOwed := 1, noPathSince := some 0, unacked := [{ pn := 1, path := 0, pref := 0, at_ := 0, size := 100, body := .keepalive false 0 }] }
    let s := withSess x
    s.session? 1 = some x ∧ x.st = .open_ ∧ (s.advance (2000 * nsMs)).sessionSilent x = true ∧ (s.advance (1999 * nsMs)).sessionSilent x = false ∧
    x.asHost = none ∧ x.unreleased = 0 ∧ x.lastCmd + s.num K.idleTimeoutSeconds * nsSec = 600 * nsSec ∧
    (let y : Session := { x with st := .halfOpen }; (withSess y).session? 1 = some y ∧ y.openedAt + nsSec ≤ nsSec) ∧
    (let y : Session := { x with st := .closing, closeAt := some 5 }; (withSess y).session? 1 = some y ∧ y.st ≠ .open_) ∧
    (let y : Session := { x with v1 := true }; (withSess y).session? 1 = some y) ∧
    0 < x.ackOwed ∧ x.ackSince + 25000 ≤ 25000 ∧ x.path? 0 = some path0 ∧ x.v1 = false ∧ path0.st = .active ∧
    (x.unacked.find? (·.path == 0)).isSome = true ∧ path0.pto = 325000 ∧ path0.ptos < 2 ∧
    (let q : NetPath := { path0 with ptos := 2, acked := 1 }; ({ x with paths := [q] } : Session).path? 0 = some q ∧ q.pto = 1300000 ∧ q.acked ≠ 0 ∧
      q.lastCong + q.srtt ≤ 100000) ∧
    path0.lastTx + s.num K.keepaliveIntervalMs * nsMs = 10 * nsMs ∧ path0.lastRx + s.num K.pathDeadMs * nsMs = 30 * nsMs ∧
    ({ path0 with st := .failed } : NetPath).st = .failed ∧ ({ s with eth := { s.eth with portA := { link := .up } } } : State).eth.portA.link = .up := by
  decide +kernel

/-- The drive takes the packet. -/
def takes (s : State) (rx : Rx) (kind : Nat) (elicits : Bool) : Bool :=
  (s.rxPacket rx kind elicits).2 == .taken && ((s.rxPacket rx kind elicits).1.session? rx.sid).isSome

/-- An ACK of packet 1. -/
def ack1 : AckPkt := { largest := 1, delayUs := 0, credit := 4096, ce := [], ranges := [(0, 0)], releases := [(5, 0)] }

/-- A message to member 2 that travels on this drive's own session 9. -/
def msg (op : Nat) : PeerMsg :=
  { id := 1, member := 2, on := some (9, 5), pkt := pkt op, value := zeros 64, stripe := ⟨1, 0, 1⟩, index := 0, seg := 0, cmd := none, repair := false,
    sentAt := 0, interval := nsMs, got := [] }

theorem witness_PacketsTaken :
    let s := withSess (sess 1)
    let c := withSess { sess 1 with st := .closing, closePn := some 1 }
    takes s rx1 0 true = true ∧ (sess 1).v1 = false ∧ ({ ack1 with ranges := [] } : AckPkt).spans = none ∧ ack1.spans = some [(1, 1)] ∧
    takes c rx1 0 true = true ∧ ((c.rxPacket rx1 0 true).1.session? 1).any (fun x => x.st == .closing && x.closePn.any (inSpans [(1, 1)])) = true ∧
    takes s rx1 2 false = true ∧ ([(1, 1)] : List (Nat × Nat)) ≠ [] ∧ (2 : Nat) ≠ 6 ∧ takes s rx1 1 false = true ∧
    ((s.rxPacket rx1 1 false).1.session? 1).any (fun x => (x.path? 0).isSome) = true ∧
    (let x : Session := { sess 1 with accept := zeros 160 ++ beBytes 1 3 ++ zeros 44 }
     let r : Rx := { rx1 with path := 3 }
     takes (withSess x) r 1 false = true ∧ x.path? 3 = none ∧ x.listsPort .a = true) ∧
    (let x : Session := { sess 1 with paths := [{ path0 with st := .failed }] }
     takes (withSess x) rx1 2 false = true ∧ (x.path? 0).any (fun q => q.st != .active) = true) ∧
    takes s rx1 2 true = true ∧
    (let h : State := { withSess { sess 9 with asHost := some 2 } with welt := { msgs := [msg 0x71] } }
     takes h { rx1 with sid := 9 } 2 true = true ∧ ((h.rxPacket { rx1 with sid := 9 } 2 true).1.msgOn 9 5).any (fun m => m.pkt.opcode == 0x71) = true) ∧
    (let q := ({ pkt 0x10 with seq := 7 } : CmdPkt).norm
     60 ≤ q.pktLen ∧ (q.seq + 2 ^ 32 - (sess 1).nextSeq) % 2 ^ 32 = 7 ∧ 7 < (sess 1).maxOut) := by
  decide +kernel

/-- A write of `n` bytes that has started. -/
def wctx : WriteCtx :=
  { stripe := ⟨1, 0, 1⟩, epoch := 1, striped := false, k := 4, m := 1, quorum := 1, hash := 0, stamp := 1, attrs := 0, durable := false, mediaFirst := false, holders := [] }

/-- A window of 64 bytes at 0. -/
def win (complete : Bool) : Window := { off := 0, len := 64, got := [], complete := complete, drained := false }

theorem witness_ValueTransfers :
    let x : Session := { sess 1 with tags := [{ tag := 5, inc := 0, seq := 0, ended := false, released := false, byReset := none }] }
    let c : CmdCtx := { ctx 0x10 .running with pkt := { pkt 0x10 with valueLen := 64 }, write := some wctx, windows := [win false] }
    let s : State := { withSess x with kv := { serve.kv with cmds := [c] } }
    s.cmd? 1 5 = some c ∧ takes s rx1 2 true = true ∧ x.tagCurrent 5 0 = true ∧ x.tagCurrent 5 1 = false ∧ ((s.rxPacket rx1 2 true).1.cmd? 1 5) = some c ∧
    (c.windows.find? fun w => w.open && w.holds 1 64) = none ∧ (c.windows.find? fun w => w.open && w.holds 0 64) = some (win false) ∧
    uncovered (win false).got 0 (zeros 64) = [(0, zeros 64)] ∧ c.windows.any Window.open = true ∧ c.lastData + s.num K.dataIdleMs * nsMs = 5000 * nsMs ∧
    (let d : CmdCtx := { c with windows := [win true] }
     (d.windows.find? fun w => !w.drained) = some (win true) ∧ (win true).complete = true ∧ writeOp d.pkt.opcode = true) ∧
    (let d : CmdCtx := { ctx 0x71 .running with pkt := { pkt 0x71 with valueLen := 65 }, windows := [win true] }
     writeOp d.pkt.opcode = false ∧ 0 + 64 < d.pkt.valueLen ∧ ({ pkt 0x71 with valueLen := 64 } : CmdPkt).valueLen ≤ 0 + 64) ∧
    (let d : CmdCtx := { c with windows := [] }
     windowsFrom d.pkt.valueLen d.granted [64] = some [(0, 64)] ∧ d.takesGrants = true ∧ s.bufUsed + bufSpace 64 ≤ s.bufSize) ∧
    (let b : State := { s with media := { s.media with bufMiB := 0 } }
     (b.rawRoom (bufSpace 64)).bufSize < (b.rawRoom (bufSpace 64)).bufUsed + bufSpace 64) ∧
    (let d : CmdCtx := { c with reply := some (zeros 8, 0, []) }
     d.reply = some (zeros 8, 0, []) ∧ d.replySent < 8 ∧ d.suppressed = false ∧ ({ x with credit := 0 } : Session).credit ≤ x.dataInFlight) := by
  decide +kernel

/-- Every check of Table 4.3 passes, or one fails. -/
def checked (s : State) (p : CmdPkt) : Bool :=
  let b := (s.rxPacket rx1 2 true).1
  match b.session? 1 with
  | some x => let q := p.norm; let h := (b.seqTaken x rx1 q).parseKey q {}; (h.1.checks x rx1 q {} h.2).2.isNone
  | none => false

/-- A DICT_READ of an index and subindex. -/
def dictReadPkt (k : Nat) : CmdPkt := { pkt 0x40 with paramLen := 12, params := beBytes 2 (k / 256) ++ beBytes 1 (k % 256) ++ zeros 9, pktLen := 72 }

theorem witness_CommandArrivals :
    let s := withSess (sess 1)
    takes s rx1 2 true = true ∧ (sess 1).asHost = none ∧ 60 ≤ (pkt 0x60).norm.pktLen ∧ (pkt 0x60).norm.seq = (sess 1).nextSeq ∧
    (∀ g ∈ (sess 1).tags, g.tag ≠ 5) ∧ (pkt 0x60).norm.inc = 0 ∧ ((sess 1).tags.filter fun g => !g.released).length < (sess 1).maxOut ∧
    checked s (pkt 0x60) = true ∧ checked s (pkt 0x20) = true ∧ checked s (dictReadPkt 0x100100) = true ∧
    checked s (pkt 0x99) = false ∧ checked s { pkt 0x20 with pktLen := 61 } = false ∧ checked s (keyPkt 0x01) = false ∧
    checked (keyed s) (keyPkt 0x01) = true ∧ checked (keyed s) { keyPkt 0x10 with paramLen := 8, pktLen := 69 } = true := by
  decide +kernel

/-- A session without room for contexts. -/
def manyTags (n : Nat) : Session :=
  { sess 1 with tags := List.replicate n { tag := 0, inc := 0, seq := 0, ended := false, released := false, byReset := none } }

theorem manyTags_contexts (n : Nat) : (withSess (manyTags n)).contexts = n := by
  simp [State.contexts, withSess, manyTags, sess, Session.unreleased]

/-- The verdict of R134 on a command, as its decision takes it. -/
def verdict (s : State) (c : CmdCtx) : Verdict :=
  let n := s.sizeOf c
  s.judge (s.boundEnd c n) (s.margin (s.factsOf c)) (s.workOf c n) (max (s.predEnd c).1 (s.mediaEnd c)) (s.predEnd c).2

theorem witness_CommandDecisions :
    (∀ op ∈ [0x20, 0x31, 0x32, 0x40, 0x41, 0x50, 0x51, 0x60, 0x70, 0x71, 0x72, 0x73, 0x74, 0x75],
      let c := { ctx op .undecided with pkt := { pkt op with ns := 1, gen := 1 } }
      let s := keyed (withCmd c)
      s.cmd? 1 5 = some c ∧ c.sid = 1 ∧ c.pkt.tag = 5 ∧ s.keyUndecided c = false ∧ s.pullState c = .none_ ∧ s.contexts ≤ 262144 ∧
        s.noInst c.pkt = false ∧ c.write = none ∧ c.pkt.cls = 3) ∧
    (∀ op ∈ [0x01, 0x02, 0x03],
      let c := keyCtx op .undecided
      let s := keyed (withCmd c)
      s.cmd? 1 5 = some c ∧ s.keyUndecided c = false ∧ s.pullState c = .none_ ∧ s.noInst c.pkt = false ∧ (withCmd c).noInst c.pkt = true) ∧
    (let c := { ctx 0x04 .undecided with pkt := { pkt 0x04 with ns := 1, gen := 1 } }
     (keyed (withCmd c)).cmd? 1 5 = some c ∧ (keyed (withCmd c)).noInst c.pkt = false) ∧
    (let c := { keyCtx 0x01 .undecided with pkt := { keyPkt 0x01 with cls := 0 } }
     let s := keyed (withCmd c)
     s.pc3Before c = false ∧ c.pkt.cls ≠ 3 ∧ (match verdict s c with | .pass _ _ => true | _ => false) = true ∧
     (match verdict { s with eth := {} } c with | .refuse _ _ => true | _ => false) = true) ∧
    serve.rngOk = true ∧ serve.freeInst.isSome = true ∧ serve.segmentBusy (pkt 0x50) = false ∧
    (({ serve with fw := { serve.fw with staged := { st := 1 } } } : State).decideActivate (pkt 0x51) none).2 = .go ∧
    (let c := keyCtx 0x10 .undecided
     let s := keyed (withCmd c)
     s.cmd? 1 5 = some c ∧ (s.withWrite c).write.isSome = true ∧ s.instOf 1 1 = some 0 ∧ s.noInst c.pkt = false ∧ s.pullState c = .none_) ∧
    (FragHdr.ofBytes (pkt 0x70).params (pkt 0x70).key).epoch ≤ serve.epoch ∧ (FragHdr.ofBytes (pkt 0x70).params (pkt 0x70).key).deadline = 0 := by
  decide +kernel

theorem witness_contexts : 262144 < (withSess (manyTags 262145)).contexts := by rw [manyTags_contexts]; decide

/-- A state in the execution pause of an activation. -/
def pausing (s : State) : State := { s with fw := { s.fw with act := { s.fw.act with phase := .pausing } } }

theorem witness_CommandLives :
    (let c := ctx 0x20 .running
     (withCmd c).cmd? 1 5 = some c ∧ c.pkt.opcode = 0x20 ∧ c.st = .running ∧ (withCmd c).flushReady c = true) ∧
    (let c := { ctx 0x40 .waiting with ordered := true }
     c.ordered = true ∧ c.st = .waiting ∧ (withCmd c).earlierInSession c = [] ∧ (withCmd c).paused = false ∧ (pausing (withCmd c)).paused = true) ∧
    (serve.cmd? 1 5 = none ∧ (let e : DueEnd := { sid := 1, tag := 5, due := 3, bound := 3, commit := 0, broken := false }
       [e].find? (fun e => e.sid == 1 && e.tag == 5 && !e.broken && decide (e.due < 4)) = some e)) ∧
    (let c := keyCtx 0x01 .waiting
     readOp c.pkt.opcode = true ∧ c.ordered = false ∧ c.paused = false ∧ (keyed (withCmd c)).paused = false ∧ (keyed (withCmd c)).writesBefore c = []) ∧
    (let c : CmdCtx := { keyCtx 0x12 .running with write := some wctx }
     let s := keyed (withCmd c)
     s.cmd? 1 5 = some c ∧ s.writesBefore c = [] ∧ s.instOf c.pkt.ns c.pkt.gen = some 0 ∧ s.repairRuns 0 wctx.hash = false ∧
     (commitCondition c.pkt.opcode c.pkt.expected ((s.lookup 0 wctx.hash c.pkt.key).map (·.rec_))).isSome = true) ∧
    (let w : WriteCtx := { wctx with quorum := 0, segmentsDone := 1 }
     let c : CmdCtx := { keyCtx 0x10 .running with write := some w }
     let s := keyed (withCmd c)
     s.writesBefore c = [] ∧ commitCondition c.pkt.opcode c.pkt.expected ((s.lookup 0 w.hash c.pkt.key).map (·.rec_)) = none ∧
     segmentsOf w.striped c.pkt.valueLen w.k ≤ w.segmentsDone ∧ w.quorum ≤ (s.durableIndices c w).length ∧
     (s.durableIndices c wctx).length < wctx.quorum) ∧
    (let c := { ctx 0x40 .running with pkt := { pkt 0x40 with cls := 0 }, bound := 1000, ta := 0 }
     let s := withCmd c
     c.promised = true ∧ c.admitted = true ∧ s.worstEnd c < 1001 ∧ 1000 ≤ s.worstEnd c) := by
  decide +kernel

/-- This drive's own session 9 toward member 2, with a message on it. -/
def asking (m : PeerMsg) (c : List CmdCtx) : State :=
  { grouped with net := { grouped.net with sessions := [{ sess 9 with asHost := some 2, tags := [{ tag := 5, inc := 0, seq := 0, ended := false, released := false, byReset := none }] }] }
                 kv := { grouped.kv with cmds := c }, welt := { grouped.welt with msgs := [m] } }

/-- A reply on that session. -/
def reply (op status : Nat) (b : Bytes) : PeerReply := { rx := { rx1 with sid := 9 }, opcode := op, status := status, tag := 5, inc := 0, body := b }

/-- A commit record of the write's stripe. -/
def rec1 : CommitRec :=
  { attrs := 0, k := 4, m := 1, ns := 1, gen := 1, epoch := 1, stripe := ⟨1, 0, 1⟩, version := 1, commitTime := 0, valueLen := 0, hash := 0, stamp := 1,
    holders := [2], mask := 1, revision := 0, lastChunk := 0, tag := [], key := [1] }

theorem witness_PeerAnswers :
    let w : CmdCtx := { keyCtx 0x10 .running with write := some { wctx with holders := [{ index := 0, member := 2, reserved := none }] } }
    let own (op : Nat) : PeerMsg := { msg op with cmd := some (1, 5) }
    ((asking (msg 0x71) []).peerReply (reply 0x70 0 [])).2 = none ∧
    (∀ op ∈ [0x70, 0x71, 0x73],
      let x := (asking (own op) [w]).peerReply (reply op 0 (zeros 16))
      x.2.any (fun m => !m.repair && (x.1.writeOf m).isSome && ((x.1.reserveAnswer m 0 (zeros 16)).writeOf m).isSome) = true ∧
      (let y := (asking (msg op) []).peerReply (reply op 0 (zeros 16))
       y.2.any (fun m => (y.1.writeOf m).isNone && ((y.1.reserveAnswer m 0 (zeros 16)).writeOf m).isNone) = true)) ∧
    ((asking (own 0x71) [w]).peerReply (reply 0x71 0x50 (zeros 16))).2.isSome = true ∧
    (let r : CmdCtx := { keyCtx 0x01 .running with read := some { rec_ := rec1, off := 0, len := 0 } }
     let x := (asking (own 0x72) [r]).peerReply (reply 0x72 0 [])
     x.2.any (fun m => m.cmd == some (1, 5) && ((x.1.cmd? 1 5).bind (·.read)).any fun d => !d.rec_.striped) = true) ∧
    (∀ op ∈ [0x74, 0x75], ((asking (msg op) []).peerReply (reply op 0 (zeros 16))).2.isSome = true) := by
  decide +kernel

theorem witness_PeerAnswers_repair :
    let q : Repair := { stripe := ⟨1, 0, 1⟩, inst := 0, hash := 0, index := 0, rebalance := false }
    let base := asking { msg 0x71 with repair := true } []
    let s : State :=
      { base with welt := { base.welt with repairs := [q] }, idx := { base.idx with cells := [(0, ⟨0, .object, 0, false, 4096, 0, false⟩)] }
                  media := { base.media with recs := [{ addr := 4096, len := 200, stream := 0, jseq := none, log := none, body := .commit rec1, units := [] }] } }
    let x := s.peerReply (reply 0x71 0 (zeros 16))
    x.2.any (fun m => x.1.repairOf m == some (q, rec1)) = true := by decide +kernel

theorem witness_WeltTimers :
    let w : CmdCtx := { keyCtx 0x10 .phaseOne with write := some wctx }
    let s := withCmd w
    s.cmd? 1 5 = some w ∧ w.write = some wctx ∧ w.st = .phaseOne ∧ w.arrivedAt + s.num K.peerReserveWaitUs * 1000 = 200000 ∧
    wctx.releaseAt ≤ 0 ∧ ¬ ({ wctx with releaseAt := 1 } : WriteCtx).releaseAt ≤ 0 ∧
    (let m : PeerMsg := { msg 0x71 with cmd := some (1, 5), sent := 64 }
     let s := (asking m []).advance ((asking m []).fragTimeout)
     (s.welt.msgs.find? fun m => m.cmd == some (1, 5) && m.member == 2 && s.putLate m) = some m) ∧
    (let m := msg 0x73
     let s := asking m []
     s.welt.msgs.find? (·.id == 1) = some m ∧ s.welt.lost.contains 2 = false ∧ (s.member? 2).isSome = true ∧ m.repeats = true ∧ s.member? 3 = none ∧ m.sentAt + m.interval = nsMs) ∧
    (let r : CmdCtx := { keyCtx 0x01 .running with read := some { rec_ := rec1, off := 0, len := 0, chunks := [{ index := 0, seg := 0, off := 0, len := 64, askedAt := 0, data := none, missing := false }] } }
     (((withCmd r).cmd? 1 5).bind (·.read)).isSome = true) ∧
    (let h : FragHdr := { index := 0, k := 4, m := 1, ns := 1, gen := 1, epoch := 1, stripe := ⟨2, 0, 1⟩, kind := 0, attrs := 0, durable := false, segments := 1,
                          expected := 0, valueLen := 0, hash := 0, stamp := 0, deadline := 0, lastChunk := 0, fragLen := 0, key := [1] }
     let f : Frag := { hdr := h, committed := false, version := 0, slices := [], mediaBy := 0, hdrAddr := 0, dirAddr := 0, copy := none, resolveAt := 5, waiting := [] }
     let s : State := { grouped with welt := { grouped.welt with frags := [f] } }
     s.frag? ⟨2, 0, 1⟩ 0 = some f ∧ f.committed = false ∧ f.resolveAt ≤ (s.advance 5).ptp ∧ (s.maps.any fun g => (g.member? 2).isSome) = true ∧ 2 ≠ s.selfId) ∧
    (let c := { ctx 0x30 .running with awaiting := [2], awaitUntil := 7 }
     (withCmd c).cmd? 1 5 = some c ∧ c.awaiting ≠ [] ∧ c.awaitUntil ≤ 7) ∧
    grouped.serving = true ∧ grouped.welt.lastSync + grouped.num K.nsSyncSeconds * nsSec = 300 * nsSec ∧
    (let s : State := { grouped with welt := { grouped.welt with noPath := [(2, 0)] } }
     s.welt.noPath.find? (·.1 == 2) = some (2, 0) ∧ s.welt.lost.contains 2 = false ∧ 0 + s.num K.memberLostSeconds * nsSec = 600 * nsSec) := by
  decide +kernel

theorem witness_EpochsAndHandoff :
    (let s : State := { grouped with welt := { grouped.welt with pendingMap := some { group with epoch := 2, activation := 100 } } }
     s.welt.pendingMap = some { group with epoch := 2, activation := 100 } ∧ 100 ≤ (s.advance 100).ptp ∧ (s.advance 99).ptp < 100) ∧
    (let o (rank : Nat) : Owed := { epoch := 2, asHome := true, ns := 1, gen := 1, hash := 3, key := [1], rank := rank, since := 0, sent := false }
     let s (rank : Nat) : State := { grouped with welt := { grouped.welt with owed := [o rank] } }
     (((s 0).welt.owed.find? fun o => o.ns == 1 && o.hash == 3 && !o.sent && o.rank == 0) = some (o 0)) ∧ (s 0).earlierRuns (o 0) = false ∧
     (({ s 0 with kv := { serve.kv with cmds := [keyCtx 0x10 .running] } } : State).earlierRuns (o 0) = true) ∧
     (((s 1).welt.owed.find? fun o => o.ns == 1 && o.hash == 3 && !o.sent && decide (0 < o.rank)) = some (o 1)) ∧
     0 + 1 * grouped.fragTimeout = 500000) ∧
    (let g : Gather := { ns := 1, gen := 1, hash := 0, pending := [], copies := [], awaiting := [2], since := 0, predEnd := 0 }
     let c := keyCtx 0x10 .undecided
     let s : State := { withCmd c with welt := { grouped.welt with gathers := [g] } }
     s.cmd? 1 5 = some c ∧ c.st = .undecided ∧ keyOp c.pkt.opcode = true ∧ s.gather? 1 1 (s.hashes 1 1 [1]).1 = some g ∧ g.awaiting ≠ [] ∧ g.since + s.fragTimeout ≤ 500000 ∧
       (g.awaiting.filter fun m => s.welt.cur.any fun x => (x.member? m).isSome) ≠ [] ∧ ([7].filter fun m => s.welt.cur.any fun x => (x.member? m).isSome) = []) ∧
    (let h : FragHdr := { index := 0, k := 4, m := 1, ns := 1, gen := 1, epoch := 1, stripe := ⟨2, 0, 1⟩, kind := 0, attrs := 0, durable := false, segments := 1,
                          expected := 0, valueLen := 0, hash := 0, stamp := 0, deadline := 0, lastChunk := 0, fragLen := 0, key := [1] }
     let g : Gather := { ns := 1, gen := 1, hash := 0, pending := [⟨h, 2, true⟩], copies := [], awaiting := [], since := 0, predEnd := 0 }
     let s : State := { keyed grouped with welt := { grouped.welt with gathers := [g] } }
     (s.welt.gathers.find? fun g => g.ns == 1 && g.hash == 0 && g.awaiting.isEmpty && !g.pending.isEmpty) = some g ∧ s.instOf 1 1 = some 0) := by
  decide +kernel

theorem witness_EpochsAndHandoff_superseded :
    (let s : State := { serve with kv := { serve.kv with superseded := [(rec1, 4)], cmds := [{ keyCtx 0x01 .running with pos := 4 }] } }
     (s.kv.superseded.find? (·.1.stripe == ⟨1, 0, 1⟩)) = some (rec1, 4) ∧
     (∀ c ∈ s.kv.cmds, readOp c.pkt.opcode = true → c.admitted = true → c.pos < 4 → ¬ (c.pkt.ns = 1 ∧ c.pkt.gen = 1 ∧ c.pkt.key = [1]))) := by
  decide +kernel

theorem witness_TimersAndRecorder :
    let s : State := { serve with site := { serve.site with cmpEn := 8, cmp := #v[0, 0, 0, 9] }
                                  evs := { serve.evs with postCode := 7, ring := [⟨some 0, 0, 0, 0x0101, 0, 0, zeros 16⟩] } }
    s.domOn .core = true ∧ (3 : Nat) < 4 ∧ (2 ^ 32 - 1 : Nat) < 2 ^ 32 ∧ bitAt s.site.cmpEn 3 = true ∧ s.site.cmp.getD 3 0 ≤ (s.advance 9).ptp ∧
    s.evs.busy = false ∧ (s.evs.ring.find? (·.seq == some 0)).isSome = true ∧ serve.evs.ring.find? (·.seq == some 0) = none ∧
    serve.evs.postCode.toNat % 256 = 0 ∧ s.evs.postCode.toNat % 256 ≠ 0 ∧ s.hasToken 0x0D07 = true ∧
    s.sets.at_ ≠ max s.now 9 ∧ bitAt s.site.fired 3 = false ∧ bitAt ({ s.site with fired := 8 } : Site).fired 3 = true ∧
    (let h := ({ s with sets := { at_ := 9, bits := [] } } : State).hwSet 0x40060034 8; h.sets = { at_ := max h.now 0, bits := [(0x40060034, 2 ^ 3)] }) ∧
    ({ s with evs := { s.evs with buckets := [{ code := 0x0D07, credit := 0, at_ := 0, dropped := 0 }] } } : State).hasToken 0x0D07 = false := by
  decide +kernel

/-- The s2c ring with a message of a type and length at slot 0. -/
def posted (type len : Nat) : State :=
  { serve with site := { serve.site with s2cProd := 1 }, mem := memWrite [] s2cBase (beBytes 1 type ++ [0] ++ leBytes 2 len) }

theorem witness_MailboxCommands :
    let step (v : Nat) := (v % 32 + 32 - serve.site.s2cProd) % 32
    let free := (serve.site.s2cCons + 31 - serve.site.s2cProd) % 32
    serve.domOn .core = true ∧ (1 ≤ step 1 ∧ step 31 ≤ free) ∧ step 0 = 0 ∧
    (let s : State := { serve with site := { serve.site with s2cCons := 3 } }
     (s.site.s2cCons + 31 - s.site.s2cProd) % 32 < (3 + 32 - s.site.s2cProd) % 32) ∧
    (let w : List MbxMsg := [⟨0x41, 0, [], 0⟩]
     (w.filter fun m => decide (m.since + 100 * nsMs ≤ 100 * nsMs)) ≠ []) ∧
    (posted 2 56).mbxRequest = some (2, 56, 0, zeros 56) := by decide +kernel

theorem witness_MailboxMessages : (zeros 56).length ≤ 56 ∧ Memory.wf serve.mem = true ∧ (posted 9 0).mbxRequest = some (9, 0, 0, zeros 56) ∧
    c2sBase + 64 * 0 + 8 + max (zeros 56).length 56 ≤ c2sBase + 64 := by decide +kernel

theorem witness_SandboxFaults :
    serve.site.st = 1 ∧ serve.siteAccessOk 0x10080000 8 = false ∧ serve.siteAccessOk 0x1007FFFF 8 = true ∧
    serve.site.wdogAt + serve.num K.siteWatchdogMs * nsMs = 1000 * nsMs ∧
    (let past (l : List Nat) := (l ++ [3600 * nsSec]).filter fun x => decide (3600 * nsSec < x + 3600 * nsSec)
     (past [0, 1]).length < 3 ∧ 3 ≤ (past [1, 2]).length) := by decide +kernel

theorem witness_RegisterWrites :
    serve.domOn .core = true ∧ serve.domOn .kv = true ∧ (2 ^ 32 - 1 : Nat) < 2 ^ 32 ∧ (serve.ch 15).en = false ∧ bitAt 0xFFFFFFFE 0 = false ∧
    serve.sets.at_ ≠ max serve.now 9 ∧ (let h := serve.hwSet 0x40000010 2; h.sets.at_ = max h.now 0 ∧ (0x40000010, 2) ∈ h.sets.bits) ∧
    0x1007FFFC % 4 = 0 ∧ inSram 0x1007FFFC 4 = true ∧ Memory.wf serve.mem = true := by decide +kernel

theorem witness_PeriodicWork :
    let e : EvRec := ⟨some 0, 0, 0, 0x0101, 0, 0, zeros 16⟩
    let s : State := { serve with media := { serve.media with wpN := true }, evs := { serve.evs with staged := [e] } }
    s.writable = true ∧ s.evs.numbered = true ∧ 0 < s.evs.staged.length ∧ s.evs.stagedAt + nsSec ≤ nsSec ∧ 128 ≤ (List.replicate 128 e).length ∧
    s.mode.mode.powered = true ∧ s.evs.lastSave + 60 * nsSec ≤ 60 * nsSec ∧ s.shelf.coreAnswers = true ∧ s.mode.mode ≠ .halt ∧ s.mode.mode ≠ .dormant ∧
    s.mode.lastPoll + nsSec ≤ nsSec ∧ [((1 : Nat), (65536 : Nat))][0]? = some (1, 65536) ∧ (∀ v, [((0 : Nat), (5 : Nat))][0]? ≠ some (1, v)) := by
  and_intros <;> first | decide +kernel | simp

/-- Channel 12 with a ring of 4 descriptors at the start of local SRAM. -/
def ch12 : DmaCh := { en := true, st := .idle, ring := sramBase, ringSize := 4 }

/-- A COPY of 64 bytes within local SRAM, last of its run. -/
def copy64 (last : Bool) : DmaDesc := { ctrl := 1 + 64 * bit last, lineLen := 64, lineCount := 1, param := 0, src := sramBase + 256, dst := sramBase + 512 }

/-- `serve` with channel 12, and that descriptor at its HEAD. -/
def dmaState (c : DmaCh) : State :=
  { serve with dma := serve.dma.setIfInBounds 12 c
               mem := memWrite [] sramBase (leBytes 4 1 ++ leBytes 4 64 ++ leBytes 4 1 ++ zeros 4 ++ leBytes 8 (sramBase + 256) ++ leBytes 8 (sramBase + 512)) }

theorem witness_DmaChannelSetup :
    serve.domOn .core = true ∧ (12 : Nat) < 16 ∧ (serve.ch 12).en = false ∧ ((dmaState ch12).ch 12).en = true ∧
    (((dmaState { ch12 with en := false }).ch 12).ringSize ∈ [4, 8, 16, 32, 64, 128, 256, 512, 1024, 2048, 4096] ∧ fieldAt 0xF1 4 4 ≠ 12 ∧ (12 ≤ 12 → 12 ≤ fieldAt 0xF1 4 4)) ∧
    ¬ (fieldAt 0xB1 4 4 ≠ 12 ∧ (12 ≤ 12 → 12 ≤ fieldAt 0xB1 4 4)) ∧ (2 ^ 32 - 1 : Nat) < 2 ^ 32 := by decide +kernel

theorem witness_DmaRuns :
    let s := dmaState ch12
    let d := copy64 false
    let run (c : DmaCh) : State := dmaState { c with st := .running, cur := some (copy64 true), runCount := 1 }
    s.domOn .core = true ∧ (∀ k, k < 16 → (s.ch k).st ≠ .parked) ∧ (∀ k, k < 16 → ((run ch12).ch k).st ≠ .parked) ∧
    (s.ch 12).st = .idle ∧ s.ringReadable 12 (s.ch 12).descAddr = true ∧
    readDesc s.mem (s.ch 12).descAddr = d ∧ bitAt d.ctrl 0 = true ∧ d.lineCount ≠ 0 ∧ d.fieldOk = true ∧ s.sandboxOk d = true ∧ s.descDomsOn 12 d = true ∧
    (let c : DmaCh := { ch12 with trig := 1, period := 5 }
     c.en = true ∧ c.period ≠ 0 ∧ c.enAt + (c.ticks + 1) * c.period * 1000 ≤ 5000) ∧
    ((run ch12).ch 12).st = .running ∧ ((run ch12).ch 12).cur = some (copy64 true) ∧ 0 < ((run ch12).ch 12).runCount ∧
    ((run ch12).ch 12).pending = false ∧ ((run ch12).siteRate ((run ch12).ch 12) 64).1 = true ∧ bitAt (copy64 true).ctrl 6 = true ∧ bitAt d.ctrl 6 = false ∧
    (run ch12).chainedTo 12 = [] ∧ (s.takeDesc 12).2 = false := by decide +kernel

theorem witness_ReshuffleModesInvert :
    0 < 2 ∧ 0 < 64 ∧ 256 % (2 * 64) = 0 ∧ 255 < 256 ∧
    (let x : DmaDesc := { ctrl := 6, param := 1 }
     let y : DmaDesc := { ctrl := 8, param := 1 }
     x.mode = 3 ∧ y.mode = 4 ∧ x.param = y.param ∧ 0 < x.plane) := by decide +kernel

theorem witness_DescriptorMovesBytes :
    let d := copy64 true
    let dst := lineByte d.dst d.dstStride d.lineLen
    Memory.wf (dmaState ch12).mem = true ∧ (∀ k, k < 64 → dst k ≠ sramBase + 511) ∧ (∀ i, i < 64 → ∀ j, j < 64 → dst i = dst j → i = j) := by decide +kernel

/-- `serve` in a mode. -/
def inMode (m : ModeSt) : State := { serve with mode := m }

theorem witness_PowerHandshake :
    let r := State.reset
    r.mode.mode = .dormant ∧ r.mode.vstby = true ∧ r.mode.porN = true ∧ r.mode.pwrReq = false ∧
    (let w : State := { r with mode := { r.mode with pwrReq := true } }
     w.mode.pwrReq = true ∧ w.mode.pwrGoodCore = false ∧ w.mode.pwrReqAt + w.num K.pwrGoodTimeoutMs * nsMs = 1000 * nsMs) ∧
    serve.mode.mode.powered = true ∧ serve.mode.held = none ∧ serve.inFlush = false ∧ serve.mode.pwrReq = true ∧ serve.mode.flushedSincePfail = false ∧
    ({ serve.mode with flushedSincePfail := true } : ModeSt).flushedSincePfail ≠ false ∧ (299 : Nat) < 300 ∧ (1000 : Nat) ≤ 1000 ∧ serve.mode.phase = .idle ∧
    serve.mode.mode = .serve ∧
    (let s := inMode { serve.mode with phase := .awaitPower true }
     s.mode.phase = .awaitPower true ∧ s.mode.pwrGoodCore = true ∧ s.mode.warmRstN = true) := by decide +kernel

theorem witness_ResetsAndStandby :
    (inMode { serve.mode with phase := .resetHeld }).mode.phase = .resetHeld ∧ serve.mode.held ≠ some .dormant ∧
    (let s := inMode { State.reset.mode with porN := false }; s.mode.porN = false ∧ s.mode.vstby = true) ∧
    (let s := inMode { State.reset.mode with vstby := false }; s.mode.vstby = false ∧ s.mode.porN = true) ∧
    State.reset.mode.vstby = true ∧ (State.reset.src .xtal32k).st = .starting ∧
    ((State.reset.srcTo .xtal32k .healthy 0).srcTo .wosc .healthy 0).shelf.bootOwed = true ∧
    ((({ State.reset with shelf := {} } : State).srcTo .xtal32k .healthy 0).srcTo .wosc .healthy 0).shelf.bootOwed = false := by decide +kernel

theorem witness_LullAndFlush :
    (let s : State := { serve with dict := { serve.dict with vals := [] } }
     s.mode.mode = .serve ∧ (s.advance (10000 * nsMs)).idle = true ∧ s.mode.idleSince + s.num K.lullEnterMs * nsMs = 100 * nsMs) ∧
    (let s := inMode { serve.mode with mode := .lull1 }
     s.mode.mode = .lull1 ∧ (s.advance 1).idle = true ∧ s.clk.lullHold = false ∧ s.dmaHolds .dram = false ∧ s.dmaHolds .media = false ∧ s.dmaHolds .welt = false ∧
     s.mode.lull1At + s.num K.lull2EnterMs * nsMs = 10000 * nsMs) ∧
    (let s := inMode { serve.mode with mode := .sweep, alarmWake := true }
     s.settled .sweep = true ∧ s.mode.nmtSinceWake = false ∧ (∀ ds, ds < s.dieSets → s.num K.gcStartFree ≤ s.freeCount ds) ∧ s.media.sbs.any s.scanIsDue = false) ∧
    (let s := inMode { serve.mode with phase := .draining, drainUntil := some 9, target := some .halt }
     s.mode.phase = .draining ∧ s.kv.cmds = [] ∧ s.mode.drainUntil = some 9 ∧ s.mode.target = some .halt) ∧
    (inMode { serve.mode with phase := .flushing .trip }).mode.phase = .flushing .trip ∧
    (inMode { serve.mode with phase := .flushing .pfail }).mode.phase = .flushing .pfail ∧
    (inMode { serve.mode with holdupOk := false }).mode.holdupOk = false ∧ serve.mode.holdupOk = true ∧ serve.mode.mode.powered = true ∧
    (∀ r ∈ serve.media.recs, r.units = []) := by decide +kernel

theorem witness_ThermalAndDomains :
    serve.mode.mode.powered = true ∧ (107 : Int) < signed16 (serve.num K.thermalTripC) ∧ signed16 (serve.num K.thermalTripC) ≤ 108 ∧
    signed16 (serve.num K.thermalThrottleC) ≤ 108 ∧ serve.mode.mode = .serve ∧ serve.mode.phase = .idle ∧ serve.mode.cap = none ∧
    serve.mode.lastThermalStep + 100 * nsMs ≤ 100 * nsMs ∧
    (let s := inMode { serve.mode with tempC := 100, cap := some 20, coolSince := some 0 }
     signed16 (s.num K.thermalThrottleC) ≤ s.mode.tempC) ∧
    (let s := inMode { serve.mode with tempC := 99, cap := some 20, coolSince := some 0 }
     s.mode.tempC < signed16 (s.num K.thermalThrottleC) ∧ s.mode.cap = some 20 ∧ s.mode.coolSince = some 0) ∧
    (let s : State := { State.reset with dict := { vals := [(K.wakeIntervalHours, .num 1)] } }
     s.mode.mode = .dormant ∧ s.num K.wakeIntervalHours ≠ 0 ∧ s.mode.pwrReq = false ∧
     s.mode.dormantRtc + (s.mode.alarmsUsed + 1) * s.num K.wakeIntervalHours * 3600 ≤ (s.advance (3600 * nsSec)).rtc) ∧
    (let s : State := { serve with clk := { serve.clk with upWaiting := [.welt] } }
     s.clk.upWaiting.contains .welt = true ∧ s.clockOk .welt = true ∧ s.clk.quiesce.any (·.1 == .welt) = false) ∧
    (let b := dmaState { ch12 with st := .running, cur := some (copy64 true) }
     let s (st : DomState) (k : Nat) : State := { b with clk := { b.clk with doms := b.clk.doms.setIfInBounds 1 st, quiesce := [(.core, 0, k)] } }
     (s .changing 0).clk.quiesce.find? (·.1 == .core) = some (.core, 0, 0) ∧ (s .changing 0).dom .core = .changing ∧
     ((s .changing 0).dmaBusy .core).contains 12 = true ∧ (s .on 100).dom .core = .on ∧ (s .on 100).clk.quiesce.find? (·.1 == .core) = some (.core, 0, 100)) := by
  decide +kernel

theorem witness_SourcesAndPlls :
    (serve.src .xtal25).st = .healthy ∧ Source.xtal25.within 268 = true ∧ Source.xtal25.within 269 = false ∧ (serve.src .xtal25).bad = 0 ∧
    (let s : State := { serve with clk := { serve.clk with srcs := Vector.replicate 7 { st := .healthy, bad := 1 } } }; (s.src .xtal25).bad = 1) ∧
    (let s (n : Nat) : State := { serve with clk := { serve.clk with srcs := Vector.replicate 7 { st := .dead, good := n } } }
     ((s 15).src .fso).st = .dead ∧ ((s 15).src .fso).good = 15 ∧ ((s 14).src .fso).good ≠ 15) ∧
    (State.reset.src .fso).st = .off ∧ State.reset.mode.mode = .dormant ∧ (State.reset.src .xtal32k).st ≠ .dead ∧ serve.clk.fmc.busy = false ∧
    serve.dom .kv ≠ .off ∧ (serve.src .fso).st ≠ .dead ∧ (serve.pll .cpll).locked = true ∧ (serve.pll .npll).locked = true ∧
    (let s := serve.setPll .mpll { relockSince := some 0 }; (s.pll .mpll).relockSince = some 0) := by decide +kernel

theorem witness_GatesAndCounter :
    let g := serve.setGate { blk := 7, pending := some 0, outstanding := 2 }
    let h := serve.setGate { blk := 7, closed := true }
    let f (c : Fmc) : State := { serve with clk := { serve.clk with fmc := c } }
    serve.domOn .core = true ∧ (serve.gate 7).closed = false ∧ (g.gate 7).pending = some 0 ∧ 0 + gateDeferNs ≤ 1366 ∧ (h.gate 7).closed = true ∧
    serve.clk.fmc.busy = false ∧ serve.fmcRefused = false ∧ (f { window := 0 }).fmcRefused = true ∧ (f { busy := true }).clk.fmc.busy = true := by
  decide +kernel

/-- A client on the shelf bus. -/
abbrev cl : Client := .shelf 9

theorem witness_UsdoTransfers :
    let s := serve
    let g := s.dictGet cl 0x1001 0
    let v := s.dictGet cl 0x1001 7
    let up : Usdo := { node := 9, upload := true, idx := 0x1008, sub := 0, data := zeros 100, sent := 0, total := 100, lastAt := 0 }
    let dn : Usdo := { up with upload := false, data := zeros 56, total := 64 }
    let o (x : Usdo) : State := { serve with shelf := { serve.shelf with transfers := [x] } }
    s.shelf.running = true ∧ s.usdoBusy 9 = false ∧ g.2.2 = .value [0] ∧ (g.2.1.map (·.typ)) = some .u8 ∧ ([0] : Bytes).length ≤ 56 ∧
    v.2.2 = .abort 0x06090011 ∧ (o up).usdoBusy 9 = true ∧ (o up).transfer? 9 = some up ∧
    up.sent + ((up.data.drop up.sent).take 56).length < up.data.length ∧
    (let l : Usdo := { up with sent := 56 }; l.data.length ≤ l.sent + ((l.data.drop l.sent).take 56).length) ∧
    (beBytes 2 1000).length ≤ s.usdoMax ∧ (s.dictSet cl 0x1017 0 (beBytes 2 1000)).2.2 = .stored ∧ (s.dictSet cl 0x2000 9 [0]).2.2 = .abort 0x06090011 ∧
    (s.dictSet cl (K.powerTokenLimit / 256) (K.powerTokenLimit % 256) (beBytes 2 16)).2.2 = .ok ∧ max 64 56 ≤ s.usdoMax ∧
    (pausing s).paused = true ∧ s.paused = false ∧
    (let m : State := { s with dict := { s.dict with vals := [(K.mediaProfile, .bytes (zeros 128))] } }
     let w := m.dictGet cl (K.mediaProfile / 256) (K.mediaProfile % 256)
     w.2.2 = .value (zeros 128) ∧ (w.1.usdoValue 9 w.2.1 (zeros 128)).toOption = some (zeros 128)) ∧
    (o dn).transfer? 9 = some dn ∧ dn.upload = false ∧ (dn.data ++ zeros 8).length = dn.total ∧ (dn.data ++ zeros 7).length ≠ dn.total ∧
    (dn.data ++ zeros 8).length ≤ s.usdoMax ∧ dn.lastAt + s.num K.usdoTimeoutMs * nsMs ≤ 1000 * nsMs := by decide +kernel

theorem witness_NmtCommands :
    let w := ({ serve.canRx true with mode := { serve.mode with nmtSinceWake := true } } : State).wakeLull
    serve.shelf.running = true ∧ (5 : Nat) ≠ 0 ∧ 5 ≠ serve.shelf.nodeId ∧ serve.mode.target ≠ some .halt ∧ serve.inFlush = false ∧
    (inMode { serve.mode with target := some .halt }).mode.target = some .halt ∧ (inMode { serve.mode with phase := .flushing .warm }).inFlush = true ∧
    (w.requestMode .dormant trNmt).2 = true ∧ (w.requestMode .sweep trNmt).2 = true ∧ w.commReset.mode.phase = .idle ∧
    (let v := ({ (inMode { serve.mode with mode := .sweep }).canRx true with mode := { serve.mode with mode := .sweep, nmtSinceWake := true } } : State).wakeLull
     (v.requestMode .serve trNmt).2 = true) ∧
    (let h := (inMode { serve.mode with phase := .resetHeld }).commReset; h.mode.phase = .resetHeld ∧ h.inFlush = false) := by decide +kernel

theorem witness_ShelfBus :
    let s : State := { serve with dict := { vals := [(K.timeCobId, .num 0x80000100)] } }
    serve.shelf.running = true ∧ bitAt (s.num K.timeCobId) 31 = true ∧ 0x900 % 2048 = s.num K.timeCobId % 2048 ∧ (2 ^ 28 - 1 : Nat) < 2 ^ 28 ∧
    (2 ^ 16 - 1 : Nat) < 2 ^ 16 ∧ s.eth.ptp.st ≠ .locked ∧ ({ s with eth := { s.eth with ptp := { st := .locked } } } : State).eth.ptp.st = .locked ∧
    serve.num K.producerHeartbeatTime ≠ 0 ∧ serve.canReady = true ∧ serve.shelf.lastHeartbeat + serve.num K.producerHeartbeatTime * nsMs = 1000 * nsMs ∧
    (let e : Emcy := ⟨0x8140, 0, 2, 0, 0, 0⟩
     let q : State := { serve with shelf := { serve.shelf with queue := [e], lastEmcy := some 0 } }
     q.shelf.queue = [e] ∧ 0 + q.num K.emcyInhibitMs * nsMs ≤ 1000 * nsMs) ∧
    (let r : State := { State.reset with shelf := {} }
     r.mode.mode = .dormant ∧ r.shelf.running = false ∧ r.shelf.bootOwed = false ∧ r.mode.vstby = true ∧ r.mode.porN = true ∧ (299 : Nat) < 300) ∧
    (let r : State := { State.reset with shelf := { running := true } }
     r.shelf.running = true ∧ r.shelf.transfers = [] ∧ r.shelf.queue = [] ∧ r.shelf.lastTraffic + r.num K.wakeIdleMs * nsMs = 2000 * nsMs ∧ r.shelf.errPassive = false) ∧
    ({ serve.shelf with errPassive := true } : Shelf).errPassive = true := by decide +kernel

theorem witness_DictWriteRefused :
    serve.paused = false ∧ serve.writePasses cl (0x5555 * 256) [] = false ∧ serve.writePasses cl (0x1001 * 256) [0] = false ∧ serve.writePasses cl (0x1017 * 256) [0] = false ∧
    State.reset.writePasses cl (0x2301 * 256 + 4) (zeros 4) = false ∧ (255 : Nat) < 256 ∧ (dictRow? (0x1017 * 256)).isSome = true ∧
    (∃ r, dictRow? (0x2301 * 256 + 4) = some r ∧ r.key / 256 ≠ 0x1011 ∧ r.key ≠ K.storeAll ∧ r.key ≠ K.lifeCycleRequest ∧
      serve.numOk r (maskReserved r.key 9) = false) :=
  ⟨by decide +kernel, by decide +kernel, by decide +kernel, by decide +kernel, by decide +kernel, by decide +kernel, by decide +kernel,
   ⟨0x230104, .u32, .rw, .sys, 600, some 10, some 86400⟩, by decide +kernel, by decide +kernel, by decide +kernel, by decide +kernel, by decide +kernel⟩

theorem witness_SettingsWrites :
    (serve.paused = false ∧ (pausing serve).paused = true) ∧
    ((dictRow? (0x2301 * 256 + 4)).any fun r => serve.writeGuard cl r (beBytes 4 10) == 0 && r.typ.size.isSome && serve.numOk r 10) = true ∧
    serve.writePasses cl K.storeAll (beBytes 4 0x73617665) = true ∧ serve.dict.waits = [] ∧
    ({ serve.dict with waits := [⟨.none, false⟩] } : DictSt).waits ≠ [] ∧ serve.writePasses cl 0x101103 (beBytes 4 0x6C6F6164) = true ∧ 3 ∉ serve.dict.restore ∧
    (16 ≤ serve.num K.powerTokens ∧ serve.writePasses cl K.powerTokenLimit (beBytes 2 16) = true) ∧ serve.mode.mode.powered = true ∧
    ({ serve with fw := { serve.fw with otp := { life := 1 } } } : State).writePasses cl K.powerTokens (beBytes 2 96) = true ∧ ((dictRow? K.powerTokens).all fun r => serve.numOk r 96) = true ∧
    (let s : State := { serve with shank := { serve.shank with oldLimit := some 128, effectiveAt := 5 } }; s.shank.oldLimit = some 128 ∧ s.shank.effectiveAt ≤ (s.advance 5).ptp) ∧
    ((dictRow? (0x220100 + 256 * PortId.code .b + 1)).any fun r => serve.writeGuard cl r (beBytes 1 1) == 0 && r.typ.size.isSome && serve.numOk r 1 &&
      maskReserved r.key 1 == 1 && r.persist == .sys) = true := by decide +kernel

theorem witness_SecretAndLifeWrites :
    let b : Bytes := [1, 7] ++ zeros 32 ++ [0, 1]
    let prov : State := { inMode { serve.mode with mode := .sweep } with fw := { serve.fw with otp := { life := 1 } }, dict := { vals := [(K.mediaProfile, .bytes [1])] } }
    serve.writePasses cl K.pskEntryWrite b = true ∧ serve.strOk K.pskEntryWrite b = true ∧ serve.sec.psks.any (·.identity == [7]) = false ∧ serve.sec.psks.length < 1024 ∧
    serve.writePasses cl K.pskIdentityDelete (zeros 64) = true ∧ (zeros 64).length ≤ 64 ∧
    (∀ x ∈ [0, 1, 2, 3], serve.writePasses cl K.lifeCycleRequest (beBytes 4 (0x4C430001 + x)) = true) ∧ prov.settled .sweep = true ∧
    (inMode { serve.mode with mode := .sweep }).lifeAllowed 0 = true ∧ prov.lifeAllowed 1 = true ∧ prov.lifeAllowed 3 = true ∧
    ({ prov with fw := { prov.fw with otp := { life := 3 } } } : State).lifeAllowed 2 = true ∧
    (let g : Bytes := [1] ++ zeros 59
     serve.writePasses cl K.otpSettings (g ++ leBytes 4 (crc32 g)) = true ∧ prov.life = 1 ∧ prov.fw.otp.gens.length < 4 ∧ prov.genOk (g ++ leBytes 4 (crc32 g)) = true) ∧
    (let s := inMode { serve.mode with mode := .halt, halt := some .tamper }
     s.writePasses cl K.tamperClear [0xA5] = true ∧ s.mode.mode = .halt ∧ s.mode.halt = some .tamper) := by decide +kernel

theorem witness_RecorderNodeAndStore :
    let lim := beBytes 2 0x0101 ++ beBytes 2 1 ++ beBytes 2 1
    let o : State := { serve with evs := { serve.evs with snaps := serve.evs.snaps.setIfInBounds 3 { st := .open_, expiresAt := 5 } } }
    serve.writePasses cl K.eventRateLimit lim = true ∧ catalogue.contains (beAt lim 0 2) = true ∧ (2 ^ 64 - 1 : Nat) < 2 ^ 64 ∧
    serve.writePasses cl (0x2B0200 + 4) (beBytes 8 1) = true ∧ serve.evs.nextSeq ≤ 1 ∧ (o.evs.snaps.getD 3 {}).st = .open_ ∧
    (o.evs.snaps.getD 3 {}).expiresAt ≤ (o.advance 5).ptp ∧
    serve.writePasses cl K.siteMessage (zeros 56) = true ∧ serve.site.st = 1 ∧ serve.c2sFull = false ∧ State.reset.site.st ≠ 1 ∧
    serve.writePasses cl K.diagCaptureRelease (beBytes 4 9) = true ∧ serve.shelf.running = true ∧ serve.shelf.nodeId = 127 ∧
    (1 : Nat) ≠ serve.fw.otp.serial ∧ (posted 1 8).domOn .core = true ∧ (posted 1 8).mbxRequest = some (1, 8, 0, zeros 56) ∧
    ((posted 1 8).dictGet .site 0 0).2.2 = .abort 0x06020000 ∧
    (match (serve.dictGet .site 0x1001 0).2.2 with | .value v => decide (0 ≤ v.length) | _ => false) = true ∧
    ({ serve.dict with programming := true } : DictSt).programming = true := by decide +kernel

theorem witness_AwlPolicyWrites :
    let b (op addr : Nat) : Bytes := beBytes 1 op ++ [0] ++ beBytes 2 addr ++ zeros 76
    (∀ op ∈ [0, 1, 2, 3], serve.writePasses cl K.awlPolicyEntry (b op 0) = true ∧ policyReservedOk (b op 0) = true ∧ beAt (b op 0) 0 1 = op ∧ beAt (b op 0) 2 2 = 0) ∧
    0 < serve.policyLimit ∧ freeRow serve.awl.policy 0 serve.policyLimit = some 0 ∧ allZero ((b 3 0).drop 4) = true ∧
    compactNeed serve.awl.policy.length (serve.num K.policyHoleInterval) ≤ serve.policyLimit ∧
    serve.writePasses cl K.awlBankMap (beBytes 4 0x80000015) = true ∧ serve.bankMapOk 0x80000015 = true := by decide +kernel

/-- `serve` with values in the dictionary. -/
def withVals (l : List (Nat × DVal)) : State := { serve with dict := { vals := l } }

/-- `serve` with a port A. -/
def withPort (x : Port) : State := { serve with eth := { serve.eth with portA := x } }

/-- What the checks see of a good diagnostic frame. -/
def goodFacts : FrameFacts :=
  { pcsError := false, len := 64, fcsOk := true, dst := [0xFF, 0xFF, 0xFF, 0xFF, 0xFF, 0xFF], tci := none, etherType := 0x88B5, l4 := none, ipOk := true, ipDst := [], l4Ok := true, room := true }

theorem witness_LinkCommands :
    ((withPort { link := .training }).port .a).link = .training ∧ (∃ m f, (withPort { link := .training }).trainOk .a m f = true) ∧
    ((withPort { link := .hold }).port .a).link = .hold ∧ (0 : Nat) + serve.num K.linkUpHoldMs * nsMs = 100 * nsMs ∧ (serve.port .a).link = .up ∧
    (serve.port .b).link = .disabled :=
  ⟨by decide +kernel, ⟨4, 4, by decide +kernel⟩, by decide +kernel, by decide +kernel, by decide +kernel, by decide +kernel⟩

theorem witness_ReceivedFrames :
    let s := withVals [(K.ipv4Address 0, .bytes [10, 0, 0, 1, 24])]
    let r := s.rxFrame .a 64
    (s.port .a).link = .up ∧ r.ipOf .a false = some [10, 0, 0, 1] ∧ r.num (K.vlanTag 0) % 4096 = 0 ∧ (1 : Nat) ≤ 1 ∧ (4 : Nat) ≤ 4 ∧
    (let f := { goodFacts with fcsOk := false, etherType := 0x1234 }
     f.assemblyError = false ∧ serve.classOf f ≠ .diag ∧ (serve.countFec .a f).earlyFails .a f ++ (serve.countFec .a f).lateFails .a f = [4, 7]) ∧
    ({ goodFacts with assemblyError := true, etherType := 0x1234 } : FrameFacts).assemblyError = true ∧ serve.classOf { goodFacts with assemblyError := true, etherType := 0x1234 } ≠ .diag ∧
    serve.classOf goodFacts = .diag ∧ goodFacts.headLen ≤ goodFacts.len ∧ goodFacts.pcsError = false ∧ (63 : Nat) < 64 ∧
    64 ≤ goodFacts.len ∧ goodFacts.len ≤ serve.largest .a goodFacts ∧ goodFacts.fcsOk = true := by decide +kernel

theorem witness_DiagnosticFrames :
    let s := withVals [(K.diagControl, .num 7)]
    let r := s.countFec .a goodFacts
    (s.port .a).link = .up ∧ r.earlyFails .a goodFacts = [] ∧ r.lateFails .a goodFacts = [] ∧ bitAt (r.num K.diagControl) 0 = true ∧
    bitAt (r.num K.diagControl) 1 = true ∧ bitAt (r.num K.diagControl) 2 = true ∧ r.earlyFails .a { goodFacts with fcsOk := false } = [4] ∧
    ((s.eth.capture.filter (·.port == .a)).map fun x => 24 + ceilDiv x.data.length 8 * 8).sum + 24 + ceilDiv (zeros 64).length 8 * 8 ≤ s.eth.capKiB * 1024 := by
  decide +kernel

theorem witness_FlowControl :
    let s := withVals [(K.pauseMode 0, .num 1)]
    let pfc := withVals [(K.pauseMode 0, .num 2)]
    let h : PauseHold := { prio := 8, until_ := nsSec, since := 0 }
    (s.port .a).link = .up ∧ ((s.rxFrame .a 64).bump (K.cRxPauseFrames 0)).obeysPause .a false = true ∧
    ((s.rxFrame .a 64).bump (K.cRxPauseFrames 0)).obeysPause .a true = false ∧ ((pfc.rxFrame .a 64).bump (K.cRxPauseFrames 0)).obeysPause .a true = true ∧
    (7 : Nat) < 8 ∧ (∀ h ∈ (s.port .a).paused, h.prio ≠ 8) ∧
    (∃ x ∈ [h], x.prio = 8 ∧ x.until_ ≤ nsSec) ∧ (withVals [(K.pauseTxEnable 0, .num 1)]).flag (K.pauseTxEnable 0) = true ∧ (serve.port .a).xoff = false ∧
    7 * 8388608 < 8 * 7340033 ∧ 8 * 7340032 ≤ 7 * 8388608 ∧ 2 * 4194303 < 8388608 ∧
    (let p := withPort { link := .up, paused := [h] }
     (p.port .a).paused = [h] ∧ h.since + p.num K.pauseWatchdogMs * nsMs ≤ h.until_) ∧
    ((withPort { link := .up, ignoreUntil := some 5 }).port .a).ignoreUntil = some 5 ∧
    ((withVals [(K.preemptEnable 0, .num 1)]).verifying .a = true) ∧ (serve.port .a).upAt + 30 * nsMs ≤ 30 * nsMs := by
  refine ⟨by decide +kernel, by decide +kernel, by decide +kernel, by decide +kernel, by decide +kernel, by decide +kernel, ⟨_, List.mem_singleton.mpr rfl, rfl, Nat.le_refl _⟩, ?_⟩
  decide +kernel

theorem witness_PtpCommands :
    let m : PtpMsg := { domain := serve.num K.ptpDomain, transport := serve.num K.ptpTransport, len := 64, what := .other }
    let r := (serve.rxFrame .a m.len).bump (K.cPtpMessagesRx 0)
    let s (st : PtpState) : State := { serve with eth := { serve.eth with ptp := { st := st, slave := some .a, gm := [1] } } }
    (serve.port .a).link = .up ∧ m.domain = r.num K.ptpDomain ∧ m.transport = r.num K.ptpTransport ∧
    ({ m with what := .announce [1] 3 } : PtpMsg).what = .announce [1] 3 ∧ ({ m with what := .sync [1] (some 5) } : PtpMsg).what = .sync [1] (some 5) ∧
    (s .locked).eth.ptp.slave = some .a ∧ (s .locked).eth.ptp.gm = [1] ∧ (serve.num K.ptpStepThresholdNs : Int) < (-1000001 : Int).natAbs ∧
    ((1000 : Int).natAbs : Int) ≤ serve.num K.ptpStepThresholdNs ∧ (s .locked).eth.ptp.lastSync + serve.num K.ptpLossTimeoutMs * nsMs ≤ 10 * nsSec ∧
    (let p : State := { withVals [(K.ppsEnable, .num 1)] with eth := { serve.eth with ptp := { everLocked := true } } }
     p.flag K.ppsEnable = true ∧ p.eth.ptp.everLocked = true ∧ p.eth.ptp.pps = false ∧ (p.advance 10).ptp % nsSec ≤ 10 ∧
     nsSec - 10 ≤ (p.advance (nsSec - 10)).ptp % nsSec) ∧
    (let p : State := { serve with eth := { serve.eth with ptp := { pps := true } } }
     p.eth.ptp.pps = true ∧ p.eth.ptp.ppsRoseAt + p.num K.ppsWidthUs * 1000 ≤ nsSec) ∧
    serve.serving = true ∧ serve.shank.lastEff + nsSec ≤ nsSec := by decide +kernel

/-- A media profile: QLC of 4 planes, 8 pages and 64 blocks of a plane, erase suspend, times of 50 us, 2 ms and 10 ms. -/
def prof : Bytes :=
  [1, 4, 4, 1] ++ zeros 6 ++ beBytes 2 2048 ++ beBytes 2 4096 ++ beBytes 2 480 ++ beBytes 4 50000 ++ zeros 4 ++ beBytes 4 2000000 ++ zeros 4 ++
    beBytes 4 10000000 ++ zeros 20 ++ [4] ++ zeros 71

/-- A superblock 5 of die set 0. -/
def sb5 (st : SbState) : Superblock := { ds := 0, sb := 5, st := st, stream := 2, seq := 1, slots := List.range 32 }

/-- A unit of it, and a record that waits in it. -/
def unit5 : UnitId := ⟨2, 0, 5, 0, 0⟩

/-- `serve` with one die set, that superblock and that record. -/
def withSb (x : Superblock) : State :=
  { serve with media := { serve.media with
      profile := prof, u := 4, wpN := true, sbs := [x], lastCycleAt := 0
      recs := [{ addr := 0, len := 100, stream := 2, jseq := none, log := none, body := .flushEnd 0 0, units := [unit5], span := [unit5] }] } }

theorem witness_ArrayOperations :
    let s := withSb { sb5 .open_ with mark := 0 }
    profileOk prof = true ∧ s.writable = true ∧ s.unitPending unit5 = true ∧ s.openLogged unit5 = true ∧ s.unitPending { unit5 with slot := 1 } = false ∧
    (s.issueUnit unit5).issued unit5 = true ∧
    s.sb? 0 5 = some { sb5 .open_ with mark := 0 } ∧
    (let r := { s with media := { s.media with recs := [] } }
     0 < r.markOf (sb5 .open_) ∧ (sb5 .open_).markAt + nsMs ≤ nsMs) ∧
    s.domOn .media = true ∧ 20 ≤ ((20 : Int) - s.media.zqTemp).natAbs ∧ s.media.zqAt + 600 * nsSec ≤ 600 * nsSec ∧ ((-19 : Int) - s.media.zqTemp).natAbs < 20 ∧
    (let e : State := { withSb (sb5 .pendingErase) with media := { (withSb (sb5 .pendingErase)).media with erasing := [(0, 5)] } }
     e.media.erasing.contains (0, 5) = true ∧ (e.sb? 0 5).isSome = true ∧ e.writable = true ∧ e.runOps.erasesIssued 0 5 = true) ∧
    s.media.erasing.contains (0, 5) = false ∧
    s.dieIn 0 31 = true ∧ 0 < s.dieSets ∧
    (let e : State := { s with media := { s.media with notReady := [(0, 31, 2)] } }
     2 ≤ ((e.media.notReady.find? fun x => x.1 == 0 && x.2.1 == 31).map (·.2.2)).getD 0) := by decide +kernel

theorem witness_ReadsAndDram :
    let s := withSb { sb5 .closed with reads := [(3, 7)] }
    let lim := s.num K.readDisturbLimit
    s.domOn .media = true ∧ (s.sb? 0 5).isSome = true ∧ cwAddr 0 5 0 = 5 * 2 ^ 23 ∧
    ReadOutcome.step 1 ≠ .step 0 ∧ (s.sb? 0 5).isSome = true ∧ 7 < lim ∧ lim ≤ min (7 + lim) (2 ^ 32 - 1) ∧ min (7 + 1) (2 ^ 32 - 1) < lim ∧
    profSuspend s.media.profile = true ∧ ((0 : Nat), (5 : Nat)) ∈ [((0 : Nat), (5 : Nat))] ∧ (3 : Nat) < 4 ∧ s.domOn .dram = true ∧
    (let c := { ctx 0x10 .running with pkt := { pkt 0x10 with valueLen := 64 } }
     ((withCmd c).cmd? 1 5 = some c ∧ c.st ≠ .committed ∧ c.st ≠ .releasing)) ∧
    s.media.lastPatrol + s.num K.dramScrubHours * 3600 * nsSec ≤ 1000 * 3600 * nsSec := by decide +kernel

theorem witness_MinuteReports :
    let s := withSb (sb5 .closed)
    s.serving = true ∧ s.media.lastWam + 60 * nsSec ≤ 60 * nsSec ∧ s.shank.lastRho + 60 * nsSec ≤ 60 * nsSec ∧
    (let units := unitCap prof false / max 1 (unitCap prof false); units * profTProg prof ≠ 0) ∧ 0 / max 1 (unitCap prof false) * profTProg prof = 0 ∧
    s.media.pageRetries = 0 ∧ ({ s.media with pageReads := 5, pageRetries := 5 } : Media).pageReads ≤ 5 := by decide +kernel

theorem witness_Reclamation :
    let s := { withSb (sb5 .closed) with media := { (withSb (sb5 .closed)).media with recs := [] } }
    let full : State := { s with media := { s.media with
      recs := [{ addr := 5 * 2 ^ 35, len := 100, stream := 2, jseq := some 1, log := none, body := .flushEnd 0 0, units := [], span := [unit5] }]
      sbs := sb5 .closed :: (List.range 474).map fun i => { sb5 .unusable with sb := i + 6 } } }
    let f : State := { full with media := { full.media with sbs := [{ sb5 .closed with forced := 1 }] } }
    s.writable = true ∧ s.scansFirst = false ∧ (f.settleMoves.media.sbs.any fun x => x.ds == 0 && x.st == .victim && (x.stream != 0 || x.forced != 0)) = false ∧
    f.settleMoves.forcedVictim 0 = some { sb5 .closed with forced := 1 } ∧ s.settleMoves.forcedVictim 0 = none ∧ s.settleMoves.scoredVictim 0 = none ∧
    full.forcedVictim 0 = none ∧ (full.scoredVictim 0).isSome = true ∧ (full.settleMoves.scoredVictim 0).isSome = true ∧
    (withSb (sb5 .pendingErase)).sb? 0 5 = some (sb5 .pendingErase) ∧ (withSb (sb5 .pendingErase)).media.erasing.contains (0, 5) = false ∧ ([(0, 5)] : List (Nat × Nat)).contains (0, 5) = true ∧
    (let x : Superblock := { sb5 .closed with stream := 0, slc := true }
     let o := (withSb x).advance ((withSb x).num K.slcFoldSeconds * nsSec + 1)
     (withSb x).oldestSlc = some x ∧ o.foldDue x = true) ∧
    (s.advance (s.num K.checkpointCycleSeconds * nsSec)).cycleDue = true ∧ s.cycleDue = false := by decide +kernel

theorem witness_VictimChoice :
    let s := { withSb (sb5 .closed) with media := { (withSb (sb5 .closed)).media with recs := [], sbs := (List.range 480).map fun i => { sb5 .closed with sb := i } } }
    500 ≤ 1000 ∧ 0 < 1000 ∧ 500 * 1000 ≤ 1000 * 500 ∧ 1000 * 500 < 501 * 1000 ∧ (s.scoredVictim 0).map (·.sb) = some 0 ∧
    ((withSb { sb5 .closed with forced := 1 }).forcedVictim 0).isSome = true ∧ ((s.sbScore (sb5 .closed))).isSome = true := by decide +kernel

theorem witness_WearAndRetention :
    let x := { sb5 .closed with scanDue := true }
    let s := withSb x
    s.writable = true ∧ s.media.lastStatic + s.num K.wearStaticIntervalSeconds * nsSec ≤ s.num K.wearStaticIntervalSeconds * nsSec ∧
    (nsSec - s.media.ageAt) / nsSec ≠ 0 ∧ s.domOn .core = true ∧ s.domOn .media = true ∧ s.sb? 0 5 = some x ∧ s.scanIsDue x = true ∧ s.media.scanUntil ≤ 0 ∧
    (∀ y ∈ s.media.sbs, s.scanIsDue y = true → y.age ≤ x.age) ∧ (20 : Int) ≤ 20 ∧ (80 : Int) ≤ 80 := by decide +kernel

theorem witness_PassesAndRepair :
    let s := withSb (sb5 .closed)
    let m (l : Nat) (seed : Option Bytes) : State := { inMode { serve.mode with mode := .muster, recovering := true } with fw := { serve.fw with otp := { life := l } }, sec := { serve.sec with seed := seed } }
    ({ s with media := { s.media with running := some ⟨1, 0, { cells := [], frags := [] }⟩ } } : State).media.running = some ⟨1, 0, { cells := [], frags := [] }⟩ ∧
    s.writable = true ∧ s.media.running = none ∧ (m 0 none).settled .muster = true ∧ (m 0 none).mode.recovering = true ∧ (m 0 none).life = 0 ∧
    (m 15 none).life = 4 ∧ (m 1 none).life ≠ 0 ∧ (m 1 none).sec.seed = none ∧ (m 1 (some [])).life ≠ 4 ∧ (m 1 (some [])).sec.seed ≠ none ∧ (m 1 (some [])).written = false ∧
    (let w : State := { m 1 (some []) with media := { s.media with cycles := [⟨1, 0, { cells := [], frags := [] }⟩] } }
     w.written = true ∧ w.media.cycles ≠ [] ∧ w.media.board.anchorOk = true ∧ w.baseCycle = none) ∧ (m 1 (some [])).settled .muster = true ∧
    (let p : State := { serve with idx := { serve.idx with passEnd := some 9 } }; p.idx.passEnd = some 9 ∧ p.kvUp = true) ∧
    serve.kvUp = true ∧ serve.awl.lastClear + serve.num K.hotWindowMs * nsMs ≤ 10 * nsSec ∧
    (let q : Repair := { stripe := ⟨1, 0, 1⟩, inst := 0, hash := 0, index := 0, rebalance := false }
     let rec1 : CommitRec := { rec1 with hash := 5 }
     let b (rec_ : Bool) : State :=
       { keyed grouped with
         welt := { grouped.welt with repairs := [q] }, idx := { (keyed grouped).idx with cells := [(0, ⟨0, .object, 0, false, 4096, 0, false⟩)] }
         media := { serve.media with recs := if rec_ then [{ addr := 4096, len := 200, stream := 0, jseq := none, log := none, body := .commit rec1, units := [] }] else [] } }
     (b true).serving = true ∧ (b true).repair? ⟨1, 0, 1⟩ 0 = some q ∧ (b true).rateWindow.recOfStripe ⟨1, 0, 1⟩ = some rec1 ∧
     (b false).rateWindow.recOfStripe ⟨1, 0, 1⟩ = none ∧ (b true).rateWindow.repairNext q = true ∧ (b true).rateWindow.repairable q = true ∧
     0 < (b true).rateWindow.rateLeft false ∧ (b true).rateWindow.repairAsks q = false ∧ (b true).welt.lost.contains q.target = false) := by decide +kernel

theorem witness_AlarmsAndKeys :
    let s : State := { serve with sec := { serve.sec with slots := [⟨0, .deriving_, .deviceRoot, [], 0, 0⟩] } }
    let v := withVals [(K.tamperArm, .num 1)]
    let one : ErasedSecret := ⟨1, 1, 1, 0, 0⟩
    s.domOn .sec = true ∧ isGlitch 1 = false ∧ isGlitch 3 = true ∧ (s.alarmErase.1.keyLost []).1.sec.lastClass1 = none ∧
    (let n : State := { s with sec := { s.sec with lastClass1 := some 0 } }; (n.alarmErase.1.keyLost []).1.sec.lastClass1 = some 0) ∧
    (let g : State := { s with sec := { s.sec with glitchTimes := List.replicate 9 0 } }
     (g.alarmErase.1.keyLost []).1.num K.glitchAlarmCount ≤ ([0] ++ (g.alarmErase.1.keyLost []).1.sec.glitchTimes).length) ∧
    v.zeroise.mode.mode ≠ .halt ∧ (inMode { serve.mode with mode := .halt }).zeroise.mode.mode = .halt ∧ State.reset.mode.mode = .dormant ∧
    v.tamperActive 0 false = true ∧ (4 : Nat) ≤ 4 ∧ (3 : Nat) < 4 ∧
    s.sec.slots.find? (·.slot == 0) = some ⟨0, .deriving_, .deviceRoot, [], 0, 0⟩ ∧
    ({ s.sec with erasing := [one] } : Sec).erasing ≠ [] ∧ ({ s.sec with erasing := [one] } : Sec).eraseNext = [] ∧
    ({ s.sec with erasing := [one], eraseNext := [one] } : Sec).eraseNext ≠ [] := by decide +kernel

theorem witness_alarmInDormant : ({ State.reset with clk := serve.clk } : State).domOn .sec = true ∧ State.reset.mode.mode = .dormant := by decide +kernel

/-- `serve` with an activation in a phase. -/
def inPhase (p : ActPhase) : State := { serve with fw := { serve.fw with act := { serve.fw.act with phase := p } } }

theorem witness_ActivationAndLace :
    (inPhase .preparing).fw.act.phase = .preparing ∧ (inPhase .preparing).pauseFits 0 (fun _ => true) = true ∧
    (inPhase .pausing).fw.act.phase = .pausing ∧ 0 ≤ (inPhase .pausing).fw.act.pauseAt + 2 * nsMs ∧ (inPhase .pausing).fw.act.pauseAt + 2 * nsMs < 2 * nsMs + 1 ∧
    (inPhase .rejoining).fw.act.phase = .rejoining ∧
    (let s : State := { serve with fw := { serve.fw with staged := { st := 1, copy := 1 } } }
     s.fw.staged.copy = 1 ∧ ((s.setSlot (s.slotFor s.fw.staged.image) (some s.fw.staged.image)).setStaged { s.fw.staged with copy := 2 }).num K.laceMode ≠ 1 ∧
     (let l : State := { s with dict := { vals := [(K.laceMode, .num 1)] } }
      ((l.setSlot (l.slotFor l.fw.staged.image) (some l.fw.staged.image)).setStaged { l.fw.staged with copy := 2 }).num K.laceMode = 1)) ∧
    (let s (n : Nat) : State := { serve with fw := { serve.fw with lace := { st := .sending, successor := 2, image := zeros 240, sentBytes := n } } }
     (s 0).fw.lace.st = .sending ∧ (s 0).laceBusy = false ∧ (s 0).fw.lace.sentBytes < (s 0).fw.lace.image.length ∧
     (s 240).fw.lace.image.length ≤ (s 240).fw.lace.sentBytes ∧ (s 0).fw.lace.activateSent = false ∧
     (s 0).fw.lace.offeredAt + (s 0).num K.laceSkipSeconds * nsSec ≤ 600 * nsSec) ∧
    (∀ op ∈ [0x50, 0x51],
      let s := { asking (msg op) [] with fw := { serve.fw with lace := { st := .waiting, successor := 2 } } }
      (s.peerReply (reply op 0 (zeros 8))).2.isSome = true ∧ (s.peerReply (reply op 0 (zeros 8))).1.fw.lace.st = .waiting) := by decide +kernel

/-- A row of the site partition at global address `a`. -/
def siteRow (a : Nat) (valid : Bool) : AwlRow := { addr := a, valid := valid, entry := ⟨0, maskAll, 0, 9⟩ }

/-- `serve` with rows in the site partition. -/
def withRows (l : List AwlRow) : State := { serve with awl := { serve.awl with rows := l, dest := 1 } }

theorem witness_AwlSiteCommands :
    let g := (withRows []).awlGlobal partSite 0
    let h := (withRows []).awlGlobal partSite 1
    let s := withRows [siteRow g true]
    let i := withRows [siteRow g false]
    let full : State := { s with awl := { s.awl with row := 4095, rows := [siteRow (g + 4095) true] } }
    s.domOn .kv = true ∧ s.siteRowOk s.awl.row = true ∧ s.awlRow? g = some (siteRow g true) ∧ s.awlValid g = true ∧ i.awlValid g = false ∧
    i.awlRow? g = some (siteRow g false) ∧ (withRows []).awlRow? g = none ∧ s.siteRowOk s.awl.dest = true ∧ (siteRow g true).valid = true ∧ s.awlValid h = false ∧
    ((List.range (s.awlRows partSite - s.awl.row)).find? fun n => !s.awlValid (s.awlGlobal partSite (s.awl.row + n))) = some 1 ∧
    ((List.range (full.awlRows partSite - full.awl.row)).find? fun n => !full.awlValid (full.awlGlobal partSite (full.awl.row + n))) = none ∧
    ({ s with awl := { s.awl with row := 4096 } } : State).siteRowOk 4096 = false ∧ (s.awlSearch partSite 0 {}).2.row = some (siteRow g true) ∧
    (s.awlSearch partSite 1 {}).2.row = none ∧ (let y : State := { s with awl := { s.awl with busyUntil := 1, pend := some 0 } }
     y.awlBusy = true ∧ s.awlBusy = false ∧ y.awl.pend = some 0 ∧ y.awl.busyUntil ≤ 1 ∧ 0 < y.awl.busyUntil ∧ s.awl.pend = none) ∧ s.awl.lastScrub + s.scrubPeriod ≤ nsSec := by decide +kernel

theorem witness_SequencerOrder :
    let o : ArrayOp := { no := 0, kind := .program unit5, since := 0 }
    let w : ArrayOp := { o with tokenWait := some 0 }
    let e : ArrayOp := { no := 1, kind := .erase 0 5 0, since := 0, issuedAt := some 0 }
    let r : ArrayOp := { no := 2, kind := .read (cwAddr 0 5 0) (.step 0) 0, since := 0 }
    let b := withSb { sb5 .open_ with mark := 0 }
    let s (l : List ArrayOp) (t : Nat) : State := { b with
      media := { b.media with ops := l }, shank := { b.shank with books := [{ res := .die 0, deadline := 0, work := 0, owner := .cmd 1 1 }], oldLimit := some t, effectiveAt := 9 } }
    (s [o] 9).nextOp 0 = some o ∧ (∀ x ∈ (s [o] 9).media.ops, (s [o] 9).opReady 0 x = true ∧ (s [o] 9).opCost x.kind ≤ (s [o] 9).freeTokens 0) ∧
    (s [o] 0).nextOp 0 = none ∧ (s [o] 0).opReady 0 o = true ∧ w.tokenWait = some 0 ∧ (s [e, r] 9).eraseInWay 0 = some e ∧
    (inMode { serve.mode with phase := .flushing .pfail }).inFlush = true := by decide +kernel

/-! Worked examples of the manual: each expected figure stands in the chapter named. -/

/-- 06, R167. -/
theorem test_buckets : bucket1 0x8B440E6F12D9A3C0 29 = 0x116881CD ∧ otherBucket 0x116881CD 0x12D9A3C0 29 = 0x0F1E8F0D := by decide +kernel

/-- 07, R203. -/
theorem test_chunks :
    segmentsOf true 1000000 6 = 2 ∧ chunkOf 1000000 6 1 = 35600 ∧ fragLen true 1000000 6 = 166672 := by decide +kernel

/-- 07, R204 and R205: parity, and the lost byte again. -/
theorem test_reed_solomon :
    parityChunk 4 2 0 [[1], [2], [3], [4]] = [0x14] ∧ parityChunk 4 2 1 [[1], [2], [3], [4]] = [0] ∧
    rsDecode 4 2 [(1, [2]), (2, [3]), (3, [4]), (5, [0])] = [[1], [2], [3], [4]] := by decide +kernel

/-- 08, R241. -/
theorem test_record_address :
    cwAddr 3 1203 649837 = 0x3259A7A9B4 ∧ addrParts (0x3259A7A9B4 * 4096) = (3, 1203, 649837) ∧ parityOf 1203 (List.range 32) = 19 ∧
    leBytes 5 0x3259A7A9B4 = [0xB4, 0xA9, 0xA7, 0x59, 0x32] := by decide +kernel

/-- The profile of the drive of 08 with 2,048 spare bytes. -/
def profBig : Bytes :=
  [1, 4, 4, 1] ++ zeros 6 ++ beBytes 2 2048 ++ beBytes 2 1536 ++ beBytes 2 2048 ++ beBytes 4 90000 ++ zeros 4 ++ beBytes 4 2600000 ++ beBytes 4 2000000 ++
    beBytes 4 10000000 ++ zeros 4 ++ beBytes 4 300000 ++ zeros 4 ++ beBytes 4 500000 ++ zeros 4 ++ [4] ++ zeros 71

/-- 08, R251: 72 ms for 512 MiB. -/
theorem test_holdup : profileOk profBig = true ∧ holdupMs profBig 512 128 3 128 2400 = 72 := by decide +kernel

/-- 05, R155: the ingest bound of 128 QLC dies at 96 tokens, and 3.42 GB of it. -/
theorem test_ingest :
    let s : State := { withVals [(K.powerTokenLimit, .num 96)] with media := { serve.media with profile := profBig, u := 128 } }
    s.ingestBound = 4031488000 ∧ 3420000000 * 10000 / s.ingestBound = 8483 := by decide +kernel

/-- 05, R134 and R146: refused with RetryAfterUs 524 and Limiter CHANNEL. -/
theorem test_admission :
    let b (d w : Nat) : Booking := { res := .channel 3, deadline := d, work := w, owner := .cmd 1 1 }
    let s : State := { serve with shank := { serve.shank with books := [b 15000000 10000000, b 29500000 10620000] } }
    s.judge 30485760 1496000 [(.channel 3, 39000)] 0 1 = .refuse 524 2 := by decide +kernel

/-- 09, R267. -/
theorem test_scores :
    scoreOf 3096182784 1548091392 90000 604800 970 = some 30000 ∧ scoreOf 3096182784 774045696 20000 604800 970 = some 12000 ∧
    scoreOf 3096182784 2322137088 400000 604800 970 = some 57142 := by decide +kernel

/-- 03, R69: alpha 0.07421875 and cwnd 252,416. -/
theorem test_congestion :
    alphaNext (1 / 16) (1 / 4) = 19 / 256 ∧ cwndNext 262144 0 9552 (19 / 256) (1 / 4) = (252416, 0) := by decide +kernel

/-- 10, the value nonce. -/
theorem test_nonce : valueNonce ⟨3, 0x392, 0x15C07⟩ = zeros 9 ++ [1, 0x5C, 7] := by decide +kernel

/-- 12, R362: the RTC of a TIME frame. -/
theorem test_time :
    (match exec (.timeFrame 0 0x100 38816304 14876) { withVals [(K.timeCobId, .num 0x80000100), (K.taiUtcOffset, .num 37)] with now := 0 } with
      | .next u => u.shelf.rtcBase | _ => 0) = 1727088453 := by decide +kernel

/-- 14, R409: INTERLEAVE of four pages by codewords. -/
theorem test_interleave :
    let d : DmaDesc := { param := 0x4004 }
    d.ways = 4 ∧ d.grain = 4096 ∧ interleaveDst 4 4096 65536 20000 = 7712 ∧ interleaveDst 4 4096 65536 40000 = 27712 := by decide +kernel

/-- 14, R409: BITPLANE with P = 1. -/
theorem test_bitplane :
    let d : DmaDesc := { ctrl := 7, lineLen := 8, lineCount := 1, param := 1 }
    let src : Bytes := [0x0F, 0x33, 0x55, 0xFF, 0x00, 0x80, 0x01, 0xAA]
    (List.range 8).map (d.destByte fun i => src.getD i 0) = [0x4F, 0x8B, 0x0D, 0x89, 0x0E, 0x8A, 0x0C, 0xA8] := by decide +kernel

/-- SipHash-2-4 (06 R161): the published vectors of the empty message and of one zero byte. -/
theorem test_siphash :
    let k : Bytes := (List.range 16).map (BitVec.ofNat 8)
    sipHash k [] = 0x726FDB47DD0E0E31 ∧ sipHash k [0] = 0x74F839C593DC67FD := by decide +kernel

/-- CRC-32 of IEEE 802.3: the published check value of "123456789". -/
theorem test_crc : crc32 ((List.range 9).map fun i => BitVec.ofNat 8 (0x31 + i)) = 0xCBF43926 := by decide +kernel

/-! One ill-formed operand for each check of `Instr.wf`. -/

theorem test_wf_packets :
    (Instr.close 0 { rx1 with path := 4 } 0 0).wf = false ∧ (Instr.close 0 { rx1 with pn := 2 ^ 64 } 0 0).wf = false ∧
    (Instr.close 0 { rx1 with addr := 2 ^ 145 } 0 0).wf = false ∧ (Instr.close 0 rx1 256 0).wf = false ∧ (Instr.close 0 rx1 0 (2 ^ 32)).wf = false ∧
    (Instr.close 0 rx1 255 (2 ^ 32 - 1)).wf = true ∧ (Instr.hello 0 { port := .a, addr := 2 ^ 145, bytes := [] }).wf = false ∧
    (Instr.ack 0 rx1 { ack1 with largest := 2 ^ 64 }).wf = false ∧ (Instr.ack 0 rx1 { ack1 with delayUs := 2 ^ 32 }).wf = false ∧
    (Instr.ack 0 rx1 { ack1 with credit := 2 ^ 32 }).wf = false ∧ (Instr.ack 0 rx1 { ack1 with ranges := List.replicate 256 (0, 0) }).wf = false ∧
    (Instr.ack 0 rx1 { ack1 with releases := List.replicate 256 (0, 0) }).wf = false ∧ (Instr.nak 0 rx1 { reason := 256, gaps := [], tags := [] }).wf = false ∧
    (Instr.nak 0 rx1 { reason := 1, gaps := List.replicate 256 (0, 0), tags := [] }).wf = false ∧ (Instr.keepaliveProbe 0 rx1 (2 ^ 64)).wf = false := by decide +kernel

theorem test_wf_commands :
    (∀ p ∈ [{ pkt 256 with tag := 5 }, { pkt 1 with flags := 256 }, { pkt 1 with tag := 65536 }, { pkt 1 with cls := 4 }, { pkt 1 with inc := 16 },
        { pkt 1 with ns := 65536 }, { pkt 1 with gen := 2 ^ 32 }, { pkt 1 with seq := 2 ^ 32 }, { pkt 1 with keyLen := 65536 },
        { pkt 1 with paramLen := 65536 }, { pkt 1 with valueLen := 2 ^ 64 }], (Instr.get 0 rx1 p { dies := [], chans := [] }).wf = false) ∧
    (Instr.get 0 rx1 (pkt 1) { dies := [], chans := [] }).wf = true ∧ (Instr.data 0 rx1 65536 0 0 []).wf = false ∧ (Instr.data 0 rx1 0 16 0 []).wf = false ∧
    (Instr.data 0 rx1 0 0 (2 ^ 32) []).wf = false ∧ (Instr.ptoExpiry 0 1 4).wf = false ∧ (Instr.fragPutReply 0 { reply 256 0 [] with tag := 5 }).wf = false ∧
    (Instr.fragPutReply 0 (reply 0x71 256 [])).wf = false ∧ (Instr.fragPutReply 0 { reply 0x71 0 [] with tag := 65536 }).wf = false ∧
    (Instr.fragPutReply 0 { reply 0x71 0 [] with inc := 16 }).wf = false ∧ (Instr.holderFailTimeout 0 1 5 65535).wf = false ∧
    (Instr.supersededRelease 0 ⟨65536, 0, 0⟩).wf = false ∧ (Instr.supersededRelease 0 ⟨0, 2 ^ 32, 0⟩).wf = false ∧ (Instr.supersededRelease 0 ⟨0, 0, 2 ^ 64⟩).wf = false ∧
    (Instr.handoffSend 0 4096 0).wf = false ∧ (Instr.handoffSend 0 0 (2 ^ 64)).wf = false ∧ (Instr.stripeRepair 0 ⟨0, 0, 0⟩ 256).wf = false := by decide +kernel

theorem test_wf_media_and_ports :
    (Instr.programFailure 0 { unit5 with slot := 256 }).wf = false ∧ (Instr.programComplete 0 0x10 { unit5.place with slot := 256 }).wf = false ∧
    (Instr.codewordRead 0 0 8192 0 .lost 0).wf = false ∧ (Instr.codewordRead 0 0 0 (2 ^ 21) .lost 0).wf = false ∧ (Instr.eraseFailure 0 0 0 256).wf = false ∧ (Instr.dieReadyTimeout 0 0 256).wf = false ∧
    (Instr.keyDerivationComplete 0 256).wf = false ∧ (Instr.portSettingWrite 0 cl .a 256 []).wf = false ∧ (Instr.trainingTimeout 0 .a 12 0).wf = false ∧
    (Instr.trainingTimeout 0 .a 11 4).wf = false ∧ (Instr.trainingComplete 0 .a 11 5).wf = false ∧
    (Instr.neighbourFrame 0 .a { kind := 0, target := [], source := [], payload := [], len := 64 }).wf = false ∧
    (Instr.filteredFrame 0 .a { goodFacts with dst := [] }).wf = false ∧ (Instr.filteredFrame 0 .a { goodFacts with tci := some 65536 }).wf = false ∧
    (Instr.pauseFrame 0 .a { pfc := true, times := [(8, 0)] }).wf = false ∧ (Instr.pauseFrame 0 .a { pfc := false, times := [(8, 65536)] }).wf = false ∧
    (Instr.pauseTimeExpiry 0 .a 9).wf = false ∧ (Instr.ptpMessage 0 .a { domain := 256, transport := 0, len := 64, what := .other }).wf = false ∧
    (Instr.ptpMessage 0 .a { domain := 0, transport := 3, len := 64, what := .other }).wf = false := by decide +kernel

theorem test_wf_shelf_and_site :
    (Instr.usdoAbort 0 0).wf = false ∧ (Instr.usdoAbort 0 128).wf = false ∧ (Instr.usdoExpeditedUpload 0 1 65536 0).wf = false ∧
    (Instr.usdoExpeditedUpload 0 1 0 256).wf = false ∧ (Instr.usdoSegmentedDownloadInit 0 1 0 0 (2 ^ 32) []).wf = false ∧
    (Instr.nodeIdClaim 0 (2 ^ 32) 1).wf = false ∧ (Instr.nodeIdClaim 0 0 256).wf = false ∧ (Instr.nmtResetNode 0 128).wf = false ∧
    (Instr.timeFrame 0 2048 0 0).wf = false ∧ (Instr.timeFrame 0 0 (2 ^ 28) 0).wf = false ∧ (Instr.timeFrame 0 0 0 65536).wf = false ∧
    (Instr.dictEntryWrite 0 cl 65536 0 []).wf = false ∧ (Instr.storeAll 0 cl (2 ^ 32)).wf = false ∧ (Instr.powerTokensWrite 0 cl 65536).wf = false ∧
    (Instr.tamperClear 0 cl 256).wf = false ∧ (Instr.eventSnapshotFromWrite 0 cl 0 0).wf = false ∧ (Instr.eventSnapshotFromWrite 0 cl 5 0).wf = false ∧
    (Instr.dmaDoorbell 0 16).wf = false ∧ (Instr.dmaEnable 0 0 (2 ^ 32)).wf = false ∧ (Instr.dmaRingRegWrite 0 0 0x14 0).wf = false ∧
    (Instr.tmrCmpWrite 0 4 true 0).wf = false ∧ (Instr.siteAccessFault 0 5 0 8).wf = false ∧ (Instr.siteAccessFault 0 6 0 24).wf = false ∧
    (Instr.registerWrite 0 (2 ^ 64) 0).wf = false ∧ (Instr.pwrGoodCoreRise 0 { bootMode := 4 }).wf = false ∧ (Instr.dmaBusError 0 0 (2 ^ 64) 0 true).wf = false := by
  decide +kernel

/-! Single commands. -/

/-- The state after a command. -/
def after (i : Instr) (s : State) : State := match exec i s with | .next u => u | _ => s

/-- R56: a short HELLO is counted in RxMalformed. -/
theorem test_hello_short : (after (.hello 0 { port := .a, addr := 7, bytes := [2, 1] }) serve).num K.rxMalformed = 1 := by decide +kernel

/-- R363: an upload of Mode answers on 0x580 + node-ID with SERVE. -/
theorem test_usdo_upload : (after (.usdoExpeditedUpload 0 9 0x2000 1) serve).out = [.can 0x5FF .fdBrs [9, 0x43, 0x20, 0, 1, 2]] := by decide +kernel

/-- R364: a dominant level of 1 us starts the CAN controller in DORMANT. -/
theorem test_can_wake : (after (.canWakeDominant 0 1000 false) { State.reset with shelf := {} }).shelf.running = true ∧
    (after (.canWakeDominant 0 299 true) { State.reset with shelf := {} }).shelf.running = false := by decide +kernel

/-- R371: main power in DORMANT leads to MUSTER. -/
theorem test_power_up : (after (.pwrGoodCoreRise 0 {}) State.reset).mode.mode = .muster := by decide +kernel

/-- R379: at ThermalTripC the drive flushes. -/
theorem test_trip : (after (.thermalSample 0 108) serve).mode.phase = .flushing .trip ∧ (after (.thermalSample 0 107) serve).mode.phase = .idle := by decide +kernel

/-- R377: PFAIL_N low for 1 us starts the flush. -/
theorem test_pfail : (after (.pfailNLow 0 1000) serve).mode.phase = .flushing .pfail := by decide +kernel

/-- R406, R408: EN with a ring of 3 descriptors is refused with ERR_FIELD. -/
theorem test_dma_enable :
    let s : State := serve.setCh 12 { ringSize := 3, ring := sramBase }
    ((after (.dmaEnable 0 12 1) s).ch 12).en = false ∧ ((after (.dmaEnable 0 12 1) s).ch 12).lastErr = 3 := by decide +kernel

/-- R409, R411: a COPY of 64 bytes of local SRAM, and its write-back. -/
theorem test_dma_copy :
    let b := dmaState { ch12 with st := .running, cur := some (copy64 true), runCount := 1 }
    let u := after (.dmaDescriptorComplete 0 12) { b with mem := memWrite b.mem (sramBase + 256) (beBytes 4 0xDEADBEEF) }
    memRead u.mem (sramBase + 512) 4 = beBytes 4 0xDEADBEEF ∧ bitAt (memLE u.mem sramBase 4) 0 = false ∧ (u.ch 12).doneCount = 1 := by decide +kernel

/-- R404: a DICT_READ of an index that the part has not is answered with 0x06020000. -/
theorem test_mailbox : memLE (after (.mbxDictRead 0) (posted 1 8)).mem (c2sBase + 8) 4 = 0x06020000 := by decide +kernel

/-- 14, the EVR block: FETCH of a record that the ring does not hold. -/
theorem test_fetch : (after (.evrFetch 0) serve).evs.errCode = 1 := by decide +kernel

/-- R258: a corrected burst is counted. -/
theorem test_ecc : (after (.dramEccCorrected 0 0 0) serve).num K.dramCorrected = 1 := by decide +kernel

/-- 03, Table 3.5: a HALF_OPEN session goes after 1 s, not sooner. -/
theorem test_half_open :
    let s := withSess { sess 1 with st := .halfOpen }
    (after (.halfOpenTimeout nsSec 1) s).net.sessions = [] ∧ (after (.halfOpenTimeout (nsSec - 1) 1) s).net.sessions ≠ [] := by decide +kernel

/-- R192: WRITE to a VALID row ends with ROW_VALID (3); to another it loads the row. -/
theorem test_awl_site :
    ((after (.awlSiteWrite 0 24 true) (withRows [siteRow 61440 true])).awl.at_ 16).errCode = 3 ∧ ((after (.awlSiteWrite 0 24 true) (withRows [])).awl.at_ 16).err = false := by
  decide +kernel

/-- R372: LULL-1 after LullEnterMs. -/
theorem test_lull : (after (.lull1Entry (100 * nsMs)) serve).mode.mode = .lull1 ∧ (after (.lull1Entry (100 * nsMs - 1)) serve).mode.mode = .serve := by decide +kernel

/-- R30, R103: a GET of a namespace that does not stand ends NS_ABSENT; one of a key that is not there ends NOT_FOUND. -/
theorem test_get :
    let st (s : State) : List Nat := (after (.get 0 rx1 (keyPkt 0x01) { dies := [], chans := [] }) s).out.filterMap fun o =>
      match o with | .pkt _ _ _ _ (.resp _ x _ _ _) _ _ _ => some x | _ => none
    st (withSess (sess 1)) = [stAbsent] ∧ st (keyed (withSess (sess 1))) = [stNotFound] := by decide +kernel

end Sys2Proof.Tests
end

section
/-! Register writes (00 R6, R7): which 1s of a written value take effect, the block that a write reaches, and a word
stored to memory. -/

namespace Sys2Proof.Machine

/-- The subtraction by which the model clears a mask's bits borrows nothing: each bit is cleared for itself. -/
theorem testBit_sub_and (v m i : Nat) : (v - (v &&& m)).testBit i = (v.testBit i && !m.testBit i) := by
  have hle : v &&& m ≤ v := Nat.and_le_left
  have hlow : (v &&& m) % 2 = 1 ↔ v % 2 = 1 ∧ m % 2 = 1 := Nat.and_mod_two_eq_one
  induction i generalizing v m with
  | zero =>
    rw [Nat.testBit_zero, Nat.testBit_zero, Nat.testBit_zero, Bool.eq_iff_iff, Bool.and_eq_true, Bool.not_eq_true',
      decide_eq_true_eq, decide_eq_true_eq, decide_eq_false_iff_not]
    omega
  | succ i ih =>
    have hhigh : (v &&& m) / 2 = v / 2 &&& m / 2 := Nat.and_div_two
    have hsub : (v - (v &&& m)) / 2 = v / 2 - (v / 2 &&& m / 2) := by rw [← hhigh]; omega
    rw [Nat.testBit_succ, Nat.testBit_succ, Nat.testBit_succ, hsub]
    exact ih _ _ Nat.and_le_left Nat.and_mod_two_eq_one

/-- Bit `i` survives the masks of a list that are meant for `reg` exactly when none of them holds it. -/
theorem testBit_foldl_sub_and (l : List (Nat × Nat)) (reg v i : Nat) :
    (l.foldl (fun v x => if x.1 = reg then v - (v &&& x.2) else v) v).testBit i
      = (v.testBit i && l.all fun q => !(q.1 == reg && q.2.testBit i)) := by
  induction l generalizing v with
  | nil => simp
  | cons q l ih =>
    rw [List.foldl_cons, ih, List.all_cons]
    by_cases hq : q.1 = reg
    · rw [if_pos hq, testBit_sub_and, Bool.and_assoc, hq, beq_self_eq_true, Bool.true_and]
    · rw [if_neg hq, beq_false_of_ne hq, Bool.false_and, Bool.not_false, Bool.true_and]

/-- A written 1 takes effect unless hardware sets that bit of that register in the same cycle (00 R7; log 111). -/
theorem State.testBit_clears (s : State) (reg v i : Nat) :
    (s.clears reg v).testBit i
      = (v.testBit i && !(decide (s.sets.at_ = s.now) && s.sets.bits.any fun q => q.1 == reg && q.2.testBit i)) := by
  unfold State.clears
  split <;> rename_i h
  · simp [h, testBit_foldl_sub_and, List.any_eq_not_all_not]
  · simp [h]

/-- A register of which hardware sets no bit in this cycle takes every written 1. -/
theorem State.clears_eq_self {s : State} {reg : Nat} (h : s.sets.at_ ≠ s.now ∨ ∀ q ∈ s.sets.bits, q.1 ≠ reg) (v : Nat) :
    s.clears reg v = v := by
  refine Nat.eq_of_testBit_eq fun i => ?_
  rw [State.testBit_clears]
  rcases h with h | h
  · simp [h]
  · have : (s.sets.bits.any fun q => q.1 == reg && q.2.testBit i) = false := by
      refine List.any_eq_false.2 fun q hq => ?_
      simp [h q hq]
    simp [this]

/-- No 1 written to a bit that hardware sets in this cycle takes effect. -/
theorem State.clears_and_eq_zero {s : State} {reg m : Nat} (ht : s.sets.at_ = s.now) (hm : (reg, m) ∈ s.sets.bits) (v : Nat) :
    s.clears reg v &&& m = 0 := by
  refine Nat.eq_of_testBit_eq fun i => ?_
  rw [Nat.testBit_and, State.testBit_clears, Nat.zero_testBit]
  cases hi : m.testBit i with
  | false => simp
  | true =>
    have : (s.sets.bits.any fun q => q.1 == reg && q.2.testBit i) = true := List.any_eq_true.2 ⟨_, hm, by simp [hi]⟩
    simp [ht, this]

@[simp] theorem length_leBytes (n v : Nat) : (leBytes n v).length = n := by
  induction n generalizing v with
  | zero => rfl
  | succ n ih => simp [leBytes, ih]

/-- Bytes written to memory read back. -/
theorem memRead_memWrite_same {m : List Host.Cell} (h : Memory.wf m = true) (a : Nat) (b : Bytes) :
    memRead (memWrite m a b) a b.length = b := by
  induction b generalizing m a with
  | nil => rfl
  | cons x bs ih =>
    have hx := memPut_wf a x h
    rw [List.length_cons, memRead, memWrite, ih hx, memGet_memWrite_other hx bs (by omega), memGet_memPut_same h]

/-- The state after a store of `w` at an address while PD_CORE is powered: the block of Table 14.1 that holds the address takes
it, and any other address is memory. `exec_registerWrite` ties it to REGISTER_WRITE. -/
def State.storeAt (s : State) (addr w : Nat) : State :=
  match addr / 0x1000 with
  | 0x40000 => s.mbxStore (addr % 0x1000) w
  | 0x40010 => s
  | 0x40011 => s.dmaStore (addr % 0x1000 / 0x100) (addr % 0x1000 % 0x100) w
  | 0x40020 => if s.domOn .kv then s.awlStore (addr % 0x1000) w else s
  | 0x40030 => s.evrStore (addr % 0x1000) w
  | 0x40040 => s.cpcStore (addr % 0x1000) w
  | 0x40050 => s.fmcStore (addr % 0x1000) w
  | 0x40060 => s.tmrStore (addr % 0x1000) w
  | _ => s.memStore addr w

/-- REGISTER_WRITE while PD_CORE is powered stores the bits of the value that take effect. -/
theorem exec_registerWrite {s : State} {v : Nat} (hcore : s.domOn .core = true) (hv : v < 2 ^ 32) (t addr : Nat) :
    exec (.registerWrite t addr v) s = .next ((s.advance t).storeAt addr ((s.advance t).clears addr v)) := by
  have hon : (s.advance t).domOn .core = true := hcore
  change execRegisterWrite t addr v s = _
  unfold execRegisterWrite State.storeAt
  dsimp only
  rw [Nat.mod_eq_of_lt hv, hon]
  rfl

/-- DMA_CH_CTRL of a channel whose EN is 0 takes its fields from a value that leaves EN at 0 (R406). -/
theorem State.storeAt_dmaCtrl {s : State} {n w : Nat} (hn : n < 16) (hen : (s.ch n).en = false) (hw : bitAt w 0 = false) :
    s.storeAt (0x40011000 + 0x100 * n) w = s.setCh n ((s.ch n).ctrlFields w) := by
  have hblock : (0x40011000 + 0x100 * n) / 0x1000 = 0x40011 := by omega
  have hchan : (0x40011000 + 0x100 * n) % 0x1000 / 0x100 = n := by omega
  have hreg : (0x40011000 + 0x100 * n) % 0x1000 % 0x100 = 0 := by omega
  simp [State.storeAt, State.dmaStore, hblock, hchan, hreg, hen, hw]

/-- AWL_SITE_ROW while PD_KV is powered: the row in the low half, the destination in the high half. -/
theorem State.storeAt_awlRow {s : State} (hkv : s.domOn .kv = true) (w : Nat) :
    s.storeAt 0x4002000C w = { s with awl := { s.awl.at_ s.now with row := w % 65536, dest := w / 65536 } } := by
  change (if s.domOn .kv then s.awlStore 0x0C w else s) = _
  rw [if_pos hkv]
  rfl

/-- No register block lies in local SRAM. -/
theorem State.storeAt_sram {s : State} {addr : Nat} (hin : inSram addr 4 = true) (w : Nat) :
    s.storeAt addr w = s.memStore addr w := by
  simp only [inSram, sramBase, sramSize, Bool.and_eq_true, decide_eq_true_eq] at hin
  unfold State.storeAt
  split
  case h_9 => rfl
  all_goals omega

/-- An aligned word in local SRAM is stored while PD_CORE is powered (log 48). -/
theorem State.memStore_sram {s : State} {addr : Nat} (hcore : s.domOn .core = true) (hin : inSram addr 4 = true)
    (ha : addr % 4 = 0) (w : Nat) : s.memStore addr w = { s with mem := memWrite s.mem addr (leBytes 4 w) } := by
  simp [State.memStore, hin, hcore, ha]

/-- Settles O25. The 1s that take effect are told by `State.testBit_clears`, and each register's clause is one case of
`State.storeAt`. That commands of one drive time share a cycle is the model's reading of R7 (log 111), and the store of a word
to local SRAM by REGISTER_WRITE is its choice (log 48). -/
theorem registerWrites : Obligations.RegisterWrites := by
  intro s t v hcore hv a c
  have store (x : Nat) : exec (.registerWrite t x v) s = .next (a.storeAt x (c x)) := exec_registerWrite hcore hv t x
  refine ⟨fun x h => State.clears_eq_self h v, fun x m ht hm => State.clears_and_eq_zero (s := a) ht hm v, store _, store _, ?dmaCtrl,
    store _, store _, store _, store _, ?awlRow, store _, ?sram⟩
  case dmaCtrl => exact fun n hn hen hw => (store _).trans (congrArg _ (State.storeAt_dmaCtrl (s := a) hn hen hw))
  case awlRow => exact fun hkv => (store _).trans (congrArg _ (State.storeAt_awlRow (s := a) hkv _))
  case sram =>
    intro x hx hin hwf
    have hmem : a.storeAt x (c x) = { a with mem := memWrite s.mem x (leBytes 4 (c x)) } :=
      (State.storeAt_sram hin _).trans (State.memStore_sram (s := a) hcore hin hx _)
    refine ⟨memWrite s.mem x (leBytes 4 (c x)), (store x).trans (congrArg _ hmem), ?_, fun y hy => ?_, memWrite_wf _ _ hwf⟩
    · simpa using memRead_memWrite_same hwf x (leBytes 4 (c x))
    · exact memGet_memWrite_other hwf _ (by simpa using hy)

end Sys2Proof.Machine
end

section
/-! Timers of sessions and paths (03 R61 to R94). -/

namespace Sys2Proof.Machine

/-- Time alone changes no port. -/
@[simp] theorem State.port_advance (s : State) (t : Nat) (p : PortId) : (s.advance t).port p = s.port p := rfl

/-- Settles O12: each timer is one arm of dispatch whose guard its clause meets. The model's own choices in it are the PTO that runs
from the path's oldest unacknowledged packet and takes all of them for lost (log 42), cwnd in whole bytes (log 43), the idle timeout
of drive-role sessions alone (log 51) and the free stamp of a PROBE (log 3). -/
theorem sessionTimers : Obligations.SessionTimers := by
  intro s t sid x hs a now
  have ha : (s.advance t).session? sid = some x := hs
  refine ⟨?halfOpen, ?silent, ?idle, ?closing, ?v1, ?ack, fun path q hq => ⟨?pto, ?congestion, ?keepalive, ?dead⟩⟩
  case halfOpen =>
    intro hst hdue
    change execHalfOpenTimeout t sid s = _
    simp only [execHalfOpenTimeout, ha]
    exact if_pos ⟨hst, hdue⟩
  case silent =>
    intro hst hsil
    change execSessionLossTimeout t sid s = _
    simp only [execSessionLossTimeout, ha]
    exact if_pos (by rw [hst]; exact hsil)
  case idle =>
    intro hst hhost hrel hdue
    change execIdleTimeout t sid s = _
    simp only [execIdleTimeout, ha]
    exact if_pos ⟨hst, hhost, hrel, hdue⟩
  case closing =>
    intro c hst hc hdue
    change execClosingTimeout t sid s = _
    simp only [execClosingTimeout, ha, hc]
    exact if_pos ⟨hst, hdue⟩
  case v1 =>
    intro hv
    change (_ → execV1ConnectionClose t sid s = _) ∧ (_ → execV1ConnectionClose t sid s = _)
    simp only [execV1ConnectionClose, ha, hv]
    exact ⟨fun hst => if_pos hst, fun hst => if_neg hst⟩
  case ack =>
    intro howed hdue
    change execAckDelayExpiry t sid s = _
    simp only [execAckDelayExpiry, ha]
    exact if_pos ⟨howed, hdue⟩
  case pto =>
    intro u hv hst hu hdue b
    change (_ → execPtoExpiry t sid path s = _) ∧ (_ → execPtoExpiry t sid path s = _)
    simp only [execPtoExpiry, ha, hq, hu]
    rw [if_pos ⟨hv, hst, hdue⟩]
    exact ⟨fun hlt => if_neg (by omega), fun hge => if_pos (by omega)⟩
  case congestion =>
    intro hv hdue hacked f al w b
    change execCongestionUpdate t sid path s = _
    simp only [execCongestionUpdate, ha, hq]
    have hnew : ¬x.v1 = true := by simp [hv]
    exact if_neg (not_or.2 ⟨hnew, not_or.2 ⟨Nat.not_lt.2 hdue, hacked⟩⟩)
  case keepalive =>
    intro hdue hst
    change execKeepaliveInterval t sid path s = _
    simp only [execKeepaliveInterval, ha, Option.bind_some, hq]
    exact if_pos (Bool.and_eq_true_iff.2 ⟨decide_eq_true hdue, by simpa using hst⟩)
  case dead =>
    intro hv hst hdue
    change execPathDeadTimeout t sid path s = _
    simp only [execPathDeadTimeout, ha, hq]
    exact if_pos ⟨hv, hst, hdue⟩

end Sys2Proof.Machine
end

section
/-! Values of granted commands: DATA, windows and replies (03 R77 to R80, 08 R250). -/

namespace Sys2Proof.Machine

/-- A range joins a list of ranges and pushes out none. -/
theorem mem_insertRange {p r : Nat × Bytes} {l : List (Nat × Bytes)} : r ∈ insertRange p l ↔ r = p ∨ r ∈ l := by
  induction l with
  | nil => simp [insertRange]
  | cons q l ih =>
    rw [insertRange]
    split
    · rw [List.mem_cons]
    · rw [List.mem_cons, ih, List.mem_cons, or_left_comm]

/-- Bytes that no range overlaps are new as a whole. -/
theorem uncovered_of_disjoint {got : List (Nat × Bytes)} {off : Nat} {d : Bytes} (hd : d ≠ [])
    (hdis : ∀ g ∈ got, off + d.length ≤ g.1 ∨ g.1 + g.2.length ≤ off) : uncovered got off d = [(off, d)] := by
  unfold uncovered
  induction got with
  | nil => rfl
  | cons g got ih =>
    rw [List.foldl_cons]
    have hrest := ih fun x hx => hdis x (List.mem_cons_of_mem _ hx)
    have hpos : 0 < d.length := List.length_pos_iff.2 hd
    rcases hdis g List.mem_cons_self with hbefore | hafter
    · have hfront : g.1 - off ≠ 0 := by omega
      have hleft : d.take (g.1 - off) = d := List.take_of_length_le (by omega)
      have hright : d.length ≤ g.1 + g.2.length - off := by omega
      simpa [hd, hfront, hleft, hright] using hrest
    · have hleft : g.1 - off = 0 := by omega
      have hright : g.1 + g.2.length - off = 0 := by omega
      simpa [hleft, hright, hafter, hd] using hrest

/-- Bytes that a window has not got join it beside what it has. -/
theorem Window.mem_put_of_disjoint {w : Window} {off : Nat} {d : Bytes} (hd : d ≠ [])
    (hdis : ∀ g ∈ w.got, off + d.length ≤ g.1 ∨ g.1 + g.2.length ≤ off) {r : Nat × Bytes} :
    r ∈ (w.put off d).got ↔ r = (off, d) ∨ r ∈ w.got := by
  change r ∈ (uncovered w.got off d).foldl (fun l p => insertRange p l) w.got ↔ _
  rw [uncovered_of_disjoint hd hdis]
  exact mem_insertRange

/-- A reply with bytes left and no credit for them waits: the command is host-held (R80, R129). -/
theorem State.sendReply_noCredit {s : State} {sid tag : Nat} {c : CmdCtx} {x : Session} {r : Bytes × Nat × Bytes} (fuel : Nat)
    (hc : s.cmd? sid tag = some c) (hx : s.session? sid = some x) (hr : c.reply = some r) (hleft : c.replySent < r.1.length)
    (hcredit : x.credit ≤ x.dataInFlight) (hsup : c.suppressed = false) :
    State.sendReply (fuel + 1) s sid tag = s.openHeld sid tag := by
  have hrest : ¬ (r.1.drop c.replySent).isEmpty = true := by simpa using hleft
  have hnone : x.credit - x.dataInFlight = 0 := Nat.sub_eq_zero_of_le hcredit
  simp only [State.sendReply, hc, hx, hr]
  rw [if_neg hrest, if_pos ⟨by rw [hnone, Nat.min_zero], hsup⟩]

/-- Settles O14. DATA goes through the checks of R78 in their order (`State.takeData`); that new bytes join a window is
`Window.mem_put_of_disjoint`, and that a reply without credit waits is `State.sendReply_noCredit`. Which retained values make room for
a window is the model's choice (log 27). -/
theorem valueTransfers : Obligations.ValueTransfers := by
  refine ⟨fun w off d hd hdis => ?joins, fun s t sid tag c hc => ?_⟩
  case joins =>
    have hmem (r : Nat × Bytes) : r ∈ (w.put off d).got ↔ r = (off, d) ∨ r ∈ w.got := Window.mem_put_of_disjoint hd hdis
    exact ⟨(hmem _).2 (.inl rfl), fun g hg => (hmem g).2 (.inr hg)⟩
  intro a
  have ha : (s.advance t).cmd? sid tag = some c := hc
  refine ⟨?data, ?drain, ?idle, ?grant, ?reply⟩
  case data =>
    rintro rx inc off d b x rfl hrx hx hhost
    have htake : exec (.data t rx tag inc off d) s = .next ((b.takeData rx x tag inc off d).ackIfDue rx) := by
      change execData t rx tag inc off d s = _
      simp only [execData]
      rw [hrx]
      simp [hx, hhost]
    rw [htake]
    refine ⟨fun hcur => ?stale, fun hcur hd => ?empty, fun hcur hd c' hc' => ⟨fun hout => ?outside, fun w hw => ?stored⟩⟩
    case stale => simp [State.takeData, hcur]
    case empty => simp [State.takeData, hcur, hd]
    case outside => simp [State.takeData, hcur, hd, hc', hout]
    case stored => simp [State.takeData, hcur, hd, hc', hw]
  case drain =>
    intro w hw hcomplete b e c' hc'
    change (_ → execWindowDrain t sid tag s = _) ∧ (_ → _ → execWindowDrain t sid tag s = _) ∧ (_ → _ → execWindowDrain t sid tag s = _)
    have he : execWindowDrain t sid tag s =
        if writeOp c'.pkt.opcode then ((e.feed c' w.bytes).noteHeld sid tag).afterReply
        else if c'.pkt.valueLen ≤ w.off + w.len then (e.putSlice c' (c'.windows.flatMap Window.bytes)).afterReply
        else done (e.noteHeld sid tag) := by
      simp only [execWindowDrain, ha, hw, hcomplete, Bool.not_true, Bool.false_eq_true, if_false]
      split
      next h => cases h.symm.trans hc'
      next h => cases h.symm.trans hc'; rfl
    rw [he]
    refine ⟨fun hwrite => if_pos hwrite, fun hwrite hlast => ?_, fun hwrite hmore => ?_⟩
    · rw [hwrite, if_pos hlast]; rfl
    · rw [hwrite, if_neg (Nat.not_le.2 hmore)]; rfl
  case idle =>
    intro hopen hdue
    change execDataIdleTimeout t sid tag s = _
    simp only [execDataIdleTimeout, ha]
    exact if_pos ⟨hopen, hdue⟩
  case grant =>
    intro lens l hl hne hlen htakes n b
    change (_ → execGrantWindow t sid tag lens s = _) ∧ (_ → execGrantWindow t sid tag lens s = _)
    simp only [execGrantWindow, ha, hl]
    refine ⟨fun hfull => if_pos (.inr (.inr (.inr hfull))), fun hfits => if_neg ?_⟩
    rintro (h | h | h | h)
    · exact hne (List.isEmpty_iff.1 h)
    · exact absurd hlen (Nat.not_le.2 h)
    · rw [htakes] at h; contradiction
    · exact absurd hfits (Nat.not_le.2 h)
  case reply =>
    intro r hr
    have hsend : exec (.readDataSend t sid tag) s = .next (State.sendReply (r.1.length + 2) a sid tag).goneOn := by
      change execReadDataSend t sid tag s = _
      simp only [execReadDataSend, ha, hr]
      rfl
    refine ⟨hsend, fun x hx hcredit hleft hsup => ?_⟩
    rw [hsend, State.sendReply_noCredit _ ha hx hr hleft hcredit hsup]

end Sys2Proof.Machine
end

section
/-! The later events of a command's life: FLUSH, ORDERED, turns and promises (02 R26 to R45, 05 R152). -/

namespace Sys2Proof.Machine

/-! A running write whose turn it is in its key order and whose key no repair holds (R26, R38, R226): what its commit turn does. -/

section CommitTurn

variable {s : State} {c : CmdCtx} {w : WriteCtx} {inst : Nat} (hw : c.write = some w) (hst : c.st = .running)
  (hturn : s.writesBefore c = []) (hinst : s.instOf c.pkt.ns c.pkt.gen = some inst) (hrep : s.repairRuns inst w.hash = false)

include hst hturn hrep in
/-- Nothing holds back a write at its turn. -/
theorem State.commitTurn_free : ¬(c.st ≠ .running ∨ (!(s.writesBefore c).isEmpty) = true ∨ s.repairRuns inst w.hash = true) := by
  simp [hst, hturn, hrep]

include hw hst hturn hinst hrep

/-- A failed condition ends the write with the metadata of what stands (R26). -/
theorem State.tryCommit_conditionFails {st : Nat}
    (hcond : commitCondition c.pkt.opcode c.pkt.expected ((s.lookup inst w.hash c.pkt.key).map (·.rec_)) = some st) :
    s.tryCommit c = (s.undoWrite c w).finish c st (metaBody ((s.lookup inst w.hash c.pkt.key).map (·.rec_))) := by
  simp only [State.tryCommit, hw, hinst, hcond]
  exact if_neg (State.commitTurn_free hst hturn hrep)

/-- A write whose fragments are not durable, or not all encoded, does not commit yet (R214). -/
theorem State.tryCommit_waits
    (hcond : commitCondition c.pkt.opcode c.pkt.expected ((s.lookup inst w.hash c.pkt.key).map (·.rec_)) = none)
    (hshort : w.segmentsDone < segmentsOf w.striped c.pkt.valueLen w.k ∨ (s.durableIndices c w).length < w.quorum) :
    s.tryCommit c = s := by
  simp only [State.tryCommit, hw, hinst, hcond, if_neg (State.commitTurn_free hst hturn hrep)]
  exact if_pos hshort

/-- With every segment encoded and `q` fragments durable the write commits (R38, R214). -/
theorem State.tryCommit_commits
    (hcond : commitCondition c.pkt.opcode c.pkt.expected ((s.lookup inst w.hash c.pkt.key).map (·.rec_)) = none)
    (hsegs : segmentsOf w.striped c.pkt.valueLen w.k ≤ w.segmentsDone) (hquorum : w.quorum ≤ (s.durableIndices c w).length) :
    s.tryCommit c = s.commitWrite c w inst ((s.lookup inst w.hash c.pkt.key).map (·.rec_)) := by
  simp only [State.tryCommit, hw, hinst, hcond, if_neg (State.commitTurn_free hst hturn hrep)]
  exact if_neg (not_or.2 ⟨Nat.not_lt.2 hsegs, Nat.not_lt.2 hquorum⟩)

end CommitTurn

/-- Settles O17. A write's commit turn is told by `State.tryCommit_conditionFails`, `State.tryCommit_waits` and
`State.tryCommit_commits`. That a command whose turn comes in an execution pause is held (15 R435) is log 74, and that an earlier
write which ends without committing is waited for is log 96. -/
theorem commandLives : Obligations.CommandLives := by
  refine ⟨fun s t sid tag c hc => ?_, fun s t sid tag e hnone hend => ?ending⟩
  case ending =>
    have ha : (s.advance t).cmd? sid tag = none := hnone
    change execPromiseBroken t sid tag s = _
    simp only [execPromiseBroken, ha]
    split
    next h => cases h.symm.trans hend; rfl
    next h => cases h.symm.trans hend
  have ha : (s.advance t).cmd? sid tag = some c := hc
  intro a
  refine ⟨?flush, ?ordered, ?read, fun w inst hw hst hturn hinst hrep => ?commit, ?broken, ?kept⟩
  case flush =>
    intro hop hst hready b
    change execFlushEnd t sid tag s = _
    simp only [execFlushEnd, ha]
    exact if_pos ⟨hop, hst, hready⟩
  case ordered =>
    intro hord hst hfirst
    have hstart : exec (.orderedStart t sid tag) s = .next (a.goOn { c with ordered := false, paused := s.paused }).goneOn := by
      change execOrderedStart t sid tag s = _
      simp only [execOrderedStart, ha]
      exact if_pos ⟨hord, hst, List.isEmpty_iff.2 hfirst⟩
    rw [hstart]
    exact ⟨fun hp => by rw [hp]; rfl, fun hp => by rw [hp]; rfl⟩
  case read =>
    intro hop hst hord hcp hp hturn
    change execReadTurn t sid tag s = _
    simp only [execReadTurn, ha]
    exact if_pos ⟨hop, hst, hord, hcp, hp, List.isEmpty_iff.2 hturn⟩
  case commit =>
    have htry : exec (.writeCommit t sid tag) s = .next (a.tryCommit c).goneOn := by
      change execWriteCommit t sid tag s = _
      simp only [execWriteCommit, ha]
      rfl
    rw [htry]
    refine ⟨fun st hcond => ?_, fun hcond hsegs hquorum => ?_, fun hcond hquorum => ?_⟩
    · rw [State.tryCommit_conditionFails (s := a) hw hst hturn hinst hrep hcond]
    · rw [State.tryCommit_commits (s := a) hw hst hturn hinst hrep hcond hsegs hquorum]
    · rw [State.tryCommit_waits (s := a) hw hst hturn hinst hrep hcond (.inr hquorum)]
  case broken =>
    intro hprom hadm hlate
    change execPromiseBroken t sid tag s = _
    simp only [execPromiseBroken, ha, hprom, hadm]
    exact if_pos (decide_eq_true hlate)
  case kept =>
    intro hprom hadm hintime
    change execPromiseBroken t sid tag s = _
    simp only [execPromiseBroken, ha, hprom, hadm]
    exact if_neg fun hlate => Nat.not_lt.2 hintime (of_decide_eq_true hlate)

end Sys2Proof.Machine
end

section
/-! Idle modes, drains and flushes (13 R371 to R375, 08 R252, R253). -/

namespace Sys2Proof.Machine

/-- What a state stores and the operating mode it is in. -/
structure Stores (mem : List Host.Cell) (media : Media) (mode : Mode) (u : State) : Prop where
  mem : u.mem = mem
  media : u.media = media
  mode : u.mode.mode = mode

/-- Memory, the media and the operating mode stand: what recording, signalling and a power-down that keeps DRAM leave alone. -/
abbrev SameStore (s u : State) : Prop := Stores s.mem s.media s.mode.mode u

theorem Stores.refl (s : State) : SameStore s s := ⟨rfl, rfl, rfl⟩

theorem Stores.after {mem : List Host.Cell} {media : Media} {mode : Mode} {u v : State} (h : SameStore u v) (hu : Stores mem media mode u) :
    Stores mem media mode v :=
  ⟨h.mem.trans hu.mem, h.media.trans hu.media, h.mode.trans hu.mode⟩

theorem Stores.ite {p : Prop} [Decidable p] {mem : List Host.Cell} {media : Media} {mode : Mode} {u v : State}
    (hu : Stores mem media mode u) (hv : Stores mem media mode v) : Stores mem media mode (if p then u else v) := by
  split <;> assumption

theorem State.bump_sameStore (s : State) (k : Nat) : SameStore s (s.bump k) := ⟨rfl, rfl, rfl⟩

theorem State.cpcIrq_sameStore (s : State) (bits : Word32) : SameStore s (s.cpcIrq bits) := ⟨rfl, rfl, rfl⟩

theorem State.fileRecord_sameStore (s : State) (r : EvRec) : SameStore s (s.fileRecord r) := by
  unfold State.fileRecord
  dsimp only
  split
  · exact .ite ⟨rfl, rfl, rfl⟩ ⟨rfl, rfl, rfl⟩
  split
  · exact .ite ⟨rfl, rfl, rfl⟩ ⟨rfl, rfl, rfl⟩
  · exact .ite ⟨rfl, rfl, rfl⟩ ⟨rfl, rfl, rfl⟩

theorem State.fileAll_sameStore (s : State) (code flags supp : Nat) (l : List Bytes) : SameStore s (s.fileAll code flags supp l) := by
  induction l generalizing s code flags supp with
  | nil => exact .refl s
  | cons d l ih => exact (ih ..).after ((State.bump_sameStore ..).after (s.fileRecord_sameStore _))

theorem State.eventSeq_sameStore (s : State) (code : Nat) (d : Bytes) (flags : Nat) : SameStore s (s.eventSeq code d flags).1 := by
  unfold State.eventSeq
  dsimp only
  split
  · exact (State.fileAll_sameStore ..).after ⟨rfl, rfl, rfl⟩
  · exact ⟨rfl, rfl, rfl⟩

theorem State.emcy_sameStore (s : State) (code ev seq d : Nat) : SameStore s (s.emcy code ev seq d) :=
  .ite ⟨rfl, rfl, rfl⟩ ⟨rfl, rfl, rfl⟩

theorem State.condOn_sameStore (s : State) (c : Nat) : SameStore s (s.condOn c) :=
  .ite (.refl s) ⟨rfl, rfl, rfl⟩

theorem State.condOff_sameStore (s : State) (c : Nat) : SameStore s (s.condOff c) :=
  .ite (.ite ((State.emcy_sameStore ..).after ⟨rfl, rfl, rfl⟩) ⟨rfl, rfl, rfl⟩) (.refl s)

theorem State.eventEmcy_sameStore (s : State) (code : Nat) (fields : List (Nat × Nat)) (em : Nat) (persistent : Bool) :
    SameStore s (s.eventEmcy code fields em persistent) := by
  have hrec := s.eventSeq_sameStore code (packDetail fields) 0
  exact (State.emcy_sameStore ..).after (.ite ((State.condOn_sameStore ..).after hrec) hrec)

theorem State.linkCond_sameStore (s : State) (ev seq d : Nat) : SameStore s (s.linkCond ev seq d) :=
  .ite (.ite (.refl s) ((State.emcy_sameStore ..).after (s.condOn_sameStore _))) (s.condOff_sameStore _)

theorem State.heartbeatNow_sameStore (s : State) : SameStore s s.heartbeatNow :=
  .ite (.refl s) ⟨rfl, rfl, rfl⟩

theorem State.loseDom_sameStore (s : State) {d : Dom} (hd : d ≠ .dram) : SameStore s (s.loseDom d) := by
  cases d with
  | dram => contradiction
  | _ => exact ⟨rfl, rfl, rfl⟩

/-- Only DRAM that goes off loses memory (01 R17). -/
theorem State.domTo_sameStore (s : State) {d : Dom} {x : DomState} (h : d ≠ .dram ∨ x ≠ .off) : SameStore s (s.domTo d x) := by
  unfold State.domTo
  split
  · exact .refl s
  dsimp only
  split
  next hx => exact (State.loseDom_sameStore _ (h.resolve_right (not_not_intro hx))).after ⟨rfl, rfl, rfl⟩
  next => exact ⟨rfl, rfl, rfl⟩

theorem State.powerDown_sameStore (s : State) {d : Dom} (hd : d ≠ .dram) : SameStore s (s.powerDown d) := by
  have hchanging := s.domTo_sameStore (x := .changing) (.inl hd)
  exact .ite (.refl s) (.ite (s.domTo_sameStore (.inl hd)) ⟨hchanging.mem, hchanging.media, hchanging.mode⟩)

theorem State.powerDowns_sameStore (s : State) {l : List Dom} (hl : ∀ d ∈ l, d ≠ .dram) : SameStore s (s.powerDowns l) := by
  induction l generalizing s with
  | nil => exact .refl s
  | cons d l ih =>
    exact (ih _ fun x hx => hl x (List.mem_cons_of_mem _ hx)).after (s.powerDown_sameStore (hl d List.mem_cons_self))

/-- A change of mode sets the mode and leaves memory and the media alone (R371). -/
theorem State.enterMode_stores (s : State) (m : Mode) (trig : Nat) : Stores s.mem s.media m (s.enterMode m trig) := by
  unfold State.enterMode
  refine (State.linkCond_sameStore ..).after ((Stores.ite (.refl _) (State.heartbeatNow_sameStore _)).after ?_)
  refine (State.cpcIrq_sameStore ..).after ((State.eventSeq_sameStore ..).after ((State.bump_sameStore ..).after ?_))
  dsimp only
  split <;> exact ⟨rfl, rfl, rfl⟩

/-- The PLLs of the media interface and of Welt lose their lock, and no gated domain is left to name. -/
def State.lull2Unlocks (s : State) : State :=
  let m := s.pll .mpll
  let f := s.pll .fpll
  let s := (s.setPll .mpll { m with locked := false }).setPll .fpll { f with locked := false }
  { s with clk := { s.clk with gatedDoms := [] } }

/-- What an entry to LULL-2 stops before the mode changes: the media are write protected, Welt and the media interface lose power,
DRAM retains, and the PLLs that served them stop (R372). -/
def State.lull2Stops (s : State) : State :=
  let s : State := { s with media := { s.media with wpN := false } }
  ((s.powerDowns [.welt, .media]).domTo .dram .retain).lull2Unlocks

theorem State.lull2Unlocks_sameStore (s : State) : SameStore s s.lull2Unlocks := ⟨rfl, rfl, rfl⟩

theorem State.lull2Stops_stores (s : State) : Stores s.mem { s.media with wpN := false } s.mode.mode s.lull2Stops := by
  have hkeep : ∀ d ∈ [Dom.welt, Dom.media], d ≠ .dram := by decide
  have hretain : DomState.retain ≠ .off := by decide
  unfold State.lull2Stops
  refine (State.lull2Unlocks_sameStore _).after ?_
  refine (State.domTo_sameStore _ (.inr hretain)).after ?_
  refine (State.powerDowns_sameStore _ hkeep).after ?_
  exact ⟨rfl, rfl, rfl⟩

/-- An idle drive in LULL-1 that nothing holds there enters LULL-2 after Lull2EnterMs (R372). -/
theorem exec_lull2Entry {s : State} {t : Nat} (hmode : s.mode.mode = .lull1) (hidle : (s.advance t).idle = true)
    (hheld : (s.clk.lullHold || s.dmaHolds .dram || s.dmaHolds .media || s.dmaHolds .welt) = false)
    (hdue : s.mode.lull1At + s.num K.lull2EnterMs * nsMs ≤ max s.now t) :
    exec (.lull2Entry t) s = .next (((s.advance t).modeNotice .lull2 0).lull2Stops.enterMode .lull2 trIdle) := by
  change execLull2Entry t s = _
  unfold execLull2Entry
  extract_lets +onlyGivenNames a held
  rw [if_pos ⟨hmode, hidle, hheld, hdue⟩]
  extract_lets +onlyGivenNames noticed oldMedia noWrites retained
  change _ = Host.Outcome.next (retained.lull2Unlocks.enterMode .lull2 trIdle)
  clear_value retained
  rfl

/-- The end of the flush of a thermal trip or a power fail is recorded, and main power may go; only after a power fail does power that
stays bring the drive back (R252, R377). -/
theorem exec_holdupFlushEnd {s r : State} {t : Nat} {why : FlushWhy} {back : Bool} (hphase : s.mode.phase = .flushing why)
    (hwhy : why = .trip ∧ back = false ∨ why = .pfail ∧ back = true)
    (hr : r = (s.advance t).writeOut.1.flushReport (s.advance t).writeOut.2 ((max s.now t - s.mode.flushAt) / 1000)) :
    exec (.holdupFlushEnd t) s
      = .next { r with mode := { r.mode with flushedSincePfail := true, phase := .awaitPower back, pwrReq := false } } := by
  change execHoldupFlushEnd t s = _
  unfold execHoldupFlushEnd
  extract_lets +onlyGivenNames a
  have ha : a.mode.phase = .flushing why := hphase
  simp -zeta only [ha]
  extract_lets +onlyGivenNames us reported
  have hreported : r = reported := hr
  clear_value reported
  subst hreported
  rcases hwhy with ⟨rfl, rfl⟩ | ⟨rfl, rfl⟩
  · rfl
  · rfl

/-- While no record waits in the write buffer, the loss of HOLDUP_OK places none again: it is recorded, and every running write
waits for the media (R253). -/
theorem exec_holdupOkDeassert_nothingWaits {s e : State} {t : Nat} (hhigh : s.mode.holdupOk = true) (hpow : s.mode.mode.powered = true)
    (hrecs : ∀ r ∈ s.media.recs, r.units = [])
    (he : e = ({ s.advance t with mode := { s.mode with holdupOk := false } } : State).eventEmcy 0x080A [(1, 0)] 0x3300 true) :
    exec (.holdupOkDeassert t) s = .next { e with kv := { e.kv with
      cmds := e.kv.cmds.map fun (c : CmdCtx) => { c with write := c.write.map fun w => { w with mediaFirst := true } } } } := by
  have hmedia : e.media = s.media := by rw [he]; exact (State.eventEmcy_sameStore ..).media
  change execHoldupOkDeassert t s = _
  unfold execHoldupOkDeassert
  extract_lets -merge +onlyGivenNames a
  rw [if_pos (show (a.mode.holdupOk && a.mode.mode.powered) = true by simp [a, hhigh, hpow])]
  extract_lets -merge +onlyGivenNames oldMode low issued waits placed
  have hlow : e = low := he
  clear_value low
  subst hlow
  have hwaits : e.media.recs.filter waits = [] := by
    rw [hmedia]
    exact List.filter_eq_nil_iff.2 fun r hr => by simp [waits, hrecs r hr]
  have hplaced : placed = e := by
    simp only [placed, hwaits]
    rfl
  clear_value placed
  subst hplaced
  rfl

/-- Settles O33. Each row's guard holds in its clause; LULL-2 and the loss of HOLDUP_OK also rest on what recording an event and
powering domains down leave alone (`SameStore`). -/
theorem lullAndFlush : Obligations.LullAndFlush := by
  intro s t a
  refine ⟨?lull1, ?lull2, ?exit, ?sweepEnd, ?drainEnd, ?drainTimeout, ?trip, ?pfail, ?assert_, ?deassert, ?mediaFirst⟩
  case lull1 =>
    intro hmode hidle hdue u
    exact congrArg Host.Outcome.next (if_pos ⟨hmode, hidle, hdue⟩)
  case lull2 =>
    intro hmode hidle hhold hdram hmedia hwelt hdue
    have hheld : (s.clk.lullHold || s.dmaHolds .dram || s.dmaHolds .media || s.dmaHolds .welt) = false := by
      simp only [Bool.or_eq_false_iff]
      exact ⟨⟨⟨hhold, hdram⟩, hmedia⟩, hwelt⟩
    have hstops := ((s.advance t).modeNotice .lull2 0).lull2Stops_stores
    have hentry := ((s.advance t).modeNotice .lull2 0).lull2Stops.enterMode_stores .lull2 trIdle
    refine ⟨_, exec_lull2Entry hmode hidle hheld hdue, hentry.mode, ?_, ?_⟩
    · rw [hentry.media, hstops.media]
    · rw [hentry.mem, hstops.mem]
  case exit =>
    intro trig hmode
    exact congrArg Host.Outcome.next (if_pos hmode)
  case sweepEnd =>
    intro hsweep halarm hnmt hfree hscan
    have hall : ((List.range a.dieSets).all fun ds => decide (a.num K.gcStartFree ≤ a.freeCount ds)) = true := by
      simpa using hfree
    have hends : (a.settled .sweep && a.mode.alarmWake && !a.mode.nmtSinceWake &&
        ((List.range a.dieSets).all fun ds => decide (a.num K.gcStartFree ≤ a.freeCount ds)) && !a.media.sbs.any a.scanIsDue) = true := by
      rw [show a.settled .sweep = true from hsweep, show a.mode.alarmWake = true from halarm, show a.mode.nmtSinceWake = false from hnmt,
        hall, hscan]
      rfl
    exact congrArg Host.Outcome.next (if_pos hends)
  case drainEnd =>
    intro hphase hcmds
    exact congrArg Host.Outcome.next (if_pos ⟨hphase, List.isEmpty_iff.2 hcmds⟩)
  case drainTimeout =>
    intro u hu hphase htarget hdue
    change execHaltDrainTimeout t s = _
    simp only [execHaltDrainTimeout, State.advance_mode, hu]
    exact congrArg Host.Outcome.next (if_pos ⟨hphase, htarget, hdue⟩)
  case trip =>
    intro hphase w r
    exact exec_holdupFlushEnd (r := r) hphase (.inl ⟨rfl, rfl⟩) rfl
  case pfail =>
    intro hphase w r
    exact exec_holdupFlushEnd (r := r) hphase (.inr ⟨rfl, rfl⟩) rfl
  case assert_ =>
    intro hlow hpow
    refine congrArg Host.Outcome.next (if_pos ?_)
    simp [hlow, hpow]
  case deassert =>
    intro hhigh hpow hrecs e
    exact exec_holdupOkDeassert_nothingWaits (e := e) hhigh hpow hrecs rfl
  case mediaFirst =>
    intro hhigh hpow
    refine ⟨_, congrArg Host.Outcome.next (if_pos ?_), fun c hc w hw => ?_⟩
    · simp [hhigh, hpow]
    · obtain ⟨c₀, -, rfl⟩ := List.mem_map.1 hc
      obtain ⟨w₀, -, rfl⟩ := Option.map_eq_some_iff.1 hw
      rfl

end Sys2Proof.Machine
end

section
/-! Receipt of protected packets (03 R55, R56, R62, R63, R83): what drops one, and what a taken one leaves of its session. -/

namespace Sys2Proof.Machine

/-- What sending and moving a session on chip leave of it: its SessionId, its state, the highest packet number received, and the
state of each path. -/
structure Session.SameStanding (x y : Session) : Prop where
  sid : y.sid = x.sid
  st : y.st = x.st
  rxHigh : y.rxHigh = x.rxHigh
  paths : (y.paths.map fun q => (q.idx, q.st)) = x.paths.map fun q => (q.idx, q.st)

theorem Session.SameStanding.refl (x : Session) : x.SameStanding x := ⟨rfl, rfl, rfl, rfl⟩

theorem Session.SameStanding.trans {x y z : Session} (h : x.SameStanding y) (k : y.SameStanding z) : x.SameStanding z :=
  ⟨k.sid.trans h.sid, k.st.trans h.st, k.rxHigh.trans h.rxHigh, k.paths.trans h.paths⟩

/-- A change of a path that keeps its index and its state keeps the standing. -/
theorem Session.SameStanding.onPath {x y : Session} (h : x.SameStanding y) (p : Nat) {f : NetPath → NetPath}
    (hf : ∀ q, (f q).idx = q.idx ∧ (f q).st = q.st) : x.SameStanding (y.onPath p f) := by
  refine h.trans ⟨rfl, rfl, rfl, ?_⟩
  rw [Session.onPath, List.map_map]
  refine List.map_congr_left fun q _ => ?_
  obtain ⟨hidx, hst⟩ := hf q
  by_cases h : q.idx = p <;> simp [h, hidx, hst]

/-- A path index that is put ACTIVE is. -/
theorem Session.onPath_active (x : Session) (p : Nat) :
    ∀ z ∈ (x.onPath p fun q => { q with st := .active }).paths, z.idx = p → z.st = .active := by
  intro z hz hidx
  obtain ⟨q, -, rfl⟩ := List.mem_map.1 hz
  split at hidx <;> simp_all

/-- A path index that is ACTIVE stays so with the session's standing. -/
theorem Session.SameStanding.active {x y : Session} (h : x.SameStanding y) {p : Nat}
    (hact : ∀ q ∈ x.paths, q.idx = p → q.st = .active) : ∀ z ∈ y.paths, z.idx = p → z.st = .active := by
  intro z hz hidx
  have hmem : (z.idx, z.st) ∈ x.paths.map fun q => (q.idx, q.st) := h.paths ▸ List.mem_map_of_mem hz
  obtain ⟨q, hq, heq⟩ := List.mem_map.1 hmem
  obtain ⟨hqidx, hqst⟩ := Prod.mk.inj heq
  rw [← hqst]
  exact hact q hq (hqidx.trans hidx)

/-- The session of a SessionId after one session, under the same SessionId, was changed. -/
theorem State.session?_onSession (s : State) {n : Nat} {f : Session → Session} (hf : ∀ x, x.sid = n → (f x).sid = n) (sid : Nat) :
    (s.onSession n f).session? sid = (s.session? sid).map fun x => if x.sid = n then f x else x := by
  have hsid : ((fun x : Session => x.sid == sid) ∘ fun x => if x.sid = n then f x else x) = fun x => x.sid == sid := by
    funext x
    by_cases h : x.sid = n <;> simp [h, hf]
  simp only [State.session?, State.onSession, List.find?_map, hsid]

theorem State.sid_of_session? {s : State} {sid : Nat} {x : Session} (h : s.session? sid = some x) : x.sid = sid := by
  simpa using List.find?_some h

/-- A session that is replaced is found in its new form. -/
theorem State.session?_setSession {s : State} {x y : Session} (h : s.session? x.sid = some y) :
    (s.setSession x).session? x.sid = some x := by
  have hfound := s.session?_onSession (f := fun _ => x) (fun _ _ => rfl) x.sid
  rw [h, Option.map_some, if_pos (State.sid_of_session? h)] at hfound
  exact hfound

theorem State.session?_setSession_sameStanding {s : State} {x x' y : Session} (hs : s.session? x.sid = some y) (hx : x.SameStanding x') :
    ∃ z, (s.setSession x').session? x.sid = some z ∧ x.SameStanding z :=
  ⟨x', by rw [← hx.sid] at hs ⊢; exact State.session?_setSession hs, hx⟩

theorem State.session?_congr {s u : State} (h : u.net.sessions = s.net.sessions) (sid : Nat) : u.session? sid = s.session? sid := by
  rw [State.session?, h, State.session?]

/-- The session of `sid` is found after an operation in its standing before it. -/
def State.KeepsStanding (sid : Nat) (s u : State) : Prop :=
  ∀ x, s.session? sid = some x → ∃ y, u.session? sid = some y ∧ x.SameStanding y

theorem State.KeepsStanding.of_sessions_eq {sid : Nat} {s u : State} (h : u.net.sessions = s.net.sessions) : State.KeepsStanding sid s u :=
  fun x hx => ⟨x, (State.session?_congr h sid).trans hx, .refl x⟩

theorem State.KeepsStanding.trans {sid : Nat} {s u v : State} (h : State.KeepsStanding sid s u) (k : State.KeepsStanding sid u v) :
    State.KeepsStanding sid s v := by
  intro x hx
  obtain ⟨y, hy, hxy⟩ := h x hx
  obtain ⟨z, hz, hyz⟩ := k y hy
  exact ⟨z, hz, hxy.trans hyz⟩

theorem State.onSession_keepsStanding (s : State) (sid n : Nat) {f : Session → Session} (hf : ∀ x : Session, x.SameStanding (f x)) :
    State.KeepsStanding sid s (s.onSession n f) := by
  intro x hx
  have hx' : x.SameStanding (if x.sid = n then f x else x) := by
    split
    · exact hf x
    · exact .refl x
  exact ⟨_, by rw [State.session?_onSession s (fun x h => (hf x).sid.trans h), hx]; rfl, hx'⟩

@[simp] theorem State.emitOn_session? (s : State) (p : PortId) (o : Out) (sid : Nat) : (s.emitOn p o).session? sid = s.session? sid := by
  refine State.session?_congr ?_ sid
  unfold State.emitOn
  split
  · rfl
  split <;> rfl

@[simp] theorem State.txFrame_session? (s : State) (p : PortId) (n sid : Nat) : (s.txFrame p n).session? sid = s.session? sid := by
  refine State.session?_congr ?_ sid
  unfold State.txFrame
  split <;> rfl

@[simp] theorem State.endSent_session? (s : State) (n : Nat) (b : PktBody) (sid : Nat) : (s.endSent n b).session? sid = s.session? sid := by
  refine State.session?_congr ?_ sid
  unfold State.endSent
  split
  · split <;> rfl
  · rfl

/-- A packet that leaves for a session changes nothing of its standing. -/
theorem State.txOn_session? {s : State} {x y : Session} (h : s.session? x.sid = some y) (q : NetPath) (pref : Nat) (retx : Bool)
    (b : PktBody) : ∃ z, (s.txOn x q pref retx b).session? x.sid = some z ∧ x.SameStanding z := by
  unfold State.txOn
  dsimp only
  split
  · simp only [State.endSent_session?, State.emitOn_session?]
    refine State.session?_setSession_sameStanding h (.onPath ?_ _ fun _ => ⟨rfl, rfl⟩)
    exact ⟨rfl, rfl, rfl, rfl⟩
  · simp only [State.endSent_session?, State.emitOn_session?]
    refine State.session?_setSession_sameStanding ((State.txFrame_session? ..).trans h) (.onPath ?_ _ fun _ => ⟨rfl, rfl⟩)
    exact ⟨rfl, rfl, rfl, rfl⟩

theorem State.sendNow_keepsStanding (s : State) (sid path : Nat) (b : PktBody) : State.KeepsStanding sid s (s.sendNow sid path b) := by
  intro x hx
  have hsid := State.sid_of_session? hx
  simp only [State.sendNow, hx]
  split
  next q _ =>
    split
    · exact hsid ▸ State.txOn_session? (hsid.symm ▸ hx) q q.idx false b
    · exact ⟨x, hx, .refl x⟩
  next => exact ⟨x, hx, .refl x⟩

/-- Only the session that comes on chip and one that makes room for it change, and neither in its standing. -/
theorem State.touch_keepsStanding (s : State) (sid : Nat) : State.KeepsStanding sid s (s.touch sid) := by
  have hon := s.onSession_keepsStanding sid sid (f := fun x => { x with onChip := true, lastActive := s.now }) fun _ => ⟨rfl, rfl, rfl, rfl⟩
  unfold State.touch
  dsimp only
  split
  · exact hon
  split
  · exact hon.trans (State.onSession_keepsStanding _ sid _ fun _ => ⟨rfl, rfl, rfl, rfl⟩)
  · exact hon

/-- Naming missing packet numbers in a NAK changes nothing of the standing (R66). -/
theorem State.nakGaps_keepsStanding (s : State) (sid p : Nat) : State.KeepsStanding sid s (s.nakGaps sid p) := by
  unfold State.nakGaps
  split
  · exact .of_sessions_eq rfl
  dsimp only
  split
  · exact .of_sessions_eq rfl
  · refine (State.onSession_keepsStanding _ sid sid fun _ => ?_).trans ((State.sendNow_keepsStanding _ sid p _).trans (.of_sessions_eq rfl))
    exact ⟨rfl, rfl, rfl, rfl⟩

/-- A CLOSING session still hears ACK and CLOSE, and any other session every type (R56). -/
theorem Session.hears_kind {x : Session} {kind : Nat} (h : x.st ≠ .closing ∨ kind = 0) : (x.st == .closing && kind != 0) = false := by
  rcases h with h | h <;> simp [h]

/-- A packet number above the window's foot that has not arrived is no replay (R63). -/
theorem Session.pn_fresh {x : Session} {pn : Nat} (hhigh : x.rxHigh < pn + 4096) (hnew : ∀ y ∈ x.rxSeen, y.1 ≠ pn) :
    (decide (pn + 4096 ≤ x.rxHigh) || x.rxSeen.any fun y => y.1 == pn) = false := by
  simpa [hhigh] using fun a b hab => hnew (a, b) hab

/-- A packet of RWP v2 that nothing drops counts in its session as received, and the first one opens it: what its session is then,
before an acknowledgement or a NAK goes (R61, R63, R83). -/
theorem State.receive_taken {s : State} {rx : Rx} {kind : Nat} {x : Session} {q : NetPath} (elicits : Bool)
    (hport : s.otherPort rx.dst = false) (hhead : rx.badHeader = false) (hx : s.session? rx.sid = some x)
    (htag : rx.tagOk = true) (hst : x.st ≠ .closing ∨ kind = 0) (hhigh : x.rxHigh < rx.pn + 4096) (hnew : ∀ y ∈ x.rxSeen, y.1 ≠ rx.pn)
    (hq : x.path? rx.path = some q) (hqport : q.port = rx.port) (hqaddr : q.addr = rx.addr) :
    ∃ (u : State) (x' : Session), s.receive rx kind elicits = ((u.touch rx.sid).nakGaps rx.sid rx.path, .taken) ∧ u.session? rx.sid = some x' ∧
      x'.rxHigh = max x.rxHigh rx.pn ∧ x'.st = (if x.st == .halfOpen then .open_ else x.st) ∧
      (x.st = .halfOpen → ∀ z ∈ x'.paths, z.idx = 0 → z.st = .active) := by
  have hclosing := Session.hears_kind hst
  have hreplay : (!x.v1 && (decide (rx.pn + 4096 ≤ x.rxHigh) || x.rxSeen.any fun y => y.1 == rx.pn)) = false := by
    rw [Session.pn_fresh hhigh hnew, Bool.and_false]
  unfold State.receive
  simp -zeta only [hport, hhead, hx, hclosing, hreplay, htag, hq, Bool.false_eq_true, if_false]
  extract_lets -merge counted known mismatch high opens arrived opened heard stored oldMode stirred counts answered
  have hmatch : (!x.v1 && mismatch) = false := by simp [mismatch, known, hqport, hqaddr]
  rw [hmatch]
  have hopened : opened.sid = x.sid ∧ opened.rxHigh = high ∧ opened.st = arrived.st := by
    simp only [opened]
    split <;> exact ⟨rfl, rfl, rfl⟩
  obtain ⟨hsid, hhigh', hst'⟩ := hopened
  refine ⟨counts, heard, rfl, ?found, hhigh', hst', fun hhalf => ?active⟩
  case found =>
    have hheard : heard.sid = rx.sid := hsid.trans (State.sid_of_session? hx)
    have hcounted : counted.session? heard.sid = some x := by
      rw [hheard, ← hx]
      simp only [counted]
      split <;> rfl
    rw [← hheard, ← State.session?_setSession hcounted]
    simp only [counts, stirred]
    split <;> split <;> rfl
  case active =>
    have hopens : opens = true := by simp [opens, hhalf]
    have hpath : opened.SameStanding heard := (Session.SameStanding.refl opened).onPath _ fun _ => ⟨rfl, rfl⟩
    refine hpath.active ?_
    simp only [opened, hopens]
    exact Session.onPath_active _ _

/-- Settles O10. A packet meets the checks of R55, R56, R62, R63 and R83 in the order of `State.receive`, and each clause on a drop is
one of them; what a taken packet makes of its session is `State.receive_taken`, and the move on chip and the NAK that follow keep it
(`State.KeepsStanding`). That a packet other than a PROBE counts in RxPathMismatch on a path index that its session lacks is the
model's choice (log 51). -/
theorem packetReceipt : Obligations.PacketReceipt := by
  intro s rx kind elicits r f
  refine ⟨fun hport => ?port, fun hport hhead => ?header, fun hport hhead hx => ?unknown, fun x hport hhead hx hv => ?session⟩
  case port => simp [r, State.receive, hport]
  case header => simp [r, f, State.receive, hport, hhead]
  case unknown => simp [r, f, State.receive, hport, hhead, hx]
  intro q
  refine ⟨fun htag => ?auth, fun htag hst hkind => ?closing, fun htag hst => ⟨fun hold => ?replay, fun hhigh hnew =>
    ⟨fun p hp hpair => ?otherPair, fun hnone hkind => ?newPath, fun p hp hpport hpaddr => ?taken⟩⟩⟩
  case auth => simp [r, f, State.receive, hport, hhead, hx, hv, htag]
  case closing => simp [r, f, State.receive, hport, hhead, hx, hv, htag, hst, hkind]
  case replay =>
    have hreplay : (decide (rx.pn + 4096 ≤ x.rxHigh) || x.rxSeen.any fun y => y.1 == rx.pn) = true := by
      simpa using hold
    simp [r, f, State.receive, hport, hhead, hx, hv, htag, Session.hears_kind hst, hreplay]
  case otherPair =>
    have hpath : x.path? rx.path = some p := hp
    have hmismatch : ¬p.port = rx.port ∨ ¬p.addr = rx.addr := Decidable.not_and_iff_not_or_not.1 hpair
    simp [r, f, State.receive, hport, hhead, hx, hv, htag, Session.hears_kind hst, Session.pn_fresh hhigh hnew, hpath, hmismatch]
  case newPath =>
    have hpath : x.path? rx.path = none := hnone
    have hmismatch : (kind != 1 || !decide (rx.path < 4)) = true := by simpa using hkind
    simp [r, f, State.receive, hport, hhead, hx, hv, htag, Session.hears_kind hst, Session.pn_fresh hhigh hnew, hpath, hmismatch]
  case taken =>
    obtain ⟨u, x', hr, hx', hhigh', hst', hact⟩ :=
      State.receive_taken (s := s) elicits hport hhead hx htag hst hhigh hnew hp hpport hpaddr
    have hkeep := (u.touch_keepsStanding rx.sid).trans (State.nakGaps_keepsStanding _ rx.sid rx.path)
    obtain ⟨y, hy, hxy⟩ := hkeep x' hx'
    have hfound : r.1.session? rx.sid = some y := (congrArg (fun a : State × Taken => a.1.session? rx.sid) hr).trans hy
    refine ⟨congrArg Prod.snd hr, y, hfound, hxy.rxHigh.trans hhigh', fun hhalf => ⟨?_, fun z hz => ?_⟩, fun hhalf => ?_⟩
    · rw [hxy.st, hst', hhalf]; rfl
    · exact hxy.active (hact hhalf) z (List.mem_of_find?_eq_some hz) (by simpa using List.find?_some hz)
    · rw [hxy.st, hst', if_neg (by simpa using hhalf)]

end Sys2Proof.Machine
end

section
/-! Packets that the block has taken: ACK, NAK, CLOSE and KEEPALIVE, GRANT and DATA from a member, and CMDs by their CmdSeq (03 R64 to
R86, 04 R98). -/

namespace Sys2Proof.Machine

/-- A CMD that is taken on a host's session goes on by its CmdSeq; then what it let go on does (R70, 13 R373). -/
theorem State.cmdArrive_taken {a b : State} {rx : Rx} {p : CmdPkt} {x : Session} (plan : Plan) (hrx : a.rxPacket rx 2 true = (b, .taken))
    (hx : b.session? rx.sid = some x) (hlen : 60 ≤ p.norm.pktLen) (hhost : x.asHost = none) :
    a.cmdArrive rx p plan = ((((b.seqCmd x rx p.norm plan).settle).wakeLull).ackIfDue rx).checkPns := by
  have hok : ¬(p.norm.pktLen < 60 ∨ x.asHost.isSome = true) := by simp [hlen, hhost]
  simp only [State.cmdArrive, hrx, hx, if_neg hok]

/-- A CMD ahead of its turn, within what may be outstanding and not held yet, is held (R70). -/
theorem State.seqCmd_ahead {s : State} {x : Session} {p : CmdPkt} (rx : Rx) (plan : Plan)
    (hne : (p.seq + 2 ^ 32 - x.nextSeq) % 2 ^ 32 ≠ 0) (hahead : (p.seq + 2 ^ 32 - x.nextSeq) % 2 ^ 32 < 2 ^ 31)
    (hout : (p.seq + 2 ^ 32 - x.nextSeq) % 2 ^ 32 < x.maxOut) (hheld : (x.held.any fun h => h.pkt.seq == p.seq) = false) :
    s.seqCmd x rx p plan = s.setSession { x with held := x.held ++ [{ rx := rx, pkt := p, plan := plan }] } := by
  unfold State.seqCmd
  dsimp only
  rw [if_neg (Nat.not_le.2 hahead), if_neg (Nat.not_le.2 hout), if_neg hne, hheld]
  rfl

/-- A CMD in its turn is taken, and the held CMDs whose turn has come follow it (R70). -/
theorem State.seqCmd_inTurn {s : State} {x : Session} {p : CmdPkt} (rx : Rx) (plan : Plan) (hseq : p.seq = x.nextSeq) (hout : 0 < x.maxOut) :
    s.seqCmd x rx p plan = State.drainHeld (x.held.length + 1) (s.takeCmd rx p plan) rx.sid := by
  have hturn : (p.seq + 2 ^ 32 - x.nextSeq) % 2 ^ 32 = 0 := by rw [hseq, Nat.add_sub_cancel_left, Nat.mod_self]
  unfold State.seqCmd
  dsimp only
  rw [hturn, if_neg (by decide), if_neg (Nat.not_le.2 hout), if_pos rfl]

/-- The commands of a session that are not released, after those that a tag's SESSION_RESET suppressed are, are no more than before. -/
theorem unreleased_le (l : List TagRec) (tag : Nat) :
    (((l.filter (·.tag != tag)).map fun (g : TagRec) =>
      if g.byReset = some tag then { g with released := true, byReset := none } else g).filter fun g => !g.released).length
      ≤ (l.filter fun g => !g.released).length := by
  simp only [← List.countP_eq_length_filter, List.countP_map, List.countP_filter]
  refine List.countP_mono_left fun g _ hg => ?_
  by_cases h : g.byReset = some tag <;> simp_all

/-- A CMD under a tag of which the session has no record, with room for one more, is taken and checked: what fails a check is answered,
and what passes joins the commands in flight (R71, R74, 04 R98). -/
theorem State.takeCmd_newTag {s : State} {rx : Rx} {x : Session} {p : CmdPkt} (plan : Plan) (hx : s.session? rx.sid = some x)
    (htag : ∀ g ∈ x.tags, g.tag ≠ p.tag) (hinc : p.inc = 0) (hroom : (x.tags.filter fun g => !g.released).length < x.maxOut) :
    let h := (s.seqTaken x rx p).parseKey p plan.awl
    (∀ d r, h.1.checks x rx p plan.awl h.2 = (d, some r) → s.takeCmd rx p plan = d.reject rx.sid rx.path p r) ∧
      (∀ d, h.1.checks x rx p plan.awl h.2 = (d, none) → s.takeCmd rx p plan = (d.joined rx p plan h.2).1.decideCmd rx.sid p.tag) := by
  intro h
  have hprev : (x.tags.find? (·.tag == p.tag)) = none := List.find?_eq_none.2 fun g hg => by simpa using htag g hg
  have hout := Nat.not_le.2 (Nat.lt_of_le_of_lt (unreleased_le x.tags p.tag) hroom)
  have htake : s.takeCmd rx p plan = match h.1.checks x rx p plan.awl h.2 with
      | (u, some r) => u.reject rx.sid rx.path p r
      | (u, none) => u.admission rx p plan h.2 := by
    unfold State.takeCmd
    simp only [hx, hprev, Bool.false_eq_true, if_false, if_neg (not_not_intro hinc : ¬p.inc ≠ 0), if_neg hout]
    rfl
  rw [htake]
  exact ⟨fun d r hr => by rw [hr], fun d hd => by rw [hd]; rfl⟩

/-- Settles O15. Every CMD row is one arrival by CmdSeq; in its turn it is taken (`State.seqCmd_inTurn`) and checked
(`State.takeCmd_newTag`). -/
theorem commandArrivals : Obligations.CommandArrivals := by
  intro s t rx pkt plan b x a k hrx hx hhost i p hip q hlen hseq htag hinc hroom h
  -- each row's own definition is the arrival of its packet
  have harrives : exec i s = .next (a.cmdArrive rx p plan) := by
    refine (?_ : ∀ y : Instr × CmdPkt, y ∈ _ → exec y.1 s = .next (a.cmdArrive rx y.2 plan)) (i, p) hip
    simp only [List.forall_mem_cons, List.not_mem_nil, false_implies, implies_true, and_true]
    repeat' apply And.intro
    all_goals rfl
  rw [harrives, State.cmdArrive_taken plan hrx hx hlen hhost, State.seqCmd_inTurn rx plan hseq (Nat.zero_lt_of_lt hroom)]
  obtain ⟨hrefused, hpassed⟩ := State.takeCmd_newTag plan hx htag hinc hroom
  exact ⟨fun d r hr => by rw [hrefused d r hr]; rfl, fun d hd => by rw [hpassed d hd]; rfl⟩

/-- Settles O13: each row's branch once its packet is taken; a CMD ahead of its turn is `State.seqCmd_ahead`. The model's own choices in
it are that a malformed ACK counts as received and the newest RecvCredit is that of the last ACK (log 19), that an ACK on RWP v1
acknowledges all DATA before it (log 103), that a host-role session opens no new path (log 51), and the free Stamp of a PROBE (log 3). -/
theorem packetsTaken : Obligations.PacketsTaken := by
  unfold Obligations.PacketsTaken
  dsimp only
  intro s t rx b x hx
  refine ⟨fun p hrx => ⟨fun hsp => ?malformed, fun l hl => ⟨fun hst hclose => ?closed, fun hst =>
      ⟨fun hhost => ?ackOfHost, fun m hhost => ?ackOfMember⟩⟩⟩,
    fun n hrx hv => ⟨fun hgap hgaps => ?gap, fun hother htags => ?tags⟩,
    fun reason detail hrx => ⟨fun hst => ?closeAgain, fun hst hreason y hy => ?close⟩,
    fun stamp hrx => ⟨fun hknown => ?probe, fun hnone hv hhost hlists => ?newPath⟩,
    fun stamp q hrx hq => ⟨fun hst => ?echo, fun hst => ?pathUp⟩,
    fun hrx => ⟨fun tag inc ws m hws hm hinc hop => ?grant, fun tag inc off d last m hm hinc => ?data,
      fun p plan hlen hhost hne hahead hout hheld => ?hold⟩⟩
  case malformed =>
    change execAck t rx p s = _
    simp only [execAck, hrx, hx, hsp]
  case closed =>
    change execAck t rx p s = _
    simp only [execAck, hrx, hx, hl, hst, hclose, if_true]
  case ackOfHost =>
    change execAck t rx p s = _
    simp only [execAck, hrx, hx, hl, if_neg hst, hhost]
    rfl
  case ackOfMember =>
    change execAck t rx p s = _
    simp only [execAck, hrx, hx, hl, if_neg hst, hhost]
    rfl
  case gap =>
    change execNak t rx n s = _
    simp only [execNak, hrx, hx, hv, if_pos hgap, if_neg (mt List.isEmpty_iff.1 hgaps)]
    rfl
  case tags =>
    change execNak t rx n s = _
    simp only [execNak, hrx, hx, if_neg hother, if_neg (mt List.isEmpty_iff.1 htags)]
  case closeAgain =>
    change execClose t rx reason detail s = _
    simp only [execClose, hrx, hx, if_pos hst]
  case close =>
    have hlace : ¬(reason = 6 ∧ x.asHost = some b.fw.lace.successor ∧ b.fw.lace.activateSent = true) := fun h => hreason h.1
    change execClose t rx reason detail s = _
    simp only [execClose, hrx, hx, if_neg hst, if_neg hlace, hy]
    rfl
  case probe =>
    change execKeepaliveProbe t rx stamp s = _
    simp only [execKeepaliveProbe, hrx, hx, if_pos hknown]
  case newPath =>
    have hfree : ¬((x.path? rx.path).isSome = true ∨ x.v1 = true) := by simp [hnone, hv]
    have hopens : ¬(x.asHost.isSome = true ∨ x.listsPort rx.port = false) := by simp [hhost, hlists]
    change execKeepaliveProbe t rx stamp s = _
    simp only [execKeepaliveProbe, hrx, hx, if_neg hfree, if_neg hopens]
  case echo =>
    change execKeepaliveEcho t rx stamp s = _
    simp only [execKeepaliveEcho, hrx, hx, Option.bind_some, hq, if_pos hst]
  case pathUp =>
    change execKeepaliveEcho t rx stamp s = _
    simp only [execKeepaliveEcho, hrx, hx, Option.bind_some, hq, if_neg hst]
    rfl
  case grant =>
    change execPeerGrant t rx tag inc ws s = _
    simp only [execPeerGrant, hrx, hm, if_neg (not_not_intro hinc), if_neg (not_not_intro hop), if_neg (mt List.isEmpty_iff.1 hws)]
  case data =>
    change execPeerData t rx tag inc off d last s = _
    simp only [execPeerData, hrx, hm, if_neg (not_not_intro hinc)]
  case hold =>
    change Host.Outcome.next ((s.advance t).cmdArrive rx p plan) = _
    rw [State.cmdArrive_taken plan hrx hx hlen hhost, State.seqCmd_ahead rx plan hne hahead hout hheld]

end Sys2Proof.Machine
end

section
/-! Opening sessions: HELLO, the TLS handshake and a member's ACCEPT (03 R58 to R60, R88, R92, R93). -/

namespace Sys2Proof.Machine

/-- A HELLO of version 2 in its fixed form, for a packet size that R59 allows, is not malformed (R56, R59). -/
theorem helloForm {b : Bytes} (hhead : badHeader b 1 232 = false) (hsize : 1232 ≤ beAt b 146 2) :
    (badHeader b 1 232 || decide (beAt b 146 2 < 1232)) = false := by
  simp [hhead, hsize]

/-- Settles O11: each clause is one branch of its row. When the next HELLO to a member may go after a refusal rests on the model's
choice of at most one HELLO each second (log 24), and RetryAfterMs of NOT_SERVING is a free value (log 3). -/
theorem sessionsOpen : Obligations.SessionsOpen := by
  unfold Obligations.SessionsOpen
  dsimp only
  intro s t
  refine ⟨fun h => ⟨fun hport => ?filtered, fun hport hbad => ?malformed, fun hport hhead hlen => ⟨fun hnone => ?unknown, fun k hk =>
      ⟨fun hmac => ?forged, fun hmac => ⟨fun hserve => ?serves, fun hserve => ?refuses⟩⟩⟩⟩,
    fun s h k hk mpb hnew hfew => ⟨fun b hroom => ?room, fun hfull => ?full⟩,
    fun h k b hserve hon hk hacc hport hroom => ?tls,
    fun p => ⟨fun hbad => ?acceptMalformed, fun h g me k hhead hh hg hme hk => ⟨fun hok => ?accepted, fun hno hmac => ?refused⟩⟩⟩
  case filtered =>
    change execHello t h s = _
    simp only [execHello, if_pos hport]
  case malformed =>
    have hbad' : (badHeader h.bytes 1 232 || decide (beAt h.bytes 146 2 < 1232)) = true := by simpa using hbad
    change execHello t h s = _
    simp only [execHello, hport, hbad', Bool.false_eq_true, if_false, if_true]
  case unknown =>
    change execHello t h s = _
    simp only [execHello, hport, helloForm hhead hlen, hnone, Bool.false_eq_true, if_false]
  case forged =>
    change execHello t h s = _
    simp only [execHello, hport, helloForm hhead hlen, hk, bne_iff_ne.2 hmac, Bool.false_eq_true, if_false, if_true]
  case serves =>
    change execHello t h s = _
    simp only [execHello, hport, helloForm hhead hlen, hk, hmac, hserve, bne_self_eq_false, Bool.false_eq_true, if_false, if_true]
  case refuses =>
    change execHello t h s = _
    simp only [execHello, hport, helloForm hhead hlen, hk, hmac, hserve, bne_self_eq_false, Bool.false_eq_true, if_false]
  case room => simp only [State.newHello, hnew, if_neg (Nat.not_le.2 hfew), hroom]
  case full => simp only [State.newHello, hnew, if_neg (Nat.not_le.2 hfew), hfull]
  case tls =>
    have hgo : ((s.advance t).otherPort h.dst || !(s.advance t).serving || !(s.advance t).flag K.rwpV1Enable) = false := by
      rw [hport, show (s.advance t).serving = true from hserve, show (s.advance t).flag K.rwpV1Enable = true from hon]
      rfl
    have hk' : (s.advance t).psk? h.identity = some k := hk
    have hrow : exec (.tlsHandshake t h) s = execTlsHandshake t h s := rfl
    simp only [hrow, execTlsHandshake, hgo, hk', hacc, hroom, Bool.false_eq_true, Bool.not_true, if_false]
    exact ⟨_, _, _, _, rfl, rfl, rfl, rfl, rfl, rfl, rfl, rfl, rfl, rfl⟩
  case acceptMalformed =>
    change execPeerSessionAccept t p s = _
    simp only [execPeerSessionAccept, if_pos hbad]
  case accepted =>
    change execPeerSessionAccept t p s = _
    simp only [execPeerSessionAccept, hhead, hh, hg, hme, hk, Option.bind_some, if_pos hok, Bool.false_eq_true, if_false]
    rfl
  case refused =>
    change execPeerSessionAccept t p s = _
    simp only [execPeerSessionAccept, hhead, hh, hg, hme, hk, Option.bind_some, if_neg hno, hmac, bne_self_eq_false,
      Bool.false_eq_true, if_false]

end Sys2Proof.Machine
end

section
/-! Links: training, the link-up hold and a link that goes down (11 R319, R333, R335). -/

namespace Sys2Proof.Machine

/-- Settles O45: each row's guard holds in its clause, on both sides of the hold's end; what a link that goes down does is
`State.linkDown`. -/
theorem linkCommands : Obligations.LinkCommands := by
  unfold Obligations.LinkCommands
  dsimp only
  intro s t p
  refine ⟨fun mode lane htrain => ?timeout, fun mode fec htrain hok => ?trained, fun hhold hdue => ?up, fun hhold hearly => ?early,
    fun cause _ => rfl, fun cause hdown => ?down⟩
  case timeout => exact congrArg Host.Outcome.next (if_pos htrain)
  case trained => exact congrArg Host.Outcome.next (if_pos ⟨htrain, hok⟩)
  case up => exact if_pos ⟨hhold, hdue⟩
  case early => exact if_neg fun h => Nat.not_le.2 hearly h.2
  case down => exact if_pos hdown.symm

end Sys2Proof.Machine
end

section
/-! Dictionary writes that pass, and those on secrets, life cycle and OTP settings (12 R346; 03 R89, 10 R304, R310, 15 R442, R443). -/

namespace Sys2Proof.Machine

/-- Big-endian bytes spell the number that they were made from, as far as they hold it (00 R3). -/
theorem ofBE_beBytes (n v : Nat) : ofBE (beBytes n v) = v % 256 ^ n := by
  have hfold (a : Nat) : (beBytes n v).foldl (fun a b => a * 256 + b.toNat) a = a * 256 ^ n + v % 256 ^ n := by
    induction n generalizing a with
    | zero => simp [beBytes, Nat.mod_one]
    | succ n ih =>
      have hbyte : (BitVec.ofNat 8 (v >>> (8 * n))).toNat = v / 256 ^ n % 256 := by
        rw [BitVec.toNat_ofNat, Nat.shiftRight_eq_div_pow, Nat.pow_mul]
      rw [beBytes, List.foldl_cons, ih, hbyte, Nat.mod_pow_succ, Nat.pow_succ', Nat.add_mul, Nat.mul_assoc, Nat.mul_comm (v / 256 ^ n % 256),
        Nat.add_assoc, Nat.add_comm (v % 256 ^ n)]
  exact (hfold 0).trans (by rw [Nat.zero_mul, Nat.zero_add])

@[simp] theorem length_beBytes (n v : Nat) : (beBytes n v).length = n := by
  induction n with
  | zero => rfl
  | succ n ih => rw [beBytes, List.length_cons, ih]

/-- The entry of a key under its index and subindex. -/
theorem dictRow?_split (k : Nat) : dictRow? (k / 256 * 256 + k % 256) = dictRow? k := by
  rw [Nat.div_add_mod']

/-- An index with an entry has entries. -/
theorem dictRowsOf_isEmpty_of_row {k : Nat} {r : DictRow} (hr : dictRow? k = some r) : (dictRowsOf (k / 256)).isEmpty = false := by
  have hmem : r ∈ dictRowsOf (k / 256) := List.mem_of_find?_eq_some hr
  simpa using List.ne_nil_of_mem hmem

theorem State.writeGuard_of_passes {s : State} {c : Client} {k : Nat} {b : Bytes} {r : DictRow} (hr : dictRow? k = some r)
    (hpass : s.writePasses c k b = true) : s.writeGuard c r b = 0 := by
  simpa [State.writePasses, hr] using hpass

/-- A write of a string or DOMAIN that passes is applied. -/
theorem State.dictSet_str {s : State} {c : Client} {k : Nat} {b : Bytes} {r : DictRow} (hr : dictRow? k = some r)
    (hpass : s.writePasses c k b = true) (hsize : r.typ.size = none) :
    s.dictSet c (k / 256) (k % 256) b = ((s.writeStr r b).1, some r, (s.writeStr r b).2) := by
  have hguard := State.writeGuard_of_passes hr hpass
  simp [State.dictSet, dictRowsOf_isEmpty_of_row hr, dictRow?_split, hr, hguard, hsize]

/-- A write of a number that passes is applied. -/
theorem State.dictSet_num {s : State} {c : Client} {k n : Nat} {b : Bytes} {r : DictRow} (hr : dictRow? k = some r)
    (hpass : s.writePasses c k b = true) (hsize : r.typ.size = some n) :
    s.dictSet c (k / 256) (k % 256) b = ((s.writeNum c r (ofBE b)).1, some r, (s.writeNum c r (ofBE b)).2) := by
  have hguard := State.writeGuard_of_passes hr hpass
  simp [State.dictSet, dictRowsOf_isEmpty_of_row hr, dictRow?_split, hr, hguard, hsize]

/-- Outside an execution pause a write that is done at once leaves what it made of the state. -/
theorem State.dictApply_of_ok {s u : State} {c : Client} {k : Nat} {b : Bytes} {r : Option DictRow} (hrun : s.paused = false)
    (h : s.dictSet c (k / 256) (k % 256) b = (u, r, .ok)) : s.dictApply c k b = u := by
  simp [State.dictApply, hrun, State.dictWrite, h]

theorem dictRow?_pskEntryWrite : dictRow? K.pskEntryWrite = some ⟨K.pskEntryWrite, .dom, .wo, .sys, 0, none, none⟩ := rfl
theorem dictRow?_pskIdentityDelete : dictRow? K.pskIdentityDelete = some ⟨K.pskIdentityDelete, .str, .wo, .sys, 0, none, none⟩ := rfl
theorem dictRow?_lifeCycleRequest : dictRow? K.lifeCycleRequest = some ⟨K.lifeCycleRequest, .u32, .rwr, .vol, 0, none, none⟩ := rfl
theorem dictRow?_otpSettings : dictRow? K.otpSettings = some ⟨K.otpSettings, .oct, .rwr, .otp, 0, none, none⟩ := rfl
theorem dictRow?_tamperClear : dictRow? K.tamperClear = some ⟨K.tamperClear, .u8, .rwr, .vol, 0, none, none⟩ := rfl

/-- A PSK entry in its form goes to the table (03 Table 3.18). -/
theorem State.writeStr_pskEntry {s : State} {b : Bytes} (hok : s.strOk K.pskEntryWrite b = true) :
    s.writeStr ⟨K.pskEntryWrite, .dom, .wo, .sys, 0, none, none⟩ b = s.pskPut b := by
  have hbad : (!s.strOk K.pskEntryWrite b) = false := by rw [hok]; rfl
  exact (if_neg (Bool.eq_false_iff.1 hbad)).trans rfl

theorem State.writeStr_pskDelete {s : State} {b : Bytes} (hlen : b.length ≤ 64) :
    s.writeStr ⟨K.pskIdentityDelete, .str, .wo, .sys, 0, none, none⟩ b = (s.pskDelete b, .ok) := by
  have hok : s.strOk K.pskIdentityDelete b = true := decide_eq_true hlen
  have hbad : (!s.strOk K.pskIdentityDelete b) = false := by rw [hok]; rfl
  exact (if_neg (Bool.eq_false_iff.1 hbad)).trans rfl

/-- A PSK of a new identity joins a table that has room (10 R303). -/
theorem State.pskPut_new {s : State} {b : Bytes} (hnew : s.sec.psks.any (·.identity == sliceBytes b 1 (beAt b 0 1)) = false)
    (hroom : s.sec.psks.length < 1024) :
    s.pskPut b = (({ s with sec := { s.sec with psks := s.sec.psks ++
      [{ identity := sliceBytes b 1 (beAt b 0 1), psk := sliceBytes b (1 + beAt b 0 1) 32, policy := beAt b (33 + beAt b 0 1) 2 }] } } :
        State).tableCopy, .ok) := by
  simp [State.pskPut, hnew, hroom]

theorem State.writeNum_lifeRequest (s : State) (c : Client) (v : Nat) :
    s.writeNum c ⟨K.lifeCycleRequest, .u32, .rwr, .vol, 0, none, none⟩ v
      = ((s.lifeRequest v).1, if (s.lifeRequest v).2 = 0 then .ok else .abort (s.lifeRequest v).2) := rfl

theorem State.lifeRequest_accepted {s : State} {bit : Nat} (hbit : bit ≤ 3) (hsweep : s.settled .sweep = true)
    (hallowed : s.lifeAllowed bit = true) :
    s.lifeRequest (0x4C430001 + bit) = (({ s with fw := { s.fw with wipe := some bit } } : State).resetFlush trLife, 0) := by
  have hrange : 0x4C430001 ≤ 0x4C430001 + bit ∧ 0x4C430001 + bit ≤ 0x4C430004 := by omega
  simp only [State.lifeRequest, lifeBit, if_pos hrange, Nat.add_sub_cancel_left, hsweep, hallowed]
  rfl

/-- The signature of a life-cycle request fits the four bytes that carry it (15 Table 15.7). -/
theorem ofBE_lifeSignature {bit : Nat} (hbit : bit ≤ 3) : ofBE (beBytes 4 (0x4C430001 + bit)) = 0x4C430001 + bit := by
  rw [ofBE_beBytes, Nat.mod_eq_of_lt (by omega)]

/-- The command of a life-cycle row is the write of its signature (15 Table 15.7). -/
theorem State.lifeWrite_signature (s : State) (c : Client) {bit : Nat} (hbit : bit ≤ 3) :
    s.lifeWrite c bit (beBytes 4 (0x4C430001 + bit)) = s.dictApply c K.lifeCycleRequest (beBytes 4 (0x4C430001 + bit)) :=
  if_pos ⟨length_beBytes .., ofBE_lifeSignature hbit⟩

theorem State.writeNum_tamperClear (s : State) (c : Client) :
    s.writeNum c ⟨K.tamperClear, .u8, .rwr, .vol, 0, none, none⟩ 0xA5 = (s.clearTamper, .ok) := rfl

theorem State.otpWrite_programs {s : State} {b : Bytes} (ok : Bool) (hlen : b.length = 64) (hlife : s.life = 1 ∨ s.life = 2)
    (hroom : s.fw.otp.gens.length < 4) (hgen : s.genOk b = true) :
    (s.otpWrite b ok).1 = ({ s with fw := { s.fw with otp := { s.fw.otp with gens := s.fw.otp.gens ++ [if ok then some b else none] } } } :
      State).event 0x0A0B [(1, s.fw.otp.gens.length)] := by
  have hlife' : ¬(s.life ≠ 1 ∧ s.life ≠ 2) := by omega
  simp only [State.otpWrite, if_neg (not_not_intro hlen), if_neg hlife', if_neg (Nat.not_le.2 hroom), hgen]
  rfl

/-- Settles O42. A write that passes is applied (`State.dictSet_str`, `State.dictSet_num`, `State.dictApply_of_ok`), and what it does to
its entry is one lemma each. The generation in event 0x0A0B counts from 0 by the model's choice (log 73). -/
theorem secretAndLifeWrites : Obligations.SecretAndLifeWrites := by
  unfold Obligations.SecretAndLifeWrites
  dsimp only
  intro s t c hrun
  have hrun' : (s.advance t).paused = false := hrun
  refine ⟨fun b hpass hok hnew hroom => ?psk, fun b hpass hlen => ?delete, fun bit i hi hpass hsweep hallowed => ?life,
    fun b ok hpass hlen hlife hroom hgen => ?otp, fun hpass hhalt htamper => ?tamper⟩
  case psk =>
    have hset := State.dictSet_str dictRow?_pskEntryWrite hpass rfl
    rw [State.writeStr_pskEntry hok, State.pskPut_new (s := s.advance t) hnew hroom] at hset
    exact congrArg Host.Outcome.next (State.dictApply_of_ok hrun' hset)
  case delete =>
    have hset := State.dictSet_str dictRow?_pskIdentityDelete hpass rfl
    rw [State.writeStr_pskDelete hlen] at hset
    exact congrArg Host.Outcome.next (State.dictApply_of_ok hrun' hset)
  case life =>
    have hrow : bit ≤ 3 ∧ exec i s = .next ((s.advance t).lifeWrite c bit (beBytes 4 (0x4C430001 + bit))) := by
      refine (?_ : ∀ y : Nat × Instr, y ∈ _ →
        y.1 ≤ 3 ∧ exec y.2 s = .next ((s.advance t).lifeWrite c y.1 (beBytes 4 (0x4C430001 + y.1)))) (bit, i) hi
      simp only [List.forall_mem_cons, List.not_mem_nil, false_implies, implies_true, and_true]
      exact ⟨⟨by decide, rfl⟩, ⟨by decide, rfl⟩, ⟨by decide, rfl⟩, ⟨by decide, rfl⟩⟩
    obtain ⟨hbit, hexec⟩ := hrow
    have hset := State.dictSet_num dictRow?_lifeCycleRequest hpass rfl
    rw [ofBE_lifeSignature hbit, State.writeNum_lifeRequest, State.lifeRequest_accepted (s := s.advance t) hbit hsweep hallowed] at hset
    rw [hexec, State.lifeWrite_signature _ _ hbit, State.dictApply_of_ok hrun' hset]
    rfl
  case otp =>
    have hguard := State.writeGuard_of_passes dictRow?_otpSettings hpass
    have happly : (s.advance t).otpApply c b ok = ((s.advance t).otpWrite b ok).1 := by
      simp only [State.otpApply, dictRow?_otpSettings, if_pos hguard]
    change execOtpSettingsWrite t c b ok s = _
    simp only [execOtpSettingsWrite, hrun', happly, State.otpWrite_programs (s := s.advance t) ok hlen hlife hroom hgen]
    rfl
  case tamper =>
    have hset := State.dictSet_num dictRow?_tamperClear hpass rfl
    rw [show ofBE [0xA5] = 0xA5 from rfl, State.writeNum_tamperClear] at hset
    refine congrArg Host.Outcome.next ((State.dictApply_of_ok hrun' hset).trans ?_)
    exact if_pos ⟨hhalt, htamper⟩

end Sys2Proof.Machine
end

section
/-! What every command does from every state: it completes, and from its own time on it only goes onward. -/

namespace Sys2Proof.Machine

/-- Every command of the table answers a next state that lies onward of the state at the command's own time: the arms of
`exec`, each by the law of its meaning. -/
theorem exec_onward (i : Instr) (s : State) : Goes (s.advance i.time) (exec i s) := by
  cases i with
  | hello t h => exact execHello_onward t h s
  | halfOpenTimeout t sid => exact execHalfOpenTimeout_onward t sid s
  | sessionLossTimeout t sid => exact execSessionLossTimeout_onward t sid s
  | idleTimeout t sid => exact execIdleTimeout_onward t sid s
  | closingTimeout t sid => exact execClosingTimeout_onward t sid s
  | close t rx reason detail => exact execClose_onward t rx reason detail s
  | ack t rx a => exact execAck_onward t rx a s
  | ackDelayExpiry t sid => exact execAckDelayExpiry_onward t sid s
  | nak t rx n => exact execNak_onward t rx n s
  | ptoExpiry t sid path => exact execPtoExpiry_onward t sid path s
  | congestionUpdate t sid path => exact execCongestionUpdate_onward t sid path s
  | cmdSeqHold t rx pkt plan => exact execCmdSeqHold_onward t rx pkt plan s
  | data t rx tag inc off payload => exact execData_onward t rx tag inc off payload s
  | windowDrain t sid tag => exact execWindowDrain_onward t sid tag s
  | dataIdleTimeout t sid tag => exact execDataIdleTimeout_onward t sid tag s
  | grantWindow t sid tag lens => exact execGrantWindow_onward t sid tag lens s
  | readDataSend t sid tag => exact execReadDataSend_onward t sid tag s
  | keepaliveProbe t rx stamp => exact execKeepaliveProbe_onward t rx stamp s
  | keepaliveEcho t rx stamp => exact execKeepaliveEcho_onward t rx stamp s
  | keepaliveInterval t sid path => exact execKeepaliveInterval_onward t sid path s
  | pathDeadTimeout t sid path => exact execPathDeadTimeout_onward t sid path s
  | tlsHandshake t h => exact execTlsHandshake_onward t h s
  | v1ConnectionClose t sid => exact execV1ConnectionClose_onward t sid s
  | get t rx pkt plan => exact execGet_onward t rx pkt plan s
  | getRange t rx pkt plan => exact execGetRange_onward t rx pkt plan s
  | stat t rx pkt plan => exact execStat_onward t rx pkt plan s
  | list t rx pkt plan => exact execList_onward t rx pkt plan s
  | put t rx pkt plan => exact execPut_onward t rx pkt plan s
  | putIf t rx pkt plan => exact execPutIf_onward t rx pkt plan s
  | delete t rx pkt plan => exact execDelete_onward t rx pkt plan s
  | deleteIf t rx pkt plan => exact execDeleteIf_onward t rx pkt plan s
  | flush t rx pkt plan => exact execFlush_onward t rx pkt plan s
  | flushEnd t sid tag => exact execFlushEnd_onward t sid tag s
  | nsCreate t rx pkt plan => exact execNsCreate_onward t rx pkt plan s
  | nsDelete t rx pkt plan => exact execNsDelete_onward t rx pkt plan s
  | nsQuery t rx pkt plan => exact execNsQuery_onward t rx pkt plan s
  | dictRead t rx pkt plan => exact execDictRead_onward t rx pkt plan s
  | dictWrite t rx pkt plan => exact execDictWrite_onward t rx pkt plan s
  | fwSegment t rx pkt plan => exact execFwSegment_onward t rx pkt plan s
  | fwActivate t rx pkt plan => exact execFwActivate_onward t rx pkt plan s
  | sessionReset t rx pkt plan => exact execSessionReset_onward t rx pkt plan s
  | fragReserve t rx pkt plan => exact execFragReserve_onward t rx pkt plan s
  | fragPut t rx pkt plan => exact execFragPut_onward t rx pkt plan s
  | fragGet t rx pkt plan => exact execFragGet_onward t rx pkt plan s
  | fragRelease t rx pkt plan => exact execFragRelease_onward t rx pkt plan s
  | stripeCommitCommit t rx pkt plan => exact execStripeCommitCommit_onward t rx pkt plan s
  | stripeCommitHolders t rx pkt plan => exact execStripeCommitHolders_onward t rx pkt plan s
  | stripeCommitHandoff t rx pkt plan => exact execStripeCommitHandoff_onward t rx pkt plan s
  | stripeCommitHandoffDone t rx pkt plan => exact execStripeCommitHandoffDone_onward t rx pkt plan s
  | stripeCommitHandoffPending t rx pkt plan => exact execStripeCommitHandoffPending_onward t rx pkt plan s
  | stripeCommitNsCreate t rx pkt plan => exact execStripeCommitNsCreate_onward t rx pkt plan s
  | stripeCommitNsDelete t rx pkt plan => exact execStripeCommitNsDelete_onward t rx pkt plan s
  | rebuildQueryHoldings t rx pkt plan => exact execRebuildQueryHoldings_onward t rx pkt plan s
  | rebuildQueryResolve t rx pkt plan => exact execRebuildQueryResolve_onward t rx pkt plan s
  | rebuildQueryKeyState t rx pkt plan => exact execRebuildQueryKeyState_onward t rx pkt plan s
  | rebuildQueryNamespaces t rx pkt plan => exact execRebuildQueryNamespaces_onward t rx pkt plan s
  | fragReserveReply t r => exact execFragReserveReply_onward t r s
  | phaseOneTimeout t sid tag => exact execPhaseOneTimeout_onward t sid tag s
  | fragPutReply t r => exact execFragPutReply_onward t r s
  | writeCommit t sid tag => exact execWriteCommit_onward t sid tag s
  | holderFailTimeout t sid tag member => exact execHolderFailTimeout_onward t sid tag member s
  | releaseAckWaitEnd t sid tag => exact execReleaseAckWaitEnd_onward t sid tag s
  | messageRepeat t msg => exact execMessageRepeat_onward t msg s
  | readTurn t sid tag => exact execReadTurn_onward t sid tag s
  | orderedStart t sid tag => exact execOrderedStart_onward t sid tag s
  | supersededRelease t stripe => exact execSupersededRelease_onward t stripe s
  | promiseBroken t sid tag => exact execPromiseBroken_onward t sid tag s
  | activationPauseStart t => exact execActivationPauseStart_onward t s
  | activationTakeover t checks => exact execActivationTakeover_onward t checks s
  | activationRejoin t => exact execActivationRejoin_onward t s
  | activationFailure t step cause => exact execActivationFailure_onward t step cause s
  | fwCopyComplete t ok => exact execFwCopyComplete_onward t ok s
  | powerTokenLimitEffective t => exact execPowerTokenLimitEffective_onward t s
  | rhoUpdate t => exact execRhoUpdate_onward t s
  | waMReport t => exact execWaMReport_onward t s
  | hotWindowClear t => exact execHotWindowClear_onward t s
  | awlScrubTick t found shadowOk => exact execAwlScrubTick_onward t found shadowOk s
  | purgePassEnd t => exact execPurgePassEnd_onward t s
  | awlPolicyWrite t client value => exact execAwlPolicyWrite_onward t client value s
  | awlPolicyDelete t client value => exact execAwlPolicyDelete_onward t client value s
  | awlPolicyInsert t client value => exact execAwlPolicyInsert_onward t client value s
  | awlPolicyCompact t client value => exact execAwlPolicyCompact_onward t client value s
  | awlBankMapWrite t client value => exact execAwlBankMapWrite_onward t client value s
  | awlSiteRead t took => exact execAwlSiteRead_onward t took s
  | awlSiteWrite t took shadowOk => exact execAwlSiteWrite_onward t took shadowOk s
  | awlSiteValidate t took shadowOk => exact execAwlSiteValidate_onward t took shadowOk s
  | awlSiteInvalidate t turn => exact execAwlSiteInvalidate_onward t turn s
  | awlSiteSearch t took facts => exact execAwlSiteSearch_onward t took facts s
  | awlSiteMove t took shadowOk => exact execAwlSiteMove_onward t took shadowOk s
  | awlSiteFindHole t took => exact execAwlSiteFindHole_onward t took s
  | awlSiteVfailRead t => exact execAwlSiteVfailRead_onward t s
  | groupMapWrite t client value => exact execGroupMapWrite_onward t client value s
  | epochActivate t => exact execEpochActivate_onward t s
  | handoffSend t ns hash => exact execHandoffSend_onward t ns hash s
  | handoffResolve t ns hash => exact execHandoffResolve_onward t ns hash s
  | memberLost t member => exact execMemberLost_onward t member s
  | stripeRepair t stripe index => exact execStripeRepair_onward t stripe index s
  | stripeRebalance t stripe index => exact execStripeRebalance_onward t stripe index s
  | orphanResolveTimer t stripe index => exact execOrphanResolveTimer_onward t stripe index s
  | orphanResolveAnswer t r => exact execOrphanResolveAnswer_onward t r s
  | nsDistributeTimeout t sid tag => exact execNsDistributeTimeout_onward t sid tag s
  | nsSync t => exact execNsSync_onward t s
  | nandZqRecal t temp => exact execNandZqRecal_onward t temp s
  | programComplete t stream place => exact execProgramComplete_onward t stream place s
  | programFailure t unit => exact execProgramFailure_onward t unit s
  | eraseComplete t ds sb => exact execEraseComplete_onward t ds sb s
  | eraseFailure t ds sb slot => exact execEraseFailure_onward t ds sb slot s
  | dieReadyTimeout t ds slot => exact execDieReadyTimeout_onward t ds slot s
  | codewordRead t ds sb cw outcome tagFails => exact execCodewordRead_onward t ds sb cw outcome tagFails s
  | sbProgressAppend t ds sb => exact execSbProgressAppend_onward t ds sb s
  | dramEccCorrected t addr dev => exact execDramEccCorrected_onward t addr dev s
  | dramEccUncorrectable t addr dev region => exact execDramEccUncorrectable_onward t addr dev region s
  | dramPatrolScrub t => exact execDramPatrolScrub_onward t s
  | holdupFlushEnd t => exact execHoldupFlushEnd_onward t s
  | holdupOkDeassert t => exact execHoldupOkDeassert_onward t s
  | holdupOkAssert t => exact execHoldupOkAssert_onward t s
  | gcVictimSelect t ds => exact execGcVictimSelect_onward t ds s
  | superblockErase t ds sb => exact execSuperblockErase_onward t ds sb s
  | wearStaticCheck t => exact execWearStaticCheck_onward t s
  | effectiveAgeTick t temps => exact execEffectiveAgeTick_onward t temps s
  | retentionScan t ds sb worst retries => exact execRetentionScan_onward t ds sb worst retries s
  | slcFold t => exact execSlcFold_onward t s
  | checkpointStart t => exact execCheckpointStart_onward t s
  | checkpointEnd t => exact execCheckpointEnd_onward t s
  | recoveryComplete t r => exact execRecoveryComplete_onward t r s
  | keyDerivationComplete t slot => exact execKeyDerivationComplete_onward t slot s
  | secretEraseComplete t => exact execSecretEraseComplete_onward t s
  | class1Alarm t src users => exact execClass1Alarm_onward t src users s
  | class2Alarm t src flushUs => exact execClass2Alarm_onward t src flushUs s
  | tamper t input level cycles => exact execTamper_onward t input level cycles s
  | portSettingWrite t client port sub value => exact execPortSettingWrite_onward t client port sub value s
  | trainingTimeout t port mode lane => exact execTrainingTimeout_onward t port mode lane s
  | trainingComplete t port mode fec => exact execTrainingComplete_onward t port mode fec s
  | linkUpHoldEnd t port => exact execLinkUpHoldEnd_onward t port s
  | linkDown t port cause => exact execLinkDown_onward t port cause s
  | neighbourFrame t port f => exact execNeighbourFrame_onward t port f s
  | icmpPtb t port len => exact execIcmpPtb_onward t port len s
  | filteredFrame t port f => exact execFilteredFrame_onward t port f s
  | diagCaptureFrame t port f => exact execDiagCaptureFrame_onward t port f s
  | diagEchoFrame t port f => exact execDiagEchoFrame_onward t port f s
  | diagCaptureRelease t client seq => exact execDiagCaptureRelease_onward t client seq s
  | pauseFrame t port f => exact execPauseFrame_onward t port f s
  | pauseTxRepeat t port used => exact execPauseTxRepeat_onward t port used s
  | pauseWatchdogTrip t port => exact execPauseWatchdogTrip_onward t port s
  | pauseIgnoreEnd t port => exact execPauseIgnoreEnd_onward t port s
  | preemptVerifyResponse t port => exact execPreemptVerifyResponse_onward t port s
  | preemptVerifyFail t port => exact execPreemptVerifyFail_onward t port s
  | ptpMessage t port m => exact execPtpMessage_onward t port m s
  | ptpLossTimeout t => exact execPtpLossTimeout_onward t s
  | usdoExpeditedUpload t node index sub => exact execUsdoExpeditedUpload_onward t node index sub s
  | usdoExpeditedDownload t node index sub bytes => exact execUsdoExpeditedDownload_onward t node index sub bytes s
  | usdoSegmentedUploadInit t node index sub => exact execUsdoSegmentedUploadInit_onward t node index sub s
  | usdoUploadSegment t node => exact execUsdoUploadSegment_onward t node s
  | usdoSegmentedDownloadInit t node index sub total bytes => exact execUsdoSegmentedDownloadInit_onward t node index sub total bytes s
  | usdoDownloadSegment t node bytes last => exact execUsdoDownloadSegment_onward t node bytes last s
  | usdoAbort t node => exact execUsdoAbort_onward t node s
  | usdoTimeout t node => exact execUsdoTimeout_onward t node s
  | nodeIdClaim t serial newId => exact execNodeIdClaim_onward t serial newId s
  | nodeIdEmcyRetry t => exact execNodeIdEmcyRetry_onward t s
  | nmtStartRemoteNode t node => exact execNmtStartRemoteNode_onward t node s
  | nmtStopRemoteNode t node => exact execNmtStopRemoteNode_onward t node s
  | nmtEnterPreOperational t node => exact execNmtEnterPreOperational_onward t node s
  | nmtResetNode t node => exact execNmtResetNode_onward t node s
  | nmtResetCommunication t node => exact execNmtResetCommunication_onward t node s
  | timeFrame t cobid ms days => exact execTimeFrame_onward t cobid ms days s
  | wakeFrame t => exact execWakeFrame_onward t s
  | canWakeDominant t durNs takes => exact execCanWakeDominant_onward t durNs takes s
  | wakeIdleTimeout t => exact execWakeIdleTimeout_onward t s
  | heartbeat t => exact execHeartbeat_onward t s
  | emcySend t => exact execEmcySend_onward t s
  | canBusOffRecovery t => exact execCanBusOffRecovery_onward t s
  | canErrorPassive t => exact execCanErrorPassive_onward t s
  | dictEntryWrite t client index sub bytes => exact execDictEntryWrite_onward t client index sub bytes s
  | storeAll t client value => exact execStoreAll_onward t client value s
  | restoreGroup t client sub value => exact execRestoreGroup_onward t client sub value s
  | pskEntryWrite t client bytes => exact execPskEntryWrite_onward t client bytes s
  | pskIdentityDelete t client bytes => exact execPskIdentityDelete_onward t client bytes s
  | powerTokensWrite t client value => exact execPowerTokensWrite_onward t client value s
  | powerTokenLimitWrite t client value => exact execPowerTokenLimitWrite_onward t client value s
  | lifeCycleProvision t client bytes => exact execLifeCycleProvision_onward t client bytes s
  | lifeCycleDeploy t client bytes => exact execLifeCycleDeploy_onward t client bytes s
  | lifeCycleReturn t client bytes => exact execLifeCycleReturn_onward t client bytes s
  | lifeCycleRetire t client bytes => exact execLifeCycleRetire_onward t client bytes s
  | otpSettingsWrite t client bytes progOk => exact execOtpSettingsWrite_onward t client bytes progOk s
  | tamperClear t client value => exact execTamperClear_onward t client value s
  | eventRateLimitWrite t client bytes => exact execEventRateLimitWrite_onward t client bytes s
  | eventSnapshotFromWrite t client slot value => exact execEventSnapshotFromWrite_onward t client slot value s
  | snapshotExpiry t slot => exact execSnapshotExpiry_onward t slot s
  | siteMessageWrite t client bytes => exact execSiteMessageWrite_onward t client bytes s
  | pwrGoodCoreRise t b => exact execPwrGoodCoreRise_onward t b s
  | pwrGoodCoreFall t => exact execPwrGoodCoreFall_onward t s
  | pwrGoodTimeout t => exact execPwrGoodTimeout_onward t s
  | pfailNLow t durNs => exact execPfailNLow_onward t durNs s
  | postFlushReassert t => exact execPostFlushReassert_onward t s
  | warmRstNLow t durNs => exact execWarmRstNLow_onward t durNs s
  | porNLow t durNs => exact execPorNLow_onward t durNs s
  | vstbyApply t => exact execVstbyApply_onward t s
  | vstbyLoss t => exact execVstbyLoss_onward t s
  | lull1Entry t => exact execLull1Entry_onward t s
  | lull2Entry t => exact execLull2Entry_onward t s
  | lullExit t trigger => exact execLullExit_onward t trigger s
  | sweepAutoEnd t => exact execSweepAutoEnd_onward t s
  | serveDrainEnd t => exact execServeDrainEnd_onward t s
  | thermalSample t temp => exact execThermalSample_onward t temp s
  | thermalStep t => exact execThermalStep_onward t s
  | wakeAlarm t => exact execWakeAlarm_onward t s
  | domainPowerUp t dom => exact execDomainPowerUp_onward t dom s
  | dmaQuiesceTimeout t ch dom => exact execDmaQuiesceTimeout_onward t ch dom s
  | dmaQuiesceRetry t ch dom bytes => exact execDmaQuiesceRetry_onward t ch dom bytes s
  | clockMonitorWindow t src count gap => exact execClockMonitorWindow_onward t src count gap s
  | pllLossOfLock t pll => exact execPllLossOfLock_onward t pll s
  | pllRelockTimeout t pll => exact execPllRelockTimeout_onward t pll s
  | clockSwitchTimeout t dom users => exact execClockSwitchTimeout_onward t dom users s
  | gateIdleClose t blk outstanding => exact execGateIdleClose_onward t blk outstanding s
  | gateDeferralTimeout t blk => exact execGateDeferralTimeout_onward t blk s
  | gateReopen t blk => exact execGateReopen_onward t blk s
  | fmcStart t => exact execFmcStart_onward t s
  | fmcStop t count => exact execFmcStop_onward t count s
  | fmcWindowEnd t count => exact execFmcWindowEnd_onward t count s
  | dmaDoorbell t ch => exact execDmaDoorbell_onward t ch s
  | dmaTimerTrigger t ch => exact execDmaTimerTrigger_onward t ch s
  | dmaEnable t ch value => exact execDmaEnable_onward t ch value s
  | dmaRingRegWrite t ch reg value => exact execDmaRingRegWrite_onward t ch reg value s
  | dmaDisable t ch bytes => exact execDmaDisable_onward t ch bytes s
  | dmaDescriptorComplete t ch => exact execDmaDescriptorComplete_onward t ch s
  | dmaBusError t ch addr bytes fetch => exact execDmaBusError_onward t ch addr bytes fetch s
  | eventBatchAppend t => exact execEventBatchAppend_onward t s
  | operatingSecondsSave t => exact execOperatingSecondsSave_onward t s
  | evrFetch t => exact execEvrFetch_onward t s
  | evrPost t => exact execEvrPost_onward t s
  | evrNextSeqRead t => exact execEvrNextSeqRead_onward t s
  | tmrNowRead t => exact execTmrNowRead_onward t s
  | tmrCmpWrite t n hi value => exact execTmrCmpWrite_onward t n hi value s
  | timerComparatorFire t n => exact execTimerComparatorFire_onward t n s
  | tmrWdogKick t => exact execTmrWdogKick_onward t s
  | siteWatchdogExpiry t bytes => exact execSiteWatchdogExpiry_onward t bytes s
  | siteAccessFault t core addr width => exact execSiteAccessFault_onward t core addr width s
  | mbxS2cProdWrite t value => exact execMbxS2cProdWrite_onward t value s
  | mbxC2sConsWrite t value => exact execMbxC2sConsWrite_onward t value s
  | mbxDictRead t => exact execMbxDictRead_onward t s
  | mbxSiteReport t => exact execMbxSiteReport_onward t s
  | mbxC2sFullTimeout t => exact execMbxC2sFullTimeout_onward t s
  | laceForward t => exact execLaceForward_onward t s
  | laceSkipTimeout t => exact execLaceSkipTimeout_onward t s
  | smbusPoll t results => exact execSmbusPoll_onward t results s
  | registerWrite t addr value => exact execRegisterWrite_onward t addr value s
  | peerSessionAccept t a => exact execPeerSessionAccept_onward t a s
  | peerGrant t rx tag inc windows => exact execPeerGrant_onward t rx tag inc windows s
  | peerData t rx tag inc off payload last => exact execPeerData_onward t rx tag inc off payload last s
  | fragGetReply t r => exact execFragGetReply_onward t r s
  | fragReleaseReply t r => exact execFragReleaseReply_onward t r s
  | stripeCommitReply t r => exact execStripeCommitReply_onward t r s
  | rebuildQueryReply t r => exact execRebuildQueryReply_onward t r s
  | laceReply t r => exact execLaceReply_onward t r s
  | fragFetchTimeout t sid tag index => exact execFragFetchTimeout_onward t sid tag index s
  | handoffPullTimeout t sid tag => exact execHandoffPullTimeout_onward t sid tag s
  | handoffFallbackTimeout t ns hash => exact execHandoffFallbackTimeout_onward t ns hash s
  | pauseTimeExpiry t port prio => exact execPauseTimeExpiry_onward t port prio s
  | canErrorPassiveEnd t => exact execCanErrorPassiveEnd_onward t s
  | porNRise t => exact execPorNRise_onward t s
  | warmRstNRise t => exact execWarmRstNRise_onward t s
  | xtal32kStable t => exact execXtal32kStable_onward t s
  | pllLock t pll => exact execPllLock_onward t pll s
  | haltDrainTimeout t => exact execHaltDrainTimeout_onward t s
  | settingsStoreComplete t => exact execSettingsStoreComplete_onward t s
  | efficiencyWindowEnd t w => exact execEfficiencyWindowEnd_onward t w s
  | ptpPpsEdge t rise => exact execPtpPpsEdge_onward t rise s

/-- Settles O2. Time passes to the later of now and the command's own time (`State.advance`, log 1), and from there the command
only goes onward (`exec_onward`): outputs and free values are only added (logs 3 and 16). -/
theorem everyCommandCompletes : Obligations.EveryCommandCompletes := by
  unfold Obligations.EveryCommandCompletes
  intro i s
  obtain ⟨u, hexec, honward⟩ := exec_onward i s
  have hnow : s.now ≤ u.now := by
    rw [honward.now]
    exact Nat.le_max_left s.now i.time
  exact ⟨u, hexec, honward.pending, hnow, honward.out, honward.free⟩

end Sys2Proof.Machine
end

section
/-! Step 8 of Table 4.3 for the writes that carry a RetentionClass (04 R103). -/

namespace Sys2Proof.Machine

/-- A well-formed command with a parameter out of range ends at step 8 with INVALID_FIELD and the parameter's FieldOffset. -/
theorem State.checks_of_paramField {s : State} {x : Session} {p : CmdPkt} {off : Nat} (hshape : p.shape x.v1 = none)
    (hfield : s.paramField p = some off) (rx : Rx) (f : AwlFacts) (hot : Option Nat) :
    s.checks x rx p f hot = (s.noteStale p off, some (.field off)) := by
  simp only [State.checks, hshape, hfield]

/-- Only a FRAG_RESERVE and a FRAG_PUT can name a stale HomeBoot (R206). -/
theorem State.noteStale_of_opcode_ne {p : CmdPkt} (hreserve : p.opcode ≠ 0x70) (hput : p.opcode ≠ 0x71) (s : State) (off : Nat) :
    s.noteStale p off = s :=
  if_neg (by simp [hreserve, hput])

theorem retentionBad_iff {c : Nat} : retentionBad c = true ↔ 8 ≤ c ∧ c ≤ 0xFE :=
  decide_eq_true_iff

theorem CmdPkt.needsNs_of_keyOp {p : CmdPkt} (h : keyOp p.opcode = true) : p.needsNs = true := by
  simp [CmdPkt.needsNs, h]

theorem State.paramField_put {p : CmdPkt} (hop : p.opcode = 0x10) (hbad : retentionBad (p.param 0 1) = true) (s : State) :
    s.paramField p = some 44 := by
  have hns : p.needsNs = true := CmdPkt.needsNs_of_keyOp (by rw [hop]; rfl)
  simp [State.paramField, hns, hop, firstField, hbad]

theorem State.paramField_putIf {p : CmdPkt} (hop : p.opcode = 0x11) (hbad : retentionBad (p.param 8 1) = true) (s : State) :
    s.paramField p = some 52 := by
  have hns : p.needsNs = true := CmdPkt.needsNs_of_keyOp (by rw [hop]; rfl)
  simp [State.paramField, hns, hop, firstField, hbad]

/-- Settles O7. The retention class is the one condition of step 8 for PUT and PUT_IF (`State.paramField_put`,
`State.paramField_putIf`), and a command that step 8 ends is answered INVALID_FIELD. -/
theorem retentionClassRange : Obligations.RetentionClassRange := by
  unfold Obligations.RetentionClassRange
  intro s x rx p f hot hshape
  refine ⟨fun hop hlo hhi => ?put, fun hop hlo hhi => ?putIf, fun off => rfl⟩
  case put =>
    rw [State.checks_of_paramField hshape (State.paramField_put hop (retentionBad_iff.2 ⟨hlo, hhi⟩) s),
      State.noteStale_of_opcode_ne (by simp [hop]) (by simp [hop])]
  case putIf =>
    rw [State.checks_of_paramField hshape (State.paramField_putIf hop (retentionBad_iff.2 ⟨hlo, hhi⟩) s),
      State.noteStale_of_opcode_ne (by simp [hop]) (by simp [hop])]

end Sys2Proof.Machine
end

section
/-! Decisions of commands and their start (05 R127, R134, R135, R477, 02 R36, R39). -/

namespace Sys2Proof.Machine

@[simp] theorem State.withCovers_pkt (s : State) (c : CmdCtx) : (s.withCovers c).pkt = c.pkt := by
  unfold State.withCovers
  split <;> rfl

@[simp] theorem State.withCovers_write (s : State) (c : CmdCtx) : (s.withCovers c).write = c.write := by
  unfold State.withCovers
  split <;> rfl

@[simp] theorem State.decided_pkt (s : State) (c : CmdCtx) (bound deadline critical size : Nat) :
    (s.decided c bound deadline critical size).pkt = c.pkt :=
  s.withCovers_pkt c

@[simp] theorem State.positioned_pkt (s : State) (c : CmdCtx) : (s.positioned c).2.pkt = c.pkt := rfl

/-- Only a write is given a write's context (07 R206). -/
theorem State.withWrite_of_not_write {s : State} {c : CmdCtx} (hop : writeOp c.pkt.opcode = false) : s.withWrite c = c := by
  simp [State.withWrite, hop]

theorem State.withWrite_pkt (s : State) (c : CmdCtx) : (s.withWrite c).pkt = c.pkt := by
  unfold State.withWrite
  split
  · rfl
  · split <;> rfl

/-- A command that has taken its position starts unless ORDERED or an execution pause holds it (02 R36, R39, 15 R435). -/
theorem State.takePosition_setCmd (s : State) (c : CmdCtx) (start : State → CmdCtx → State) :
    (s.setCmd c).takePosition c start
      = let e := s.positioned c; if e.2.ordered || e.2.paused then e.1 else start e.1 e.2 := rfl

/-- A command without a write's context takes its position when it enters (05 R127, R134). -/
theorem State.enter_of_no_write (s : State) {c : CmdCtx} (hw : c.write = none) (bound deadline critical size : Nat) :
    s.enter c bound deadline critical size
      = let e := s.positioned (s.decided c bound deadline critical size); if e.2.ordered || e.2.paused then e.1 else e.1.startCmd e.2 := by
  refine Eq.trans ?_ (s.takePosition_setCmd _ State.startCmd)
  simp only [State.enter, State.decided, State.withCovers_write, State.withCovers_pkt, hw]

/-- A command without a write's context takes its position when it enters, and starts with the effect of its row (05 R127). -/
theorem State.enter_starts (s : State) {c : CmdCtx} {run : State → CmdCtx → State} (hw : c.write = none)
    (hrun : ∀ u d, d.pkt = c.pkt → u.startCmd d = run u d) (bound deadline critical size : Nat) :
    s.enter c bound deadline critical size
      = let e := s.positioned (s.decided c bound deadline critical size); if e.2.ordered || e.2.paused then e.1 else run e.1 e.2 := by
  rw [State.enter_of_no_write s hw]
  dsimp only
  rw [hrun _ _ ((s.positioned_pkt _).trans (s.decided_pkt ..))]

/-- A write enters phase one: its holders are reserved before it takes its position (05 R141). -/
theorem State.enter_of_write {s : State} {c : CmdCtx} {w : WriteCtx} {inst : Nat} (hw : c.write = some w)
    (hinst : s.instOf c.pkt.ns c.pkt.gen = some inst) (bound deadline critical size : Nat) :
    s.enter c bound deadline critical size
      = (s.setCmd (s.decided c bound deadline critical size)).beginPhaseOne (s.decided c bound deadline critical size) w inst := by
  simp only [State.enter, State.decided, State.withCovers_write, State.withCovers_pkt, hw, hinst]

/-- With its key's state here and no earlier command on its key undecided, a command is decided now (05 R135, 07 R222). -/
theorem State.decideCmd_now {s : State} {sid tag : Nat} {c : CmdCtx} (hc : s.cmd? sid tag = some c) (hst : c.st = .undecided)
    (hkey : s.keyUndecided c = false) (hpull : s.pullState c = .none_) : s.decideCmd sid tag = s.decideNow c := by
  simp [State.decideCmd, hc, hst, hkey, hpull]

/-- With a context and a slot of its generation to have, a host's command comes to its own decision (05 R127, R131). -/
theorem State.decideNow_own {s : State} {c : CmdCtx} (hroom : s.contexts ≤ 262144) (hinst : s.noInst c.pkt = false)
    (hreset : c.pkt.opcode ≠ 0x60) (hpeer : peerOp c.pkt.opcode = false) : s.decideNow c = s.decideOwn (s.withWrite c) := by
  simp [State.decideNow, hreset, Nat.not_lt.2 hroom, hinst, hpeer]

/-- A host's command that writes no key comes to its own decision as it is (05 R127). -/
theorem State.decideNow_no_write {s : State} {c : CmdCtx} (hroom : s.contexts ≤ 262144) (hinst : s.noInst c.pkt = false)
    (hop : c.pkt.opcode ≠ 0x60 ∧ peerOp c.pkt.opcode = false ∧ writeOp c.pkt.opcode = false) : s.decideNow c = s.decideOwn c := by
  obtain ⟨hreset, hpeer, hwrite⟩ := hop
  rw [State.decideNow_own hroom hinst hreset hpeer, State.withWrite_of_not_write hwrite]

theorem State.decideNow_peer {s : State} {c : CmdCtx} (hroom : s.contexts ≤ 262144) (hinst : s.noInst c.pkt = false)
    (hpeer : peerOp c.pkt.opcode = true) : s.decideNow c = s.decidePeer c := by
  have hreset : c.pkt.opcode ≠ 0x60 := fun h => by rw [h] at hpeer; exact absurd hpeer (by decide)
  simp [State.decideNow, hreset, Nat.not_lt.2 hroom, hinst, hpeer]

/-- The rows that meet a test of their own before that of R134: NS_CREATE, FW_SEGMENT and FW_ACTIVATE. -/
def testedOps : List Nat := [0x30, 0x50, 0x51]

/-- A command of any other row enters at once without a promise, and meets the test of R134 with one (05 R127). -/
theorem State.decideOwn_untested {s : State} {c : CmdCtx} (hop : c.pkt.opcode ∉ testedOps) :
    s.decideOwn c = if c.pkt.cls = 3 then s.enter c 0 0 1 (s.sizeOf c) else s.decidePromised c := by
  simp only [testedOps, List.mem_cons, List.not_mem_nil, or_false, not_or] at hop
  obtain ⟨hns, hseg, hact⟩ := hop
  simp [State.decideOwn, hns, hseg, hact]

/-- With random bits and a free slot to have, NS_CREATE without a promise enters at once (10 R295, 06 R164). -/
theorem State.decideOwn_nsCreate {s : State} {c : CmdCtx} (hop : c.pkt.opcode = 0x30) (hrng : s.rngOk = true)
    (hfree : s.freeInst.isSome = true) (hcls : c.pkt.cls = 3) : s.decideOwn c = s.enter c 0 0 1 (s.sizeOf c) := by
  simp [State.decideOwn, hop, hrng, Option.isNone_eq_false_iff.2 hfree, hcls]

/-- FW_SEGMENT without a promise enters at once where no transfer keeps it out (04 R119). -/
theorem State.decideOwn_segment {s : State} {c : CmdCtx} (hop : c.pkt.opcode = 0x50) (hidle : s.segmentBusy c.pkt = false)
    (hcls : c.pkt.cls = 3) : s.decideOwn c = s.enter c 0 0 1 (s.sizeOf c) := by
  simp [State.decideOwn, hop, hidle, hcls]

/-- FW_ACTIVATE without a promise enters at once where the activation may go (05 R151). -/
theorem State.decideOwn_activate {s u : State} {c : CmdCtx} (hop : c.pkt.opcode = 0x51) (hcls : c.pkt.cls = 3)
    (hgo : s.decideActivate c.pkt none = (u, .go)) : s.decideOwn c = u.enter c 0 0 1 0 := by
  simp [State.decideOwn, hop, hcls, hgo]

section Promised

variable {s : State} {c : CmdCtx} (hfree : s.pc3Before c = false)

include hfree

/-- What the test of R134 refuses is refused with its retry time and limiter. -/
theorem State.decidePromised_refuse {us lim : Nat}
    (hj : s.judge (s.boundEnd c (s.sizeOf c)) (s.margin (s.factsOf c)) (s.workOf c (s.sizeOf c)) (max (s.predEnd c).1 (s.mediaEnd c)) (s.predEnd c).2
      = .refuse us lim) : s.decidePromised c = s.refuseCmd c us lim := by
  simp [State.decidePromised, hfree, hj]

/-- What passes the test of R134 enters with its bound booked. -/
theorem State.decidePromised_pass {d crit : Nat}
    (hj : s.judge (s.boundEnd c (s.sizeOf c)) (s.margin (s.factsOf c)) (s.workOf c (s.sizeOf c)) (max (s.predEnd c).1 (s.mediaEnd c)) (s.predEnd c).2
      = .pass d crit) :
    s.decidePromised c = (s.book (.cmd c.sid c.pkt.tag) d (s.workOf c (s.sizeOf c))).enter c
      (s.ptp + (s.boundEnd c (s.sizeOf c) - s.now)) d crit (s.sizeOf c) := by
  simp [State.decidePromised, hfree, hj]

end Promised

/-- The rows without a key or with a read that need no test of their own, with the effect that each starts with (04 Table 4.1). -/
def plainRows : List (Nat × (State → CmdCtx → State)) :=
  [(0x01, State.startRead), (0x02, State.startRead), (0x03, State.startRead), (0x04, State.runList),
    (0x20, fun s c => s.onCmd c.sid c.pkt.tag fun c => { c with st := .running }), (0x31, State.runNsDelete),
    (0x32, State.runNsQuery), (0x40, State.runDictRead), (0x41, State.runDictWrite)]

/-- The peer rows that are not tested, with the effect that each starts with (07 Table 7.5, 05 R477). -/
def peerRows : List (Nat × (State → CmdCtx → State)) :=
  [(0x71, State.runPut), (0x72, State.runGet), (0x73, State.runRelease), (0x74, State.runStripeCommit), (0x75, State.runQuery)]

/-- The rows start with their effects. -/
theorem State.startCmd_of_mem_plainRows (s : State) (c : CmdCtx) : ∀ y ∈ plainRows, c.pkt.opcode = y.1 → s.startCmd c = y.2 s c := by
  simp only [plainRows, List.forall_mem_cons, List.not_mem_nil, false_implies, implies_true, and_true]
  refine ⟨?_, ?_, ?_, ?_, ?_, ?_, ?_, ?_, ?_⟩ <;> intro h <;> simp only [State.startCmd, h]

theorem State.startCmd_of_mem_peerRows (s : State) (c : CmdCtx) : ∀ y ∈ peerRows, c.pkt.opcode = y.1 → s.startCmd c = y.2 s c := by
  simp only [peerRows, List.forall_mem_cons, List.not_mem_nil, false_implies, implies_true, and_true]
  refine ⟨?_, ?_, ?_, ?_, ?_⟩ <;> intro h <;> simp only [State.startCmd, State.startPeer, h]

/-- None of the plain rows is a write's, a peer's, SESSION_RESET's or one with a test of its own. -/
theorem plainRows_ops : ∀ op ∈ plainRows.map (·.1), op ∉ testedOps ∧ (op ≠ 0x60 ∧ peerOp op = false ∧ writeOp op = false) := by
  decide

theorem peerRows_ops : ∀ op ∈ peerRows.map (·.1), peerOp op = true ∧ op ≠ 0x70 := by
  decide

/-- The writes are no peer's rows and have no test of their own before phase one. -/
theorem writeOp_untested {op : Nat} (hop : writeOp op = true) : op ∉ testedOps ∧ op ≠ 0x60 ∧ peerOp op = false := by
  have hwrites : ∀ op ∈ [0x10, 0x11, 0x12, 0x13], op ∉ testedOps ∧ op ≠ 0x60 ∧ peerOp op = false := by decide
  exact hwrites op (of_decide_eq_true hop)

/-- Settles O16. An undecided command that nothing holds back is decided now (`State.decideCmd_now`); what enters takes its position and
starts with the effect of its row (`State.enter_starts`), and a write enters phase one (`State.enter_of_write`). SESSION_RESET starts
whatever its class (05 R148), also ORDERED or in an execution pause by log 57. -/
theorem commandDecisions : Obligations.CommandDecisions := by
  unfold Obligations.CommandDecisions
  intro s sid tag c hc hsid htag hst hkey hpull
  subst hsid htag
  have hnow : s.decideCmd c.sid c.pkt.tag = s.decideNow c := State.decideCmd_now hc hst hkey hpull
  dsimp only
  rw [hnow]
  refine ⟨fun hop => ?reset, fun hop hfull => ?full, fun hroom hnone hop => ?noSlot, fun hroom hslot => ⟨fun op run hrow hop hw => ?plain,
    fun hop hw hrng hfree hcls => ?nsCreate, fun hop hw hidle hcls => ?segment, fun u hop hw hcls hgo => ?activate,
    fun v w inst hop hv hw hinst hcls => ?write, fun op run hrow hop hw => ?peer, fun hop hw hepoch hdead => ?reserve⟩⟩
  case reset => simp only [State.decideNow, State.startCmd, hop, if_true]
  case full => rw [State.decideNow, if_neg hop, if_pos hfull]
  case noSlot => rw [State.decideNow, if_neg hop, if_neg (Nat.not_lt.2 hroom), if_pos hnone]
  case plain =>
    obtain ⟨htest, hkind⟩ := plainRows_ops op (List.mem_map_of_mem hrow)
    have hrun (u : State) (d : CmdCtx) (hd : d.pkt = c.pkt) : u.startCmd d = run u d :=
      State.startCmd_of_mem_plainRows u d (op, run) hrow (hd ▸ hop)
    rw [State.decideNow_no_write hroom hslot (hop ▸ hkind), State.decideOwn_untested (hop ▸ htest)]
    refine ⟨fun hcls => ?_, fun hcls hfree => ⟨fun us lim hj => ?_, fun d crit hj => ?_⟩⟩
    · rw [if_pos hcls, State.enter_starts s hw hrun]
    · rw [if_neg hcls, State.decidePromised_refuse hfree hj]
    · rw [if_neg hcls, State.decidePromised_pass hfree hj, State.enter_starts _ hw hrun]
      rfl
  case nsCreate =>
    rw [State.decideNow_no_write hroom hslot (by rw [hop]; decide), State.decideOwn_nsCreate hop hrng hfree hcls,
      State.enter_starts (run := State.runNsCreate) s hw fun u d hd => by simp only [State.startCmd, hd, hop]]
  case segment =>
    rw [State.decideNow_no_write hroom hslot (by rw [hop]; decide), State.decideOwn_segment hop hidle hcls,
      State.enter_starts (run := State.runSegment) s hw fun u d hd => by simp only [State.startCmd, hd, hop]]
  case activate =>
    rw [State.decideNow_no_write hroom hslot (by rw [hop]; decide), State.decideOwn_activate hop hcls hgo,
      State.enter_starts (run := State.runActivate) u hw fun u d hd => by simp only [State.startCmd, hd, hop]]
  case write =>
    obtain ⟨htest, hreset, hpeer⟩ := writeOp_untested hop
    have hpkt : v.pkt = c.pkt := hv ▸ s.withWrite_pkt c
    rw [State.decideNow_own hroom hslot hreset hpeer, hv, State.decideOwn_untested (hpkt ▸ htest), if_pos (hpkt ▸ hcls),
      State.enter_of_write hw (hpkt ▸ hinst)]
  case peer =>
    obtain ⟨hpeer, hreserve⟩ := peerRows_ops op (List.mem_map_of_mem hrow)
    rw [State.decideNow_peer hroom hslot (hop ▸ hpeer), State.decidePeer, if_neg (hop ▸ hreserve),
      State.enter_starts s hw fun u d hd => State.startCmd_of_mem_peerRows u d (op, run) hrow (hd ▸ hop)]
  case reserve =>
    have hgo : s.decidePeer c = s.enter c 0 0 1 0 := by
      simp only [State.decidePeer, State.decideReserve, if_pos hop, if_neg (Nat.not_lt.2 hepoch), hdead, true_or, if_true]
    rw [State.decideNow_peer hroom hslot (by rw [hop]; decide), hgo,
      State.enter_starts (run := State.runReserve) s hw fun u d hd => by simp only [State.startCmd, State.startPeer, hd, hop]]

end Sys2Proof.Machine
end

section
/-! Peers' answers (05 R141, R143, 07 R214 to R229). -/

namespace Sys2Proof.Machine

/-- An answer that is not taken, or that no message of this drive awaits, has no other effect than its receipt (07 R210). -/
theorem exec_peerReply_untaken {s b : State} {t : Nat} {r : PeerReply} (h : (s.advance t).peerReply r = (b, none)) :
    exec (.fragReserveReply t r) s = .next b ∧ exec (.fragPutReply t r) s = .next b ∧ exec (.fragGetReply t r) s = .next b ∧
      exec (.fragReleaseReply t r) s = .next b ∧ exec (.stripeCommitReply t r) s = .next b ∧
      exec (.rebuildQueryReply t r) s = .next b ∧ exec (.orphanResolveAnswer t r) s = .next b := by
  refine ⟨?reserve, ?put, ?get, ?release, ?commit, ?query, ?orphan⟩
  case reserve => change execFragReserveReply t r s = _; simp only [execFragReserveReply, h]
  case put => change execFragPutReply t r s = _; simp only [execFragPutReply, h]
  case get => change execFragGetReply t r s = _; simp only [execFragGetReply, h]
  case release => change execFragReleaseReply t r s = _; simp only [execFragReleaseReply, h]
  case commit => change execStripeCommitReply t r s = _; simp only [execStripeCommitReply, h]
  case query => change execRebuildQueryReply t r s = _; simp only [execRebuildQueryReply, h]
  case orphan => change execOrphanResolveAnswer t r s = _; simp only [execOrphanResolveAnswer, h]

section Taken

variable {s b : State} {t : Nat} {r : PeerReply} {m : PeerMsg} (h : (s.advance t).peerReply r = (b, some m))

include h

/-- A slice of a write is answered (07 R214). -/
theorem exec_fragPutReply_of_write (hm : m.repair = false) :
    exec (.fragPutReply t r) s = .next (b.putAnswer m r.status r.body).goneOn := by
  change execFragPutReply t r s = _
  simp only [execFragPutReply, h, hm, Bool.false_eq_true, if_false, State.afterReply]

/-- A fetch for a read is answered: its piece has come or is missing, at its place in the value (07 R218). Where the answer names no
fragment that a record of this drive lists, nothing is queued for repair. -/
theorem exec_fragGetReply_of_read {sid tag : Nat} {d : ReadCtx} (hm : m.repair = false) (hcmd : m.cmd = some (sid, tag))
    (hread : (b.cmd? sid tag).bind (·.read) = some d)
    (hgood : r.status = stNotFound ∨ r.status = stMedia → b.recOfStripe m.stripe = none) :
    exec (.fragGetReply t r) s = .next (b.pieceCame sid tag m.index m.seg
      (if d.rec_.striped then m.pkt.param 20 4 - m.seg * chunkC else m.pkt.param 20 4) (m.pkt.param 24 4) (fetched m r.status)).goneOn := by
  change execFragGetReply t r s = _
  simp only [execFragGetReply, h, hm, Bool.false_eq_true, if_false, State.afterReply]
  cases hrec : b.recOfStripe m.stripe with
  | none => simp only [hcmd, hread]
  | some x =>
    have hok : ¬(r.status = stNotFound ∨ r.status = stMedia) := fun hbad => by simp [hgood hbad] at hrec
    simp only [if_neg hok, hcmd, hread]

/-- The answers to a repair's messages (07 R226). -/
theorem exec_peerReply_of_repair {q : Repair} {x : CommitRec} (hm : m.repair = true) (hq : b.repairOf m = some (q, x)) :
    exec (.fragReserveReply t r) s = .next (b.repairReserved q x (r.status == stOk)).goneOn ∧
      exec (.fragPutReply t r) s = .next (b.repairPut q x m.seg (r.status == stOk)).goneOn ∧
      exec (.fragGetReply t r) s = .next (b.repairGot q x m.seg (fetched m r.status) (r.status == stNotFound || r.status == stMedia)).goneOn := by
  refine ⟨?reserve, ?put, ?get⟩
  case reserve => change execFragReserveReply t r s = _; simp only [execFragReserveReply, h, hm, hq, if_true, State.afterReply]
  case put => change execFragPutReply t r s = _; simp only [execFragPutReply, h, hm, hq, if_true, State.afterReply]
  case get => change execFragGetReply t r s = _; simp only [execFragGetReply, h, hm, hq, if_true, State.afterReply]

end Taken

/-- Settles O18: an answer that is not taken does nothing more (`exec_peerReply_untaken`), and a taken one has the effect of its kind. -/
theorem peerAnswers : Obligations.PeerAnswers := by
  unfold Obligations.PeerAnswers
  dsimp only
  intro s t r
  refine ⟨fun b h => exec_peerReply_untaken h, fun b m h hm => ⟨fun c w hw => ?reserve, fun hnone => ?reserveLate, fun hbad => ?putFails,
      fun hok hnone => ?putLate, fun c w hok hw => ?put, fun sid tag d hcmd hread hgood => exec_fragGetReply_of_read h hm hcmd hread hgood⟩,
    fun b m q x h hm hq => exec_peerReply_of_repair h hm hq,
    fun b m h => ⟨fun c w hw => ?release, fun hnone => ?releaseLate, ?commit, ?query, ?orphan⟩⟩
  case reserve =>
    change execFragReserveReply t r s = _
    simp only [execFragReserveReply, h, hm, Bool.false_eq_true, if_false, hw, State.afterReply]
  case reserveLate =>
    change execFragReserveReply t r s = _
    simp only [execFragReserveReply, h, hm, Bool.false_eq_true, if_false, hnone, State.afterReply]
  case putFails => rw [exec_fragPutReply_of_write h hm, State.putAnswer, if_pos hbad]
  case putLate =>
    rw [exec_fragPutReply_of_write h hm, State.putAnswer, if_neg (not_not_intro hok), hnone]
  case put =>
    rw [exec_fragPutReply_of_write h hm, State.putAnswer, if_neg (not_not_intro hok), hw]
  case release =>
    change execFragReleaseReply t r s = _
    simp only [execFragReleaseReply, h, hw, State.afterReply]
  case releaseLate =>
    change execFragReleaseReply t r s = _
    simp only [execFragReleaseReply, h, hnone, State.afterReply]
  case commit =>
    change execStripeCommitReply t r s = _
    simp only [execStripeCommitReply, h, State.afterReply]
  case query =>
    change execRebuildQueryReply t r s = _
    simp only [execRebuildQueryReply, h, State.afterReply]
  case orphan =>
    change execOrphanResolveAnswer t r s = _
    simp only [execOrphanResolveAnswer, h, State.afterReply]

end Sys2Proof.Machine
end

section
/-! Welt's timers (05 R143, 07 R214 to R229, R476). -/

namespace Sys2Proof.Machine

/-- Settles O19: each timer's guard holds once it is due. A message that goes again takes a new tag while its old ones stay open (`also`)
by the model's choice (log 53). -/
theorem weltTimers : Obligations.WeltTimers := by
  unfold Obligations.WeltTimers
  dsimp only
  intro s t
  refine ⟨fun sid tag c w hc hw => ⟨fun hst hdue => ?phaseOne, ?release⟩, fun sid tag mem m hm => ?holder,
    fun id m hm hrep => ⟨fun hgone => ?repeatEnds, fun hhere hknown hdue => ?repeats⟩, fun sid tag index d hd => ?fetch,
    fun i k f hf hopen hdue h hhome hother => ?orphan,
    fun sid tag c hc hop hwait hdue => ?distribute, fun hserve hdue => ?sync, fun mem x hx hhere hserve hdue => ?lost⟩
  case phaseOne =>
    have hc' : (s.advance t).cmd? sid tag = some c := hc
    change execPhaseOneTimeout t sid tag s = _
    simp only [execPhaseOneTimeout, hc', hw]
    exact if_pos ⟨hst, hdue⟩
  case release =>
    have hc' : (s.advance t).cmd? sid tag = some c := hc
    change execReleaseAckWaitEnd t sid tag s = _
    simp only [execReleaseAckWaitEnd, hc', hw]
    rfl
  case holder =>
    change execHolderFailTimeout t sid tag mem s = _
    have hm' : ((s.advance t).welt.msgs.find? fun m => m.cmd == some (sid, tag) && m.member == mem && (s.advance t).putLate m) = some m := hm
    simp only [execHolderFailTimeout, hm', State.afterReply]
  case repeatEnds =>
    have hm' : (s.advance t).welt.msgs.find? (·.id == id) = some m := hm
    have hgone' : ((s.advance t).welt.lost.contains m.member || ((s.advance t).member? m.member).isNone) = true :=
      Bool.or_eq_true_iff.2 (hgone.imp_right Option.isNone_iff_eq_none.2)
    change execMessageRepeat t id s = _
    simp only [execMessageRepeat, hm', hrep, hgone', Bool.not_true, Bool.false_eq_true, if_false, if_true]
  case repeats =>
    have hm' : (s.advance t).welt.msgs.find? (·.id == id) = some m := hm
    have hstays : ((s.advance t).welt.lost.contains m.member || ((s.advance t).member? m.member).isNone) = false :=
      Bool.or_eq_false_iff.2 ⟨hhere, Option.isNone_eq_false_iff.2 hknown⟩
    change execMessageRepeat t id s = _
    simp only [execMessageRepeat, hm', hrep, hstays, Bool.not_true, Bool.false_eq_true, if_false]
    exact if_pos hdue
  case fetch =>
    have hd' : ((s.advance t).cmd? sid tag).bind (·.read) = some d := hd
    change execFragFetchTimeout t sid tag index s = _
    simp only [execFragFetchTimeout, hd']
    rfl
  case orphan =>
    have hf' : (s.advance t).frag? i k = some f := hf
    have hasks : ¬(f.committed = true ∨ (s.advance t).ptp < f.resolveAt) := by simp [hopen, hdue]
    change execOrphanResolveTimer t i k s = _
    simp only [execOrphanResolveTimer, hf', if_neg hasks, hhome, if_neg hother]
  case distribute =>
    have hc' : (s.advance t).cmd? sid tag = some c := hc
    change execNsDistributeTimeout t sid tag s = _
    simp only [execNsDistributeTimeout, hc']
    exact if_pos ⟨hop, by simpa using hwait, hdue⟩
  case sync => exact if_pos ⟨hserve, hdue⟩
  case lost =>
    have hx' : (s.advance t).welt.noPath.find? (·.1 == mem) = some x := hx
    change execMemberLost t mem s = _
    simp only [execMemberLost, hx']
    refine if_neg fun hkept => ?_
    obtain hlost | hearly | hidle := hkept
    · exact absurd (hhere.symm.trans hlost) Bool.false_ne_true
    · exact Nat.not_lt.2 hdue hearly
    · exact absurd (hidle.symm.trans hserve) Bool.false_ne_true

end Sys2Proof.Machine
end

section
/-! Writes of settings (12 R346, R349 to R351, 05 R140, 11 R320). -/

namespace Sys2Proof.Machine

section Applied

variable {s u : State} {c : Client} {k : Nat} {b : Bytes} {r : Option DictRow} (hrun : s.paused = false)

include hrun

/-- A write that ends with the settings store waits for it (12 R349). -/
theorem State.dictApply_of_stored (h : s.dictSet c (k / 256) (k % 256) b = (u, r, .stored)) : s.dictApply c k b = u.awaitStore .none := by
  simp [State.dictApply, hrun, State.dictWrite, h]

theorem State.dictApply_of_abort {code : Nat} (h : s.dictSet c (k / 256) (k % 256) b = (u, r, .abort code)) : s.dictApply c k b = u := by
  simp [State.dictApply, hrun, State.dictWrite, h]

end Applied

/-- In an execution pause a write waits for its end (15 R435). -/
theorem State.dictApply_of_paused {s : State} (hpause : s.paused = true) (c : Client) (k : Nat) (b : Bytes) :
    s.dictApply c k b = s.delay (.write c k b) :=
  if_pos hpause

theorem dictRow?_storeAll : dictRow? K.storeAll = some ⟨K.storeAll, .u32, .rw, .none_, 2, none, none⟩ := rfl
theorem dictRow?_powerTokens : dictRow? K.powerTokens = some ⟨K.powerTokens, .u16, .rwp, .sys, 128, some 16, some 4096⟩ := rfl
theorem dictRow?_powerTokenLimit : dictRow? K.powerTokenLimit = some ⟨K.powerTokenLimit, .u16, .rw, .vol, 128, some 16, none⟩ := rfl

/-- A number that its bytes hold is read back from them (00 R3). -/
theorem ofBE_beBytes_of_lt {n v : Nat} (hfit : v < 256 ^ n) : ofBE (beBytes n v) = v := by
  rw [ofBE_beBytes, Nat.mod_eq_of_lt hfit]

/-- The rows of 0x1011 that restore a group (12 R351). -/
theorem dictRow?_restore {sub : Nat} (hlo : 1 ≤ sub) (hhi : sub ≤ 3) :
    dictRow? (0x101100 + sub) = some ⟨0x101100 + sub, .u32, .rw, .none_, 1, none, none⟩ := by
  obtain rfl | rfl | rfl : sub = 1 ∨ sub = 2 ∨ sub = 3 := by omega
  all_goals rfl

theorem key_of_dictRow? {k : Nat} {r : DictRow} (hr : dictRow? k = some r) : r.key = k := by
  simpa using List.find?_some hr

/-- StoreAll with its signature ends when the settings store holds what waits (12 R350). -/
theorem State.writeNum_storeAll (s : State) (c : Client) {r : DictRow} (hr : r.key = K.storeAll) :
    s.writeNum c r 0x73617665 = (s, if s.dict.waits.isEmpty then .ok else .stored) := by
  have hmask : maskReserved K.storeAll 0x73617665 = 0x73617665 := by decide
  simp only [State.writeNum, hr, hmask]
  cases s.dict.waits.isEmpty <;> rfl

/-- A restore group that is not marked yet is (12 R351). -/
theorem State.writeNum_restore {s : State} {r : DictRow} {sub : Nat} (c : Client) (hlo : 1 ≤ sub) (hhi : sub ≤ 3) (hr : r.key = 0x101100 + sub)
    (hnew : sub ∉ s.dict.restore) :
    s.writeNum c r 0x6C6F6164 = ({ s with dict := { s.dict with restore := s.dict.restore ++ [sub] } }, .ok) := by
  have hmask : ∀ x ∈ [1, 2, 3], maskReserved (0x101100 + x) 0x6C6F6164 = 0x6C6F6164 := by decide
  have hsub : sub ∈ [1, 2, 3] := by simp; omega
  have hstore : 0x101100 + sub ≠ 0x101001 := by omega
  have hindex : (0x101100 + sub) / 256 = 0x1011 := by omega
  have hgroup : (0x101100 + sub) % 256 = sub := by omega
  have hnew' : s.dict.restore.contains sub = false := by simpa using hnew
  simp only [State.writeNum, hr, hmask sub hsub, if_neg hstore, hindex, hgroup, hnew']
  rfl

/-- The entries whose write has a meaning of its own, apart from the value that it sets. -/
def ownWriteKeys : List Nat :=
  [K.storeAll, K.lifeCycleRequest, K.nsSelect, K.awlPolicySelect, K.shelfReadOffset, K.tamperClear, K.diagCaptureRelease]

/-- A number of any other entry in its range is set, and what follows the new value follows (12 R346). -/
theorem State.writeNum_value {s : State} {r : DictRow} {v : Nat} (c : Client) (hkey : r.key ∉ ownWriteKeys)
    (hindex : r.key / 256 ∉ [0x1011, 0x2401, 0x2B02]) (hmask : maskReserved r.key v = v) (hok : s.numOk r v = true) :
    s.writeNum c r v = ((s.putEntry r (.num v)).1.afterNum r.key s.tokenLimit, (s.putEntry r (.num v)).2) := by
  simp only [ownWriteKeys, List.mem_cons, List.not_mem_nil, or_false, not_or] at hkey hindex
  obtain ⟨hstore, hlife, hns, hawl, hoff, htamper, hdiag⟩ := hkey
  obtain ⟨hrestore, hattr, hsnap⟩ := hindex
  simp only [State.writeNum, hmask, hok, Bool.not_true, Bool.false_eq_true, if_false, if_neg hstore, if_neg hlife, if_neg hns, if_neg hawl,
    if_neg hoff, if_neg htamper, if_neg hdiag, if_neg hrestore, if_neg hattr, if_neg hsnap]

/-- A SYS value is in effect at once, and its write ends with the settings store (12 R349). -/
theorem State.putEntry_sys {s : State} {r : DictRow} (hsys : r.persist = .sys) (hon : s.mode.mode.powered = true) (v : DVal) :
    s.putEntry r v = (s.setVal r.key v, .stored) := by
  simp [State.putEntry, hsys, hon]

theorem State.putEntry_vol {s : State} {r : DictRow} (hvol : r.persist ≠ .sys) (v : DVal) : s.putEntry r v = (s.setVal r.key v, .ok) := by
  simp [State.putEntry, hvol]

/-- PowerTokenLimit takes any limit from 16 to PowerTokens (05 R140). -/
theorem State.numOk_powerTokenLimit {s : State} {v : Nat} (hlo : 16 ≤ v) (hhi : v ≤ s.num K.powerTokens) :
    s.numOk ⟨K.powerTokenLimit, .u16, .rw, .vol, 128, some 16, none⟩ v = true := by
  have hrange : (⟨K.powerTokenLimit, .u16, .rw, .vol, 128, some 16, none⟩ : DictRow).inRange v = true := by simpa [DictRow.inRange] using hlo
  have hvalue : s.kvValueOk K.powerTokenLimit v = true := decide_eq_true ⟨hlo, hhi⟩
  simp only [State.numOk, hrange, Bool.true_and]
  exact hvalue

/-- The settings of a port's link (11 R320). -/
theorem portSetting_key {port : PortId} {sub k : Nat} (hlo : 1 ≤ sub) (hhi : sub ≤ 7) (hk : k = 0x220100 + 256 * port.code + sub) :
    k ∉ ownWriteKeys ∧ k / 256 ∉ [0x1011, 0x2401, 0x2B02] := by
  have hcode : port.code ≤ 1 := by cases port <;> decide
  have hindex : k / 256 = 0x2201 ∨ k / 256 = 0x2202 := by omega
  have hown : ∀ x ∈ ownWriteKeys, ¬(x / 256 = 0x2201 ∨ x / 256 = 0x2202) := by decide
  refine ⟨fun hmem => hown k hmem hindex, ?_⟩
  simp only [List.mem_cons, List.not_mem_nil, or_false, not_or]
  omega

/-- A new setting of a port's link restarts the link (11 R320). -/
theorem State.afterNum_portSetting {port : PortId} {sub k : Nat} (hlo : 1 ≤ sub) (hhi : sub ≤ 7) (hk : k = 0x220100 + 256 * port.code + sub)
    (s : State) (old : Nat) : s.afterNum k old = s.portRestart port := by
  cases port with
  | a =>
    have hk' : k = 0x220100 + sub := hk
    have ha : k / 256 = 0x2201 ∧ k % 256 ≤ 7 := by omega
    exact if_pos ha
  | b =>
    have hk' : k = 0x220200 + sub := hk
    have ha : ¬(k / 256 = 0x2201 ∧ k % 256 ≤ 7) := by omega
    have hb : k / 256 = 0x2202 ∧ k % 256 ≤ 7 := by omega
    exact (if_neg ha).trans (if_pos hb)

/-- Settles O41. A write that passes is applied (`State.dictSet_num`), what it does to its entry is one lemma each, and what it answers says
whether it waits for the settings store (`State.dictApply_of_ok`, `State.dictApply_of_stored`). That a write waits for the end of an
execution pause is 15 R435 (log 74). -/
theorem settingsWrites : Obligations.SettingsWrites := by
  unfold Obligations.SettingsWrites
  refine ⟨fun s t c idx sub b hpause => congrArg Host.Outcome.next (State.dictApply_of_paused (s := s.advance t) hpause ..), ?_⟩
  dsimp only
  intro s t c hrun
  have hrun' : (s.advance t).paused = false := hrun
  refine ⟨fun idx sub b r w hsub hr hguard hsize => ?entry, fun hpass => ?store, fun sub hlo hhi hpass hnew => ?restore,
    fun v hlo hhi hfit hpass => ?limit, fun v hfit hon hpass hok => ?tokens, fun old hold hdue => ?effective,
    fun port sub b r w hlo hhi hr hguard hsize hok hmask hsys hon => ?port⟩
  case entry =>
    have hpass : (s.advance t).writePasses c (idx * 256 + sub) b = true := by simp [State.writePasses, hr, hguard]
    have hset := State.dictSet_num hr hpass hsize
    rcases hwrite : (s.advance t).writeNum c r (ofBE b) with ⟨u, d⟩
    rw [hwrite] at hset
    cases d with
    | ok => exact congrArg Host.Outcome.next (State.dictApply_of_ok hrun' hset)
    | stored => exact congrArg Host.Outcome.next (State.dictApply_of_stored hrun' hset)
    | abort code => exact congrArg Host.Outcome.next (State.dictApply_of_abort hrun' hset)
  case store =>
    have hset := State.dictSet_num dictRow?_storeAll hpass rfl
    rw [ofBE_beBytes_of_lt (by decide), State.writeNum_storeAll _ _ rfl] at hset
    refine ⟨fun hnone => ?_, fun hsome => ?_⟩
    · have hempty : (s.advance t).dict.waits.isEmpty = true := List.isEmpty_iff.2 hnone
      rw [hempty] at hset
      exact congrArg Host.Outcome.next (State.dictApply_of_ok hrun' hset)
    · have hwaits : (s.advance t).dict.waits.isEmpty = false := List.isEmpty_eq_false_iff.2 hsome
      rw [hwaits] at hset
      exact congrArg Host.Outcome.next (State.dictApply_of_stored hrun' hset)
  case restore =>
    have hset := State.dictSet_num (dictRow?_restore hlo hhi) hpass rfl
    rw [ofBE_beBytes_of_lt (by decide), State.writeNum_restore (s := s.advance t) c hlo hhi rfl hnew] at hset
    change Host.Outcome.next ((s.advance t).dictApply c (0x101100 + sub % 256) (beBytes 4 0x6C6F6164)) = _
    rw [Nat.mod_eq_of_lt (by omega), State.dictApply_of_ok hrun' hset]
    rfl
  case limit =>
    have hset := State.dictSet_num dictRow?_powerTokenLimit hpass rfl
    rw [ofBE_beBytes_of_lt hfit, State.writeNum_value c (by decide) (by decide) rfl
      (State.numOk_powerTokenLimit (s := s.advance t) hlo hhi), State.putEntry_vol (by decide)] at hset
    exact congrArg Host.Outcome.next (State.dictApply_of_ok hrun' hset)
  case tokens =>
    have hset := State.dictSet_num dictRow?_powerTokens hpass rfl
    rw [ofBE_beBytes_of_lt hfit, State.writeNum_value c (by decide) (by decide) rfl (hok _ dictRow?_powerTokens),
      State.putEntry_sys (s := s.advance t) rfl hon] at hset
    exact congrArg Host.Outcome.next (State.dictApply_of_stored hrun' hset)
  case effective =>
    have hends : ((s.advance t).shank.oldLimit.isSome && decide ((s.advance t).shank.effectiveAt ≤ (s.advance t).ptp)) = true := by
      simp [hold, hdue]
    exact congrArg Host.Outcome.next (if_pos hends)
  case port =>
    have hkey := key_of_dictRow? hr
    obtain ⟨hplain, hindex⟩ := portSetting_key hlo hhi hkey
    have hpass : (s.advance t).writePasses c (0x220100 + 256 * port.code + sub) b = true := by simp [State.writePasses, hr, hguard]
    have hset := State.dictSet_num hr hpass hsize
    rw [State.writeNum_value c hplain hindex hmask hok, State.putEntry_sys (s := s.advance t) hsys hon,
      State.afterNum_portSetting hlo hhi hkey] at hset
    have hrow : exec (.portSettingWrite t c port sub b) s
        = .next ((s.advance t).dictApply c (0x220100 + 256 * port.code + sub) b) := congrArg Host.Outcome.next (if_pos ⟨hlo, hhi⟩)
    rw [hrow, State.dictApply_of_stored hrun' hset]

end Sys2Proof.Machine
end

section
/-! PTP, its pin and efficiency windows (11 R336 to R339, 05 R155, R156). -/

namespace Sys2Proof.Machine

@[simp] theorem State.fileRecord_eth (s : State) (r : EvRec) : (s.fileRecord r).eth = s.eth := by
  unfold State.fileRecord
  dsimp only
  split
  · split <;> rfl
  split
  · split <;> rfl
  · split <;> rfl

@[simp] theorem State.fileAll_eth (s : State) (code flags supp : Nat) (l : List Bytes) : (s.fileAll code flags supp l).eth = s.eth := by
  induction l generalizing s code flags supp with
  | nil => rfl
  | cons d l ih => rw [State.fileAll, ih, State.bump_eth, State.fileRecord_eth]

/-- A record leaves the ports and PTP alone (14 R417 to R420). -/
@[simp] theorem State.event_eth (s : State) (code : Nat) (fields : List (Nat × Nat)) : (s.event code fields).eth = s.eth := by
  unfold State.event State.eventSeq
  dsimp only
  split
  · exact State.fileAll_eth ..
  · rfl

/-- A change of the servo's state leaves PTP's offset from the drive's timebase alone (11 R337, R338). -/
@[simp] theorem State.ptpTo_delta (s : State) (st : PtpState) : (s.ptpTo st).eth.ptp.delta = s.eth.ptp.delta := by
  unfold State.ptpTo
  dsimp only
  split
  · rfl
  · rw [State.event_eth]
    rfl

/-- A Sync with a measured offset from the slave port's master moves PTP time by the servo's step (11 R337). -/
theorem State.ptpSync_delta {s : State} {p : PortId} {gm : Bytes} (hslave : s.eth.ptp.slave = some p) (hgm : s.eth.ptp.gm = gm) (o : Int) :
    (s.ptpSync p gm (some o)).eth.ptp.delta = s.eth.ptp.delta - s.servoStep o := by
  have hmaster : ¬(s.eth.ptp.slave ≠ some p ∨ s.eth.ptp.gm ≠ gm) := by simp [hslave, hgm]
  simp only [State.ptpSync, if_neg hmaster]
  split
  · rw [State.event_eth, State.ptpTo_delta]
    rfl
  · rw [State.ptpTo_delta]
    rfl

theorem State.servoStep_of_large {s : State} {o : Int} (h : (s.num K.ptpStepThresholdNs : Int) < o.natAbs) : s.servoStep o = o :=
  if_pos h

/-- A slew is at most 200 ppm of the time since the last Sync (11 R337). -/
theorem State.servoStep_slew {s : State} {o : Int} (h : (o.natAbs : Int) ≤ s.num K.ptpStepThresholdNs) :
    (s.servoStep o).natAbs * 5000 ≤ s.now - s.eth.ptp.lastSync := by
  have hslew : s.servoStep o = _ := if_neg (Int.not_lt.2 h)
  rw [hslew]
  omega

/-- A message of the drive's domain and transport has the effect of its kind (11 R336). -/
theorem exec_ptpMessage {s r : State} {t : Nat} {p : PortId} {m : PtpMsg} (hup : (s.port p).link = .up)
    (hr : r = ((s.advance t).rxFrame p m.len).bump (K.cPtpMessagesRx p.code)) (hdom : m.domain = r.num K.ptpDomain)
    (htra : m.transport = r.num K.ptpTransport) :
    (∀ gm rank, m.what = .announce gm rank → exec (.ptpMessage t p m) s = .next (r.ptpAnnounce p gm rank).goneOn) ∧
      (∀ gm o, m.what = .sync gm o → exec (.ptpMessage t p m) s = .next (r.ptpSync p gm o).goneOn) ∧
      (m.what = .other → exec (.ptpMessage t p m) s = .next r) := by
  subst hr
  have hlink : (s.advance t).linkIsUp p = true := beq_iff_eq.2 hup
  have hours : ¬(m.domain ≠ (((s.advance t).rxFrame p m.len).bump (K.cPtpMessagesRx p.code)).num K.ptpDomain ∨
      m.transport ≠ (((s.advance t).rxFrame p m.len).bump (K.cPtpMessagesRx p.code)).num K.ptpTransport) :=
    fun h => h.elim (fun h => h hdom) fun h => h htra
  refine ⟨fun gm rank hwhat => ?announce, fun gm o hwhat => ?sync, fun hwhat => ?other⟩
  all_goals
    change execPtpMessage t p m s = _
    simp only [execPtpMessage, hlink, Bool.not_true, Bool.false_eq_true, if_false, if_neg hours, hwhat, State.afterReply]

/-- Settles O49. The servo's step is `State.servoStep` (`State.ptpSync_delta`): all of a large offset, and otherwise a slew over the time
since the last Sync (log 87). Whether an efficiency window counts is its operand (log 88). -/
theorem ptpCommands : Obligations.PtpCommands := by
  unfold Obligations.PtpCommands
  dsimp only
  intro s t p
  refine ⟨fun hup m hdom htra => exec_ptpMessage hup rfl hdom htra, fun gm hslave hgm o hlarge => ?step, fun gm hslave hgm o hsmall => ?slew,
    fun q hslave hst hdue => ?loss, fun hen hlocked hlow hnear => ?rise, fun hhigh hdue => ?fall, fun hdue => ?window⟩
  case step => rw [State.ptpSync_delta (s := s.advance t) hslave hgm, State.servoStep_of_large (s := s.advance t) hlarge, State.advance_eth]
  case slew =>
    have hbound := State.servoStep_slew (s := s.advance t) hsmall
    have hmoved : s.eth.ptp.delta - (s.advance t).servoStep o - s.eth.ptp.delta = -(s.advance t).servoStep o := by omega
    rw [State.ptpSync_delta (s := s.advance t) hslave hgm, State.advance_eth, hmoved, Int.natAbs_neg]
    exact hbound
  case loss => exact if_pos ⟨Option.isSome_iff_exists.2 ⟨q, hslave⟩, hst, hdue⟩
  case rise =>
    have hedge : ((s.advance t).flag K.ppsEnable && s.eth.ptp.everLocked && !s.eth.ptp.pps &&
        (decide ((s.advance t).ptp % nsSec ≤ 10) || decide (nsSec - 10 ≤ (s.advance t).ptp % nsSec))) = true := by
      rw [show (s.advance t).flag K.ppsEnable = true from hen, hlocked, hlow]
      simpa using hnear
    exact if_pos hedge
  case fall =>
    have hedge : (s.eth.ptp.pps && decide (s.eth.ptp.ppsRoseAt + (s.advance t).num K.ppsWidthUs * 1000 ≤ (s.advance t).now)) = true := by
      rw [hhigh]
      exact decide_eq_true hdue
    exact if_pos hedge
  case window =>
    have hends : decide ((s.advance t).now < (s.advance t).shank.lastEff + nsSec) = false := decide_eq_false (Nat.not_lt.2 hdue)
    refine ⟨?none, ?ingest, ?restore⟩
    all_goals
      change execEfficiencyWindowEnd t _ s = _
      simp only [execEfficiencyWindowEnd, hends, Bool.false_eq_true, if_false]
      rfl

end Sys2Proof.Machine
end

section
/-! The reports of each minute of SERVE (08 R256, 05 R133). -/

namespace Sys2Proof.Machine

/-- Where the past hour programmed user units, WA_m is their quotient, and at least 1,000 (08 R256). -/
theorem waPermille_some {p : Bytes} {prog ers bytes : Nat} (h : bytes / max 1 (unitCap p false) * profTProg p ≠ 0) :
    waPermille p prog ers bytes = some (max 1000 ((prog * profTProg p + ers * profTBers p) * 1000 /
      (bytes / max 1 (unitCap p false) * profTProg p))) :=
  if_neg h

theorem waPermille_none {p : Bytes} {prog ers bytes : Nat} (h : bytes / max 1 (unitCap p false) * profTProg p = 0) :
    waPermille p prog ers bytes = none :=
  if_pos h

/-- The percentile of R133 in permille, with a free value where only some of the reads needed a retry (log 3). -/
def Media.retryShare (m : Media) (d : Nat) : Nat :=
  if m.pageRetries = 0 then 0 else if m.pageReads ≤ m.pageRetries then 1000 else min 1000 (d % 1001)

theorem Media.retryShare_le (m : Media) (d : Nat) : m.retryShare d ≤ 1000 := by
  unfold Media.retryShare
  split
  · exact Nat.zero_le _
  split
  · exact Nat.le_refl _
  · exact Nat.min_le_left ..

/-- Nothing holds back the report of a minute of SERVE that has passed. -/
theorem minuteReport_free {serving : Bool} {now due : Nat} (hserve : serving = true) (hdue : due ≤ now) :
    ¬(!serving || decide (now < due)) = true := by
  simp [hserve, hdue]

/-- Settles O52. WA_m with no user unit and the percentile where only some reads retried are free values (log 3). -/
theorem minuteReports : Obligations.MinuteReports := by
  unfold Obligations.MinuteReports
  dsimp only
  intro s t hserve
  have hserve' : (s.advance t).serving = true := hserve
  refine ⟨fun hdue => ?wam, fun hdue => ?rho⟩
  case wam =>
    refine ⟨fun hunits => ?_, fun hnone => ⟨max 1000 (Config.freeNat s.free % 2 ^ 16), Nat.le_max_left .., ?_⟩⟩
    · refine (if_neg (minuteReport_free hserve' hdue)).trans ?_
      simp only [State.advance_media, waPermille_some hunits]
      rfl
    · refine (if_neg (minuteReport_free hserve' hdue)).trans ?_
      simp only [State.advance_media, waPermille_none hnone]
      rfl
  case rho =>
    refine ⟨s.media.retryShare (Config.freeNat s.free), fun hnone => if_pos hnone, fun hsome hall => ?_, Media.retryShare_le .., ?_⟩
    · exact (if_neg hsome).trans (if_pos hall)
    · exact if_neg (minuteReport_free hserve' hdue)

end Sys2Proof.Machine
end

section
/-! Live activation, the flash copy and Lace (15 R430, R433 to R441, 05 R150). -/

namespace Sys2Proof.Machine

section Lace

variable {s : State} (hst : s.fw.lace.st = .sending ∨ s.fw.lace.st = .waiting)

include hst

/-- A forward that goes on, and whose messages have all been answered, is not held back (15 R438). -/
theorem State.laceNext_free (hidle : s.laceBusy = false) : ¬(s.laceBusy = true ∨ (s.fw.lace.st ≠ .sending ∧ s.fw.lace.st ≠ .waiting)) := by
  rintro (hbusy | ⟨hsend, hwait⟩)
  · exact Bool.false_ne_true (hidle.symm.trans hbusy)
  · exact hst.elim hsend hwait

/-- The next piece of an image that is not sent in full goes to the successor (15 R438). -/
theorem State.laceNext_segment (hidle : s.laceBusy = false) (hmore : s.fw.lace.sentBytes < s.fw.lace.image.length) :
    s.laceNext = (let l := s.fw.lace; let b := sliceBytes l.image l.sentBytes 240
      (({ s with fw := { s.fw with lace := { l with st := .sending } } } : State).peerCmd l.successor 0x50 0 0 3
        (beBytes 4 (laceId l.image) ++ beBytes 4 l.image.length ++ beBytes 4 l.sentBytes ++ beBytes 2 b.length ++ zeros 2 ++ b) [] [] id)) :=
  (if_neg (State.laceNext_free hst hidle)).trans (if_pos hmore)

/-- FW_ACTIVATE follows an image that is sent in full (15 R438). -/
theorem State.laceNext_activate (hidle : s.laceBusy = false) (hall : s.fw.lace.image.length ≤ s.fw.lace.sentBytes) :
    s.laceNext = (let l := s.fw.lace
      (({ s with fw := { s.fw with lace := { l with st := .waiting, activateSent := true } } } : State).peerCmd
        l.successor 0x51 0 0 3 (beBytes 4 (laceId l.image) ++ zeros 4) [] [] id)) :=
  (if_neg (State.laceNext_free hst hidle)).trans (if_neg (Nat.not_lt.2 hall))

end Lace

/-- Settles O58. The handover record is made when the pause begins, its digest and places free values (logs 3 and 74). That
segments go one at a time, and the numbers of causes, are log 33. -/
theorem activationAndLace : Obligations.ActivationAndLace := by
  unfold Obligations.ActivationAndLace
  dsimp only
  intro s t
  refine ⟨fun hphase hfits => ?pause, fun hphase => ⟨fun hintime => ?inTime, fun hlate ok => ?late⟩, fun hphase => ?rejoin,
    fun step cause hphase => ?failure, fun hcopy => ⟨fun hmode => ?copied, fun hmode => ?forwards, ?copyFails⟩,
    fun hst hidle => ⟨fun hmore => ?segment, fun hall => ?activate⟩, fun hst hsent hdue => ?skip,
    fun r b m h hst => ?reply⟩
  case pause => exact congrArg Host.Outcome.next (if_pos ⟨hphase, hfits⟩)
  case inTime =>
    have hintime' : ¬s.fw.act.pauseAt + 2 * nsMs < (s.advance t).now := Nat.not_lt.2 hintime
    refine ⟨(if_pos hphase).trans ?_, (if_pos hphase).trans ?_⟩
    · rw [State.advance_fw, if_neg hintime', if_pos rfl]
      rfl
    · rw [State.advance_fw, if_neg hintime', if_neg Bool.false_ne_true]
      rfl
  case late =>
    refine (if_pos hphase).trans ?_
    rw [State.advance_fw, if_pos (show s.fw.act.pauseAt + 2 * nsMs < (s.advance t).now from hlate)]
    rfl
  case rejoin => exact congrArg Host.Outcome.next (if_pos hphase)
  case failure => exact if_pos hphase
  case copied => exact congrArg Host.Outcome.next ((if_pos hcopy).trans (if_neg hmode))
  case forwards => exact congrArg Host.Outcome.next ((if_pos hcopy).trans (if_pos hmode))
  case copyFails => exact congrArg Host.Outcome.next (if_pos hcopy)
  case segment => exact congrArg Host.Outcome.next (State.laceNext_segment (s := s.advance t) hst hidle hmore)
  case activate => exact congrArg Host.Outcome.next (State.laceNext_activate (s := s.advance t) hst hidle hall)
  case skip => exact congrArg Host.Outcome.next (if_pos ⟨hst, hsent, hdue⟩)
  case reply =>
    have hgoes : ¬(b.fw.lace.st ≠ .sending ∧ b.fw.lace.st ≠ .waiting) := fun hno => hst.elim hno.1 hno.2
    refine ⟨fun hop => ?_, fun hop => ?_⟩
    · change execLaceReply t r s = _
      simp only [execLaceReply, h, if_neg hgoes, if_pos hop]
    · have hother : ¬r.opcode = 0x50 := by rw [hop]; decide
      change execLaceReply t r s = _
      simp only [execLaceReply, h, if_neg hgoes, if_neg hother, if_pos hop]

end Sys2Proof.Machine
end

section
/-! Awl's policy table and its bank map (06 R176, R181, R186). -/

namespace Sys2Proof.Machine

/-- The entry that an AwlPolicyEntry carries (06 Table 6.5). -/
def carriedEntry (b : Bytes) : AwlEntry := (policyEntry b).2.2

section Row

variable {s : State} {b : Bytes} (hok : policyReservedOk b = true)

include hok

/-- WRITE sets its row (06 R186). -/
theorem State.policyAfter_write (hop : beAt b 0 1 = 0) (hin : beAt b 2 2 < s.policyLimit) :
    s.policyAfter b = some (mapPut s.awl.policy (beAt b 2 2) (some (carriedEntry b))) := by
  simp only [State.policyAfter, policyEntry, carriedEntry, hok, hop, Bool.not_true, Bool.false_eq_true, if_false, if_pos hin]

/-- DELETE clears its row (06 R186). -/
theorem State.policyAfter_delete (hop : beAt b 0 1 = 1) (hin : beAt b 2 2 < s.policyLimit) :
    s.policyAfter b = some (mapPut s.awl.policy (beAt b 2 2) none) := by
  simp only [State.policyAfter, policyEntry, hok, hop, Bool.not_true, Bool.false_eq_true, if_false, if_pos hin]

/-- INSERT moves the rows below the nearest free one up (06 R181, R186). -/
theorem State.policyAfter_insert {f : Nat} (hop : beAt b 0 1 = 2) (hin : beAt b 2 2 < s.policyLimit)
    (hfree : freeRow s.awl.policy (beAt b 2 2) s.policyLimit = some f) :
    s.policyAfter b = some (insertRow s.awl.policy (beAt b 2 2) f (carriedEntry b)) := by
  simp only [State.policyAfter, policyEntry, carriedEntry, hok, hop, Bool.not_true, Bool.false_eq_true, if_false, if_neg (Nat.not_le.2 hin),
    hfree]

/-- COMPACT spreads the entries where they fit (06 R186). -/
theorem State.policyAfter_compact (hop : beAt b 0 1 = 3) (hzero : beAt b 2 2 = 0) (hrest : allZero (b.drop 4) = true)
    (hfits : compactNeed s.awl.policy.length (s.num K.policyHoleInterval) ≤ s.policyLimit) :
    s.policyAfter b = some (compactRows s.awl.policy (s.num K.policyHoleInterval)) := by
  simp only [State.policyAfter, policyEntry, hok, hop, Bool.not_true, Bool.false_eq_true, if_false,
    if_pos (And.intro hzero (And.intro hrest hfits))]

end Row

theorem dictRow?_awlPolicyEntry : dictRow? K.awlPolicyEntry = some ⟨K.awlPolicyEntry, .dom, .wo, .sys, 0, none, none⟩ := rfl
theorem dictRow?_awlBankMap : dictRow? K.awlBankMap = some ⟨K.awlBankMap, .u32, .rw, .sys, 0x80000015, none, none⟩ := rfl

/-- An accepted AwlPolicyEntry takes effect, and its write ends with the store (06 R186). -/
theorem State.writeStr_awlPolicyEntry {s : State} {b : Bytes} {rows : List (Nat × AwlEntry)} (hafter : s.policyAfter b = some rows) :
    s.writeStr ⟨K.awlPolicyEntry, .dom, .wo, .sys, 0, none, none⟩ b = (s.setPolicy rows, .stored) := by
  have hmap : ¬K.awlPolicyEntry = K.groupMap := by decide
  simp only [State.writeStr, if_neg hmap, if_true, hafter]

/-- Outside an execution pause the command of an accepted AwlPolicyEntry's operation puts the table in effect (06 R186). -/
theorem State.policyWrite_accepted {s : State} {c : Client} {op : Nat} {b : Bytes} {rows : List (Nat × AwlEntry)} (hrun : s.paused = false)
    (hpass : s.writePasses c K.awlPolicyEntry b = true) (hop : beAt b 0 1 = op) (hafter : s.policyAfter b = some rows) :
    s.policyWrite c op b = (s.setPolicy rows).awaitStore .none := by
  have hset := State.dictSet_str dictRow?_awlPolicyEntry hpass rfl
  rw [State.writeStr_awlPolicyEntry hafter] at hset
  exact (if_pos hop).trans (State.dictApply_of_stored hrun hset)

/-- AwlBankMap takes any map that keeps its constraints (06 R176). -/
theorem State.numOk_awlBankMap {s : State} {v : Nat} (hok : s.bankMapOk v = true) :
    s.numOk ⟨K.awlBankMap, .u32, .rw, .sys, 0x80000015, none, none⟩ v = true := by
  have hvalue : s.kvValueOk K.awlBankMap v = true := hok
  simp only [State.numOk, DictRow.inRange, Bool.and_true, Bool.true_and]
  exact hvalue

/-- Settles O44. What an accepted operation makes of the stored table is one lemma each (`State.policyAfter_write` and those after it);
`State.policyWrite_accepted` puts the table in effect. A bank map is a value of its entry, which nothing else follows: the map in effect
stays until MUSTER. -/
theorem awlPolicyWrites : Obligations.AwlPolicyWrites := by
  unfold Obligations.AwlPolicyWrites
  dsimp only
  intro s t c b hrun
  have hrun' : (s.advance t).paused = false := hrun
  refine ⟨fun hpass hok => ?policy, fun v hfit hpass hmap hon => ?bankMap⟩
  case policy =>
    have hputs {op : Nat} {rows : List (Nat × AwlEntry)} (hop : beAt b 0 1 = op) (hafter : (s.advance t).policyAfter b = some rows) :
        done ((s.advance t).policyWrite c op b) = .next (((s.advance t).setPolicy rows).awaitStore .none) :=
      congrArg Host.Outcome.next (State.policyWrite_accepted hrun' hpass hop hafter)
    exact ⟨fun hop hin => hputs hop (State.policyAfter_write hok hop hin),
      fun hop hin => hputs hop (State.policyAfter_delete hok hop hin),
      fun f hop hin hfree => hputs hop (State.policyAfter_insert hok hop hin hfree),
      fun hop hzero hrest hfits => hputs hop (State.policyAfter_compact hok hop hzero hrest hfits)⟩
  case bankMap =>
    have hset := State.dictSet_num dictRow?_awlBankMap hpass rfl
    rw [ofBE_beBytes_of_lt hfit, State.writeNum_value c (by decide) (by decide) rfl (State.numOk_awlBankMap (s := s.advance t) hmap),
      State.putEntry_sys (s := s.advance t) rfl hon] at hset
    exact congrArg Host.Outcome.next (State.dictApply_of_stored hrun' hset)

end Sys2Proof.Machine
end

section
/-! Awl's site interface and scrub (06 R183, R191, R192). -/

namespace Sys2Proof.Machine

/-- An operation that has ended shows DONE, and ERR with its code where it was refused (06 R191, R192). -/
theorem Awl.at_ended {a : Awl} {n code : Nat} (hpend : a.pend = some code) (hend : a.busyUntil ≤ n) :
    a.at_ n = { a with pend := none, done := true, err := a.err || code != 0, errCode := if code = 0 then a.errCode else code } := by
  simp only [Awl.at_, hpend, if_pos hend]

/-- The registers show nothing new while an operation runs, or where none has run (06 R191). -/
theorem Awl.at_running {a : Awl} {n : Nat} (hrun : a.pend = none ∨ n < a.busyUntil) : a.at_ n = a := by
  unfold Awl.at_
  split
  · next code hpend =>
    have hstill : n < a.busyUntil := hrun.resolve_left (by simp [hpend])
    exact if_neg (Nat.not_le.2 hstill)
  · rfl

/-- A site operation runs until a time, after which it shows an error code, 0 for none. -/
def State.siteRuns (s : State) (until_ code : Nat) : State := { s with awl := { s.awl with busyUntil := until_, pend := some code } }

/-- With no operation running, a site operation has its effect and runs for the cycles that it took, or its bound (06 R191, Table 6.10). -/
theorem State.siteOp_free {s u : State} {took code : Nat} {cclk : State → Nat} {f : State → State × Nat} (hon : s.kvUp = true)
    (hfree : s.awlBusy = false) (heffect : f s.awlSettle = (u, code)) :
    s.siteOp took cclk f = u.siteRuns (s.now + ceilDiv (2 * min took (cclk u)) 3) code := by
  simp [State.siteOp, State.siteRuns, hon, hfree, heffect]

/-- An operation given while another runs ends with BUSY (06 R192). -/
theorem State.siteOp_busy {s : State} (hon : s.kvUp = true) (hbusy : s.awlBusy = true) (took : Nat) (cclk : State → Nat)
    (f : State → State × Nat) : s.siteOp took cclk f = s.siteErr 5 := by
  simp [State.siteOp, hon, hbusy]

/-- Settles O59. While no operation runs each one has its effect (`State.siteOp_free`), which its clause computes from the row it
names. The effect stands from the start of the operation (log 109), which runs for the cycles that its command names, at most its bound
(log 70). -/
theorem awlSiteCommands : Obligations.AwlSiteCommands := by
  unfold Obligations.AwlSiteCommands
  refine ⟨fun a n => ⟨fun code => Awl.at_ended, Awl.at_running⟩, ?_⟩
  intro s t took hon a
  have hon' : a.kvUp = true := hon
  refine ⟨?free, fun hbusy => congrArg Host.Outcome.next (State.siteOp_busy hon' hbusy ..), fun hdue => ?scrub,
    congrArg Host.Outcome.next (if_pos hon')⟩
  case free =>
    intro hfree b runs row g hole
    have hruns {n code : Nat} {u : State} {cclk : State → Nat} {f : State → State × Nat} (heffect : f b = (u, code))
        (hbound : cclk u = n) :
        done (a.siteOp took cclk f) = .next (runs n u code) := by
      subst hbound
      exact congrArg Host.Outcome.next (State.siteOp_free hon' hfree heffect)
    refine ⟨fun hrow => ?inside, fun hrow => ?outside, fun f => ?search⟩
    case inside =>
      have hin : ¬(!b.siteRowOk row) = true := by simp [hrow]
      refine ⟨fun r hr => hruns ((if_neg hin).trans ?read) rfl, fun hinv => ?write,
        fun hval k => hruns ((if_neg hin).trans (if_pos hval)) rfl,
        fun r hr => ⟨hruns ((if_neg hin).trans ?validate) rfl, hruns ((if_neg hin).trans ?unshadowed) rfl⟩,
        fun hnone k => hruns ((if_neg hin).trans ?blank) rfl, hruns (if_pos hrow) rfl, hruns (if_pos hrow) rfl,
        fun r hdest hr hval hinv => ?move, fun i hi => hruns ((if_neg hin).trans ?found) rfl,
        fun hnone => hruns ((if_neg hin).trans ?full) rfl⟩
      case read =>
        rw [hr]
        rfl
      case write =>
        exact hruns ((if_neg hin).trans ((if_neg (Bool.eq_false_iff.1 hinv)).trans (if_neg (by decide)))) rfl
      case validate =>
        rw [hr]
        exact if_pos rfl
      case unshadowed =>
        rw [hr]
        exact if_neg Bool.false_ne_true
      case blank => rw [hnone]
      case move =>
        have hboth : ¬(!b.siteRowOk row || !b.siteRowOk b.awl.dest) = true := by simp [hrow, hdest]
        have hvalid : ¬(!r.valid) = true := by simp [hval]
        refine hruns ((if_neg hboth).trans ?_) rfl
        rw [hr]
        exact (if_neg hvalid).trans ((if_neg (Bool.eq_false_iff.1 hinv)).trans (if_neg (by decide)))
      case found =>
        simp only [hole, row] at hi
        simp only [hi, row]
      case full =>
        simp only [hole, row] at hnone
        simp only [hnone]
    case outside =>
      have hout : (!b.siteRowOk row) = true := by simp [hrow]
      have hmove : (!b.siteRowOk row || !b.siteRowOk b.awl.dest) = true := by simp [hrow]
      exact ⟨hruns (if_pos hout) rfl, fun k => hruns (if_pos hout) rfl, fun k => hruns (if_pos hout) rfl,
        fun k => hruns (if_neg (Bool.eq_false_iff.1 hrow)) rfl, fun k => hruns (if_pos hmove) rfl, hruns (if_pos hout) rfl⟩
    case search =>
      intro h c n
      refine ⟨fun hmiss => hruns ?miss rfl, fun r hhit => hruns ?hit rfl⟩
      case miss =>
        simp only [h] at hmiss
        simp only [c, h, hmiss]
      case hit =>
        simp only [h] at hhit
        simp only [c, h, hhit]
  case scrub =>
    have hgo : (a.kvUp && decide (a.awl.lastScrub + a.scrubPeriod ≤ a.now)) = true := by
      rw [hon']
      exact decide_eq_true hdue
    exact ⟨congrArg Host.Outcome.next (if_pos hgo), fun f => congrArg Host.Outcome.next (if_pos hgo)⟩

end Sys2Proof.Machine
end

section
/-! The end of recovery (09 R286). -/

namespace Sys2Proof.Machine

/-- A written part whose anchor area cannot be read, or of which no checkpoint is whole, has no base to recover from (09 R285, R286). -/
def State.baseLost (s : State) : Bool :=
  s.written && (!s.media.board.anchorOk || (!s.media.cycles.isEmpty && s.baseCycle.isNone))

theorem State.baseLost_iff (s : State) : s.baseLost = true ↔
    s.written = true ∧ (s.media.board.anchorOk = false ∨ (s.media.cycles ≠ [] ∧ s.baseCycle = none)) := by
  simp [State.baseLost]

theorem State.baseLost_eq_false {s : State}
    (hbase : s.written = false ∨ (s.media.board.anchorOk = true ∧ (s.media.cycles = [] ∨ s.baseCycle ≠ none))) : s.baseLost = false := by
  rcases hbase with hblank | ⟨hanchor, hnone | hwhole⟩ <;> simp [State.baseLost, Option.isSome_iff_ne_none, *]

section Recovery

variable {s : State} (t : Nat) {r : RecoveryReport} (hmuster : s.settled .muster = true) (hrec : s.mode.recovering = true)

include hmuster hrec

/-- Nothing holds back the end of a recovery that runs in MUSTER (09 R286). -/
theorem State.recovery_runs : ¬(!(s.settled .muster) || !s.mode.recovering) = true := by
  simp [hmuster, hrec]

/-- Recovery on a BLANK part ends MUSTER and recovers nothing (09 R286). -/
theorem execRecoveryComplete_blank (hlife : s.life = 0) :
    execRecoveryComplete t r s = .next ((s.advance t).numberEvents.leaveMuster).goneOn :=
  (if_neg (State.recovery_runs hmuster hrec)).trans (if_pos hlife)

/-- A part that is RETIRED or has no seed cannot read its media (09 R286). -/
theorem execRecoveryComplete_unreadable (hbad : s.life = 4 ∨ (s.life ≠ 0 ∧ s.sec.seed = none)) :
    execRecoveryComplete t r s = .next ((s.advance t).recoverFailed 2 0) := by
  have hlife : s.life ≠ 0 := by omega
  exact (if_neg (State.recovery_runs hmuster hrec)).trans ((if_neg hlife).trans (if_pos (hbad.imp id And.right)))

variable (hlife : s.life ≠ 0) (hretired : s.life ≠ 4) (hseed : s.sec.seed ≠ none)

include hlife hretired hseed

/-- A recovery that stopped fails at its step (09 R286). -/
theorem execRecoveryComplete_stopped {step cause : Nat} (hfail : r.failed = some (step, cause)) :
    execRecoveryComplete t r s = .next ((s.advance t).recoverFailed step cause) := by
  refine (if_neg (State.recovery_runs hmuster hrec)).trans ((if_neg hlife).trans ((if_neg (not_or.2 ⟨hretired, hseed⟩)).trans ?_))
  rw [hfail]

/-- A part without a base cannot be recovered (09 R285, R286). -/
theorem execRecoveryComplete_baseLost (hok : r.failed = none) (hlost : (s.advance t).baseLost = true) :
    execRecoveryComplete t r s = .next ((s.advance t).recoverFailed 2 1) := by
  refine (if_neg (State.recovery_runs hmuster hrec)).trans ((if_neg hlife).trans ((if_neg (not_or.2 ⟨hretired, hseed⟩)).trans ?_))
  rw [hok]
  exact if_pos hlost

/-- Any other recovery ends MUSTER with what it found (09 R286). -/
theorem execRecoveryComplete_recovered (hok : r.failed = none) (hbase : (s.advance t).baseLost = false) :
    execRecoveryComplete t r s
      = .next ((((s.advance t).recover r.durationMs).setNum K.lastRecoveryMs (min 0xFFFFFFFF r.durationMs)).leaveMuster).goneOn := by
  refine (if_neg (State.recovery_runs hmuster hrec)).trans ((if_neg hlife).trans ((if_neg (not_or.2 ⟨hretired, hseed⟩)).trans ?_))
  rw [hok]
  exact if_neg (Bool.eq_false_iff.1 hbase)

end Recovery

end Sys2Proof.Machine
end

section
/-! Repair and rebalance of committed stripes (07 R225 to R227); with recovery above, checkpoints (09 R283 to R285), the purge pass
(06 R478) and the hot window (06 R189). -/

namespace Sys2Proof.Machine

/-- A new window of the rate leaves the mode alone (07 R227). -/
@[simp] theorem State.rateWindow_serving (s : State) : s.rateWindow.serving = s.serving := by
  unfold State.rateWindow
  dsimp only
  split <;> rfl

section Repairs

variable {s : State} {i : StripeId} {idx : Nat} {q : Repair} {r : CommitRec} (hserve : s.serving = true)

include hserve

/-- In SERVE a repair's own command is not held back (07 R226). -/
theorem State.repair_runs (q : Repair) : ¬(q.rebalance ≠ q.rebalance ∨ (!s.rateWindow.serving) = true) := by
  simp [hserve]

variable (hq : s.repair? i idx = some q)

include hq

/-- A stripe whose record is gone leaves the queue (07 R226). -/
theorem State.runRepair_gone (hgone : s.rateWindow.recOfStripe i = none) : s.runRepair i idx q.rebalance = s.rateWindow.dropRepair q := by
  simp only [State.runRepair, hq, if_neg (State.repair_runs hserve q), hgone]

variable (hrec : s.rateWindow.recOfStripe i = some r)

include hrec

/-- The next stripe of its queue starts while its window's allowance lasts (07 R226, R227). -/
theorem State.runRepair_starts (hst : q.st = .queued) (hfirst : s.rateWindow.repairable q = true ∧ s.rateWindow.repairNext q = true ∧
    0 < s.rateWindow.rateLeft q.rebalance) : s.runRepair i idx q.rebalance = s.rateWindow.repairStart q r := by
  have hgo : (s.rateWindow.repairable q && s.rateWindow.repairNext q && decide (0 < s.rateWindow.rateLeft q.rebalance)) = true := by
    simpa [and_assoc] using hfirst
  simp only [State.runRepair, hq, if_neg (State.repair_runs hserve q), hrec]
  exact (if_pos (.inl hst)).trans (if_pos hgo)

/-- A queued stripe that another comes before, or that finds no allowance, waits (07 R227). -/
theorem State.runRepair_waits (hst : q.st = .queued) (hlater : ¬(s.rateWindow.repairable q = true ∧ s.rateWindow.repairNext q = true ∧
    0 < s.rateWindow.rateLeft q.rebalance)) : s.runRepair i idx q.rebalance = s.rateWindow := by
  have hstays : ¬(s.rateWindow.repairable q && s.rateWindow.repairNext q && decide (0 < s.rateWindow.rateLeft q.rebalance)) = true := by
    simpa [and_assoc] using hlater
  simp only [State.runRepair, hq, if_neg (State.repair_runs hserve q), hrec]
  exact (if_pos (.inl hst)).trans (if_neg hstays)

/-- A stripe that has its answers reads its next part (07 R226, R227). -/
theorem State.runRepair_reads (hst : q.st = .reading) (hheld : s.rateWindow.welt.lost.contains q.target = false)
    (hanswered : s.rateWindow.repairAsks q = false) : s.runRepair i idx q.rebalance = s.rateWindow.repairMore q r := by
  have hgoes : ¬(q.st = .queued ∨ s.rateWindow.welt.lost.contains q.target = true) := by simp only [hst, hheld]; decide
  simp only [State.runRepair, hq, if_neg (State.repair_runs hserve q), hrec]
  exact (if_neg hgoes).trans (if_pos ⟨hst, hanswered⟩)

end Repairs

/-- A repair and a rebalance are run alike, each by its own command (07 R226). -/
theorem exec_runRepair {s u : State} {t : Nat} {i : StripeId} {idx : Nat} {rebalance : Bool}
    (h : (s.advance t).runRepair i idx rebalance = u) :
    (rebalance = false → exec (.stripeRepair t i idx) s = .next u.settle) ∧
      (rebalance = true → exec (.stripeRebalance t i idx) s = .next u.settle) := by
  subst h
  exact ⟨by rintro rfl; rfl, by rintro rfl; rfl⟩

/-- Settles O56. A row's guard holds in its clause; recovery and repair have one lemma for each end of theirs. What recovery fails on is
found from State when it completes (log 80); a cycle's sections of one kind are one record, with one entry of CKPT_END (log 82); a
stripe goes on with what is left of its window's allowance (log 37). -/
theorem passesAndRepair : Obligations.PassesAndRepair := by
  unfold Obligations.PassesAndRepair
  refine ⟨fun s t => ?passes, fun s t i idx q hserve hq => ?repair⟩
  case passes =>
    intro a
    refine ⟨?cycleEnds, fun hnone => ?noCycle, fun r hmuster hrec => ?recovery, ?purge,
      fun hon hdue => ?hotWindow⟩
    case cycleEnds =>
      intro c hrun hw u d v w y
      have hgo : ¬(!a.writable) = true := by simp [show a.writable = true from hw]
      change execCheckpointEnd t s = _
      unfold execCheckpointEnd
      extract_lets
      rw [show a.media.running = some c from hrun]
      refine (if_neg hgo).trans ?_
      dsimp only [y, w, v, d, u]
      rfl
    case noCycle =>
      change execCheckpointEnd t s = _
      unfold execCheckpointEnd
      extract_lets
      rw [show a.media.running = none from hnone]
    case recovery =>
      exact ⟨execRecoveryComplete_blank t hmuster hrec, execRecoveryComplete_unreadable t hmuster hrec, fun hlife hretired hseed =>
        ⟨fun step cause => execRecoveryComplete_stopped t hmuster hrec hlife hretired hseed,
          fun hok hwritten hlost =>
            execRecoveryComplete_baseLost t hmuster hrec hlife hretired hseed hok (a.baseLost_iff.2 ⟨hwritten, hlost⟩),
          fun hok hbase => execRecoveryComplete_recovered t hmuster hrec hlife hretired hseed hok (State.baseLost_eq_false hbase)⟩⟩
    case purge =>
      intro e hpass hdue hon l u
      have hgo : ¬(a.now < e ∨ a.kvUp = false) := fun h => h.elim (Nat.not_lt.2 hdue) (Bool.eq_false_iff.1 · hon)
      change execPurgePassEnd t s = _
      unfold execPurgePassEnd
      extract_lets
      rw [show a.idx.passEnd = some e from hpass]
      exact congrArg Host.Outcome.next (if_neg hgo)
    case hotWindow =>
      have hdue' : a.awl.lastClear + a.num K.hotWindowMs * nsMs ≤ a.now := hdue
      have hgo : (a.kvUp && decide (a.awl.lastClear + a.num K.hotWindowMs * nsMs ≤ a.now)) = true := by
        rw [show a.kvUp = true from hon, decide_eq_true hdue']
        rfl
      exact congrArg Host.Outcome.next (if_pos hgo)
  case repair =>
    exact ⟨fun r hrec hst hfirst => exec_runRepair (State.runRepair_starts (s := s.advance t) hserve hq hrec hst hfirst),
      fun r hrec hst hlater => exec_runRepair (State.runRepair_waits (s := s.advance t) hserve hq hrec hst hlater),
      fun r hrec hst hheld hanswered => exec_runRepair (State.runRepair_reads (s := s.advance t) hserve hq hrec hst hheld hanswered),
      fun hgone => exec_runRepair (State.runRepair_gone (s := s.advance t) hserve hq hgone)⟩

end Sys2Proof.Machine
end

section
/-! The WriteStamp of a key's next write (07 R207, R224). -/

namespace Sys2Proof.Machine

/-- The last WriteStamp given to a key, 0 where none is kept (07 R224). -/
def State.lastStamp (s : State) (inst hash : Nat) : Nat :=
  ((s.welt.stamps.find? fun y => y.1 == inst && y.2.1 == hash).map (·.2.2)).getD 0

theorem State.lastStamp_kept (s : State) (inst hash : Nat) :
    s.lastStamp inst hash = 0 ∨ ∃ y ∈ s.welt.stamps, y = (inst, hash, s.lastStamp inst hash) := by
  unfold State.lastStamp
  cases hfind : s.welt.stamps.find? fun y => y.1 == inst && y.2.1 == hash with
  | none => exact .inl rfl
  | some y =>
    obtain ⟨hinst, hhash⟩ : y.1 = inst ∧ y.2.1 = hash := by simpa using List.find?_some hfind
    subst hinst hhash
    exact .inr ⟨y, List.mem_of_find?_eq_some hfind, rfl⟩

theorem State.stampFor_some (s : State) (inst hash : Nat) (r : CommitRec) :
    s.stampFor inst hash (some r) = max s.ptp (max (s.lastStamp inst hash) r.stamp + 1) := rfl

theorem State.stampFor_none (s : State) (inst hash : Nat) :
    s.stampFor inst hash none = max s.ptp (s.lastStamp inst hash + 1) := by
  rw [← Nat.max_zero (s.lastStamp inst hash)]
  rfl

theorem State.lastStamp_lt_stampFor (s : State) (inst hash : Nat) (cur : Option CommitRec) :
    s.lastStamp inst hash < s.stampFor inst hash cur :=
  Nat.lt_of_lt_of_le (Nat.lt_succ_of_le (Nat.le_max_left ..)) (Nat.le_max_right ..)

theorem State.ptp_le_stampFor (s : State) (inst hash : Nat) (cur : Option CommitRec) : s.ptp ≤ s.stampFor inst hash cur :=
  Nat.le_max_left ..

theorem State.stamp_lt_stampFor (s : State) (inst hash : Nat) (r : CommitRec) : r.stamp < s.stampFor inst hash (some r) :=
  Nat.lt_of_lt_of_le (Nat.lt_succ_of_le (Nat.le_max_right ..)) (Nat.le_max_right ..)

/-- Settles O8. A write takes `State.stampFor`, which is above the last stamp kept for its key and above its current record's. -/
theorem writeStampsRise : Obligations.WriteStampsRise := by
  unfold Obligations.WriteStampsRise
  intro s p x inst hash cur
  refine ⟨s.lastStamp_kept inst hash, fun r hcur => ?current, fun hcur => ?new, s.lastStamp_lt_stampFor inst hash cur,
    s.ptp_le_stampFor inst hash cur⟩
  case current =>
    subst hcur
    exact ⟨s.stampFor_some inst hash r, s.stamp_lt_stampFor inst hash r⟩
  case new =>
    subst hcur
    exact s.stampFor_none inst hash

end Sys2Proof.Machine
end

section
/-! The group's epochs, the handoff of keys that move, and the release of superseded stripes (07 R198, R216, R220 to R223). -/

namespace Sys2Proof.Machine

/-- A pull whose time is up ends: its key is taken over where no member of the current epoch still owes an answer, and otherwise the
command that waits is refused (07 R222, log 113). -/
theorem execHandoffPullTimeout_due {s : State} (t : Nat) {sid tag : Nat} {c : CmdCtx} {g : Gather} (hc : s.cmd? sid tag = some c)
    (hst : c.st = .undecided) (hop : keyOp c.pkt.opcode = true)
    (hg : s.gather? c.pkt.ns c.pkt.gen (s.hashes c.pkt.ns c.pkt.gen c.pkt.key).1 = some g) (howed : g.awaiting ≠ [])
    (hdue : g.since + s.fragTimeout ≤ max s.now t) :
    execHandoffPullTimeout t sid tag s =
      if (g.awaiting.filter fun m => s.welt.cur.any fun x => (x.member? m).isSome).isEmpty = true
      then .next ((((s.advance t).setGather { g with awaiting := [] }).adoptGather g.ns g.gen g.hash).goneOn)
      else .next ((({ s.advance t with welt := { s.welt with gathers := s.welt.gathers.filter fun x =>
          !(x.ns == g.ns && x.gen == g.gen && x.hash == g.hash) } } : State).refuseCmd c (s.num K.peerFragTimeoutUs) 6).goneOn) := by
  have hc' : (s.advance t).cmd? sid tag = some c := hc
  have hg' : (s.advance t).gather? c.pkt.ns c.pkt.gen ((s.advance t).hashes c.pkt.ns c.pkt.gen c.pkt.key).1 = some g := hg
  have hwaits : ¬(c.st ≠ .undecided ∨ keyOp c.pkt.opcode = false) := by simp [hst, hop]
  have hends : ¬(g.awaiting.isEmpty = true ∨ (s.advance t).now < g.since + (s.advance t).fragTimeout) := by
    rintro (hnone | hearly)
    · exact howed (List.isEmpty_iff.1 hnone)
    · exact Nat.not_lt.2 hdue hearly
  simp only [execHandoffPullTimeout, hc', if_neg hwaits, hg', if_neg hends]
  rfl

/-- Settles O20: each row's guard holds in its clause. When a pull times out, members that the current epoch no longer names count as
having answered, and the gathering is dropped with a refusal, by the model's choice (log 113); pending writes are gathered only where the
old home has left (log 60). -/
theorem epochsAndHandoff : Obligations.EpochsAndHandoff := by
  unfold Obligations.EpochsAndHandoff
  dsimp only
  intro s t
  refine ⟨fun c b => rfl, fun g hmap => ?epoch, fun ns hash o ho => ?oldHome, fun ns hash o ho hdue => ?nextHolder,
    fun sid tag c hc hst hop g hg howed hdue => ?pull, fun ns hash g inst hg hinst => ?resolve, fun stripe r pos hold hended => ?release⟩
  case epoch =>
    have hmap' : (s.advance t).welt.pendingMap = some g := hmap
    change (_ → execEpochActivate t s = _) ∧ (_ → execEpochActivate t s = _)
    simp only [execEpochActivate, hmap']
    exact ⟨fun hcome => if_pos hcome, fun hearly => if_neg (Nat.not_le.2 hearly)⟩
  case oldHome =>
    have ho' : ((s.advance t).welt.owed.find? fun o => o.ns == ns && o.hash == hash && !o.sent && o.rank == 0) = some o := ho
    change (_ → execHandoffSend t ns hash s = _) ∧ (_ → execHandoffSend t ns hash s = _)
    simp only [execHandoffSend, ho']
    exact ⟨fun hended => if_neg (Bool.eq_false_iff.1 hended), fun hruns => if_pos hruns⟩
  case nextHolder =>
    have ho' : ((s.advance t).welt.owed.find? fun o => o.ns == ns && o.hash == hash && !o.sent && decide (0 < o.rank)) = some o := ho
    change execHandoffFallbackTimeout t ns hash s = _
    simp only [execHandoffFallbackTimeout, ho']
    exact if_neg (Nat.not_lt.2 hdue)
  case pull =>
    change (_ → execHandoffPullTimeout t sid tag s = _) ∧ (_ → execHandoffPullTimeout t sid tag s = _)
    rw [execHandoffPullTimeout_due t hc hst hop hg howed hdue]
    exact ⟨fun hall => if_pos (List.isEmpty_iff.2 hall), fun hsome => if_neg (hsome ∘ List.isEmpty_iff.1)⟩
  case resolve =>
    have hg' : ((s.advance t).welt.gathers.find? fun g => g.ns == ns && g.hash == hash && g.awaiting.isEmpty && !g.pending.isEmpty) = some g := hg
    have hinst' : (s.advance t).instOf g.ns g.gen = some inst := hinst
    change execHandoffResolve t ns hash s = _
    simp only [execHandoffResolve, hg', hinst']
    rfl
  case release =>
    have hold' : ((s.advance t).kv.superseded.find? (·.1.stripe == stripe)) = some (r, pos) := hold
    have hnone : ((s.advance t).kv.cmds.any fun c => readOp c.pkt.opcode && c.admitted && decide (c.pos < pos) && c.pkt.ns == r.ns &&
        c.pkt.gen == r.gen && c.pkt.key == r.key) = false := by
      simpa [and_assoc] using hended
    change execSupersededRelease t stripe s = _
    simp only [execSupersededRelease, hold']
    exact if_neg (Bool.eq_false_iff.1 hnone)

end Sys2Proof.Machine
end

section
/-! Programs, erases, dies and calibration of the array (08 R238, R250; 09 R271 to R274, R282). -/

namespace Sys2Proof.Machine

/-- A superblock put into the list is the one found for its place. -/
theorem State.sb?_setSb (s : State) (x : Superblock) : (s.setSb x).sb? x.ds x.sb = some x := by
  unfold State.sb? State.setSb
  by_cases hlisted : s.media.sbs.any (fun y => y.ds == x.ds && y.sb == x.sb) = true
  · have hplace : (fun y : Superblock => y.ds == x.ds && y.sb == x.sb) ∘ (fun y => if y.ds = x.ds ∧ y.sb = x.sb then x else y)
        = fun y => y.ds == x.ds && y.sb == x.sb := by
      funext y
      by_cases hy : y.ds = x.ds ∧ y.sb = x.sb <;> simp [hy]
    obtain ⟨y, hy⟩ := Option.isSome_iff_exists.1 (List.find?_isSome.2 (List.any_eq_true.1 hlisted))
    have hat : y.ds = x.ds ∧ y.sb = x.sb := by simpa using List.find?_some hy
    simp only [hlisted, if_true, List.find?_map, hplace, hy, Option.map_some, if_pos hat]
  · have hnone : s.media.sbs.find? (fun y => y.ds == x.ds && y.sb == x.sb) = none := by
      simpa using hlisted
    simp [hlisted, List.find?_append, hnone]

/-- A unit waits for its program in a superblock whose SB_OPEN is programmed, and the array takes programs (08 R238, R250). -/
def State.unitReady (s : State) (u : UnitId) : Bool := s.writable && s.unitPending u && s.openLogged u

/-- What a failed program leads to (08 R250; 09 R273, R274): the superblock is closed and its records are appended again, the block is
retired, and the superblock becomes a forced victim. -/
def State.programFailed (b : State) (u : UnitId) : State :=
  let slc := b.slcAt u.ds u.sb
  let f := (b.bump K.programFailures).noteDestFail u
  let g : State := { f with media := { f.media with nProg := f.media.nProg + bit (!slc),
                                                    notReady := f.media.notReady.filter fun x => !(x.1 == u.ds && x.2.1 == u.slot) } }
  let h := (((g.useCounter (unitCws g.media.profile slc)).evacuate u.ds u.sb).retireBlock u.ds u.slot u.sb 1).force u.ds u.sb 1
  ((h.checkDieBlocks u.ds u.slot).settleMoves).checkShort

section Unit

variable {s : State} (t : Nat) {u : UnitId}

theorem State.unitReady_iff : s.unitReady u = true ↔ s.writable = true ∧ s.unitPending u = true ∧ s.openLogged u = true := by
  simp [State.unitReady, and_assoc]

/-- Nothing happens to a unit that does not wait for its program. -/
theorem execProgramComplete_idle (hidle : s.unitReady u = false) : execProgramComplete t u.stream u.place s = .next (s.advance t) :=
  if_neg (Bool.eq_false_iff.1 hidle)

theorem execProgramFailure_idle (hidle : s.unitReady u = false) : execProgramFailure t u s = .next (s.advance t) :=
  if_pos (congrArg not hidle)

variable (hready : s.unitReady u = true) (hissued : ((s.advance t).issueUnit u).issued u = true)

include hready hissued

/-- A program that the sequencer has issued passes (08 R242, R250). -/
theorem execProgramComplete_issued :
    execProgramComplete t u.stream u.place s = .next (((s.advance t).issueUnit u).programUnit u).goneOn :=
  (if_pos hready).trans (congrArg State.afterReply (if_pos hissued))

/-- A program that the sequencer has issued fails (08 R250; 09 R273, R274). -/
theorem execProgramFailure_issued :
    execProgramFailure t u s = .next (((s.advance t).issueUnit u).programFailed u).goneOn := by
  have hbusy : ¬(!s.unitReady u) = true := by simp [hready]
  have hgo : ¬(!((s.advance t).issueUnit u).issued u) = true := by simp [hissued]
  exact (if_neg hbusy).trans (if_neg hgo)

end Unit

section Erase

variable {s : State} (t : Nat) {ds sb : Nat}

/-- Nothing happens to a superblock that is not being erased. -/
theorem execErase_idle (hidle : s.media.erasing.contains (ds, sb) = false) :
    execEraseComplete t ds sb s = .next (s.advance t) ∧ ∀ slot, execEraseFailure t ds sb slot s = .next (s.advance t) := by
  have hguard : ((s.advance t).writable && (s.advance t).media.erasing.contains (ds, sb)) = false := by
    rw [State.advance_media, hidle, Bool.and_false]
  unfold execEraseComplete execEraseFailure
  cases hsb : (s.advance t).sb? ds sb with
  | none => simp only [hsb, implies_true, and_self]
  | some x =>
    simp only [hsb]
    exact ⟨if_neg (Bool.eq_false_iff.1 hguard), fun _ => if_neg (Bool.eq_false_iff.1 hguard)⟩

/-- An erase whose every block is issued ends; one that fails in a slot retires that block first (09 R271, R274). -/
theorem execErase_issued {x : Superblock} (hsb : s.sb? ds sb = some x) (hwritable : s.writable = true)
    (herase : s.media.erasing.contains (ds, sb) = true) (hissued : (s.advance t).runOps.erasesIssued ds sb = true) :
    execEraseComplete t ds sb s = .next ((s.advance t).runOps.erased ds sb x).goneOn ∧
    ∀ slot, execEraseFailure t ds sb slot s
      = .next ((((s.advance t).runOps.retireBlock ds slot sb 2).erased ds sb x).checkDieBlocks ds slot).goneOn := by
  have hsb' : (s.advance t).sb? ds sb = some x := hsb
  have hguard : ((s.advance t).writable && (s.advance t).media.erasing.contains (ds, sb)) = true :=
    Bool.and_eq_true_iff.2 ⟨hwritable, herase⟩
  unfold execEraseComplete execEraseFailure
  simp only [hsb', if_pos hguard, if_pos hissued]
  exact ⟨rfl, fun _ => rfl⟩

end Erase

/-- Before what follows it, an erase lists the superblock as FREE, or as UNUSABLE with fewer than 24 slots, with its count raised (Table 9.1). -/
theorem State.erased_lists (s : State) (ds sb : Nat) (x : Superblock) :
    ∃ v : State, s.erased ds sb x = (((v.settleMoves).slcFollow).checkShort).stirred ∧
      v.sb? ds sb = some { ds := ds, sb := sb, st := if 24 ≤ (s.slotsIn ds sb).length then .free else .unusable,
                           erases := x.erases + 1, slc := x.slc } :=
  ⟨State.setSb _ _, rfl, State.sb?_setSb _ _⟩

/-- A calibration is due to the temperature exactly where it has moved by 20 degrees either way (08 R238). -/
theorem zqMoved_iff (temp last : Int) :
    (decide (20 ≤ temp - last) || decide (20 ≤ last - temp)) = true ↔ 20 ≤ (temp - last).natAbs := by
  simp only [Bool.or_eq_true, decide_eq_true_eq]
  omega

/-- Calibration holds new operations for 2 us (08 R238). -/
theorem execNandZqRecal_due {s : State} {t : Nat} {temp : Int} (hon : s.domOn .media = true)
    (hdue : 20 ≤ (temp - s.media.zqTemp).natAbs ∨ s.media.zqAt + 600 * nsSec ≤ max s.now t) :
    execNandZqRecal t temp s
      = .next { s.advance t with media := { s.media with zqTemp := temp, zqAt := max s.now t, zqHold := max s.now t + 2000 } } := by
  refine congrArg done (if_pos ?_)
  rw [Bool.and_eq_true, Bool.or_eq_true, zqMoved_iff, decide_eq_true_iff]
  exact ⟨hon, hdue⟩

theorem execNandZqRecal_early {s : State} {t : Nat} {temp : Int} (hnear : (temp - s.media.zqTemp).natAbs < 20)
    (hearly : max s.now t < s.media.zqAt + 600 * nsSec) : execNandZqRecal t temp s = .next (s.advance t) := by
  refine congrArg done (if_neg ?_)
  rw [Bool.and_eq_true, Bool.or_eq_true, zqMoved_iff, decide_eq_true_iff]
  rintro ⟨-, hmoved | hold⟩
  · exact Nat.not_le.2 hnear hmoved
  · exact Nat.not_le.2 hearly hold

/-- The mark of an OPEN superblock that has risen is recorded once a millisecond has passed since the last (09 R282). -/
theorem execSbProgressAppend_risen {s : State} {t ds sb : Nat} {x : Superblock} (hsb : s.sb? ds sb = some x) (hwritable : s.writable = true)
    (hopen : x.st = .open_) (hrisen : x.mark < (s.advance t).markOf x) (hdue : x.markAt + nsMs ≤ max s.now t) :
    execSbProgressAppend t ds sb s
      = .next (((s.advance t).setSb { x with mark := (s.advance t).markOf x, markAt := max s.now t }).journal 32
          (.sbProgress ds x.stream sb ((s.advance t).markOf x))) := by
  have hsb' : (s.advance t).sb? ds sb = some x := hsb
  have hwritable' : (s.advance t).writable = true := hwritable
  unfold execSbProgressAppend
  simp only [hsb']
  refine if_pos ?_
  simp [hwritable', hopen, hrisen, hdue]

section Die

variable {s : State} {t ds slot : Nat} (hon : s.domOn .media = true) (hin : s.dieIn ds slot = true) (hds : ds < s.dieSets) (hslot : slot < 32)

/-- Operations in a row that a die has not ended in time (09 R274). -/
def State.lateOps (s : State) (ds slot : Nat) : Nat := ((s.media.notReady.find? fun x => x.1 == ds && x.2.1 == slot).map (·.2.2)).getD 0

/-- One more operation that a die has not ended in time. -/
def State.countLate (s : State) (ds slot : Nat) : State :=
  { s with media := { s.media with
      notReady := (ds, slot, s.lateOps ds slot + 1) :: s.media.notReady.filter fun x => !(x.1 == ds && x.2.1 == slot) } }

include hon hin hds hslot

/-- The third operation in a row that a die in service does not end in time retires it (09 R274). -/
theorem execDieReadyTimeout_inService :
    execDieReadyTimeout t ds slot s =
      if s.lateOps ds slot + 1 < 3 then .next ((s.advance t).countLate ds slot)
      else .next ((((((s.advance t).countLate ds slot).retireDie ds slot 4).settleMoves).checkShort).goneOn) := by
  have hserves : ¬(!((s.advance t).domOn .media) || !((s.advance t).dieIn ds slot) || decide ((s.advance t).dieSets ≤ ds)
      || decide (32 ≤ slot)) = true := by
    have hon' : (s.advance t).domOn .media = true := hon
    have hin' : (s.advance t).dieIn ds slot = true := hin
    have hds' : ds < (s.advance t).dieSets := hds
    simp [hon', hin', hds', hslot]
  exact if_neg hserves

end Die

/-- Settles O50: each row's guard holds in its clause, or fails where nothing is pending. -/
theorem arrayOperations : Obligations.ArrayOperations := by
  unfold Obligations.ArrayOperations
  dsimp only
  refine ⟨fun s t => ⟨fun u hwritable hpending hlogged hissued => ?program, fun u hidle => ?programIdle,
      fun ds sb x hsb hwritable hopen hrisen hdue => execSbProgressAppend_risen hsb hwritable hopen hrisen hdue,
      fun temp hon hdue => execNandZqRecal_due hon hdue, fun temp hnear hearly => execNandZqRecal_early hnear hearly⟩,
    fun s t => ⟨fun ds sb x hsb hwritable herase hissued => execErase_issued t hsb hwritable herase hissued,
      fun ds sb hidle => execErase_idle t hidle, State.erased_lists,
      fun ds slot hon hin hds hslot => ?die⟩⟩
  case program =>
    have hready := State.unitReady_iff.2 ⟨hwritable, hpending, hlogged⟩
    exact ⟨execProgramComplete_issued t hready hissued, execProgramFailure_issued t hready hissued⟩
  case programIdle =>
    have hwaits : s.unitReady u = false := Bool.eq_false_iff.2 fun hready => by simp [(State.unitReady_iff.1 hready).2.1] at hidle
    exact ⟨execProgramComplete_idle t hwaits, execProgramFailure_idle t hwaits⟩
  case die =>
    have hlate := execDieReadyTimeout_inService (t := t) hon hin hds hslot
    exact ⟨fun hfew => hlate.trans (if_pos (Nat.succ_lt_succ hfew)),
      fun hthird => hlate.trans (if_neg (Nat.not_lt.2 (Nat.succ_le_succ hthird)))⟩

end Sys2Proof.Machine
end

section
/-! Reads of the array and errors of DRAM (08 R246, R254, R258; 09 R277). -/

namespace Sys2Proof.Machine

/-- A codeword read goes to its sequencer (08 R254). -/
theorem execCodewordRead_given {s : State} (t : Nat) {ds sb : Nat} (cw : Nat) (o : ReadOutcome) (tags : Nat) (hon : s.domOn .media = true)
    (hlisted : (s.sb? ds sb).isSome = true) :
    execCodewordRead t ds sb cw o tags s = .next (((s.advance t).giveOp (.read (cwAddr ds sb cw) o tags)).runOps).goneOn := by
  have hgiven : ¬(!((s.advance t).domOn .media) || ((s.advance t).sb? ds sb).isNone) = true := by
    have hon' : (s.advance t).domOn .media = true := hon
    have hlisted' : ((s.advance t).sb? ds sb).isSome = true := hlisted
    simp [hon', Option.isSome_iff_ne_none.1 hlisted']
  exact if_neg hgiven

/-- A block's counter after some page reads (09 R277). -/
def Superblock.readsAfter (x : Superblock) (slot n : Nat) : Nat := min ((mapGet x.reads slot).getD 0 + n) (2 ^ 32 - 1)

/-- The read disturb limit of a superblock's mode (09 R277). -/
def State.disturbLimit (s : State) (x : Superblock) : Nat :=
  if x.slc then s.num K.readDisturbLimitSlc else s.num K.readDisturbLimit

/-- Page reads raise a listed superblock's counter, and the one that reaches the limit forces the superblock (09 R277). -/
theorem State.countReads_listed {s : State} {ds sb : Nat} {x : Superblock} (hsb : s.sb? ds sb = some x) (slot n : Nat) :
    let u := s.setSb { x with reads := mapPut x.reads slot (some (x.readsAfter slot n)) }
    s.countReads ds sb slot n =
      if (mapGet x.reads slot).getD 0 < s.disturbLimit x ∧ s.disturbLimit x ≤ x.readsAfter slot n then
        ((u.force ds sb 2).bump K.readDisturbRefreshes).event 0x0810 [(4, ds), (4, sb), (4, slot), (4, x.readsAfter slot n)]
      else u := by
  unfold State.countReads
  simp only [hsb]
  rfl

/-- What an issued read does, by whether it ended with the ladder's step 0 or needed a retry (08 R246). Each counts one page read
(log 79). -/
theorem State.readIssued_eq (s : State) (addr : Nat) (o : ReadOutcome) (tags : Nat) :
    let p := addrParts (addr * 4096)
    let b := s.addTo K.codewordTagFail tags
    let die := b.slotOf (addr * 4096)
    let c := if o = .step 0 then b else b.bump K.pagesRetried
    let got := if o = .lost then 0 else c.cwDataBytes p.1 p.2.1 p.2.2
    let u : State := { c with
      shank := { c.shank with readBytes := c.shank.readBytes + got },
      media := { c.media with pageReads := c.media.pageReads + 1, pageRetries := c.media.pageRetries + (if o = .step 0 then 0 else 1),
                              notReady := c.media.notReady.filter fun n => !(n.1 == die.1 && n.2.1 == die.2) } }
    s.readIssued addr o tags = u.readOutcome p.1 p.2.1 p.2.2 o := by
  by_cases hfirst : o = .step 0
  · subst hfirst
    rfl
  · have hretried : (o != .step 0) = true := by simpa using hfirst
    simp only [State.readIssued, hretried, hfirst, if_true, if_false]
    rfl

/-- An uncorrectable DRAM error is counted and reported, with its region and what follows (08 R258). -/
def State.dramError (s : State) (addr : Nat) (r : DramRegion) : State :=
  (s.bump K.dramUncorrectable).eventEmcy 0x0809
    [(8, addr), (4, Config.eventCode 0x0809 r.codes.1), (4, Config.eventCode 0x0809 r.codes.2)] 0x5020 false

section Dram

variable {s : State} {t : Nat} (addr dev : Nat) (hon : s.domOn .dram = true)

include hon

/-- DRAM in service reports its uncorrectable errors. -/
theorem State.dram_reports : ¬(!((s.advance t).domOn .dram)) = true := by
  have hon' : (s.advance t).domOn .dram = true := hon
  simp [hon']

/-- Bad bytes of tables that the drive cannot do without send it through MUSTER (08 R258). -/
theorem execDramEccUncorrectable_tables {r : DramRegion} (hr : r = .index ∨ r = .mediaTables ∨ r = .contexts ∨ r = .sessions) :
    execDramEccUncorrectable t addr dev r s = .next (((s.advance t).dramError addr r).resetFlush trDram) := by
  rcases hr with rfl | rfl | rfl | rfl <;> exact if_neg (State.dram_reports hon)

/-- Bytes that peer staging or the site's window hold are only reported (08 R258, log 47). -/
theorem execDramEccUncorrectable_reported {r : DramRegion} (hr : r = .peerStaging ∨ r = .siteWindow) :
    execDramEccUncorrectable t addr dev r s = .next ((s.advance t).dramError addr r) := by
  rcases hr with rfl | rfl <;> exact if_neg (State.dram_reports hon)

/-- Bad bytes in the window granted to a write that is not committed end it (08 R258). -/
theorem execDramEccUncorrectable_window {sid tag : Nat} {c : CmdCtx}
    (hc : ((s.advance t).dramError addr (.writeWindow sid tag)).cmd? sid tag = some c) (hopen : c.st ≠ .committed) (hheld : c.st ≠ .releasing) :
    execDramEccUncorrectable t addr dev (.writeWindow sid tag) s
      = .next (((s.advance t).dramError addr (.writeWindow sid tag)).abort c 0xFF 0x0809 true).goneOn := by
  have hends : ¬(c.st = .committed ∨ c.st = .releasing) := not_or.2 ⟨hopen, hheld⟩
  unfold execDramEccUncorrectable
  unfold State.dramError at hc ⊢
  simp only [if_neg (State.dram_reports hon), DramRegion.codes] at hc ⊢
  simp only [hc, if_neg hends]
  rfl

end Dram

/-- The patrol scrub runs once DramScrubHours have passed since the last (08 R258). -/
theorem execDramPatrolScrub_due {s : State} {t : Nat} (hon : s.domOn .dram = true)
    (hdue : s.media.lastPatrol + s.num K.dramScrubHours * 3600 * nsSec ≤ max s.now t) :
    execDramPatrolScrub t s = .next { s.advance t with media := { s.media with lastPatrol := max s.now t } } :=
  congrArg done (if_pos (Bool.and_eq_true_iff.2 ⟨hon, decide_eq_true hdue⟩))

/-- Settles O51. That each CODEWORD_READ counts one page read is log 79; that peer staging and the site's window are only reported is
log 47. -/
theorem readsAndDram : Obligations.ReadsAndDram := by
  unfold Obligations.ReadsAndDram
  dsimp only
  refine ⟨⟨fun s t ds sb cw o tags hon hlisted => execCodewordRead_given t cw o tags hon hlisted, State.readIssued_eq,
      fun s ds sb slot n x hsb => ?counter⟩, fun s t addr dev hon => ?dram⟩
  case counter =>
    have hcount := State.countReads_listed hsb slot n
    refine ⟨fun hbelow => hcount.trans (if_neg ?_), fun hold hnew => hcount.trans (if_pos ⟨hold, hnew⟩)⟩
    rintro ⟨hold, hnew⟩
    exact hbelow.elim (Nat.not_lt.2 hnew) (Nat.not_le.2 hold)
  case dram =>
    exact ⟨congrArg done (if_pos hon), fun r hr => execDramEccUncorrectable_tables addr dev hon hr, fun i => if_neg (State.dram_reports hon),
      fun r hr => execDramEccUncorrectable_reported addr dev hon hr,
      fun sid tag c hc hopen hheld => execDramEccUncorrectable_window addr dev hon hc hopen hheld, fun i n => if_neg (State.dram_reports hon),
      fun hdue => execDramPatrolScrub_due hon hdue⟩

end Sys2Proof.Machine
end

section
/-! Victims and reclamation's steps (09 R266 to R271, R284). -/

namespace Sys2Proof.Machine

/-- A fold that keeps the better of two values ends with one of its values, and with one at least as good as each of them. -/
theorem foldl_keepsBest {α : Type} {better : α → α → α} {good : α → α → Prop} (hrefl : ∀ a, good a a)
    (htrans : ∀ {a b c}, good a b → good b c → good a c)
    (hpick : ∀ a b, (better a b = a ∨ better a b = b) ∧ good (better a b) a ∧ good (better a b) b) (l : List α) (a : α) :
    l.foldl better a ∈ a :: l ∧ ∀ b ∈ a :: l, good (l.foldl better a) b := by
  induction l generalizing a with
  | nil => simpa using hrefl a
  | cons c l ih =>
    obtain ⟨hone, hleft, hright⟩ := hpick a c
    obtain ⟨hmem, hbest⟩ := ih (better a c)
    refine ⟨?_, List.forall_mem_cons.2 ⟨?_, List.forall_mem_cons.2 ⟨?_, fun b hb => hbest b (List.mem_cons_of_mem _ hb)⟩⟩⟩
    · rcases List.mem_cons.1 hmem with hfirst | hrest
      · rw [List.foldl_cons, hfirst]
        rcases hone with h | h <;> simp [h]
      · exact List.mem_cons_of_mem _ (List.mem_cons_of_mem _ hrest)
    · exact htrans (hbest _ List.mem_cons_self) hleft
    · exact htrans (hbest _ List.mem_cons_self) hright

/-- A scored superblock is at least as good a victim as another: by score, then erase count, then number (09 R267). -/
def ScoredBefore (a b : Nat × Superblock) : Prop :=
  b.1 < a.1 ∨ (b.1 = a.1 ∧ (a.2.erases < b.2.erases ∨ (a.2.erases = b.2.erases ∧ a.2.sb ≤ b.2.sb)))

theorem ScoredBefore.refl (a : Nat × Superblock) : ScoredBefore a a := .inr ⟨rfl, .inr ⟨rfl, Nat.le_refl _⟩⟩

theorem ScoredBefore.trans {a b c : Nat × Superblock} (hab : ScoredBefore a b) (hbc : ScoredBefore b c) : ScoredBefore a c := by
  unfold ScoredBefore at *
  omega

theorem betterScore_best (a b : Nat × Superblock) :
    (betterScore a b = a ∨ betterScore a b = b) ∧ ScoredBefore (betterScore a b) a ∧ ScoredBefore (betterScore a b) b := by
  unfold betterScore ScoredBefore
  split
  next hbetter => exact ⟨.inr rfl, by omega, by omega⟩
  next hworse => exact ⟨.inl rfl, by omega, by omega⟩

/-- The scored victim is a scored superblock of its die set, and none of the set is a better one (09 R266, R267). -/
theorem State.scoredVictim_best {s : State} {ds : Nat} {x : Superblock} (hvictim : s.scoredVictim ds = some x) :
    x ∈ s.media.sbs ∧ x.ds = ds ∧ ∃ n, s.sbScore x = some n ∧
      ∀ y ∈ s.media.sbs, y.ds = ds → ∀ k, s.sbScore y = some k → ScoredBefore (n, x) (k, y) := by
  have hscored : ∀ k y, (k, y) ∈ ((s.media.sbs.filter (·.ds == ds)).filterMap fun x => (s.sbScore x).map fun n => (n, x)) ↔
      y ∈ s.media.sbs ∧ y.ds = ds ∧ s.sbScore y = some k := by
    intro k y
    simp only [List.mem_filterMap, List.mem_filter, beq_iff_eq, Option.map_eq_some_iff, Prod.mk.injEq]
    constructor
    · rintro ⟨z, ⟨hz, hset⟩, n, hn, rfl, rfl⟩
      exact ⟨hz, hset, hn⟩
    · rintro ⟨hy, hset, hk⟩
      exact ⟨y, ⟨hy, hset⟩, k, hk, rfl, rfl⟩
  unfold State.scoredVictim at hvictim
  split at hvictim
  next =>
    split at hvictim
    next => cases hvictim
    next a l hlist =>
      rw [hlist] at hscored
      obtain ⟨hmem, hbest⟩ := foldl_keepsBest ScoredBefore.refl ScoredBefore.trans betterScore_best l a
      obtain rfl := Option.some.inj hvictim
      obtain ⟨hx, hset, hn⟩ := (hscored _ _).1 hmem
      exact ⟨hx, hset, _, hn, fun y hy hyset k hk => hbest _ ((hscored k y).2 ⟨hy, hyset, hk⟩)⟩
  next => cases hvictim

/-- A forced superblock is at least as urgent as another: by reason, then by the age of the request (09 R266). -/
def ForcedBefore (a b : Superblock) : Prop := a.forced < b.forced ∨ (a.forced = b.forced ∧ a.forcedAt ≤ b.forcedAt)

theorem ForcedBefore.refl (a : Superblock) : ForcedBefore a a := .inr ⟨rfl, Nat.le_refl _⟩

theorem ForcedBefore.trans {a b c : Superblock} (hab : ForcedBefore a b) (hbc : ForcedBefore b c) : ForcedBefore a c := by
  unfold ForcedBefore at *
  omega

theorem moreUrgent_best (a b : Superblock) :
    (moreUrgent a b = a ∨ moreUrgent a b = b) ∧ ForcedBefore (moreUrgent a b) a ∧ ForcedBefore (moreUrgent a b) b := by
  unfold moreUrgent ForcedBefore
  split
  next hbetter => exact ⟨.inr rfl, by omega, by omega⟩
  next hworse => exact ⟨.inl rfl, by omega, by omega⟩

/-- The forced victim is a CLOSED superblock of its die set with a reason, and none of the set is more urgent (09 R266). -/
theorem State.forcedVictim_best {s : State} {ds : Nat} {x : Superblock} (hvictim : s.forcedVictim ds = some x) :
    x ∈ s.media.sbs ∧ x.ds = ds ∧ x.st = .closed ∧ x.forced ≠ 0 ∧
      ∀ y ∈ s.media.sbs, y.ds = ds → y.st = .closed → y.forced ≠ 0 → ForcedBefore x y := by
  have hforced : ∀ y, y ∈ (s.media.sbs.filter fun x => x.ds == ds && x.st == .closed && x.forced != 0) ↔
      y ∈ s.media.sbs ∧ y.ds = ds ∧ y.st = .closed ∧ y.forced ≠ 0 := by
    simp [and_assoc]
  unfold State.forcedVictim at hvictim
  split at hvictim
  next => cases hvictim
  next a l hlist =>
    rw [hlist] at hforced
    obtain ⟨hmem, hbest⟩ := foldl_keepsBest ForcedBefore.refl ForcedBefore.trans moreUrgent_best l a
    obtain rfl := Option.some.inj hvictim
    obtain ⟨hx, hset, hclosed, hreason⟩ := (hforced _).1 hmem
    exact ⟨hx, hset, hclosed, hreason, fun y hy hyset hyclosed hyreason => hbest y ((hforced y).2 ⟨hy, hyset, hyclosed, hyreason⟩)⟩

/-- A superblock that holds something and does not exceed GcMaxValidPermille has the score of 09 R267. -/
theorem scoreOf_candidate {c v maxv : Nat} (age cap : Nat) (hsome : 0 < c) (hfew : v * 1000 ≤ c * maxv) :
    scoreOf c v age cap maxv = some ((c - v) * min age cap / (c + v)) := by
  have hpositive : max 1 (c + v) = c + v := by omega
  rw [scoreOf, if_neg (Nat.not_lt.2 hfew), hpositive]

/-- Settles O54: the victim that a fold over the candidates keeps is the best of them (`foldl_keepsBest`). -/
theorem victimChoice : Obligations.VictimChoice := by
  unfold Obligations.VictimChoice
  refine ⟨fun c v age cap maxv _ hsome => ⟨fun hfew => scoreOf_candidate age cap hsome hfew, fun hmany => if_pos hmany⟩,
    fun s ds x hvictim => ?_, fun s ds x hvictim => State.forcedVictim_best hvictim⟩
  obtain ⟨hx, hset, n, hn, hbest⟩ := State.scoredVictim_best hvictim
  exact ⟨hx, hset, n, hn, hbest⟩

/-- A die set has a victim that is being relocated; a fold does not count as one (09 R266). -/
def State.relocating (s : State) (ds : Nat) : Bool :=
  s.media.sbs.any fun x => x.ds == ds && x.st == .victim && (x.stream != 0 || x.forced != 0)

/-- What a die set with no victim does next: its forced victim goes before its scored one (09 R266). -/
theorem execGcVictimSelect_next {s : State} (t : Nat) {ds : Nat} (hwritable : s.writable = true)
    (hscans : (s.advance t).scansFirst = false) (hfree : (s.advance t).settleMoves.relocating ds = false) :
    let b := (s.advance t).settleMoves
    execGcVictimSelect t ds s
      = match (b.forcedVictim ds).orElse fun _ => b.scoredVictim ds with
        | some x => .next (b.takeVictim x).goneOn
        | none => .next b.goneOn := by
  have hgo : ¬(!(s.advance t).writable || (s.advance t).scansFirst) = true := by
    have hwritable' : (s.advance t).writable = true := hwritable
    simp [hwritable', hscans]
  exact (if_neg hgo).trans (if_neg (Bool.eq_false_iff.1 hfree))

/-- The blocks of a PENDING_ERASE superblock are given to the sequencers (09 R271). -/
theorem execSuperblockErase_given {s : State} (t : Nat) {ds sb : Nat} {x : Superblock} (hwritable : s.writable = true)
    (hscans : (s.advance t).scansFirst = false) (hsb : s.sb? ds sb = some x) (hempty : x.st = .pendingErase)
    (hnew : s.media.erasing.contains (ds, sb) = false) :
    let b : State := { s.advance t with media := { s.media with erasing := s.media.erasing ++ [(ds, sb)] } }
    execSuperblockErase t ds sb s = .next ((s.slotsIn ds sb).foldl (fun s i => s.giveOp (.erase ds sb i)) b).runOps := by
  have hsb' : (s.advance t).sb? ds sb = some x := hsb
  have hgo : ((s.advance t).writable && !(s.advance t).scansFirst && x.st == .pendingErase &&
      !(s.advance t).media.erasing.contains (ds, sb)) = true := by
    have hwritable' : (s.advance t).writable = true := hwritable
    simp [hwritable', hscans, hempty, hnew, -List.contains_eq_mem]
  unfold execSuperblockErase
  simp only [hsb', if_pos hgo]
  rfl

/-- A superblock whose erase is under way is given to the sequencers no second time (09 R271). -/
theorem execSuperblockErase_underWay {s : State} (t : Nat) {ds sb : Nat} (herasing : s.media.erasing.contains (ds, sb) = true) :
    execSuperblockErase t ds sb s = .next (s.advance t) := by
  unfold execSuperblockErase
  cases hsb : (s.advance t).sb? ds sb with
  | none => simp only [hsb]
  | some x => simp [hsb, herasing, -List.contains_eq_mem]

/-- The oldest SLC superblock is folded when it is due (09 R269). -/
theorem execSlcFold_due {s : State} {t : Nat} {x : Superblock} (hwritable : s.writable = true)
    (hscans : (s.advance t).scansFirst = false) (holdest : s.oldestSlc = some x) (hdue : (s.advance t).foldDue x = true) :
    execSlcFold t s = .next ((s.advance t).takeVictim x).goneOn := by
  have holdest' : (s.advance t).oldestSlc = some x := holdest
  have hgo : ((s.advance t).writable && !(s.advance t).scansFirst && (s.advance t).foldDue x) = true := by
    have hwritable' : (s.advance t).writable = true := hwritable
    simp [hwritable', hscans, hdue]
  unfold execSlcFold
  simp only [holdest', if_pos hgo]
  rfl

/-- A checkpoint cycle starts where one is due, and only there (09 R284). -/
theorem execCheckpointStart_writable {s : State} (t : Nat) (hwritable : s.writable = true) :
    execCheckpointStart t s = .next (if (s.advance t).cycleDue then (s.advance t).startCycle else s.advance t) := by
  have hwritable' : (s.advance t).writable = true := hwritable
  simp only [execCheckpointStart, hwritable', Bool.true_and]

/-- Settles O53: each row's guard holds in its clause, or fails where nothing is due. That a fold in progress does not hold off a victim,
and that one command folds one superblock, are log 83. -/
theorem reclamation : Obligations.Reclamation := by
  unfold Obligations.Reclamation
  dsimp only
  refine fun s t hwritable => ⟨fun hscans ds hfree => ?victim,
    fun hscans ds sb x hsb hempty hnew => execSuperblockErase_given t hwritable hscans hsb hempty hnew,
    fun ds sb herasing => execSuperblockErase_underWay t herasing,
    fun hscans x holdest hdue => execSlcFold_due hwritable hscans holdest hdue, fun hdue => ?due, fun hearly => ?early⟩
  case victim =>
    have hnext := execGcVictimSelect_next t hwritable hscans hfree
    refine ⟨fun x hforced => hnext.trans ?_, fun x hforced hscored => hnext.trans ?_, fun hforced hscored => hnext.trans ?_⟩
    · simp only [hforced, Option.orElse_some]
    · simp only [hforced, Option.orElse_none, hscored]
    · simp only [hforced, Option.orElse_none, hscored]
  case due =>
    exact (execCheckpointStart_writable t hwritable).trans (congrArg Host.Outcome.next (if_pos hdue))
  case early =>
    exact (execCheckpointStart_writable t hwritable).trans (congrArg Host.Outcome.next (if_neg (Bool.eq_false_iff.1 hearly)))

end Sys2Proof.Machine
end

section
/-! Wear levelling, effective age and retention scans (09 R276, R278, R279). -/

namespace Sys2Proof.Machine

/-- Wear is compared in every die set once the interval has passed (09 R276). -/
theorem execWearStaticCheck_due {s : State} {t : Nat} (hwritable : s.writable = true)
    (hdue : s.media.lastStatic + s.num K.wearStaticIntervalSeconds * nsSec ≤ max s.now t) :
    execWearStaticCheck t s
      = .next ((List.range s.dieSets).foldl State.wearCheck { s.advance t with media := { s.media with lastStatic := max s.now t } }) :=
  if_pos (Bool.and_eq_true_iff.2 ⟨hwritable, decide_eq_true hdue⟩)

/-- Effective age grows in a powered drive once a second has passed (09 R278). -/
theorem execEffectiveAgeTick_grows {s : State} {t : Nat} (temps : List Int) (hpassed : (max s.now t - s.media.ageAt) / nsSec ≠ 0)
    (hcore : s.domOn .core = true) (hmedia : s.domOn .media = true) :
    let n := (max s.now t - s.media.ageAt) / nsSec
    let sbs := s.media.sbs.map fun (x : Superblock) =>
      if x.st = SbState.closed then { x with age := x.age + n * ageFactor (temps.getD x.ds 40) } else x
    execEffectiveAgeTick t temps s
      = .next { s.advance t with media := { s.media with sbs := sbs, ageAt := s.media.ageAt + n * nsSec } } := by
  have hgo : ¬((max s.now t - s.media.ageAt) / nsSec = 0 ∨ s.domOn .core = false ∨ s.domOn .media = false) := by
    simp [hpassed, hcore, hmedia]
  exact if_neg hgo

/-- The scan of a superblock begins: it is no longer due, and its bytes are counted (09 R279). -/
def State.scanBegun (s : State) (x : Superblock) : State :=
  let bytes := (x.slots.filter (· != x.parity)).length * profWordlines s.media.profile * 16384
  let b := (s.setSb { x with scanAge := x.age, scanDue := false }).addTo K.retentionBytesScanned bytes
  { b with media := { b.media with scanUntil := s.now + ceilDiv (bytes * 1000) (max 1 (b.num K.retentionSweepMBps)) } }

/-- The scan of a superblock ends: where a page needed a weak step, its refresh is forced with its event (09 R279). -/
def State.scanEnded (s : State) (ds sb : Nat) (worst : ReadOutcome) : State :=
  let d := match s.weakStep worst with
    | some n => ((s.force ds sb 3).bump K.retentionRefreshes).event 0x0811 [(4, ds), (4, sb), (4, n)]
    | none => s
  ({ d with media := { d.media with scanFirst := d.media.scanFirst && d.media.sbs.any d.scanIsDue } } : State).stirred

/-- The due superblock of greatest age is scanned: its bytes count, then its page reads, and what they met decides on its refresh
(09 R279). -/
theorem execRetentionScan_due {s : State} {t ds sb : Nat} {x : Superblock} (worst : ReadOutcome) (retries : List (Nat × Nat))
    (hon : s.domOn .media = true) (hpaced : s.mode.mode = .sweep ∨ s.media.scanUntil ≤ max s.now t) (hsb : s.sb? ds sb = some x)
    (hdue : (s.advance t).scanIsDue x = true) (holdest : ∀ y ∈ s.media.sbs, (s.advance t).scanIsDue y = true → y.age ≤ x.age) :
    execRetentionScan t ds sb worst retries s
      = .next (((x.slots.filter (· != x.parity)).foldl
          (fun s' i => s'.countReads ds sb i (profWordlines s.media.profile + (mapGet retries i).getD 0))
          ((s.advance t).scanBegun x)).scanEnded ds sb worst) := by
  have hsb' : (s.advance t).sb? ds sb = some x := hsb
  have hon' : (s.advance t).domOn .media = true := hon
  have hwaits : ((s.advance t).mode.mode != .sweep && decide ((s.advance t).now < (s.advance t).media.scanUntil)) = false := by
    rcases hpaced with hsweep | hpassed
    · simp only [State.advance_mode, hsweep, bne_self_eq_false, Bool.false_and]
    · have hopen : decide ((s.advance t).now < (s.advance t).media.scanUntil) = false := decide_eq_false (Nat.not_lt.2 hpassed)
      rw [hopen, Bool.and_false]
  have holder : ((s.advance t).media.sbs.filter (s.advance t).scanIsDue).any (fun y => decide (x.age < y.age)) = false := by
    simpa using holdest
  have hgo : ¬(!((s.advance t).domOn .media) ||
      ((s.advance t).mode.mode != .sweep && decide ((s.advance t).now < (s.advance t).media.scanUntil)) ||
      !((s.advance t).scanIsDue x) ||
      ((s.advance t).media.sbs.filter (s.advance t).scanIsDue).any fun y => decide (x.age < y.age)) = true := by
    rw [hon', hwaits, hdue, holder]
    decide
  unfold execRetentionScan
  simp only [hsb', if_neg hgo]
  rfl

/-- Four times the age factor without its clamp, at some degrees above 20 (09 R278). -/
def ageQuarters (d : Nat) : Nat := tenthPow.getD (d % 10) 0 * 2 ^ (d / 10)

theorem ageQuarters_add_ten (d : Nat) : ageQuarters (d + 10) = 2 * ageQuarters d := by
  rw [ageQuarters, ageQuarters, Nat.add_mod_right, Nat.add_div_right d (by decide), Nat.pow_succ',
    Nat.mul_left_comm]

/-- Between its two clamps the age factor is that of the formula, rounded down (09 R278). -/
theorem ageFactor_eq {T : Int} (hlow : 20 ≤ T) (hhigh : T ≤ 80) : ageFactor T = ageQuarters (T - 20).toNat / 4 := by
  by_cases hcold : T = 20
  · subst hcold
    decide
  by_cases hhot : T = 80
  · subst hhot
    decide
  have habove : ¬T ≤ 20 := by omega
  have hbelow : ¬80 ≤ T := by omega
  exact (if_neg habove).trans (if_neg hbelow)

/-- Ten degrees more double the age factor, but for its rounding (09 R278, log 83). -/
theorem ageFactor_add_ten {T : Int} (hlow : 20 ≤ T) (hhigh : T ≤ 70) :
    ageFactor (T + 10) ≤ 2 * ageFactor T + 1 ∧ 2 * ageFactor T ≤ ageFactor (T + 10) + 1 := by
  have hshift : (T + 10 - 20).toNat = (T - 20).toNat + 10 := by omega
  rw [ageFactor_eq hlow (by omega), ageFactor_eq (T := T + 10) (by omega) (by omega), hshift, ageQuarters_add_ten]
  omega

/-- Settles O55: each row's guard holds in its clause, and the age factor doubles as its formula does (`ageQuarters_add_ten`), but
for its rounding down, which is log 83. -/
theorem wearAndRetention : Obligations.WearAndRetention := by
  unfold Obligations.WearAndRetention
  dsimp only
  refine fun s t => ⟨fun hwritable hdue => execWearStaticCheck_due hwritable hdue,
    fun temps hpassed hcore hmedia => execEffectiveAgeTick_grows temps hpassed hcore hmedia,
    fun ds sb x worst retries hon hpaced hsb hdue holdest => execRetentionScan_due worst retries hon hpaced hsb hdue holdest,
    by decide, fun T hcold => if_pos hcold, fun T hhot => ?_, fun T hlow hhigh => ageFactor_add_ten hlow hhigh⟩
  have hwarm : ¬T ≤ 20 := by omega
  exact (if_neg hwarm).trans (if_pos hhot)

end Sys2Proof.Machine
end

section
/-! Alarms, tamper inputs, key derivations and the erasure of secrets (10 R304, R308 to R310). -/

namespace Sys2Proof.Machine

/-- A class-1 alarm stands less than 10 ms back (10 R310). -/
def State.alarmNear (s : State) : Bool :=
  match s.sec.lastClass1 with
  | some x => decide (s.now < x + 10 * nsMs)
  | none => false

theorem State.alarmNear_iff (s : State) : s.alarmNear = true ↔ ∃ x, s.sec.lastClass1 = some x ∧ s.now < x + 10 * nsMs := by
  unfold State.alarmNear
  cases s.sec.lastClass1 <;> simp

/-- What every class-1 alarm does: every slot is erased, the commands that lose their key end, and the alarm is reported (10 R309,
R310). -/
def State.class1Reported (s : State) (src : Nat) (users : List (Nat × Nat)) : State :=
  let e := s.alarmErase.1.keyLost users
  (e.1.bump K.class1Alarms).eventEmcy 0x0901 [(4, Config.eventCode 0x0901 src), (4, s.sec.slots.length), (4, e.2)] 0x3200 false

/-- The moment of an alarm is kept, and that of a glitch with those of the last second (10 R310). -/
def State.class1Noted (s : State) (src : Nat) : State :=
  let gl := (if isGlitch src then [s.now] else []) ++ s.sec.glitchTimes.filter fun x => decide (s.now < x + nsSec)
  { s with sec := { s.sec with lastClass1 := some s.now, glitchTimes := gl } }

/-- The glitch that an alarm reports fills GlitchAlarmCount (10 R310). -/
def State.glitchesFull (s : State) (src : Nat) : Bool :=
  isGlitch src && decide (s.num K.glitchAlarmCount ≤ s.sec.glitchTimes.length)

theorem State.glitchesFull_iff (s : State) (src : Nat) :
    s.glitchesFull src = true ↔ isGlitch src = true ∧ s.num K.glitchAlarmCount ≤ s.sec.glitchTimes.length := by
  rw [State.glitchesFull, Bool.and_eq_true, decide_eq_true_iff]

/-- Every class-1 alarm is reported and kept; one near another, or that fills GlitchAlarmCount, goes on to class 2 (10 R310), its
flush time a free value (log 3). -/
theorem State.class1_eq (s : State) (src : Nat) (users : List (Nat × Nat)) :
    s.class1 src users =
      let b := s.class1Reported src users
      let c := b.class1Noted src
      if b.alarmNear || c.glitchesFull src then c.drawFree.2.class2 (if c.glitchesFull src then 1 else 4) (c.drawFree.1 % 2 ^ 32)
      else c :=
  rfl

section Class1

variable {s : State} {src : Nat} {users : List (Nat × Nat)}

/-- An alarm that neither follows another nor fills GlitchAlarmCount stays in class 1 (10 R310). -/
theorem State.class1_alone (hnear : (s.class1Reported src users).alarmNear = false)
    (hmany : ((s.class1Reported src users).class1Noted src).glitchesFull src = false) :
    s.class1 src users = (s.class1Reported src users).class1Noted src := by
  simp [State.class1_eq, hnear, hmany]

/-- The glitch that fills GlitchAlarmCount raises class 2 with source 1 (10 R310). -/
theorem State.class1_glitches (hmany : ((s.class1Reported src users).class1Noted src).glitchesFull src = true) :
    s.class1 src users =
      (let c := (s.class1Reported src users).class1Noted src; c.drawFree.2.class2 1 (c.drawFree.1 % 2 ^ 32)) := by
  simp [State.class1_eq, hmany]

/-- A second alarm within 10 ms raises class 2 with source 4 (10 R310). -/
theorem State.class1_near (hnear : (s.class1Reported src users).alarmNear = true)
    (hmany : ((s.class1Reported src users).class1Noted src).glitchesFull src = false) :
    s.class1 src users =
      (let c := (s.class1Reported src users).class1Noted src; c.drawFree.2.class2 4 (c.drawFree.1 % 2 ^ 32)) := by
  simp [State.class1_eq, hnear, hmany]

end Class1

/-- Alarms are taken while PD_SEC is powered (10 R310). -/
theorem execClass1Alarm_powered {s : State} (hsec : s.domOn .sec = true) (t src : Nat) (users : List (Nat × Nat)) :
    execClass1Alarm t src users s = .next ((s.advance t).class1 src users) :=
  congrArg Host.Outcome.next (if_pos hsec)

theorem execClass2Alarm_powered {s : State} (hsec : s.domOn .sec = true) (t src us : Nat) :
    execClass2Alarm t src us s = .next ((s.advance t).class2 src us) :=
  congrArg Host.Outcome.next (if_pos hsec)

/-- DORMANT takes no class-2 alarm (10 R310). -/
theorem State.class2_dormant {s : State} (hmode : s.mode.mode = .dormant) (src us : Nat) : s.class2 src us = s :=
  if_pos hmode

/-- A tamper input at its armed level for 4 cycles of XTAL32K is taken (10 R310). -/
theorem execTamper_taken {s : State} {input cycles : Nat} {level : Bool} (hactive : s.tamperActive input level = true) (hlong : 4 ≤ cycles)
    (t : Nat) : execTamper t input level cycles s = .next ((s.advance t).tamper input level) :=
  congrArg Host.Outcome.next (if_pos (Bool.and_eq_true_iff.2 ⟨hactive, decide_eq_true hlong⟩))

theorem execTamper_short {cycles : Nat} (hshort : cycles < 4) (t input : Nat) (level : Bool) (s : State) :
    execTamper t input level cycles s = .next (s.advance t) := by
  have hlong : decide (4 ≤ cycles) = false := decide_eq_false (Nat.not_le.2 hshort)
  simp only [execTamper, hlong, Bool.and_false, Bool.false_eq_true, if_false]

/-- The detail of event 0x0903: input, level, mode and policy as the input found them (10 R310). -/
def State.tamperDetail (s : State) (input : Nat) (level : Bool) : List (Nat × Nat) :=
  [(1, input), (1, bit level), (1, s.mode.mode.code), (1, s.num K.tamperPolicy)]

/-- The part after a tamper alarm, before HALT: counted, every key zeroised, reported, and wiped under policy 1 (10 R310; the wipe
belongs to this command by log 77). -/
def State.tamperZeroised (s : State) (input : Nat) (level : Bool) : State :=
  let b := (s.bumpSys K.tamperAlarms).zeroise
  let z := ({ b with sec := { b.sec with tampered := true } } : State).eventEmcy 0x0903 (s.tamperDetail input level) 0x9000 true
  if s.num K.tamperPolicy = 1 then z.doWipe tamperWipe else z

section Tamper

variable {s : State} (input : Nat) (level : Bool)

/-- In DORMANT the alarm is held for the next wake (10 R310). -/
theorem State.tamper_dormant (hmode : s.mode.mode = .dormant) :
    s.tamper input level = (let b := s.bumpSys K.tamperAlarms
      ({ b with sec := { b.sec with tamperHeld := true } } : State).eventEmcy 0x0903 (s.tamperDetail input level) 0x9000 true) :=
  if_pos hmode

variable (hmode : s.mode.mode ≠ .dormant)

include hmode

/-- In HALT the alarm becomes its cause (10 R310). -/
theorem State.tamper_inHalt (hhalt : (s.tamperZeroised input level).mode.mode = .halt) :
    s.tamper input level = (let w := s.tamperZeroised input level
      ({ w with mode := { w.mode with halt := some .tamper } } : State).setNum K.haltCause HaltCause.tamper.code) :=
  (if_neg hmode).trans (if_pos hhalt)

/-- In every other mode the sessions are dropped and the drive enters HALT (10 R310). -/
theorem State.tamper_halts (hrun : (s.tamperZeroised input level).mode.mode ≠ .halt) :
    s.tamper input level = (let w := s.tamperZeroised input level
      (({ w with mode := { w.mode with halt := some .tamper, leaving := w.mode.mode } } : State).dropSessions).enterHalt .tamper) :=
  (if_neg hmode).trans (if_neg hrun)

end Tamper

/-- A slot whose derivation ends is READY (10 R308). -/
theorem execKeyDerivationComplete_deriving {s : State} {slot : Nat} {x : KeySlot} (hslot : s.sec.slots.find? (·.slot == slot) = some x)
    (hderiving : x.st = .deriving_) (t : Nat) :
    execKeyDerivationComplete t slot s
      = .next (({ s.advance t with sec := { s.sec with slots := s.sec.slots.map fun (y : KeySlot) =>
          if y.slot = slot then { y with st := .ready } else y } } : State).bump K.keyDerivations) := by
  simp only [execKeyDerivationComplete, State.advance_sec, hslot, if_pos hderiving]

/-- The copy under way has ended: each of its removals is reported, the removals that came meanwhile are next, and the newest copy
alone is left (10 R304). -/
def State.erasureEnded (s : State) : State :=
  let b := s.sec.erasing.foldl (fun s e => s.event 0x0905 (e.fields s.now)) s
  { b with sec := { b.sec with erasing := b.sec.eraseNext, eraseNext := [], copies := b.sec.copies.drop (b.sec.copies.length - 1) } }

/-- An ended copy takes a further one exactly where removals came meanwhile (10 R304). -/
theorem execSecretEraseComplete_erasing {s : State} (herasing : s.sec.erasing ≠ []) (t : Nat) :
    execSecretEraseComplete t s
      = .next (if (s.advance t).erasureEnded.sec.erasing.isEmpty then (s.advance t).erasureEnded
          else (s.advance t).erasureEnded.tableCopy) :=
  congrArg Host.Outcome.next (if_neg (mt List.isEmpty_iff.1 herasing))

/-- Settles O57. The numbers of alarm sources are log 32, the flush time of an alarm that goes on to class 2 is a free value (log 3),
and the wipe within the tamper command is log 77. -/
theorem alarmsAndKeys : Obligations.AlarmsAndKeys := by
  unfold Obligations.AlarmsAndKeys
  dsimp only
  refine fun s t => ⟨fun hsec => ⟨fun src users => ?class1, fun src us => execClass2Alarm_powered hsec t src us, fun src us hmode => ?class2⟩,
    fun input level cycles hactive hlong => ⟨fun hmode => ?held, fun hmode => ⟨fun hhalt => ?inHalt, fun hrun => ?halts⟩⟩,
    fun input level cycles hshort => execTamper_short hshort t input level s,
    fun slot x hslot hderiving => execKeyDerivationComplete_deriving hslot hderiving t,
    fun herasing => ⟨fun hnone => ?ended, fun hmore => ?further⟩⟩
  case class1 =>
    have hnear_iff := ((s.advance t).class1Reported src users).alarmNear_iff
    have hmany_iff := (((s.advance t).class1Reported src users).class1Noted src).glitchesFull_iff src
    have halarm := execClass1Alarm_powered hsec t src users
    refine ⟨fun hnear hmany => ?_, fun hmany => ?_, fun hnear hmany => ?_⟩
    · exact halarm.trans (congrArg Host.Outcome.next
        (State.class1_alone (Bool.eq_false_iff.2 (mt hnear_iff.1 hnear)) (Bool.eq_false_iff.2 (mt hmany_iff.1 hmany))))
    · exact halarm.trans (congrArg Host.Outcome.next (State.class1_glitches (hmany_iff.2 hmany)))
    · exact halarm.trans (congrArg Host.Outcome.next
        (State.class1_near (hnear_iff.2 hnear) (Bool.eq_false_iff.2 (mt hmany_iff.1 hmany))))
  case class2 =>
    exact (execClass2Alarm_powered hsec t src us).trans
      (congrArg Host.Outcome.next (State.class2_dormant (s := s.advance t) hmode src us))
  case held =>
    exact (execTamper_taken hactive hlong t).trans
      (congrArg Host.Outcome.next (State.tamper_dormant (s := s.advance t) input level hmode))
  case inHalt =>
    exact (execTamper_taken hactive hlong t).trans
      (congrArg Host.Outcome.next (State.tamper_inHalt (s := s.advance t) input level hmode hhalt))
  case halts =>
    exact (execTamper_taken hactive hlong t).trans
      (congrArg Host.Outcome.next (State.tamper_halts (s := s.advance t) input level hmode hrun))
  case ended =>
    exact (execSecretEraseComplete_erasing herasing t).trans (congrArg Host.Outcome.next (if_pos (List.isEmpty_iff.2 hnone)))
  case further =>
    exact (execSecretEraseComplete_erasing herasing t).trans (congrArg Host.Outcome.next (if_neg (mt List.isEmpty_iff.1 hmore)))

end Sys2Proof.Machine
end

section
/-! Received frames (11 R322, R324, R325). -/

namespace Sys2Proof.Machine

/-- Time alone changes no link. -/
theorem State.linkIsUp_advance {s : State} {p : PortId} (hup : (s.port p).link = .up) (t : Nat) : (s.advance t).linkIsUp p = true :=
  beq_iff_eq.2 hup

theorem State.not_not_linkIsUp_advance {s : State} {p : PortId} (hup : (s.port p).link = .up) (t : Nat) : ¬(!(s.advance t).linkIsUp p) = true := by
  simp [State.linkIsUp_advance hup]

theorem ite_single_sublist (P : Prop) [Decidable P] (n : Nat) : (if P then [n] else []).Sublist [n] := by
  split
  · exact List.Sublist.refl _
  · exact List.nil_sublist _

theorem ite_nil_sublist (P : Prop) [Decidable P] (n : Nat) : (if P then [] else [n]).Sublist [n] := by
  split
  · exact List.nil_sublist _
  · exact List.Sublist.refl _

/-- Steps 1 to 4 fail in their order (11 Table 11.3). -/
theorem State.earlyFails_sublist (s : State) (p : PortId) (f : FrameFacts) : (s.earlyFails p f).Sublist [1, 2, 3, 4] :=
  (((ite_single_sublist _ 1).append (ite_single_sublist _ 2)).append (ite_single_sublist _ 3)).append (ite_nil_sublist _ 4)

/-- Steps 5 to 10 fail in their order (11 Table 11.3). -/
theorem State.lateFails_sublist (s : State) (p : PortId) (f : FrameFacts) : (s.lateFails p f).Sublist [5, 6, 7, 8, 9, 10] :=
  (((((ite_nil_sublist _ 5).append (ite_nil_sublist _ 6)).append (ite_single_sublist _ 7)).append (ite_nil_sublist _ 8)).append
    (ite_nil_sublist _ 9)).append (ite_nil_sublist _ 10)

theorem State.fails_pairwise_lt (s : State) (p : PortId) (f : FrameFacts) : (s.earlyFails p f ++ s.lateFails p f).Pairwise (· < ·) :=
  List.Pairwise.sublist ((s.earlyFails_sublist p f).append (s.lateFails_sublist p f)) (by decide)

theorem State.earlyFails_pcsError (s : State) (p : PortId) {f : FrameFacts} (hpcs : f.pcsError = true) : ∃ l, s.earlyFails p f = 1 :: l := by
  simp [State.earlyFails, hpcs]

theorem State.earlyFails_runt (s : State) (p : PortId) {f : FrameFacts} (hpcs : f.pcsError = false) (hrunt : f.len < 64) :
    ∃ l, s.earlyFails p f = 2 :: l := by
  simp [State.earlyFails, hpcs, hrunt]

theorem State.earlyFails_good {s : State} {p : PortId} {f : FrameFacts} (hpcs : f.pcsError = false) (hmin : 64 ≤ f.len)
    (hmax : f.len ≤ s.largest p f) (hfcs : f.fcsOk = true) : s.earlyFails p f = [] := by
  simp [State.earlyFails, hpcs, Nat.not_lt.2 hmin, Nat.not_lt.2 hmax, hfcs]

section Received

variable {s : State} {p : PortId} (hup : (s.port p).link = .up) (t : Nat)

include hup

/-- FILTERED_FRAME handles a frame that is not of the diagnostic class, or too short to be classified (11 R324, R325). -/
theorem filteredFrame_handled {f : FrameFacts} (hclass : s.classOf f ≠ .diag ∨ f.len < f.headLen) :
    (!(s.advance t).linkIsUp p || ((s.advance t).classOf f == .diag && decide (f.headLen ≤ f.len))) = false := by
  have hdiag : ((s.advance t).classOf f == .diag && decide (f.headLen ≤ f.len)) = false := by
    rcases hclass with hclass | hshort
    · rw [beq_false_of_ne (show (s.advance t).classOf f ≠ .diag from hclass), Bool.false_and]
    · rw [decide_eq_false (Nat.not_le.2 hshort), Bool.and_false]
  rw [State.linkIsUp_advance hup, hdiag]
  rfl

/-- The first failed check of a frame counts it (11 R325). -/
theorem execFilteredFrame_fails {f : FrameFacts} {n : Nat} {l : List Nat} (hclass : s.classOf f ≠ .diag ∨ f.len < f.headLen)
    (hwhole : f.assemblyError = false)
    (hfails : ((s.advance t).countFec p f).earlyFails p f ++ ((s.advance t).countFec p f).lateFails p f = n :: l) :
    execFilteredFrame t p f s = .next (((s.advance t).countFec p f).bump (stepCounter p n)) := by
  simp [execFilteredFrame, filteredFrame_handled hup t hclass, hwhole, hfails]

theorem execFilteredFrame_assemblyError {f : FrameFacts} (hclass : s.classOf f ≠ .diag) (herr : f.assemblyError = true) :
    execFilteredFrame t p f s = .next (((s.advance t).countFec p f).bump (K.cRxAssemblyErrors p.code)) := by
  simp [execFilteredFrame, filteredFrame_handled hup t (.inl hclass), herr]

end Received

/-- A classified frame of the diagnostic class is none of FILTERED_FRAME's (11 R326). -/
theorem execFilteredFrame_diag {s : State} {f : FrameFacts} (hclass : s.classOf f = .diag) (hhead : f.headLen ≤ f.len) (t : Nat) (p : PortId) :
    execFilteredFrame t p f s = .next (s.advance t) := by
  have hdiag : ((s.advance t).classOf f == .diag && decide (f.headLen ≤ f.len)) = true :=
    Bool.and_eq_true_iff.2 ⟨beq_iff_eq.2 hclass, decide_eq_true hhead⟩
  exact if_pos (Bool.or_eq_true_iff.2 (.inr hdiag))

/-- Settles O46: the steps that a frame fails are a part of the table's steps in their order (`State.fails_pairwise_lt`), and the first of
them is the one that counts (`execFilteredFrame_fails`). -/
theorem receivedFrames : Obligations.ReceivedFrames := by
  intro s t p hup a
  refine ⟨fun f hlo hhi hown => ?answered, fun len => ?tooBig, fun f n l hwhole hclass hfails => execFilteredFrame_fails hup t hclass hwhole hfails,
    fun f hclass hhead => execFilteredFrame_diag hclass hhead t p, fun f herr hclass => execFilteredFrame_assemblyError hup t hclass herr,
    s.fails_pairwise_lt p, fun f hpcs => s.earlyFails_pcsError p hpcs, fun f hpcs hrunt => s.earlyFails_runt p hpcs hrunt,
    fun f hpcs hmin hmax hfcs => State.earlyFails_good hpcs hmin hmax hfcs⟩
  case answered => exact (if_neg (State.not_not_linkIsUp_advance hup t)).trans (if_pos ⟨hown, hlo, hhi⟩)
  case tooBig => exact congrArg Host.Outcome.next (if_pos (State.linkIsUp_advance hup t))

end Sys2Proof.Machine
end

section
/-! Flow control and preemption (11 R329 to R332). -/

namespace Sys2Proof.Machine

/-- Time alone changes no dictionary value. -/
theorem State.num_advance (s : State) (t k : Nat) : (s.advance t).num k = s.num k := rfl

theorem State.flag_advance (s : State) (t k : Nat) : (s.advance t).flag k = s.flag k := rfl

theorem execPauseFrame_one {s : State} {p : PortId} (hup : (s.port p).link = .up) (t : Nat) {f : PauseFrame} {prio q : Nat}
    {r : State} (hr : r = ((s.advance t).rxFrame p 64).bump (K.cRxPauseFrames p.code)) (hobeys : r.obeysPause p f.pfc = true)
    (htimes : f.times = [(prio, q)]) (hprio : if f.pfc then prio < 8 else prio = 8) :
    execPauseFrame t p f s = .next (r.pausePrio p prio q) := by
  subst hr
  have htaken : (if f.pfc then decide (prio < 8) else prio == 8) = true := by
    cases hpfc : f.pfc <;> simpa [hpfc] using hprio
  simp [execPauseFrame, State.linkIsUp_advance hup, hobeys, htimes, htaken]

/-- A pause of a priority that nothing holds yet holds it from now on, for its time (11 R330). -/
theorem State.pausePrio_first {s : State} {p : PortId} {prio q : Nat} (hq : q ≠ 0) (hfree : ∀ h ∈ (s.port p).paused, h.prio ≠ prio) :
    s.pausePrio p prio q = s.setPort p { s.port p with paused := (s.port p).paused ++
      [{ prio := prio, until_ := s.now + quantaNs (modeGbps (s.port p).activeMode) q, since := s.now }] } := by
  have hrest : (s.port p).paused.filter (·.prio != prio) = (s.port p).paused := List.filter_eq_self.2 (by simpa using hfree)
  have hfind : (s.port p).paused.find? (·.prio == prio) = none := List.find?_eq_none.2 (by simpa using hfree)
  simp [State.pausePrio, hq, hrest, hfind]

section Repeat

variable {s : State} {p : PortId} (hup : (s.port p).link = .up) (hen : s.flag (K.pauseTxEnable p.code) = true) (t : Nat) {used : Nat}

include hup hen

/-- XOFF goes out once the port's share has passed 7/8 (11 R331). -/
theorem execPauseTxRepeat_xoff (hon : (s.port p).xoff = false) (hfull : 7 * bufShare < 8 * used) :
    execPauseTxRepeat t p used s
      = .next (((s.advance t).setPort p { s.port p with bufUsed := used, xoff := true, xoffAt := max s.now t }).sendPause p 0xFFFF) := by
  simp [execPauseTxRepeat, State.linkIsUp_advance hup, State.flag_advance, hen, hon, hfull]

theorem execPauseTxRepeat_below (hon : (s.port p).xoff = false) (hroom : 8 * used ≤ 7 * bufShare) :
    execPauseTxRepeat t p used s = .next ((s.advance t).setPort p { s.port p with bufUsed := used }) := by
  simp [execPauseTxRepeat, State.linkIsUp_advance hup, State.flag_advance, hen, hon, Nat.not_lt.2 hroom]

/-- XON goes out once the port's share is back below 1/2 (11 R331). -/
theorem execPauseTxRepeat_xon (hoff : (s.port p).xoff = true) (hlow : 2 * used < bufShare) :
    execPauseTxRepeat t p used s
      = .next (((s.advance t).setPort p { s.port p with bufUsed := used, xoff := false }).sendPause p 0) := by
  simp [execPauseTxRepeat, State.linkIsUp_advance hup, State.flag_advance, hen, hoff, hlow]

end Repeat

/-- A hold of the whole port for PauseWatchdogMs without a break trips the watchdog: the hold ends, and pause is ignored (11 R332). -/
theorem execPauseWatchdogTrip_port {s : State} {p : PortId} {h : PauseHold} {t : Nat} (hheld : (s.port p).paused = [h]) (hport : h.prio = 8)
    (hdue : h.since + s.num K.pauseWatchdogMs * nsMs ≤ max s.now t) (hlasts : h.since + s.num K.pauseWatchdogMs * nsMs ≤ h.until_) :
    execPauseWatchdogTrip t p s
      = .next ((((((s.advance t).setPort p { s.port p with paused := [], ignoreUntil := some (max s.now t + s.num K.pauseIgnoreMs * nsMs) }).bump
        (K.cPauseWatchdogTrips p.code)).event 0x0203 [(4, p.code), (4, 8), (4, (max s.now t - h.since) / 1000)]).resumeTx p)) := by
  have htrips : ((h.prio == 8 || h.prio == (s.advance t).rwpPrio p) &&
      decide (h.since + (s.advance t).num K.pauseWatchdogMs * nsMs ≤ (s.advance t).now ∧
        h.since + (s.advance t).num K.pauseWatchdogMs * nsMs ≤ h.until_)) = true :=
    Bool.and_eq_true_iff.2 ⟨Bool.or_eq_true_iff.2 (.inl (beq_iff_eq.2 hport)), decide_eq_true ⟨hdue, hlasts⟩⟩
  simp only [execPauseWatchdogTrip, State.port_advance, hheld, List.find?_cons, htrips]
  rw [hport, State.setPort_now]
  rfl

theorem execPauseIgnoreEnd_due {s : State} {p : PortId} {t u : Nat} (hignore : (s.port p).ignoreUntil = some u) (hdue : u ≤ max s.now t) :
    execPauseIgnoreEnd t p s = .next ((s.advance t).setPort p { s.port p with ignoreUntil := none }) := by
  simp [execPauseIgnoreEnd, hignore, hdue]

/-- Settles O48. The model's own choices in it are the bytes in use as an operand and the port's share of 8 MiB (log 85), the microseconds of
event 0x0203 (log 84) and the 30 ms of a verify exchange (log 86). -/
theorem flowControl : Obligations.FlowControl := by
  intro s t p hup a x
  refine ⟨fun f => ⟨fun hignores => ?ignored, fun prio q hobeys htimes hprio => execPauseFrame_one hup t rfl hobeys htimes hprio⟩,
    fun prio q hq hfree => State.pausePrio_first (s := s.advance t) hq hfree, fun prio hover => ?expiry,
    fun hen used => ⟨execPauseTxRepeat_xoff hup hen t, execPauseTxRepeat_below hup hen t, execPauseTxRepeat_xon hup hen t⟩,
    fun h hheld hport hdue hlasts => execPauseWatchdogTrip_port hheld hport hdue hlasts,
    fun u hignore hdue => execPauseIgnoreEnd_due hignore hdue,
    fun hverify => ⟨congrArg Host.Outcome.next (if_pos hverify), fun hdue => ?unanswered⟩⟩
  case ignored =>
    exact (if_neg (State.not_not_linkIsUp_advance hup t)).trans (congrArg Host.Outcome.next (if_neg (Bool.eq_false_iff.1 hignores)))
  case expiry =>
    obtain ⟨h, hmem, hprio, hdue⟩ := hover
    have hany : ((s.port p).paused.any fun h => h.prio == prio && decide (h.until_ ≤ max s.now t)) = true :=
      List.any_eq_true.2 ⟨h, hmem, by simp [hprio, hdue]⟩
    exact congrArg Host.Outcome.next (if_pos hany)
  case unanswered =>
    have hfails : (s.verifying p && decide ((s.port p).upAt + 30 * nsMs ≤ max s.now t)) = true :=
      Bool.and_eq_true_iff.2 ⟨hverify, decide_eq_true hdue⟩
    exact congrArg Host.Outcome.next (if_pos hfails)

end Sys2Proof.Machine
end

section
/-! Writes on the recorder, the site and the capture ring; the node-ID, the mailbox's dictionary and the settings store (11 R327, 12 R349,
R356, 14 R404, R420, R422). -/

namespace Sys2Proof.Machine

theorem dictRow?_eventRateLimit : dictRow? K.eventRateLimit = some ⟨K.eventRateLimit, .oct, .wo, .sys, 0, none, none⟩ := rfl
theorem dictRow?_siteMessage : dictRow? K.siteMessage = some ⟨K.siteMessage, .dom, .wo, .vol, 0, none, none⟩ := rfl
theorem dictRow?_diagCaptureRelease : dictRow? K.diagCaptureRelease = some ⟨K.diagCaptureRelease, .u32, .wo, .vol, 0, none, none⟩ := rfl

/-- The row of a snapshot slot (14 R422). -/
theorem dictRow?_eventSnapshotFrom {slot : Nat} (hlo : 1 ≤ slot) (hhi : slot ≤ 4) :
    dictRow? (0x2B0200 + slot) = some ⟨0x2B0200 + slot, .u64, .rw, .vol, 0, none, none⟩ := by
  obtain rfl | rfl | rfl | rfl : slot = 1 ∨ slot = 2 ∨ slot = 3 ∨ slot = 4 := by omega
  all_goals rfl

/-- A write that does not pass is refused (12 R346). -/
theorem State.dictSet_of_guard {s : State} {c : Client} {k : Nat} {b : Bytes} {r : DictRow} (hr : dictRow? k = some r)
    (hpass : s.writePasses c k b = false) : s.dictSet c (k / 256) (k % 256) b = (s, some r, .abort (s.writeGuard c r b)) := by
  have hguard : s.writeGuard c r b ≠ 0 := by simpa [State.writePasses, hr] using hpass
  simp [State.dictSet, dictRowsOf_isEmpty_of_row hr, dictRow?_split, hr, hguard]

/-- A rate limit of a code that the part records is in effect, and its write ends with the store (14 R420). -/
theorem State.writeStr_eventRateLimit {s : State} {b : Bytes} (hcode : catalogue.contains (beAt b 0 2) = true) :
    s.writeStr ⟨K.eventRateLimit, .oct, .wo, .sys, 0, none, none⟩ b = (s.rateLimit b, .stored) := by
  have hok : s.strOk K.eventRateLimit b = true := hcode
  have hbad : (!s.strOk K.eventRateLimit b) = false := by rw [hok]; rfl
  exact (if_neg (Bool.eq_false_iff.1 hbad)).trans rfl

/-- A site message is sent where site firmware runs and the ring has a free slot (14 R404). -/
theorem State.writeStr_siteMessage (s : State) (b : Bytes) :
    s.writeStr ⟨K.siteMessage, .dom, .wo, .vol, 0, none, none⟩ b
      = if s.siteRunning && !s.c2sFull then (s.mbxSend 0x83 0 b, .ok) else (s, .abort 0x08000020) := rfl

/-- A capture release drops the records up to its number (11 R327). -/
theorem State.writeNum_diagCaptureRelease (s : State) (c : Client) (v : Nat) :
    s.writeNum c ⟨K.diagCaptureRelease, .u32, .wo, .vol, 0, none, none⟩ v
      = ({ s with eth := { s.eth with capture := s.eth.capture.filter fun (x : CapRec) => decide (v < x.seq) } }, .ok) := rfl

/-- A number written to a snapshot slot is set, and opens or closes the slot (14 R422). -/
theorem State.writeNum_eventSnapshotFrom {slot : Nat} (hlo : 1 ≤ slot) (hhi : slot ≤ 4) (s : State) (c : Client) (v : Nat) :
    s.writeNum c ⟨0x2B0200 + slot, .u64, .rw, .vol, 0, none, none⟩ v
      = ((s.setNum (0x2B0200 + slot) v).snapshotFrom (slot - 1) v, .ok) := by
  obtain rfl | rfl | rfl | rfl : slot = 1 ∨ slot = 2 ∨ slot = 3 ∨ slot = 4 := by omega
  all_goals rfl

/-- FromSeq 0 closes a slot (14 R422). -/
theorem State.snapshotFrom_zero (s : State) {i : Nat} (hi : i < 4) : (s.snapshotFrom i 0).evs.snaps.getD i {} = {} := by
  simp [State.snapshotFrom, Vector.getD, hi]

/-- No numbered record lies at or past the next number and below it. -/
theorem filter_fromNext_eq_nil {next v : Nat} (hnext : next ≤ v) (hpos : 0 < v) (l : List Nat) :
    (l.filter fun q => decide (v ≤ q ∧ q ≤ next - 1)) = [] :=
  List.filter_eq_nil_iff.2 fun q _ hq => by
    have hin := of_decide_eq_true hq
    omega

/-- A slot opened from a number that no record has yet holds none, until its time (14 R422). -/
theorem State.snapshotFrom_next {s : State} {i v : Nat} (hi : i < 4) (hnext : s.evs.nextSeq ≤ v) (hpos : 0 < v) :
    (s.snapshotFrom i v).evs.snaps.getD i {}
      = { st := .open_, first := v, last := v - 1, count := 0, expiresAt := s.ptp + s.num K.eventSnapshotHoldSeconds * nsSec } := by
  simp only [State.snapshotFrom, if_pos hnext, if_neg (Nat.ne_of_gt hpos), filter_fromNext_eq_nil hnext hpos]
  simp [Vector.getD, hi]

/-- An open slot whose time has come expires, with its event (14 R422). -/
theorem execSnapshotExpiry_due {s : State} {t slot : Nat} (hlo : 1 ≤ slot) (hhi : slot ≤ 4) {x : Snapshot}
    (hx : s.evs.snaps.getD (slot - 1) {} = x)
    (hopen : x.st = .open_) (hdue : x.expiresAt ≤ (s.advance t).ptp) {u : State}
    (hu : u = { s.advance t with evs := { s.evs with snaps := s.evs.snaps.setIfInBounds (slot - 1) { x with st := .expired, count := 0 } } }) :
    execSnapshotExpiry t slot s = .next (u.event 0x0B81 [(4, slot), (8, x.first), (4, 1)]).logTrim := by
  subst hx hu
  have htimed : decide (((s.advance t).evs.snaps.getD (slot - 1) {}).expiresAt ≤ (s.advance t).ptp) = true := decide_eq_true hdue
  simp only [execSnapshotExpiry, htimed, Bool.true_or, if_true]
  exact congrArg Host.Outcome.next (if_pos ⟨hlo, hhi, hopen, trivial⟩)

/-- What site firmware cannot take is dropped (14 R404). -/
theorem State.dictApply_siteMessage_dropped {s : State} (hrun : s.paused = false) (hfull : s.site.st ≠ 1 ∨ s.c2sFull = true) (c : Client)
    (b : Bytes) : s.dictApply c K.siteMessage b = s := by
  have hcannot : ¬(s.siteRunning && !s.c2sFull) = true := by
    rcases hfull with hst | hring
    · simp [State.siteRunning, hst]
    · simp [hring]
  by_cases hpass : s.writePasses c K.siteMessage b = true
  · have hset := State.dictSet_str dictRow?_siteMessage hpass rfl
    rw [State.writeStr_siteMessage, if_neg hcannot] at hset
    exact State.dictApply_of_abort hrun hset
  · exact State.dictApply_of_abort hrun (State.dictSet_of_guard dictRow?_siteMessage (Bool.eq_false_iff.2 hpass))

/-- The answer to a DICT_READ of 8 bytes at the front of the ring is that of the dictionary (14 R404). -/
theorem execMbxDictRead_answers {s : State} {token : Nat} {p : Bytes} (hcore : s.domOn .core = true)
    (hreq : s.mbxRequest = some (1, 8, token, p)) (t : Nat) {x : State × Option DictRow × DRead}
    (hx : (s.advance t).dictGet .site (leAt p 0 2) (leAt p 2 1) = x) :
    (∀ code, x.2.2 = .abort code → execMbxDictRead t s = .next (State.mbxRejectBad 33 (x.1.mbxReply token code 0 []))) ∧
      (∀ v, x.2.2 = .value v → leAt p 4 4 ≤ v.length →
        execMbxDictRead t s = .next (State.mbxRejectBad 33 (x.1.mbxReply token 0 v.length (sliceBytes v (leAt p 4 4) 48)))) := by
  have hreq' : (s.advance t).mbxRequest = some (1, 8, token, p) := hreq
  have hcore' : (s.advance t).domOn .core = true := hcore
  refine ⟨fun code hcode => ?_, fun v hv hoff => ?_⟩
  · simp [execMbxDictRead, hreq', hcore', hx, hcode]
  · simp [execMbxDictRead, hreq', hcore', hx, hv, Nat.not_lt.2 hoff]

section Writes

variable {s : State} {c : Client} (hrun : s.paused = false)

include hrun

theorem State.dictApply_eventRateLimit {b : Bytes} (hpass : s.writePasses c K.eventRateLimit b = true)
    (hcode : catalogue.contains (beAt b 0 2) = true) : s.dictApply c K.eventRateLimit b = (s.rateLimit b).awaitStore .none := by
  have hset := State.dictSet_str dictRow?_eventRateLimit hpass rfl
  rw [State.writeStr_eventRateLimit hcode] at hset
  exact State.dictApply_of_stored hrun hset

theorem State.dictApply_eventSnapshotFrom {slot v : Nat} (hlo : 1 ≤ slot) (hhi : slot ≤ 4) (hfit : v < 2 ^ 64)
    (hpass : s.writePasses c (0x2B0200 + slot) (beBytes 8 v) = true) :
    s.dictApply c (0x2B0200 + slot) (beBytes 8 v) = (s.setNum (0x2B0200 + slot) v).snapshotFrom (slot - 1) v := by
  have hset := State.dictSet_num (dictRow?_eventSnapshotFrom hlo hhi) hpass rfl
  rw [ofBE_beBytes_of_lt hfit, State.writeNum_eventSnapshotFrom hlo hhi] at hset
  exact State.dictApply_of_ok hrun hset

theorem State.dictApply_siteMessage_sent {b : Bytes} (hpass : s.writePasses c K.siteMessage b = true) (hst : s.site.st = 1)
    (hroom : s.c2sFull = false) : s.dictApply c K.siteMessage b = s.mbxSend 0x83 0 b := by
  have hcan : (s.siteRunning && !s.c2sFull) = true := by simp [State.siteRunning, hst, hroom]
  have hset := State.dictSet_str dictRow?_siteMessage hpass rfl
  rw [State.writeStr_siteMessage, if_pos hcan] at hset
  exact State.dictApply_of_ok hrun hset

theorem State.dictApply_diagCaptureRelease {v : Nat} (hfit : v < 2 ^ 32) (hpass : s.writePasses c K.diagCaptureRelease (beBytes 4 v) = true) :
    s.dictApply c K.diagCaptureRelease (beBytes 4 v)
      = { s with eth := { s.eth with capture := s.eth.capture.filter fun (x : CapRec) => decide (v < x.seq) } } := by
  have hset := State.dictSet_num dictRow?_diagCaptureRelease hpass rfl
  rw [ofBE_beBytes_of_lt hfit, State.writeNum_diagCaptureRelease] at hset
  exact State.dictApply_of_ok hrun hset

end Writes

/-- Settles O43. Each write that passes is applied by its entry's lemma (`State.dictApply_eventRateLimit` and those after it). That a settings
copy is programmed whole is log 54, and its record in the SYSTEM stream log 116. -/
theorem recorderNodeAndStore : Obligations.RecorderNodeAndStore := by
  refine ⟨fun s t c hrun => ?writes, fun s t => ?commands⟩
  case writes =>
    intro a
    have hrun' : a.paused = false := hrun
    refine ⟨fun b hpass hcode => ?limit, fun slot v hlo hhi hfit hpass => ?slot,
      fun i hi => ⟨a.snapshotFrom_zero hi, fun v => State.snapshotFrom_next hi⟩,
      fun slot hlo hhi hopen hdue => execSnapshotExpiry_due hlo hhi rfl hopen hdue rfl, fun b hpass hst hroom => ?sent, fun b hcannot => ?dropped,
      fun v hfit hpass => ?release⟩
    case limit => exact congrArg Host.Outcome.next (State.dictApply_eventRateLimit hrun' hpass hcode)
    case slot =>
      change Host.Outcome.next (a.dictApply c (0x2B0200 + slot % 256) (beBytes 8 v)) = _
      rw [Nat.mod_eq_of_lt (by omega), State.dictApply_eventSnapshotFrom hrun' hlo hhi hfit hpass]
    case sent => exact congrArg Host.Outcome.next (State.dictApply_siteMessage_sent hrun' hpass hst hroom)
    case dropped => exact congrArg Host.Outcome.next (State.dictApply_siteMessage_dropped hrun' hcannot c b)
    case release => exact congrArg Host.Outcome.next (State.dictApply_diagCaptureRelease hrun' hfit hpass)
  case commands =>
    intro a
    refine ⟨fun new hbus hlo hhi => ⟨?claim, fun serial hother => ?other⟩, fun hbus hid => ?retry,
      fun token p hcore hreq => execMbxDictRead_answers hcore hreq t rfl, fun hprog => ?store⟩
    case claim => exact congrArg Host.Outcome.next ((if_pos hbus).trans (if_pos ⟨rfl, hlo, hhi⟩))
    case other => exact congrArg Host.Outcome.next ((if_pos hbus).trans (if_neg fun h => hother h.1))
    case retry =>
      have hunassigned : (a.shelf.running && a.shelf.nodeId == 127) = true := Bool.and_eq_true_iff.2 ⟨hbus, beq_iff_eq.2 hid⟩
      exact congrArg Host.Outcome.next (if_pos hunassigned)
    case store =>
      have hends : ¬(!a.dict.programming) = true := by simp [show a.dict.programming = true from hprog]
      exact congrArg Host.Outcome.next (if_neg hends)

end Sys2Proof.Machine
end

section
/-! What every step does to the queue, and what it keeps: memory's canonical form and the cells of OTP (14 R399, R409; 15 R442, R443). -/

namespace Sys2Proof.Machine

/-- On a queue that is not empty, a step is its front command's meaning on the state with the queue's rest. -/
theorem step_of_pending {s : State} {c : Instr} {rest : List Instr} (h : s.pending = c :: rest) :
    step s = exec c { s with pending := rest } := by
  simp only [step, h]

theorem step_idle {s : State} (h : s.pending = []) : step s = .next s := by
  simp only [step, h]

/-- A step that answers `u` leaves memory and OTP cells as the onward law has them. -/
theorem step_keeps {s u : State} (h : step s = .next u) :
    (Memory.wf s.mem = true → Memory.wf u.mem = true) ∧ OtpOnward s.fw.otp u.fw.otp := by
  cases hq : s.pending with
  | nil =>
    obtain rfl : s = u := Host.Outcome.next.inj ((step_idle hq).symm.trans h)
    exact ⟨id, .refl _⟩
  | cons c rest =>
    obtain ⟨v, hexec, honward⟩ := exec_onward c { s with pending := rest }
    obtain rfl : v = u := Host.Outcome.next.inj (hexec.symm.trans ((step_of_pending hq).symm.trans h))
    exact ⟨honward.mem, honward.otp⟩

/-- Settles O3: the law of every command (`exec_onward`) carries memory's form over a step. -/
theorem invariantKept : Obligations.InvariantKept := fun _ _ hinv hstep => (step_keeps hstep).1 hinv

/-- Settles O4: the law of every command (`exec_onward`) says what OTP cells gain. -/
theorem otpOnlyGains : Obligations.OtpOnlyGains := by
  intro s u hstep
  obtain ⟨hserial, hmac, hnonce, hlife, hroll, hseeds, hgens⟩ := (step_keeps hstep).2
  exact ⟨hserial, hmac, hnonce, hlife, hroll, hseeds, hgens⟩

/-- Settles O1. That the block idles on an empty queue is log 1's choice. -/
theorem stepServesQueue : Obligations.StepServesQueue :=
  ⟨fun _ _ => step_of_pending rfl, fun _ => step_idle⟩

end Sys2Proof.Machine
end

section
/-! The reshuffle modes of a DMA descriptor, and what a descriptor does to memory (14 R407, R409). -/

namespace Sys2Proof.Machine

/-! Both indices split into the way `a`, the grain `b` of that way and the byte `r` of the grain: INTERLEAVE takes the source's order
(way, grain, byte) to the destination's order (grain, way, byte). -/

section Interleave

variable {w g q a b r : Nat}

theorem wayOffset_lt (hb : b < q) (hr : r < g) : b * g + r < g * q := by
  calc b * g + r < b * g + g := by omega
    _ = g * (b + 1) := by rw [Nat.mul_add, Nat.mul_comm, Nat.mul_one]
    _ ≤ g * q := Nat.mul_le_mul_left g hb

theorem wayIndex_lt (ha : a < w) (hb : b < q) (hr : r < g) : a * (g * q) + (b * g + r) < w * g * q := by
  rw [Nat.mul_assoc, Nat.mul_comm w]
  exact wayOffset_lt ha (wayOffset_lt hb hr)

theorem grainIndex_lt (ha : a < w) (hb : b < q) (hr : r < g) : (b * w + a) * g + r < w * g * q := by
  rw [Nat.mul_comm w g, Nat.mul_assoc]
  exact wayOffset_lt (wayOffset_lt hb ha) hr

theorem add_mul_divMod {x m y : Nat} (hy : y < m) : (x * m + y) / m = x ∧ (x * m + y) % m = y := by
  rw [Nat.add_comm, Nat.add_mul_div_right _ _ (by omega), Nat.add_mul_mod_self_right, Nat.div_eq_of_lt hy, Nat.mod_eq_of_lt hy]
  simp

theorem interleave_wayBytes (ha : a < w) : w * g * q / w = g * q := by
  rw [Nat.mul_assoc, Nat.mul_div_cancel_left _ (by omega)]

theorem interleaveSrc_grainIndex (ha : a < w) (hr : r < g) :
    interleaveSrc w g (w * g * q) ((b * w + a) * g + r) = a * (g * q) + (b * g + r) := by
  obtain ⟨hgrain, hbyte⟩ := add_mul_divMod (x := b * w + a) hr
  obtain ⟨hblock, hway⟩ := add_mul_divMod (x := b) ha
  rw [interleaveSrc, hgrain, hbyte, hblock, hway, interleave_wayBytes ha, Nat.add_assoc]

theorem interleaveDst_wayIndex (ha : a < w) (hb : b < q) (hr : r < g) :
    interleaveDst w g (w * g * q) (a * (g * q) + (b * g + r)) = (b * w + a) * g + r := by
  obtain ⟨hway, hoffset⟩ := add_mul_divMod (x := a) (wayOffset_lt hb hr)
  obtain ⟨hgrain, hbyte⟩ := add_mul_divMod (x := b) hr
  rw [interleaveDst, interleave_wayBytes ha, hway, hoffset, hgrain, hbyte]

theorem exists_grainIndex {d : Nat} (hw : 0 < w) (hg : 0 < g) (hd : d < w * g * q) :
    ∃ a b r, a < w ∧ b < q ∧ r < g ∧ d = (b * w + a) * g + r := by
  refine ⟨d / g % w, d / g / w, d % g, Nat.mod_lt _ hw, ?_, Nat.mod_lt _ hg, ?_⟩
  · rw [Nat.div_div_eq_div_mul, Nat.div_lt_iff_lt_mul (Nat.mul_pos hg hw), Nat.mul_comm q, Nat.mul_comm g]
    exact hd
  · rw [Nat.div_add_mod', Nat.div_add_mod']

theorem exists_wayIndex {k : Nat} (hg : 0 < g) (hk : k < w * g * q) :
    ∃ a b r, a < w ∧ b < q ∧ r < g ∧ k = a * (g * q) + (b * g + r) := by
  have hq : 0 < q := Nat.pos_of_ne_zero fun h => by simp [h] at hk
  refine ⟨k / (g * q), k % (g * q) / g, k % (g * q) % g, ?_, ?_, Nat.mod_lt _ hg, ?_⟩
  · rw [Nat.div_lt_iff_lt_mul (Nat.mul_pos hg hq), ← Nat.mul_assoc]
    exact hk
  · exact Nat.div_lt_of_lt_mul (Nat.mod_lt _ (Nat.mul_pos hg hq))
  · rw [Nat.div_add_mod', Nat.div_add_mod']

end Interleave

/-- INTERLEAVE's two index functions are inverse permutations of a descriptor's bytes (14 R409). -/
theorem interleave_inverse {w g n k : Nat} (hw : 0 < w) (hg : 0 < g) (hn : n % (w * g) = 0) (hk : k < n) :
    interleaveDst w g n k < n ∧ interleaveSrc w g n (interleaveDst w g n k) = k ∧
      interleaveSrc w g n k < n ∧ interleaveDst w g n (interleaveSrc w g n k) = k := by
  obtain ⟨q, rfl⟩ := Nat.dvd_of_mod_eq_zero hn
  refine ⟨?_, ?_, ?_, ?_⟩
  · obtain ⟨a, b, r, ha, hb, hr, rfl⟩ := exists_wayIndex hg hk
    rw [interleaveDst_wayIndex ha hb hr]
    exact grainIndex_lt ha hb hr
  · obtain ⟨a, b, r, ha, hb, hr, rfl⟩ := exists_wayIndex hg hk
    rw [interleaveDst_wayIndex ha hb hr, interleaveSrc_grainIndex ha hr]
  · obtain ⟨a, b, r, ha, hb, hr, rfl⟩ := exists_grainIndex hw hg hk
    rw [interleaveSrc_grainIndex ha hr]
    exact wayIndex_lt ha hb hr
  · obtain ⟨a, b, r, ha, hb, hr, rfl⟩ := exists_grainIndex hw hg hk
    rw [interleaveSrc_grainIndex ha hr, interleaveDst_wayIndex ha hb hr]

/-! The bit-plane modes: in a block of `8 * p` bytes, bit `j` of byte `8 * c + m` and bit `m` of byte `j * p + c` trade places. -/

/-- The sum of `gatherBits`: bits below `n`, each from `f`. -/
theorem testBit_gatherSum (f : Nat → Bool) (n i : Nat) :
    let x := (List.range n).foldl (fun a m => a + (if f m then 2 ^ m else 0)) 0
    x < 2 ^ n ∧ x.testBit i = (decide (i < n) && f i) := by
  induction n generalizing i with
  | zero => simp
  | succ n ih =>
    obtain ⟨hlt, hbits⟩ := ih i
    simp only [List.range_succ, List.foldl_append, List.foldl_cons, List.foldl_nil]
    generalize (List.range n).foldl (fun a m => a + (if f m then 2 ^ m else 0)) 0 = x at hlt hbits ⊢
    cases hf : f n with
    | false =>
      refine ⟨by simp only [Bool.false_eq_true, if_false, Nat.pow_succ]; omega, ?_⟩
      rw [if_neg Bool.false_ne_true, Nat.add_zero, hbits]
      by_cases hi : i = n
      · simp [hi, hf]
      · rw [decide_eq_decide.2 (show i < n ↔ i < n + 1 by omega)]
    | true =>
      refine ⟨by simp only [if_true, Nat.pow_succ]; omega, ?_⟩
      rw [if_pos rfl, Nat.add_comm]
      rcases Nat.lt_trichotomy i n with hi | rfl | hi
      · rw [Nat.testBit_two_pow_add_gt hi, hbits]
        simp [hi, Nat.lt_succ_of_lt hi]
      · rw [Nat.testBit_two_pow_add_eq, hbits]
        simp [hf]
      · have htop : (2 ^ n + x).testBit i = false :=
          Nat.testBit_lt_two_pow (calc
            2 ^ n + x < 2 ^ n + 2 ^ n := by omega
            _ = 2 ^ (n + 1) := by rw [Nat.pow_succ]; omega
            _ ≤ 2 ^ i := Nat.pow_le_pow_right (by decide) hi)
        simp [htop, Nat.not_lt.2 (Nat.succ_le_of_lt hi)]

theorem getLsbD_gatherBits (f : Nat → Bool) {i : Nat} (hi : i < 8) : (gatherBits f).getLsbD i = f i := by
  rw [gatherBits, BitVec.getLsbD_ofNat, (testBit_gatherSum f 8 i).2]
  simp [hi]

/-- A byte is what its own bits gather. -/
theorem gatherBits_eq {f : Nat → Bool} {x : Byte} (h : ∀ i, i < 8 → f i = x.getLsbD i) : gatherBits f = x :=
  BitVec.eq_of_getLsbD_eq fun i hi => (getLsbD_gatherBits f hi).trans (h i hi)

section Planes

variable {x : DmaDesc} {src : Nat → Byte} {n c : Nat}

theorem DmaDesc.block_divMod {o : Nat} (ho : o < 8 * x.plane) :
    (n * (8 * x.plane) + o) / (8 * x.plane) = n ∧ (n * (8 * x.plane) + o) % (8 * x.plane) = o := add_mul_divMod ho

/-- BITPLANE_SPLIT, read by plane `j` and column `c`. -/
theorem DmaDesc.destByte_split (hmode : x.mode = 3) {j : Nat} (hj : j < 8) (hc : c < x.plane) :
    x.destByte src (n * (8 * x.plane) + (j * x.plane + c))
      = gatherBits fun m => (src (n * (8 * x.plane) + (8 * c + m))).getLsbD j := by
  have ho : j * x.plane + c < 8 * x.plane := by
    rw [Nat.mul_comm 8]; exact wayOffset_lt hj hc
  obtain ⟨hblock, hoffset⟩ := x.block_divMod (n := n) ho
  obtain ⟨hplane, hcolumn⟩ := add_mul_divMod (x := j) hc
  simp only [DmaDesc.destByte, hmode, hblock, hoffset, hplane, hcolumn, Nat.add_assoc]

/-- BITPLANE_MERGE, read by column `c` and bit `m`. -/
theorem DmaDesc.destByte_merge (hmode : x.mode = 4) {m : Nat} (hm : m < 8) (hc : c < x.plane) :
    x.destByte src (n * (8 * x.plane) + (8 * c + m))
      = gatherBits fun j => (src (n * (8 * x.plane) + (j * x.plane + c))).getLsbD m := by
  have ho : 8 * c + m < 8 * x.plane := by omega
  obtain ⟨hblock, hoffset⟩ := x.block_divMod (n := n) ho
  have hcolumn : (8 * c + m) / 8 = c := by omega
  have hbit : (8 * c + m) % 8 = m := by omega
  simp only [DmaDesc.destByte, hmode, hblock, hoffset, hcolumn, hbit, Nat.add_assoc]

theorem exists_mergeIndex (hp : 0 < x.plane) (k : Nat) :
    ∃ n c m, c < x.plane ∧ m < 8 ∧ k = n * (8 * x.plane) + (8 * c + m) := by
  refine ⟨k / (8 * x.plane), k % (8 * x.plane) / 8, k % (8 * x.plane) % 8, ?_, by omega, ?_⟩
  · exact Nat.div_lt_of_lt_mul (Nat.mod_lt _ (by omega))
  · rw [Nat.div_add_mod, Nat.div_add_mod']

theorem exists_splitIndex (hp : 0 < x.plane) (k : Nat) :
    ∃ n j c, j < 8 ∧ c < x.plane ∧ k = n * (8 * x.plane) + (j * x.plane + c) := by
  refine ⟨k / (8 * x.plane), k % (8 * x.plane) / x.plane, k % (8 * x.plane) % x.plane, ?_, Nat.mod_lt _ hp, ?_⟩
  · rw [Nat.div_lt_iff_lt_mul hp]
    exact Nat.mod_lt _ (by omega)
  · rw [Nat.div_add_mod', Nat.div_add_mod']

variable {y : DmaDesc} (hx : x.mode = 3) (hy : y.mode = 4) (hparam : x.param = y.param) (hp : 0 < x.plane)

include hx hy hparam hp

theorem DmaDesc.merge_split (k : Nat) : y.destByte (x.destByte src) k = src k := by
  have hplane : y.plane = x.plane := congrArg (fieldAt · 0 10) hparam.symm
  obtain ⟨n, c, m, hc, hm, rfl⟩ := exists_mergeIndex hp k
  rw [← hplane, DmaDesc.destByte_merge hy hm (hplane ▸ hc), hplane]
  refine gatherBits_eq fun j hj => ?_
  rw [DmaDesc.destByte_split hx hj hc, getLsbD_gatherBits _ hm]

theorem DmaDesc.split_merge (k : Nat) : x.destByte (y.destByte src) k = src k := by
  have hplane : y.plane = x.plane := congrArg (fieldAt · 0 10) hparam.symm
  obtain ⟨n, j, c, hj, hc, rfl⟩ := exists_splitIndex hp k
  rw [DmaDesc.destByte_split hx hj hc]
  refine gatherBits_eq fun m hm => ?_
  rw [← hplane, DmaDesc.destByte_merge hy hm (hplane ▸ hc), getLsbD_gatherBits _ hj]

end Planes

/-- Settles O29. -/
theorem reshuffleModesInvert : Obligations.ReshuffleModesInvert :=
  ⟨fun _ _ _ _ hw hg hn hk => interleave_inverse hw hg hn hk,
    fun _ _ _ k hx hy hparam hp => ⟨DmaDesc.merge_split hx hy hparam hp k, DmaDesc.split_merge hx hy hparam hp k⟩⟩

section MoveBytes

variable {m : List Host.Cell} (hm : Memory.wf m = true) (x : DmaDesc) (n : Nat)

/-- The byte that arrives at destination index `d`; the source is read whole first (log 6). -/
def movedByte (m : List Host.Cell) (x : DmaDesc) (d : Nat) : Byte :=
  x.destByte (fun k => memGet m (lineByte x.src x.srcStride x.lineLen k)) d

theorem moveBytes_succ : moveBytes m x (n + 1)
    = memPut (moveBytes m x n) (lineByte x.dst x.dstStride x.lineLen n) (movedByte m x n) := by
  simp only [moveBytes, movedByte, List.range_succ, List.foldl_append, List.foldl_cons, List.foldl_nil]

include hm

theorem memGet_moveBytes_other {a : Nat} (ha : ∀ d, d < n → lineByte x.dst x.dstStride x.lineLen d ≠ a) :
    memGet (moveBytes m x n) a = memGet m a := by
  induction n with
  | zero => rfl
  | succ n ih =>
    rw [moveBytes_succ, memGet_memPut_other (moveBytes_wf x n hm) _ (ha n (Nat.lt_succ_self n)).symm]
    exact ih fun d hd => ha d (Nat.lt_succ_of_lt hd)

/-- Each destination byte that no later one overwrites holds what arrived at it. -/
theorem memGet_moveBytes_same {d : Nat} (hd : d < n)
    (hlater : ∀ e, d < e → e < n → lineByte x.dst x.dstStride x.lineLen e ≠ lineByte x.dst x.dstStride x.lineLen d) :
    memGet (moveBytes m x n) (lineByte x.dst x.dstStride x.lineLen d) = movedByte m x d := by
  induction n with
  | zero => omega
  | succ n ih =>
    rw [moveBytes_succ]
    rcases Nat.lt_or_eq_of_le (Nat.le_of_lt_succ hd) with hlt | rfl
    · rw [memGet_memPut_other (moveBytes_wf x n hm) _ (hlater n hlt (Nat.lt_succ_self n)).symm]
      exact ih hlt fun e he hen => hlater e he (Nat.lt_succ_of_lt hen)
    · exact memGet_memPut_same (moveBytes_wf x d hm) _ _

end MoveBytes

/-- Settles O30. That each byte comes from memory as it was before the descriptor, also where source and destination overlap, is log 6's
choice. -/
theorem descriptorMovesBytes : Obligations.DescriptorMovesBytes :=
  fun _ x n hm => ⟨fun _ => memGet_moveBytes_other hm x n, fun hinj d hd =>
    memGet_moveBytes_same hm x n hd fun e hde hen heq => Nat.ne_of_gt hde (hinj e d hen hd heq)⟩

end Sys2Proof.Machine
end

section
/-! What the shared operations leave alone: each changes only the parts that it names (03 R63, 05 R134, 14 R417, R420). -/

namespace Sys2Proof.Machine

/-- `s` with what the event recorder, its counters and its register's set bits are in `u`. -/
abbrev State.withRecorder (s u : State) : State := { s with evs := u.evs, dict := u.dict, sets := u.sets }

/-- `s` with what sending is in `u`: sessions, counters, the count of ended promises, and what has left the part. -/
abbrev State.withSent (s u : State) : State :=
  { s with net := u.net, dict := u.dict, out := u.out,
           shank := { s.shank with lifeEnded := u.shank.lifeEnded, lifeBroken := u.shank.lifeBroken } }

/-- Nothing but the recorder differs. -/
def State.RecordsOnly (s u : State) : Prop := u = s.withRecorder u

/-- Nothing but what sending changes differs. -/
def State.SendsOnly (s u : State) : Prop := u = s.withSent u

namespace State.RecordsOnly

variable {s u v : State}

theorem refl (s : State) : s.RecordsOnly s := rfl

theorem trans (h : s.RecordsOnly u) (k : u.RecordsOnly v) : s.RecordsOnly v :=
  calc v = u.withRecorder v := k
    _ = (s.withRecorder u).withRecorder v := congrArg (fun w : State => w.withRecorder v) h

theorem ite {p : Prop} [Decidable p] (h : s.RecordsOnly u) (k : s.RecordsOnly v) : s.RecordsOnly (if p then u else v) := by
  split <;> assumption

theorem shelf (h : s.RecordsOnly u) : u.shelf = s.shelf := by
  have hu : u = s.withRecorder u := h
  rw [hu]

end State.RecordsOnly

theorem State.bump_recordsOnly (s : State) (k : Nat) : s.RecordsOnly (s.bump k) := rfl
theorem State.hwSet_recordsOnly (s : State) (reg mask : Nat) : s.RecordsOnly (s.hwSet reg mask) := rfl
theorem State.setBucket_recordsOnly (s : State) (b : Bucket) : s.RecordsOnly (s.setBucket b) := rfl
theorem State.RecordsOnly.evs {s u : State} (h : s.RecordsOnly u) (e : Recorder) : s.RecordsOnly { u with evs := e } :=
  h.trans rfl

theorem State.fileRecord_recordsOnly (s : State) (r : EvRec) : s.RecordsOnly (s.fileRecord r) := by
  refine .ite (.ite rfl rfl) (.ite (.ite rfl rfl) (.ite ?_ ?_))
  all_goals exact (s.hwSet_recordsOnly 0x40030014 0x40).evs _

theorem State.fileAll_recordsOnly (s : State) (code flags supp : Nat) (l : List Bytes) : s.RecordsOnly (s.fileAll code flags supp l) := by
  induction l generalizing s code flags supp with
  | nil => exact .refl s
  | cons d rest ih => exact ((State.fileRecord_recordsOnly s _).trans (State.bump_recordsOnly _ _)).trans (ih ..)

theorem State.eventSeq_recordsOnly (s : State) (code : Nat) (d : Bytes) (flags : Nat) : s.RecordsOnly (s.eventSeq code d flags).1 := by
  rw [State.eventSeq]
  split
  · exact (s.setBucket_recordsOnly _).trans (State.fileAll_recordsOnly ..)
  · rfl

/-- An EMCY frame joins the shelf bus's queue, or is dropped and counted (12 R360). -/
theorem State.emcy_frame (s : State) (code ev seq detail : Nat) :
    s.emcy code ev seq detail = { s with dict := (s.emcy code ev seq detail).dict, shelf := (s.emcy code ev seq detail).shelf } := by
  rw [State.emcy]
  split <;> rfl

theorem State.condOn_frame (s : State) (c : Nat) : s.condOn c = { s with shelf := (s.condOn c).shelf } := by
  rw [State.condOn]
  split <;> rfl

theorem State.eventEmcy_frame (s : State) (code : Nat) (f : List (Nat × Nat)) (em : Nat) (p : Bool) :
    let u := s.eventEmcy code f em p
    u = { s with evs := u.evs, dict := u.dict, sets := u.sets, shelf := u.shelf } := by
  intro u
  have hrec := State.eventSeq_recordsOnly s code (packDetail f) 0
  let c := if p then ((s.eventSeq code (packDetail f)).1).condOn em else (s.eventSeq code (packDetail f)).1
  have hcond : c = { (s.eventSeq code (packDetail f)).1 with shelf := c.shelf } := by
    cases p with
    | false => rfl
    | true => exact State.condOn_frame _ em
  have hemcy : u = { c with dict := u.dict, shelf := u.shelf } := State.emcy_frame c _ _ _ _
  calc u = { c with dict := u.dict, shelf := u.shelf } := hemcy
    _ = { (s.eventSeq code (packDetail f)).1 with dict := u.dict, shelf := u.shelf } :=
      congrArg (fun w : State => { w with dict := u.dict, shelf := u.shelf }) hcond
    _ = { s with evs := (s.eventSeq code (packDetail f)).1.evs, dict := u.dict, sets := (s.eventSeq code (packDetail f)).1.sets, shelf := u.shelf } :=
      congrArg (fun w : State => { w with dict := u.dict, shelf := u.shelf }) hrec
    _ = { s with evs := u.evs, dict := u.dict, sets := u.sets, shelf := u.shelf } := by
      rw [congrArg State.evs hemcy, congrArg State.sets hemcy, congrArg State.evs hcond, congrArg State.sets hcond]

namespace State.SendsOnly

variable {s u v : State}

theorem refl (s : State) : s.SendsOnly s := rfl

theorem trans (h : s.SendsOnly u) (k : u.SendsOnly v) : s.SendsOnly v :=
  calc v = u.withSent v := k
    _ = (s.withSent u).withSent v := congrArg (fun w : State => w.withSent v) h

/-- The frame of sending with Shank as a whole. -/
theorem frame (h : s.SendsOnly u) : u = { s with net := u.net, dict := u.dict, out := u.out, shank := u.shank } :=
  Eq.trans h (congrArg (fun k => { s with net := u.net, dict := u.dict, out := u.out, shank := k }) (congrArg State.shank h).symm)

end State.SendsOnly

theorem State.txFrame_sendsOnly (s : State) (p : PortId) (n : Nat) : s.SendsOnly (s.txFrame p n) := by
  rw [State.txFrame]
  split <;> rfl

theorem State.emitOn_sendsOnly (s : State) (p : PortId) (o : Out) : s.SendsOnly (s.emitOn p o) := by
  rw [State.emitOn]
  split
  · rfl
  · split <;> rfl

theorem State.setSession_sendsOnly (s : State) (x : Session) : s.SendsOnly (s.setSession x) := rfl
theorem State.onSession_sendsOnly (s : State) (sid : Nat) (f : Session → Session) : s.SendsOnly (s.onSession sid f) := rfl
theorem State.countPromised_sendsOnly (s : State) (broken : Bool) : s.SendsOnly (s.countPromised broken) := rfl

theorem State.endSent_sendsOnly (s : State) (sid : Nat) (b : PktBody) : s.SendsOnly (s.endSent sid b) := by
  unfold State.endSent
  split
  · split
    · exact State.SendsOnly.trans (u := { s with net := _ }) rfl (State.countPromised_sendsOnly _ _)
    · rfl
  · rfl

theorem State.txOn_sendsOnly (s : State) (x : Session) (q : NetPath) (pref : Nat) (retx : Bool) (b : PktBody) :
    s.SendsOnly (s.txOn x q pref retx b) := by
  have hlast {v : State} (h : s.SendsOnly v) (y : Session) (o : Out) : s.SendsOnly (((v.setSession y).emitOn q.port o).endSent x.sid b) :=
    ((h.trans (v.setSession_sendsOnly y)).trans (State.emitOn_sendsOnly ..)).trans (State.endSent_sendsOnly ..)
  rw [State.txOn]
  split
  · exact hlast (.refl s) _ _
  · exact hlast (s.txFrame_sendsOnly _ _) _ _

theorem State.pump_sendsOnly (fuel : Nat) (s : State) (sid : Nat) : s.SendsOnly (State.pump fuel s sid) := by
  induction fuel generalizing s with
  | zero => exact .refl s
  | succ n ih =>
    rw [State.pump]
    split
    · rfl
    · split
      · rfl
      · split
        · rfl
        · split
          · exact (State.txOn_sendsOnly ..).trans (ih _)
          · rfl

theorem State.send_sendsOnly (s : State) (sid path : Nat) (retx : Bool) (b : PktBody) : s.SendsOnly (s.send sid path retx b) :=
  (State.onSession_sendsOnly ..).trans (State.pump_sendsOnly ..)

theorem State.sendNow_sendsOnly (s : State) (sid path : Nat) (b : PktBody) : s.SendsOnly (s.sendNow sid path b) := by
  unfold State.sendNow
  split
  · rfl
  · split
    · split
      · exact State.txOn_sendsOnly ..
      · rfl
    · rfl

/-- A change of one command leaves every other in flight. -/
theorem State.onCmd_keeps {s : State} {sid tag : Nat} (f : CmdCtx → CmdCtx) {c : CmdCtx} (hc : c ∈ s.kv.cmds)
    (hother : ¬(c.sid = sid ∧ c.pkt.tag = tag)) : c ∈ (s.onCmd sid tag f).kv.cmds :=
  List.mem_map.2 ⟨c, hc, if_neg hother⟩

/-- Settles O9. -/
theorem operationFrames : Obligations.OperationFrames :=
  ⟨State.eventSeq_recordsOnly, State.eventEmcy_frame, fun _ _ _ => rfl, fun _ _ => rfl,
    fun s x q pref r b => (s.txOn_sendsOnly x q pref r b).frame,
    fun s sid path r b => ⟨(s.send_sendsOnly sid path r b).frame, congrArg State.shank (s.send_sendsOnly sid path r b)⟩,
    fun s sid path b => (s.sendNow_sendsOnly sid path b).frame,
    fun _ _ _ _ => ⟨rfl, List.prefix_append _ _⟩, fun _ _ _ f => ⟨rfl, fun _ hc => State.onCmd_keeps f hc⟩⟩

end Sys2Proof.Machine
end

section
/-! ErrorRegister (12 R361, Table 12.8). -/

namespace Sys2Proof.Machine

theorem testBit_foldl_lor {α : Type} (f : α → Nat) (l : List α) (a i : Nat) :
    (l.foldl (fun a c => a ||| f c) a).testBit i = true ↔ a.testBit i = true ∨ ∃ c ∈ l, (f c).testBit i = true := by
  induction l generalizing a with
  | nil => simp
  | cons c l ih => simp [ih, or_assoc]

/-- Table 12.8 gives every persistent condition bit 2, 3, 4 or 7. -/
theorem bitAt_emcyBit {c i : Nat} (h : bitAt (emcyBit c) i = true) : i = 2 ∨ i = 3 ∨ i = 4 ∨ i = 7 := by
  have hpow : emcyBit c = 2 ^ 2 ∨ emcyBit c = 2 ^ 3 ∨ emcyBit c = 2 ^ 4 ∨ emcyBit c = 2 ^ 7 ∨ emcyBit c = 0 := by
    unfold emcyBit
    split <;> simp
  rw [bitAt] at h
  rcases hpow with hb | hb | hb | hb | hb
  case inr.inr.inr.inr => simp [hb] at h
  all_goals
    rw [hb, Nat.testBit_two_pow, decide_eq_true_eq] at h
    omega

/-- The bits of the conditions that stand, before bit 0. -/
def State.condBits (s : State) : Nat := s.shelf.conds.foldl (fun a c => a ||| emcyBit c) 0

theorem State.bitAt_condBits (s : State) (i : Nat) : bitAt s.condBits i = true ↔ ∃ c ∈ s.shelf.conds, bitAt (emcyBit c) i = true := by
  rw [bitAt, State.condBits, testBit_foldl_lor]
  simp [bitAt]

theorem State.errorRegister_eq (s : State) : s.errorRegister = if s.condBits = 0 then 0 else s.condBits ||| 1 := rfl

/-- Above bit 0 the register is the conditions' bits. -/
theorem State.bitAt_errorRegister (s : State) {i : Nat} (hi : 0 < i) : bitAt s.errorRegister i = bitAt s.condBits i := by
  rw [State.errorRegister_eq]
  split
  · next h => rw [h]
  · simp [bitAt, Nat.testBit_one_eq_true_iff_self_eq_zero, Nat.ne_of_gt hi]

theorem State.bitAt_errorRegister_zero (s : State) : bitAt s.errorRegister 0 = true ↔ s.condBits ≠ 0 := by
  rw [State.errorRegister_eq]
  split
  · next h => simp [bitAt, h]
  · next h => simp [bitAt, h]

theorem State.condBits_pos {s : State} {i : Nat} (h : bitAt s.condBits i = true) : 0 < i := by
  obtain ⟨c, _, hc⟩ := (s.bitAt_condBits i).1 h
  have := bitAt_emcyBit hc
  omega

theorem State.errorRegister_congr {s u : State} (h : u.shelf.conds = s.shelf.conds) : u.errorRegister = s.errorRegister := by
  rw [State.errorRegister, State.errorRegister, h]

theorem State.emcy_conds (s : State) (code ev seq detail : Nat) : (s.emcy code ev seq detail).shelf.conds = s.shelf.conds := by
  rw [State.emcy]
  split <;> rfl

/-- With room in the queue an EMCY frame joins it (12 R360). -/
theorem State.emcy_queued {s : State} (hroom : s.shelf.queue.length < 16) (code ev seq detail : Nat) :
    ∃ e, (s.emcy code ev seq detail).shelf.queue = s.shelf.queue ++ [e] ∧ e.code = code ∧ e.evCode = ev := by
  rw [State.emcy, if_pos hroom]
  exact ⟨_, rfl, rfl, rfl⟩

theorem dictRow?_errorRegister : dictRow? K.errorRegister = some ⟨K.errorRegister, .u8, .ro, .vol, 0, none, none⟩ := rfl

theorem State.dictGet_errorRegister {s : State} {c : Client} (hserves : s.modeServes c K.errorRegister false = true) :
    (s.dictGet c 0x1001 0).2.2 = .value (beBytes 1 s.errorRegister) := by
  have hrights : readRights c .ro = 0 := by cases c <;> rfl
  have hrow : dictRow? (0x1001 * 256 + 0) = some ⟨K.errorRegister, .u8, .ro, .vol, 0, none, none⟩ := dictRow?_errorRegister
  have hrows : (dictRowsOf 0x1001).isEmpty = false := rfl
  have hbytes : (s.entryBytes c ⟨K.errorRegister, .u8, .ro, .vol, 0, none, none⟩).2 = .value (beBytes 1 s.errorRegister) := rfl
  simp [State.dictGet, hrows, hrow, hrights, hserves, hbytes]

/-- Settles O6. -/
theorem errorRegisterBits : Obligations.ErrorRegisterBits := by
  refine ⟨fun s c => State.dictGet_errorRegister, fun s i hi => ?conds, fun s => ?any, fun s => ?clear, fun s ev fields em => ?transient⟩
  case conds => rw [s.bitAt_errorRegister hi, s.bitAt_condBits]
  case any =>
    rw [s.bitAt_errorRegister_zero]
    constructor
    · intro hne
      obtain ⟨i, hi⟩ := Nat.exists_testBit_of_ne_zero hne
      exact ⟨i, s.condBits_pos hi, (s.bitAt_errorRegister (State.condBits_pos hi)).trans hi⟩
    · rintro ⟨i, hi, hbit⟩ hzero
      rw [s.bitAt_errorRegister hi, hzero] at hbit
      simp [bitAt] at hbit
  case clear =>
    have hclear {i : Nat} (hi : 0 < i) (hno : ¬(i = 2 ∨ i = 3 ∨ i = 4 ∨ i = 7)) : bitAt s.errorRegister i = false := by
      rw [s.bitAt_errorRegister hi, Bool.eq_false_iff]
      intro hbit
      obtain ⟨c, _, hc⟩ := (s.bitAt_condBits i).1 hbit
      exact hno (bitAt_emcyBit hc)
    exact ⟨hclear (by decide) (by decide), hclear (by decide) (by decide), hclear (by decide) (by decide)⟩
  case transient =>
    have hshelf : (s.eventSeq ev (packDetail fields)).1.shelf = s.shelf := (State.eventSeq_recordsOnly s ev (packDetail fields) 0).shelf
    refine ⟨State.errorRegister_congr ((State.emcy_conds ..).trans (congrArg Shelf.conds hshelf)), fun hroom => ?_⟩
    obtain ⟨e, hqueue, hcode, hev⟩ := State.emcy_queued (s := (s.eventSeq ev (packDetail fields)).1) (by rw [hshelf]; exact hroom)
      em ev (s.eventSeq ev (packDetail fields)).2 (ofLE (padTo (packDetail fields) 4))
    exact ⟨e, hqueue.trans (by rw [hshelf]), hcode, hev⟩

end Sys2Proof.Machine
end

section
/-! Clock gates, counter 1, and the part right after reset (13 R378, R382, R385, R386, R393, R394). -/

namespace Sys2Proof.Machine

section Gates

variable {s : State} {b : Nat}

/-- An idle block's gate closes, or with transactions outstanding its request is deferred (13 R393). -/
theorem execGateIdleClose_open (hcore : s.domOn .core = true) (hopen : (s.gate b).closed = false) (t n : Nat) :
    execGateIdleClose t b n s
      = .next ((s.advance t).setGate (if n = 0 then { s.gate b with closed := true, pending := none, outstanding := 0 }
          else { s.gate b with pending := some ((s.gate b).pending.getD (max s.now t)), outstanding := n })) := by
  have hgo : ¬(!(s.advance t).coreUp || ((s.advance t).gate b).closed) = true := by
    rw [show (s.advance t).coreUp = true from hcore, show ((s.advance t).gate b).closed = false from hopen]
    decide
  refine congrArg Host.Outcome.next ((if_neg hgo).trans ?_)
  split <;> rfl

theorem execGateDeferralTimeout_due {u t : Nat} (hpending : (s.gate b).pending = some u) (hdue : u + gateDeferNs ≤ max s.now t) :
    execGateDeferralTimeout t b s
      = .next ((((s.advance t).setGate { s.gate b with pending := none, outstanding := 0 }).bump K.gateDeferralsAbandoned).event 0x0C04
          [(4, b), (4, (s.gate b).outstanding)]) := by
  have hpending' : ((s.advance t).gate b).pending = some u := hpending
  simp only [execGateDeferralTimeout, hpending']
  exact congrArg Host.Outcome.next (if_pos hdue)

theorem execGateReopen_closed (hclosed : (s.gate b).closed = true) (t : Nat) :
    execGateReopen t b s = .next ((s.advance t).setGate { s.gate b with closed := false }) :=
  congrArg Host.Outcome.next (if_pos hclosed)

end Gates

section Counter

variable {s : State} (hcore : s.domOn .core = true)

include hcore

/-- START while no measurement runs (13 R394). -/
theorem execFmcStart_idle (hidle : s.clk.fmc.busy = false) (t : Nat) :
    execFmcStart t s = .next (if s.fmcRefused then ((s.advance t).setFmc { s.clk.fmc with done := true, err := true }).hwSet fmcStatusAt 6
      else
        let dead := match fmcSrc s.clk.fmc.src with | some x => (s.src x).st == .dead | none => false
        let u := (s.advance t).setFmc { s.clk.fmc with busy := true, count := 0, srcDead := s.clk.fmc.srcDead || dead }
        if dead then u.hwSet fmcStatusAt 8 else u) := by
  have hgo : ¬(!(s.advance t).coreUp || (s.advance t).clk.fmc.busy) = true := by
    rw [show (s.advance t).coreUp = true from hcore, show (s.advance t).clk.fmc.busy = false from hidle]
    decide
  exact congrArg Host.Outcome.next (if_neg hgo)

omit hcore in
theorem execFmcStart_busy (hbusy : s.clk.fmc.busy = true) (t : Nat) : execFmcStart t s = .next (s.advance t) :=
  congrArg Host.Outcome.next (if_pos (Bool.or_eq_true_iff.2 (.inr hbusy)))

/-- A measurement that runs ends with the edges counted (13 R394). -/
theorem execFmcStop_busy (hbusy : s.clk.fmc.busy = true) (t count : Nat) :
    execFmcStop t count s
      = .next (((s.advance t).setFmc { s.clk.fmc with busy := false, done := true, count := count % 2 ^ 48 }).hwSet fmcStatusAt 2) :=
  congrArg Host.Outcome.next (if_pos (Bool.and_eq_true_iff.2 ⟨hcore, hbusy⟩))

end Counter

theorem State.fmcRefused_of_window {s : State} (h : s.clk.fmc.window = 0) : s.fmcRefused = true := by
  simp [State.fmcRefused, h]

/-- Settles O36. -/
theorem gatesAndCounter : Obligations.GatesAndCounter := by
  intro s t a
  refine ⟨fun b n hcore hopen => execGateIdleClose_open hcore hopen t n, fun b u hpending hdue => execGateDeferralTimeout_due hpending hdue,
    fun b hclosed => execGateReopen_closed hclosed t,
    fun hcore hidle => ⟨fun hrefused => ?refused, fun htaken => ?taken⟩,
    fun hcore hbusy count => ⟨execFmcStop_busy hcore hbusy t count, execFmcStop_busy hcore hbusy t count, execFmcStart_busy hbusy t⟩,
    State.fmcRefused_of_window⟩
  case refused => exact (execFmcStart_idle hcore hidle t).trans (congrArg Host.Outcome.next (if_pos hrefused))
  case taken => exact (execFmcStart_idle hcore hidle t).trans (congrArg Host.Outcome.next (if_neg (Bool.eq_false_iff.1 htaken)))

theorem State.reset_ch {n : Nat} (hn : n < 16) : State.reset.ch n = {} := by
  simp [State.ch, State.reset, Vector.getD, hn]

theorem State.reset_domOn (d : Dom) : State.reset.domOn d = true ↔ d = .aon := by
  cases d <;> decide

theorem State.reset_starting (x : Source) : (State.reset.src x).st = .starting ↔ x = .xtal32k ∨ x = .wosc := by
  cases x <;> decide

/-- Settles O5. The factory-blank OTP and flash and the high handshake pins are log 49's choice. -/
theorem resetMachine : Obligations.ResetMachine :=
  ⟨rfl, rfl, rfl, rfl, rfl, rfl, State.reset_domOn, State.reset_starting, rfl,
    fun n hn => by rw [State.reset_ch hn]; exact ⟨rfl, rfl⟩, rfl, rfl, rfl, rfl, fun _ => rfl⟩

end Sys2Proof.Machine
end

section
/-! The timer block, the recorder's registers, the mailbox, the sandbox's faults and core firmware's periodic work (14 R399 to R405, R418, R419,
R423; 16 R474). -/

namespace Sys2Proof.Machine

/-- Adding a power of two that a number lacks sets that bit alone. -/
theorem testBit_add_two_pow {x n : Nat} (h : x.testBit n = false) (i : Nat) :
    (x + 2 ^ n).testBit i = (decide (i = n) || x.testBit i) := by
  induction n generalizing x i with
  | zero =>
    rw [Nat.testBit_zero, decide_eq_false_iff_not] at h
    cases i with
    | zero => simp only [Nat.testBit_zero, Nat.pow_zero]; simp; omega
    | succ i => rw [Nat.testBit_succ, Nat.testBit_succ, show (x + 2 ^ 0) / 2 = x / 2 by omega]; simp
  | succ n ih =>
    rw [Nat.testBit_succ] at h
    have hpow : 2 ^ (n + 1) = 2 * 2 ^ n := Nat.pow_succ'
    cases i with
    | zero => rw [Nat.testBit_zero, Nat.testBit_zero, show (x + 2 ^ (n + 1)) % 2 = x % 2 by omega]; simp
    | succ i =>
      rw [Nat.testBit_succ, Nat.testBit_succ, show (x + 2 ^ (n + 1)) / 2 = x / 2 + 2 ^ n by omega, ih h]
      simp

section Timers

variable {s : State} (hcore : s.domOn .core = true) (t : Nat)

include hcore

/-- A comparator's half is written and its FIRED bit cleared, but for what hardware sets in the same cycle (14 R405). -/
theorem execTmrCmpWrite_core {n v : Nat} (hn : n < 4) (hv : v < 2 ^ 32) (hi : Bool) :
    execTmrCmpWrite t n hi v s
      = .next { s.advance t with site := { s.site with
          cmp := s.site.cmp.setIfInBounds n (if hi then v * 2 ^ 32 + s.site.cmp.getD n 0 % 2 ^ 32 else s.site.cmp.getD n 0 / 2 ^ 32 * 2 ^ 32 + v)
          fired := s.site.fired - (s.site.fired &&& (s.advance t).clears 0x40060034 (2 ^ n)) } } := by
  have hgo : ((s.advance t).domOn .core && decide (n < 4)) = true := Bool.and_eq_true_iff.2 ⟨hcore, decide_eq_true hn⟩
  simp only [execTmrCmpWrite, Nat.mod_eq_of_lt hv]
  exact congrArg Host.Outcome.next (if_pos hgo)

omit hcore in
/-- Away from a comparator's firing the write clears its FIRED bit and no other (14 R405). -/
theorem State.bitAt_fired_cleared (hlater : s.sets.at_ ≠ max s.now t) (n i : Nat) :
    bitAt (s.site.fired - (s.site.fired &&& (s.advance t).clears 0x40060034 (2 ^ n))) i = (decide (i ≠ n) && bitAt s.site.fired i) := by
  rw [State.clears_eq_self (.inl hlater), bitAt, testBit_sub_and, Nat.testBit_two_pow, Bool.and_comm, bitAt, ← decide_not,
    decide_eq_decide.2 (ne_comm (a := n) (b := i))]

omit hcore in
/-- Where the comparator fires in the same cycle the set wins (00 R7; the same cycle is the same drive time, log 111). -/
theorem State.fired_kept {n : Nat} (hsame : s.sets = { at_ := max s.now t, bits := [(0x40060034, 2 ^ n)] }) :
    s.site.fired - (s.site.fired &&& (s.advance t).clears 0x40060034 (2 ^ n)) = s.site.fired := by
  have hclears : (s.advance t).clears 0x40060034 (2 ^ n) = 0 := by simp [State.clears, hsame]
  rw [hclears, Nat.and_zero, Nat.sub_zero]

theorem execTimerComparatorFire_core (n : Nat) : execTimerComparatorFire t n s = .next ((s.advance t).cmpFire n) :=
  congrArg Host.Outcome.next (if_pos hcore)

omit hcore in
theorem State.cmpFire_fired {n : Nat} (hfired : bitAt s.site.fired n = true) : s.cmpFire n = s := by
  simp [State.cmpFire, hfired]

omit hcore in
/-- A comparator that is reached sets its FIRED bit (14 R405). -/
theorem State.cmpFire_due {n : Nat} (hn : n < 4) (hen : bitAt s.site.cmpEn n = true) (hreached : s.site.cmp.getD n 0 ≤ s.ptp)
    (hclear : bitAt s.site.fired n = false) :
    s.cmpFire n = ({ s with site := { s.site with fired := s.site.fired + 2 ^ n } } : State).hwSet 0x40060034 (2 ^ n) :=
  if_pos (by rw [State.cmpDue, hen, hclear, decide_eq_true hn, decide_eq_true hreached]; rfl)

end Timers

section Recorder

variable {s : State} (hcore : s.domOn .core = true) (hidle : s.evs.busy = false) (t : Nat)

include hcore hidle

theorem State.evr_takes : ¬(!(s.advance t).domOn .core || (s.advance t).evs.busy) = true := by
  rw [show (s.advance t).domOn .core = true from hcore, show (s.advance t).evs.busy = false from hidle]
  decide

/-- FETCH answers with the ring's record, or NOT_HELD (14 R423). -/
theorem execEvrFetch_idle :
    execEvrFetch t s = .next (match s.evs.ring.find? (·.seq == some (s.evs.fetchHi.toNat * 2 ^ 32 + s.evs.fetchLo.toNat)) with
      | some r => ({ s.advance t with evs := { s.evs with rec_ := r.bytes, done := true } } : State).hwSet 0x40030014 2
      | none => (s.advance t).evrErr 1) :=
  congrArg Host.Outcome.next (if_neg (State.evr_takes hcore hidle t))

/-- POST records under the rate limit of its code, or answers BAD_CODE or SUPPRESSED (14 R423). -/
theorem execEvrPost_idle :
    let low := s.evs.postCode.toNat % 256
    let u := ((s.advance t).eventSeq (0x0D00 + low) (padTo s.evs.postDetail 12) 2).1
    execEvrPost t s = .next (if low = 0 then (s.advance t).evrErr 3
      else if (s.advance t).hasToken (0x0D00 + low) then ({ u with evs := { u.evs with done := true } } : State).hwSet 0x40030014 2
      else u.evrErr 2) :=
  congrArg Host.Outcome.next (if_neg (State.evr_takes hcore hidle t))

end Recorder

/-- Settles O21. That "the same cycle" is the same drive time is log 111. -/
theorem timersAndRecorder : Obligations.TimersAndRecorder := by
  refine ⟨fun s t hcore => ⟨congrArg Host.Outcome.next (if_pos hcore), congrArg Host.Outcome.next (if_pos hcore), fun n hi v hn hv => ?cmp,
      fun n hn hen hreached => ⟨_, execTimerComparatorFire_core hcore t n, fun hfired => State.cmpFire_fired (s := s.advance t) hfired, fun hclear => ?fire⟩⟩,
    fun s t hcore => ⟨congrArg Host.Outcome.next (if_pos hcore), fun hidle => ⟨fun r hheld => ?held, fun hgone => ?gone, fun hlow => ?bad,
      fun hlow => ⟨fun htoken => ?posted, fun hempty => ?suppressed⟩⟩, fun _ => rfl⟩⟩
  case cmp =>
    exact ⟨_, execTmrCmpWrite_core hcore t hn hv hi, rfl, fun hlater i => State.bitAt_fired_cleared t hlater n i, State.fired_kept t⟩
  case fire =>
    rw [State.cmpFire_due (s := s.advance t) hn hen hreached hclear]
    exact ⟨rfl, testBit_add_two_pow hclear⟩
  case held => rw [show exec (.evrFetch t) s = _ from execEvrFetch_idle hcore hidle t, hheld]
  case gone => rw [show exec (.evrFetch t) s = _ from execEvrFetch_idle hcore hidle t, hgone]
  case bad => exact (execEvrPost_idle hcore hidle t).trans (congrArg Host.Outcome.next (if_pos hlow))
  case posted => exact (execEvrPost_idle hcore hidle t).trans (congrArg Host.Outcome.next ((if_neg hlow).trans (if_pos htoken)))
  case suppressed =>
    exact (execEvrPost_idle hcore hidle t).trans (congrArg Host.Outcome.next ((if_neg hlow).trans (if_neg (Bool.eq_false_iff.1 hempty))))

section Mailbox

variable {s : State} (hcore : s.domOn .core = true) (t : Nat)

include hcore

/-- A producer value in the free range posts its messages; any other sets OVERRUN (14 R403). -/
theorem execMbxS2cProdWrite_core (v : Nat) :
    execMbxS2cProdWrite t v s
      = .next (if 1 ≤ (v % 32 + 32 - s.site.s2cProd) % 32 ∧ (v % 32 + 32 - s.site.s2cProd) % 32 ≤ (s.site.s2cCons + 31 - s.site.s2cProd) % 32 then
          State.mbxRejectBad 33 { s.advance t with site := { s.site with s2cProd := v % 32 } }
        else ({ s.advance t with site := { s.site with overrun := true } } : State).hwSet 0x40000010 2) := by
  have hgo : ¬(!(s.advance t).domOn .core) = true := by rw [show (s.advance t).domOn .core = true from hcore]; decide
  exact congrArg Host.Outcome.next (if_neg hgo)

/-- The payload of a SITE_REPORT is kept and answered with abort code 0 (14 R404). -/
theorem execMbxSiteReport_core {len token : Nat} {p : Bytes} (hreq : s.mbxRequest = some (2, len, token, p)) (hlen : len ≤ 56) :
    execMbxSiteReport t s = .next (State.mbxRejectBad 33 (((s.advance t).setStr K.siteReport (p.take len)).mbxReply token 0 0 [])) := by
  have hreq' : (s.advance t).mbxRequest = some (2, len, token, p) := hreq
  simp only [execMbxSiteReport, hreq']
  exact congrArg Host.Outcome.next (if_pos (Bool.and_eq_true_iff.2 ⟨hcore, decide_eq_true hlen⟩))

end Mailbox

/-- Messages without a slot for 100 ms are dropped (14 R403). -/
theorem execMbxC2sFullTimeout_late {s : State} {t : Nat} {late kept : List MbxMsg}
    (hlate : late = s.site.waiting.filter fun m => decide (m.since + 100 * nsMs ≤ max s.now t))
    (hkept : kept = s.site.waiting.filter fun m => decide (max s.now t < m.since + 100 * nsMs)) (hsome : late ≠ []) :
    execMbxC2sFullTimeout t s = .next (State.mbxRejectBad 33 (late.foldl State.c2sGone
      (({ s.advance t with site := { s.site with waiting := kept, c2sLost := true } } : State).hwSet 0x40000010 4))) := by
  have hrest : kept = s.site.waiting.filter fun m => !decide (m.since + 100 * nsMs ≤ max s.now t) := by
    rw [hkept]
    refine List.filter_congr fun m _ => ?_
    rw [← decide_not, decide_eq_decide]
    omega
  have hany : ¬(late.isEmpty) = true := by simpa using hsome
  subst hlate
  rw [hrest]
  exact congrArg Host.Outcome.next (if_neg hany)

@[simp] theorem State.c2sGone_c2sLost (s : State) (m : MbxMsg) : (s.c2sGone m).site.c2sLost = s.site.c2sLost := by
  rw [State.c2sGone]
  split <;> rfl

theorem State.foldl_c2sGone_c2sLost (l : List MbxMsg) (s : State) : (l.foldl State.c2sGone s).site.c2sLost = s.site.c2sLost := by
  induction l generalizing s with
  | nil => rfl
  | cons m l ih => exact (ih _).trans (s.c2sGone_c2sLost m)

@[simp] theorem State.c2sDrain_c2sLost (fuel : Nat) (s : State) : (State.c2sDrain fuel s).site.c2sLost = s.site.c2sLost := by
  induction fuel generalizing s with
  | zero => rfl
  | succ n ih =>
    rw [State.c2sDrain]
    split
    · rfl
    · split
      · rfl
      · exact (ih _).trans (State.c2sGone_c2sLost _ _)

theorem State.mbxReply_c2sLost (s : State) (token abort total : Nat) (d : Bytes) :
    (s.mbxReply token abort total d).site.c2sLost = s.site.c2sLost := State.c2sDrain_c2sLost 33 _

/-- No answer clears C2S_LOST (14 R403). -/
theorem State.mbxRejectBad_c2sLost (fuel : Nat) (s : State) : (State.mbxRejectBad fuel s).site.c2sLost = s.site.c2sLost := by
  induction fuel generalizing s with
  | zero => rfl
  | succ n ih =>
    rw [State.mbxRejectBad]
    split
    · split
      · rfl
      · exact (ih _).trans (s.mbxReply_c2sLost ..)
    · rfl

/-- Settles O22. -/
theorem mailboxCommands : Obligations.MailboxCommands := by
  refine ⟨fun s t hcore => ⟨fun v => ⟨fun hlo hhi => ?posts, fun hout => ?overrun⟩, fun v => congrArg Host.Outcome.next (if_pos hcore), fun hlate =>
    ⟨_, execMbxC2sFullTimeout_late rfl rfl hlate, ?lost, rfl⟩⟩, fun s t hcore len token p hreq hlen => execMbxSiteReport_core hcore t hreq hlen⟩
  case posts => exact (execMbxS2cProdWrite_core hcore t v).trans (congrArg Host.Outcome.next (if_pos ⟨hlo, hhi⟩))
  case overrun => exact (execMbxS2cProdWrite_core hcore t v).trans (congrArg Host.Outcome.next (if_neg (by omega)))
  case lost => rw [State.mbxRejectBad_c2sLost, State.foldl_c2sGone_c2sLost]; rfl

section Sandbox

variable {s : State} (hrun : s.site.st = 1) (t : Nat)

include hrun

theorem State.siteRunning_advance : (s.advance t).siteRunning = true := beq_iff_eq.2 hrun

theorem execSiteAccessFault_outside {core addr width : Nat} (hcore : core = 6 ∨ core = 7)
    (hout : (s.advance t).siteAccessOk addr width = false) :
    execSiteAccessFault t core addr width s = .next (((s.advance t).bump K.siteAccessFaults).event 0x0B03 [(4, core), (4, addr)]) :=
  congrArg Host.Outcome.next (if_pos (by rw [State.siteRunning_advance hrun, hout]; rcases hcore with rfl | rfl <;> rfl))

/-- The watchdog's expiry: the site's channels stop, and the third one within an hour holds the cores in reset (14 R401). -/
theorem execSiteWatchdogExpiry_due {bytes past : List Nat} {u : State} (hdue : s.site.wdogAt + s.num K.siteWatchdogMs * nsMs ≤ max s.now t)
    (hpast : past = ((s.advance t).site.expiries ++ [(s.advance t).now]).filter fun x => decide ((s.advance t).now < x + 3600 * nsSec))
    (hu : u = (([12, 13, 14, 15].foldl (fun s n => s.dmaForce n (bytes.getD (n - 12) 0) 2) (s.advance t)).bump
      K.siteWatchdogResets).event 0x0B04 [(4, past.length)]) :
    execSiteWatchdogExpiry t bytes s
      = .next (if 3 ≤ past.length then ({ u with site := { u.site with expiries := past, st := 3 } } : State).event 0x0B05 []
          else ({ u with site := { u.site with expiries := past, st := 1, wdogAt := u.now } } : State).loadSite false) := by
  subst hu hpast
  exact congrArg Host.Outcome.next (if_pos (Bool.and_eq_true_iff.2 ⟨State.siteRunning_advance hrun t, decide_eq_true hdue⟩))

end Sandbox

/-- Settles O24. -/
theorem sandboxFaults : Obligations.SandboxFaults := by
  refine fun s t hrun => ⟨fun _ _ _ hcore hout => execSiteAccessFault_outside hrun t hcore hout, fun bytes hdue => ?_⟩
  intro past d u
  have hexpiry := execSiteWatchdogExpiry_due hrun t (bytes := bytes) (past := past) (u := u) hdue rfl rfl
  exact ⟨fun hfew => hexpiry.trans (congrArg Host.Outcome.next (if_neg (Nat.not_le.2 hfew))),
    fun hthird => hexpiry.trans (congrArg Host.Outcome.next (if_pos hthird))⟩

section Periodic

variable {s : State} {t : Nat}

/-- A batch that is full or a second old joins the log (14 R419). -/
theorem execEventBatchAppend_due (hwritable : s.writable = true) (hnumbered : s.evs.numbered = true)
    (hdue : 128 ≤ s.evs.staged.length ∨ (0 < s.evs.staged.length ∧ s.evs.stagedAt + nsSec ≤ max s.now t)) :
    execEventBatchAppend t s = .next ((s.advance t).appendBatch.logTrim).goneOn := by
  refine if_pos ?_
  rw [show (s.advance t).writable = true from hwritable, show (s.advance t).evs.numbered = true from hnumbered]
  simp only [Bool.true_and, Bool.or_eq_true, Bool.and_eq_true, decide_eq_true_eq]
  exact hdue

/-- OperatingSeconds goes to its place every 60 s (14 R418). -/
theorem execOperatingSecondsSave_due (hpowered : s.mode.mode.powered = true) (hdue : s.evs.lastSave + 60 * nsSec ≤ max s.now t) :
    execOperatingSecondsSave t s
      = .next { s.advance t with evs := { s.evs with secsSaved := s.evs.secsBase + (max s.now t - s.evs.secsAt) / nsSec, lastSave := max s.now t } } := by
  have hsecs : (s.advance t).operatingSeconds = s.evs.secsBase + (max s.now t - s.evs.secsAt) / nsSec := if_pos hpowered
  rw [← hsecs]
  exact congrArg Host.Outcome.next (if_pos (Bool.and_eq_true_iff.2 ⟨hpowered, decide_eq_true hdue⟩))

/-- The poll of the SMBus list in a powered mode (16 R474). -/
theorem execSmbusPoll_due (res : List (Nat × Nat)) (hanswers : s.shelf.coreAnswers = true) (hhalt : s.mode.mode ≠ .halt)
    (hdormant : s.mode.mode ≠ .dormant) (hdue : s.mode.lastPoll + nsSec ≤ max s.now t) :
    let w := (List.range ((s.str K.smbusPollList).length / 2)).map (smbusWord res)
    execSmbusPoll t res s
      = .next ((({ s.advance t with mode := { s.mode with lastPoll := max s.now t } } : State).setStr K.smbusPollValues (w.flatMap fun x => beBytes 2 x.2)).addTo
          K.smbusErrors (w.filter fun x => !x.1).length) := by
  refine congrArg Host.Outcome.next (if_pos ?_)
  simp [hanswers, hhalt, hdormant, hdue]

end Periodic

theorem smbusWord_answered {res : List (Nat × Nat)} {i v : Nat} (h : res[i]? = some (1, v)) : smbusWord res i = (true, v % 65536) := by
  simp [smbusWord, h]

/-- A target that does not answer reads 0xFFFF (16 R474). -/
theorem smbusWord_silent {res : List (Nat × Nat)} {i : Nat} (h : ∀ v, res[i]? ≠ some (1, v)) : smbusWord res i = (false, 0xFFFF) := by
  rw [smbusWord]
  split
  · next ack w hres =>
    refine if_neg fun hack => h w ?_
    rw [hres, hack]
  · rfl

/-- Settles O26. -/
theorem periodicWork : Obligations.PeriodicWork :=
  fun _ _ => ⟨execEventBatchAppend_due, execOperatingSecondsSave_due, execSmbusPoll_due, fun _ _ _ => smbusWord_answered,
    fun _ _ => smbusWord_silent⟩

end Sys2Proof.Machine
end

section
/-! DMA channels: their set-up, triggers, disable, completion and bus errors (14 R406, R410 to R414). -/

namespace Sys2Proof.Machine

theorem State.dmaUp_advance {s : State} (hcore : s.domOn .core = true) (t : Nat) {n : Nat} (hn : n < 16) : (s.advance t).dmaUp n = true :=
  Bool.and_eq_true_iff.2 ⟨decide_eq_true hn, hcore⟩

section Setup

variable {s : State} (hcore : s.domOn .core = true) (t : Nat) {n : Nat} (hn : n < 16)

include hcore hn

/-- A write of DMA_CH_CTRL with EN set to a channel that is disabled (14 R406). -/
theorem execDmaEnable_disabled (hen : (s.ch n).en = false) (v : Nat) {c : DmaCh} (hc : c = (s.ch n).ctrlFields v) :
    execDmaEnable t n v s
      = .next (if enableOk n c then (s.advance t).setCh n { c with en := true, st := .idle, enAt := max s.now t, ticks := 0 }
          else ((s.advance t).setCh n { c with st := .disabled, err := true, lastErr := 3 }).hwSet (dmaStatusAt n) 0x10) := by
  have hup : ¬(!(s.advance t).dmaUp n) = true := by rw [State.dmaUp_advance hcore t hn]; decide
  have hoff : ¬(((s.advance t).ch n).ctrlFields v).en = true := by
    rw [show (s.advance t).ch n = s.ch n from rfl, DmaCh.ctrlFields]
    simp [hen]
  subst hc
  exact congrArg Host.Outcome.next ((if_neg hup).trans (if_neg hoff))

/-- TRIG and CHAIN_SRC are locked while EN is set (14 R406). -/
theorem execDmaEnable_enabled (hen : (s.ch n).en = true) (v : Nat) :
    execDmaEnable t n v s
      = .next ((s.advance t).setCh n { s.ch n with prio := fieldAt v 8 2, doneIe := bitAt v 10, errIe := bitAt v 11 }) := by
  have hup : ¬(!(s.advance t).dmaUp n) = true := by rw [State.dmaUp_advance hcore t hn]; decide
  have hfields : ((s.advance t).ch n).ctrlFields v = { s.ch n with prio := fieldAt v 8 2, doneIe := bitAt v 10, errIe := bitAt v 11 } :=
    if_pos hen
  have hon : (((s.advance t).ch n).ctrlFields v).en = true := by rw [hfields]; exact hen
  refine congrArg Host.Outcome.next ((if_neg hup).trans ((if_pos hon).trans ?_))
  rw [hfields]

omit hcore hn in
theorem DmaCh.ctrlFields_disabled {c : DmaCh} (hen : c.en = false) (v : Nat) :
    c.ctrlFields v = { c with trig := fieldAt v 1 2, chainSrc := fieldAt v 4 4, prio := fieldAt v 8 2, doneIe := bitAt v 10, errIe := bitAt v 11 } :=
  if_neg (Bool.eq_false_iff.1 hen)

omit hcore hn in
theorem enableOk_iff (n : Nat) (c : DmaCh) :
    enableOk n c = true ↔ c.ringSize ∈ [4, 8, 16, 32, 64, 128, 256, 512, 1024, 2048, 4096] ∧ c.chainSrc ≠ n ∧ (12 ≤ n → 12 ≤ c.chainSrc) := by
  simp only [enableOk, siteCh, Bool.and_eq_true, decide_eq_true_eq, bne_iff_ne, Bool.or_eq_true, Bool.not_eq_true', decide_eq_false_iff_not,
    imp_iff_not_or, and_assoc]

/-- A ring register write to a channel that is disabled sets HEAD to 0 (14 R406). -/
theorem execDmaRingRegWrite_disabled (hen : (s.ch n).en = false) (reg v : Nat) :
    execDmaRingRegWrite t n reg v s = .next (match reg with
      | 0x08 => (s.advance t).setCh n { s.ch n with ring := (s.ch n).ring / 2 ^ 32 * 2 ^ 32 + v % 2 ^ 32 / 64 * 64, head := 0 }
      | 0x0C => (s.advance t).setCh n { s.ch n with ring := (if siteCh n then 0 else v % 2 ^ 32) * 2 ^ 32 + (s.ch n).ring % 2 ^ 32, head := 0 }
      | 0x10 => (s.advance t).setCh n { s.ch n with ringSize := v % 2 ^ 13, head := 0 }
      | _ => s.advance t) := by
  have hgo : ¬(!(s.advance t).dmaUp n || ((s.advance t).ch n).en) = true := by
    rw [State.dmaUp_advance hcore t hn, show ((s.advance t).ch n).en = false from hen]
    decide
  exact congrArg Host.Outcome.next (if_neg hgo)

omit hcore hn in
theorem execDmaRingRegWrite_enabled (hen : (s.ch n).en = true) (reg v : Nat) : execDmaRingRegWrite t n reg v s = .next (s.advance t) :=
  congrArg Host.Outcome.next (if_pos (Bool.or_eq_true_iff.2 (.inr hen)))

end Setup

/-- Settles O27. -/
theorem dmaChannelSetup : Obligations.DmaChannelSetup := by
  refine fun s t n hcore hn => ⟨fun v hen => ?enable, fun v hen => execDmaEnable_enabled hcore t hn hen v,
    fun v hv hen => ⟨?base, ?upper, execDmaRingRegWrite_disabled hcore t hn hen 0x10 v⟩,
    fun reg v hen => execDmaRingRegWrite_enabled t hen reg v⟩
  case enable =>
    intro c good
    have hwrite := execDmaEnable_disabled hcore t hn hen v (c := c) (DmaCh.ctrlFields_disabled hen v).symm
    exact ⟨fun hgood => hwrite.trans (congrArg Host.Outcome.next (if_pos ((enableOk_iff n c).2 hgood))),
      fun hbad => hwrite.trans (congrArg Host.Outcome.next (if_neg fun h => hbad ((enableOk_iff n c).1 h)))⟩
  case base => exact (execDmaRingRegWrite_disabled hcore t hn hen 0x08 v).trans (by simp only [Nat.mod_eq_of_lt hv])
  case upper =>
    exact (execDmaRingRegWrite_disabled hcore t hn hen 0x0C v).trans (by simp only [Nat.mod_eq_of_lt hv, siteCh, decide_eq_true_eq])

section Channels

variable (s : State) {n k : Nat} (c : DmaCh)

theorem State.ch_setCh (hn : n < 16) : (s.setCh n c).ch n = c := by
  simp [State.ch, Vector.getD, hn]

theorem State.ch_setCh_ne (hk : k ≠ n) : (s.setCh n c).ch k = s.ch k := by
  simp [State.ch, Vector.getD, hk.symm]

theorem State.setCh_setCh (c' : DmaCh) : (s.setCh n c).setCh n c' = s.setCh n c' := by
  simp [State.setCh]

theorem State.RecordsOnly.ch {s u : State} (h : s.RecordsOnly u) (k : Nat) : u.ch k = s.ch k := by
  have hu : u = s.withRecorder u := h
  rw [hu]
  rfl

theorem State.event_recordsOnly (code : Nat) (f : List (Nat × Nat)) : s.RecordsOnly (s.event code f) := s.eventSeq_recordsOnly ..

/-- Without a parked channel there is none to resume (14 R415). -/
theorem State.dmaResume_of_unparked (h : ∀ k, k < 16 → (s.ch k).st ≠ .parked) : s.dmaResume = s := by
  refine List.foldl_fixed' (fun k => ?_) _
  dsimp only
  split
  · next d hcur =>
    refine if_neg fun hpark => ?_
    obtain ⟨hst, _⟩ := Bool.and_eq_true_iff.1 hpark
    by_cases hk : k < 16
    · exact h k hk (beq_iff_eq.1 hst)
    · simp [State.ch, Vector.getD, hk] at hcur
  · rfl

/-- The channels of two states are chained alike. -/
def State.SameChains (s u : State) : Prop :=
  ∀ k, (u.ch k).en = (s.ch k).en ∧ (u.ch k).trig = (s.ch k).trig ∧ (u.ch k).chainSrc = (s.ch k).chainSrc

theorem State.SameChains.trans {s u v : State} (h : s.SameChains u) (k : u.SameChains v) : s.SameChains v := fun i =>
  ⟨(k i).1.trans (h i).1, (k i).2.1.trans (h i).2.1, (k i).2.2.trans (h i).2.2⟩

theorem State.SameChains.of_dma {s u : State} (h : u.dma = s.dma) : s.SameChains u := fun k => by
  rw [State.ch, State.ch, h]
  exact ⟨rfl, rfl, rfl⟩

variable {s c} in
theorem State.setCh_sameChains (hn : n < 16) (hen : c.en = (s.ch n).en) (htrig : c.trig = (s.ch n).trig)
    (hsrc : c.chainSrc = (s.ch n).chainSrc) : s.SameChains (s.setCh n c) := fun k => by
  by_cases hk : k = n
  · rw [hk, s.ch_setCh c hn]
    exact ⟨hen, htrig, hsrc⟩
  · rw [s.ch_setCh_ne c hk]
    exact ⟨rfl, rfl, rfl⟩

theorem State.SameChains.chainedTo {s u : State} (h : s.SameChains u) (n : Nat) : u.chainedTo n = s.chainedTo n :=
  List.filter_congr fun k _ => by rw [(h k).1, (h k).2.1, (h k).2.2]

end Channels

section Finish

variable (s : State) {n : Nat} (hn : n < 16) (d : DmaDesc) (status bytes : Nat)

include hn

/-- The end of a descriptor moves HEAD on and leaves the channel without one (14 R411). -/
theorem State.dmaFinish_ch : (s.dmaFinish n d status bytes).ch n = { s.ch n with head := (s.ch n).nextHead, cur := none } :=
  State.ch_setCh _ _ hn

theorem State.dmaFinish_sameChains : s.SameChains (s.dmaFinish n d status bytes) := by
  have hmoved : s.SameChains (if siteCh n then ({ s with mem := writeBack (moveBytes s.mem d bytes) (s.ch n).descAddr d.ctrl status bytes s.ptp } : State).addTo
      K.siteDmaBytes bytes else { s with mem := writeBack (moveBytes s.mem d bytes) (s.ch n).descAddr d.ctrl status bytes s.ptp }) := by
    refine .of_dma ?_
    split <;> rfl
  have hself := hmoved n
  exact hmoved.trans (State.setCh_sameChains hn hself.1.symm hself.2.1.symm hself.2.2.symm)

end Finish

end Sys2Proof.Machine
end

section
/-! What a DMA channel's trigger, disable, completion and bus error do (14 R410 to R414). -/

namespace Sys2Proof.Machine

theorem State.triggers_nil (fuel : Nat) (s : State) : State.triggers fuel s [] = s := by
  cases fuel <;> rfl

/-- A trigger that finds a run sets PENDING (14 R410). -/
theorem State.dmaTrigger_running {s : State} {n : Nat} (hst : (s.ch n).st = .running) :
    s.dmaTrigger n = s.setCh n { s.ch n with pending := true } := by
  rw [State.dmaTrigger, State.triggers]
  simp only [hst]
  exact State.triggers_nil _ _

/-- The descriptor at HEAD is one that the engine can work on at once (14 R408, R415). -/
structure State.DescReady (s : State) (n : Nat) (d : DmaDesc) : Prop where
  readable : s.ringReadable n (s.ch n).descAddr = true
  read : readDesc s.mem (s.ch n).descAddr = d
  owned : bitAt d.ctrl 0 = true
  lines : d.lineCount ≠ 0
  fields : d.fieldOk = true
  sandbox : 12 ≤ n → s.sandboxOk d = true
  domains : s.descDomsOn n d = true

/-- A descriptor that is ready is taken, and the run goes on with it. -/
theorem State.takeDesc_ready {s : State} {n : Nat} {d : DmaDesc} (h : s.DescReady n d) :
    s.takeDesc n = (s.setCh n { s.ch n with st := .running, runCount := (s.ch n).runCount + 1, curAt := s.now, cur := some d }, false) := by
  obtain ⟨hreadable, rfl, howned, hlines, hfields, hsandbox, hdoms⟩ := h
  have hsite (c : DmaCh) : (siteCh n && !(s.setCh n c).sandboxOk (readDesc s.mem (s.ch n).descAddr)) = false := by
    rw [show (s.setCh n c).sandboxOk (readDesc s.mem (s.ch n).descAddr) = s.sandboxOk (readDesc s.mem (s.ch n).descAddr) from rfl]
    by_cases hs : 12 ≤ n
    · simp [hsandbox hs]
    · simp [siteCh, hs]
  have hdoms' (c : DmaCh) : (s.setCh n c).descDomsOn n (readDesc s.mem (s.ch n).descAddr) = true := hdoms
  simp only [State.takeDesc, hreadable, howned, hlines, hfields, hsite, hdoms', Bool.not_true, Bool.false_eq_true, if_false, if_true,
    State.setCh_setCh]

/-- A trigger that finds the channel IDLE starts a run at the descriptor of HEAD (14 R410). -/
theorem State.dmaTrigger_idle {s : State} {n : Nat} {d : DmaDesc} (hn : n < 16) (hst : (s.ch n).st = .idle) (h : s.DescReady n d) :
    s.dmaTrigger n = s.setCh n { s.ch n with st := .running, runCount := 1, curAt := s.now, cur := some d } := by
  have hch := s.ch_setCh { s.ch n with st := .running, runCount := 0 } hn
  obtain ⟨hreadable, hread, howned, hlines, hfields, hsandbox, hdoms⟩ := h
  have htake := State.takeDesc_ready (s := s.setCh n { s.ch n with st := .running, runCount := 0 }) (d := d)
    ⟨by rw [hch]; exact hreadable, by rw [hch]; exact hread, howned, hlines, hfields, hsandbox, hdoms⟩
  rw [hch, State.setCh_setCh] at htake
  rw [State.dmaTrigger, State.triggers]
  simp only [hst, htake]
  exact State.triggers_nil _ _

/-- A disable ends the current descriptor with ABORTED after a multiple of 64 bytes, or all of them (14 R413). -/
theorem State.dmaStop_running {s : State} {n : Nat} {d : DmaDesc} (hn : n < 16) (hpark : (s.ch n).st ≠ .parked) (hcur : (s.ch n).cur = some d)
    (bytes : Nat) :
    s.dmaStop n bytes = (s.dmaFinish n d 2 (min d.bytes (ceilDiv bytes 64 * 64))).setCh n
      { s.ch n with head := (s.ch n).nextHead, cur := none, en := false, st := .disabled, pending := false } := by
  simp only [State.dmaStop, hcur, if_neg hpark, stopBytes, State.dmaFinish_ch s hn]

/-- The end of a run that took a descriptor, with nothing pending, triggers the chained channels (14 R410). -/
theorem State.afterRun_chain {s : State} {n : Nat} (hpending : (s.ch n).pending = false) (hrun : 0 < (s.ch n).runCount) :
    s.afterRun n = (s, s.chainedTo n) := by
  simp [State.afterRun, hpending, Nat.ne_of_gt hrun]

theorem State.dmaError_ch (s : State) {n : Nat} (hn : n < 16) (c : DmaCh) (status addr : Nat) :
    (s.dmaError n c status addr).ch n = { c with
      st := .error, en := false, err := true, lastErr := status, cur := none, pending := false
      errAddr := if status = 4 ∨ status = 6 then addr else c.errAddr } :=
  ((State.event_recordsOnly _ _ _).ch n).trans (s.ch_setCh _ hn)

theorem State.dmaError_afterRun (s : State) {n : Nat} (hn : n < 16) {c : DmaCh} (hrun : 0 < c.runCount) (status addr : Nat) :
    (s.dmaError n c status addr).afterRun n = (s.dmaError n c status addr, (s.dmaError n c status addr).chainedTo n) := by
  refine State.afterRun_chain ?_ ?_
  all_goals rw [State.dmaError_ch s hn]
  exact hrun

/-- The end of a run with nothing pending and no chained channel triggers nothing. -/
theorem State.afterRun_alone {s : State} {n : Nat} (hpending : (s.ch n).pending = false) (hchain : s.chainedTo n = []) :
    s.afterRun n = (s, []) := by
  simp [State.afterRun, hpending, hchain]

section Complete

variable {s b f g : State} {n : Nat} (hn : n < 16) {d : DmaDesc} {c' : DmaCh}
  (hb : b = if siteCh n then { s with site := { s.site with dmaWindow := s.now / nsMs, dmaSpent := (s.siteRate (s.ch n) d.bytes).2 } } else s)
  (hf : f = b.dmaFinish n d (if d.lineCount = 0 then 1 else 0) d.bytes)
  (hc' : c' = { s.ch n with head := (s.ch n).nextHead, cur := none, done := (s.ch n).done || bitAt d.ctrl 4,
                            doneCount := ((s.ch n).doneCount + 1) % 2 ^ 32 })
  (hg : g = (if bitAt d.ctrl 4 then (f.setCh n c').hwSet (dmaStatusAt n) 8 else f.setCh n c').bump K.dmaDescriptorsCompleted)

include hn hb hf

theorem State.completed_ch : f.ch n = { s.ch n with head := (s.ch n).nextHead, cur := none } := by
  have hsame : b.ch n = s.ch n := by subst hb; split <;> rfl
  rw [hf, State.dmaFinish_ch _ hn, hsame]

include hc' hg

/-- A completion writes the descriptor back, counts, and goes on with the next descriptor or ends the run (14 R411). -/
theorem State.dmaComplete_running (hst : (s.ch n).st = .running) (hcur : (s.ch n).cur = some d)
    (hrate : siteCh n = true → (s.siteRate (s.ch n) d.bytes).1 = true) :
    let r := if bitAt d.ctrl 6 then (g.setCh n { c' with st := .idle }, true) else g.takeDesc n
    s.dmaComplete n = if r.2 then State.triggers 256 (r.1.afterRun n).1 (r.1.afterRun n).2 else r.1 := by
  have hruns : ¬((s.ch n).st != .running) = true := by simp [hst]
  have hmay : ¬(siteCh n && !(s.siteRate (s.ch n) d.bytes).1) = true := by
    cases hs : siteCh n <;> simp [hs, hrate]
  have hnext : c' = { f.ch n with done := (f.ch n).done || bitAt d.ctrl 4, doneCount := ((f.ch n).doneCount + 1) % 2 ^ 32 } := by
    rw [State.completed_ch hn hb hf, hc']
  subst hg hnext hf hb
  simp only [State.dmaComplete, hcur]
  exact (if_neg hruns).trans (if_neg hmay)

theorem State.completed_sameChains : s.SameChains (g.setCh n { c' with st := .idle }) := by
  have hsame : s.SameChains b := .of_dma (by subst hb; split <;> rfl)
  have hfinish : s.SameChains f := hsame.trans (hf ▸ State.dmaFinish_sameChains b hn d _ _)
  have hfch : f.ch n = _ := State.completed_ch hn hb hf
  have hset : f.SameChains (f.setCh n c') := State.setCh_sameChains hn (by rw [hfch, hc']) (by rw [hfch, hc']) (by rw [hfch, hc'])
  have hcount : g.dma = (f.setCh n c').dma := by subst hg; split <;> rfl
  have hgch : g.ch n = c' := by rw [State.ch, hcount]; exact f.ch_setCh c' hn
  exact ((hfinish.trans hset).trans (.of_dma hcount)).trans (State.setCh_sameChains hn (by rw [hgch]) (by rw [hgch]) (by rw [hgch]))

end Complete

section Command

variable {s : State} (hcore : s.domOn .core = true) {t n : Nat} (hn : n < 16)

include hcore hn

theorem execDmaDoorbell_unparked (hpark : ∀ k, k < 16 → (s.ch k).st ≠ .parked) :
    execDmaDoorbell t n s = .next ((s.advance t).dmaTrigger n) := by
  refine congrArg Host.Outcome.next ((if_pos (State.dmaUp_advance hcore t hn)).trans ?_)
  rw [State.dmaResume_of_unparked (s.advance t) hpark]

/-- With TRIG = 1 a channel is triggered every PERIOD from the setting of EN (14 R410). -/
theorem execDmaTimerTrigger_due (hen : (s.ch n).en = true) (htrig : (s.ch n).trig = 1) (hperiod : (s.ch n).period ≠ 0)
    (hdue : (s.ch n).enAt + ((s.ch n).ticks + 1) * (s.ch n).period * 1000 ≤ max s.now t) :
    execDmaTimerTrigger t n s = .next (((s.advance t).setCh n { s.ch n with ticks := (s.ch n).ticks + 1 }).dmaTrigger n) := by
  refine congrArg Host.Outcome.next (if_pos ?_)
  simp only [State.dmaUp_advance hcore t hn, show (s.advance t).ch n = s.ch n from rfl, hen, htrig, State.advance_now, Bool.true_and,
    beq_self_eq_true, Bool.and_eq_true, bne_iff_ne, decide_eq_true_eq]
  exact ⟨hperiod, hdue⟩

theorem execDmaDisable_enabled (hen : (s.ch n).en = true) (bytes : Nat) :
    execDmaDisable t n bytes s = .next (((s.advance t).dmaStop n bytes).settleQuiesce) :=
  congrArg Host.Outcome.next (if_pos (Bool.and_eq_true_iff.2 ⟨State.dmaUp_advance hcore t hn, hen⟩))

variable {d : DmaDesc} (hst : (s.ch n).st = .running) (hcur : (s.ch n).cur = some d)

include hst hcur

omit hcur in
theorem State.busError_takes : ((s.advance t).dmaUp n && ((s.advance t).ch n).st == .running) = true :=
  Bool.and_eq_true_iff.2 ⟨State.dmaUp_advance hcore t hn, beq_iff_eq.2 hst⟩

variable (hrun : 0 < (s.ch n).runCount) (addr bytes : Nat) {e : State}

include hrun

/-- A failed fetch writes nothing back and leaves HEAD; the chained channels are triggered (14 R414; log 71). -/
theorem execDmaBusError_fetch (he : e = (s.advance t).dmaError n (s.ch n) 6 addr) :
    execDmaBusError t n addr bytes true s = .next (State.triggers 256 e (e.chainedTo n)).settleQuiesce := by
  have hcur' : ((s.advance t).ch n).cur = some d := hcur
  have hends : e.afterRun n = (e, e.chainedTo n) := by
    rw [he]
    exact State.dmaError_afterRun _ hn hrun 6 addr
  simp only [execDmaBusError, State.busError_takes hcore hn hst, hcur', if_true]
  rw [← show e = (s.advance t).dmaError n ((s.advance t).ch n) 6 addr from he, hends]

/-- A bus error in the transfer writes back ERR_BUS with the bytes that arrived; the chained channels are triggered (14 R414; log 71). -/
theorem execDmaBusError_transfer {f : State} (hf : f = (s.advance t).dmaFinish n d 4 (min d.bytes bytes))
    (he : e = f.dmaError n (f.ch n) 4 addr) :
    execDmaBusError t n addr bytes false s = .next (State.triggers 256 e (e.chainedTo n)).settleQuiesce := by
  have hcur' : ((s.advance t).ch n).cur = some d := hcur
  have hcount : (f.ch n).runCount = (s.ch n).runCount := by rw [hf, State.dmaFinish_ch _ hn]; rfl
  have hends : e.afterRun n = (e, e.chainedTo n) := by
    rw [he]
    exact State.dmaError_afterRun _ hn (by rw [hcount]; exact hrun) 4 addr
  simp only [execDmaBusError, State.busError_takes hcore hn hst, hcur', if_true, Bool.false_eq_true, if_false]
  rw [← hf, ← he, hends]

end Command

/-- Settles O28. That a run which ends in an error triggers its chained channels is log 71, the site channels' 1 ms allowance log 7. -/
theorem dmaRuns : Obligations.DmaRuns := by
  intro s t n hcore hn hpark a c
  refine ⟨fun hst => ?pending, fun d hst hreadable hread howned hlines hfields hsandbox hdoms => ?starts,
    fun _ hen htrig hperiod hdue => execDmaTimerTrigger_due hcore hn hen htrig hperiod hdue, fun d bytes hen hcur => ?disable,
    fun d addr bytes hst hcur hrun => ⟨execDmaBusError_fetch hcore hn hst hcur hrun addr bytes rfl,
      execDmaBusError_transfer hcore hn hst hcur hrun addr bytes rfl rfl⟩, ?complete⟩
  case pending =>
    exact (execDmaDoorbell_unparked hcore hn hpark).trans (congrArg Host.Outcome.next (State.dmaTrigger_running (s := a) hst))
  case starts =>
    exact (execDmaDoorbell_unparked hcore hn hpark).trans (congrArg Host.Outcome.next
      (State.dmaTrigger_idle (s := a) hn hst ⟨hreadable, hread, howned, hlines, hfields, hsandbox, hdoms⟩))
  case disable =>
    exact (execDmaDisable_enabled hcore hn hen bytes).trans (congrArg (fun u => Host.Outcome.next (State.settleQuiesce u))
      (State.dmaStop_running (s := a) hn (hpark n hn) hcur bytes))
  case complete =>
    intro d hst hcur hpending hrate b f c' g
    have hcompletes : exec (.dmaDescriptorComplete t n) s = .next (a.dmaComplete n).settleQuiesce :=
      congrArg Host.Outcome.next (if_pos (State.dmaUp_advance hcore t hn))
    have hb : b = if siteCh n then
        { a with site := { a.site with dmaWindow := a.now / nsMs, dmaSpent := (a.siteRate (a.ch n) d.bytes).2 } } else a := rfl
    have hf : f = b.dmaFinish n d (if d.lineCount = 0 then 1 else 0) d.bytes := rfl
    have hc' : c' = { a.ch n with head := (a.ch n).nextHead, cur := none, done := (a.ch n).done || bitAt d.ctrl 4,
                                  doneCount := ((a.ch n).doneCount + 1) % 2 ^ 32 } := rfl
    have hg : g = (if bitAt d.ctrl 4 then (f.setCh n c').hwSet (dmaStatusAt n) 8 else f.setCh n c').bump K.dmaDescriptorsCompleted := rfl
    clear_value b f c' g
    have heq := State.dmaComplete_running (s := a) hn hb hf hc' hg hst hcur hrate
    refine ⟨fun hlast halone => ?_, fun hmore htakes => ?_⟩
    · have hchain := (State.completed_sameChains (s := a) hn hb hf hc' hg).chainedTo n
      have hch := g.ch_setCh { c' with st := .idle } hn
      have hends := State.afterRun_alone (s := g.setCh n { c' with st := .idle }) (n := n) (by rw [hch, hc']; exact hpending) (hchain.trans halone)
      rw [hcompletes, heq, hlast]
      simp only [if_true, hends, State.triggers_nil]
    · rw [hcompletes, heq, hmore]
      simp only [Bool.false_eq_true, if_false, htakes]

end Sys2Proof.Machine
end

section
/-! USDO transfers (12 R347, R363; 15 R435). -/

namespace Sys2Proof.Machine

section Requests

variable {s : State} (hrun : s.shelf.running = true) (t : Nat)

include hrun

/-- During an execution pause a request waits for its end (15 R435). -/
theorem State.usdo_paused (hpaused : s.paused = true) (d : Delayed) : (s.advance t).usdo d = ((s.advance t).canRx true).delay d := by
  have hgo : ¬(!(s.advance t).shelf.running) = true := by rw [show (s.advance t).shelf.running = true from hrun]; decide
  exact (if_neg hgo).trans (if_pos hpaused)

theorem State.usdo_acts (hgoes : s.paused = false) (d : Delayed) : (s.advance t).usdo d = ((s.advance t).canRx true).dictAct d := by
  have hgo : ¬(!(s.advance t).shelf.running) = true := by rw [show (s.advance t).shelf.running = true from hrun]; decide
  exact (if_neg hgo).trans (if_neg (Bool.eq_false_iff.1 hgoes))

end Requests

section Upload

variable {s : State} {node idx sub : Nat}

theorem State.usdoUpload_busy (hbusy : s.usdoBusy node = true) (seg : Bool) : s.usdoUpload node idx sub seg = s.usdoAbort node idx sub 0x05040005 :=
  if_pos hbusy

variable (hfree : s.usdoBusy node = false) {g : State × Option DictRow × DRead} (hg : g = s.dictGet (.shelf node) idx sub)

include hfree hg

theorem State.usdoUpload_abort {c : Nat} (hc : g.2.2 = .abort c) (seg : Bool) : s.usdoUpload node idx sub seg = g.1.usdoAbort node idx sub c := by
  simp only [State.usdoUpload, hfree, ← hg, hc, Bool.false_eq_true, if_false]

/-- A value is answered in one frame, or copied for segments (12 R347, R363). -/
theorem State.usdoUpload_value {b v : Bytes} (hb : g.2.2 = .value b) (hv : g.1.usdoValue node g.2.1 b = .ok v) (hlen : v.length ≤ g.1.usdoMax)
    (seg : Bool) :
    s.usdoUpload node idx sub seg = if seg = true ∨ 56 < v.length then
      (g.1.setTransfer { node := node, upload := true, idx := idx, sub := sub, data := v, sent := 0, total := v.length, lastAt := g.1.now }).canSend
        (0x580 + g.1.shelf.nodeId) (beBytes 1 node ++ [0x41] ++ beBytes 2 idx ++ beBytes 1 sub ++ beBytes 4 v.length)
    else g.1.canSend (0x580 + g.1.shelf.nodeId) (beBytes 1 node ++ [0x43] ++ beBytes 2 idx ++ beBytes 1 sub ++ v) := by
  simp only [State.usdoUpload, hfree, ← hg, hb, hv, Bool.false_eq_true, if_false, if_neg (Nat.not_lt.2 hlen)]
  by_cases hseg : seg = true ∨ 56 < v.length
  · have hseg' : (seg || decide (usdoSeg < v.length)) = true := by simpa using hseg
    rw [if_pos hseg, if_pos hseg', if_pos hseg']
    rfl
  · have hseg' : ¬(seg || decide (usdoSeg < v.length)) = true := by simpa using hseg
    rw [if_neg hseg, if_neg hseg', if_neg hseg']

end Upload

section Segment

variable {s : State} {node : Nat} {x : Usdo} (hx : s.transfer? node = some x)

include hx

/-- A segment carries the next bytes of the copy, and the last one ends the transfer (12 R363). -/
theorem State.usdoUploadSegment_open (hup : x.upload = true) {part : Bytes} (hpart : part = (x.data.drop x.sent).take 56) :
    s.usdoUploadSegment node = if x.data.length ≤ x.sent + part.length then
      (s.dropTransfer node).canSend (0x580 + s.shelf.nodeId) (beBytes 1 node ++ [0x45] ++ part)
    else (s.setTransfer { x with sent := x.sent + part.length, lastAt := s.now }).canSend (0x580 + s.shelf.nodeId) (beBytes 1 node ++ [0x44] ++ part) := by
  subst hpart
  simp only [State.usdoUploadSegment, hx, hup, if_true, decide_eq_true_eq]
  split <;> rfl

variable (hdown : x.upload = false) (b : Bytes) (hlen : (x.data ++ b).length ≤ s.usdoMax)

include hdown hlen

/-- A segment of a download is stored; the last one applies the write whole, if its length is the one announced (12 R347). -/
theorem State.usdoDownloadSegment_open (last : Bool) :
    s.usdoDownloadSegment node b last = if last = false then
      (s.setTransfer { x with data := x.data ++ b, lastAt := s.now }).canSend (0x580 + s.shelf.nodeId) (beBytes 1 node ++ [0x62])
    else if (x.data ++ b).length ≠ x.total then (s.dropTransfer node).usdoAbort node x.idx x.sub 0x06070010
    else (s.dropTransfer node).usdoApply node x.idx x.sub (x.data ++ b) := by
  simp only [State.usdoDownloadSegment, hx, hdown, Bool.false_eq_true, if_false, if_neg (Nat.not_lt.2 hlen), Bool.not_eq_true']

end Segment

section Download

variable {s : State} {node idx sub : Nat} (hfree : s.usdoBusy node = false)

include hfree

theorem State.usdoDownload_free {b : Bytes} (hlen : b.length ≤ s.usdoMax) : s.usdoDownload node idx sub b = s.usdoApply node idx sub b := by
  refine if_neg ?_
  simp [hfree, hlen]

theorem State.usdoDownloadInit_free {total : Nat} {b : Bytes} (hlen : max total b.length ≤ s.usdoMax) :
    s.usdoDownloadInit node idx sub total b
      = (s.setTransfer { node := node, upload := false, idx := idx, sub := sub, data := b, sent := 0, total := total, lastAt := s.now }).canSend
          (0x580 + s.shelf.nodeId) (beBytes 1 node ++ [0x61] ++ beBytes 2 idx ++ beBytes 1 sub) := by
  refine if_neg ?_
  simpa [hfree] using hlen

omit hfree in
/-- A write is answered with its abort code, when it is applied, or once the settings store holds it (12 R346, R349). -/
theorem State.usdoApply_eq {b : Bytes} {w : State × Option DictRow × DWrite} (hw : w = s.dictSet (.shelf node) idx sub b) :
    s.usdoApply node idx sub b = match w.2.2 with
      | .abort c => w.1.usdoAbort node idx sub c
      | .ok => w.1.canSend (0x580 + w.1.shelf.nodeId) (usdoOk node idx sub)
      | .stored => w.1.awaitStore (.shelf node idx sub) := by
  subst hw
  rfl

end Download

theorem execUsdoTimeout_late {s : State} {t node : Nat} {x : Usdo} (hx : (s.advance t).transfer? node = some x)
    (hlate : x.lastAt + s.num K.usdoTimeoutMs * nsMs ≤ max s.now t) :
    execUsdoTimeout t node s = .next (((s.advance t).dropTransfer node).usdoAbort node x.idx x.sub 0x05040000) := by
  simp only [execUsdoTimeout, hx]
  exact congrArg Host.Outcome.next (if_pos hlate)

/-- Settles O37. The frames' layout is log 34; that a segmented download is checked at its last segment is log 69. -/
theorem usdoTransfers : Obligations.UsdoTransfers := by
  refine ⟨fun s t node idx sub hrun => ⟨fun hpaused => ?waits, fun hgoes => ⟨fun hfree => ?uploads, fun hbusy => ?busy, fun x hx hup => ?segments⟩⟩,
    fun s t node idx sub hrun hgoes => ⟨fun b hfree hlen => ?download, fun total b hfree hlen => ?begins, fun x b hx hdown hlen => ?collects,
      congrArg Host.Outcome.next (State.usdo_acts hrun t hgoes _), fun x hx hlate => execUsdoTimeout_late hx hlate⟩⟩
  case waits =>
    exact ⟨congrArg Host.Outcome.next (State.usdo_paused hrun t hpaused _), congrArg Host.Outcome.next (State.usdo_paused hrun t hpaused _),
      congrArg Host.Outcome.next (State.usdo_paused hrun t hpaused _)⟩
  case uploads =>
    have hacts (seg : Bool) : (s.advance t).usdo (.upload node idx sub seg) = ((s.advance t).canRx true).usdoUpload node idx sub seg :=
      State.usdo_acts hrun t hgoes _
    refine ⟨fun b v hb hv hlen => ?_, fun c hc => ⟨congrArg Host.Outcome.next ((hacts false).trans (State.usdoUpload_abort hfree rfl hc false)),
      congrArg Host.Outcome.next ((hacts true).trans (State.usdoUpload_abort hfree rfl hc true))⟩⟩
    have hvalue (seg : Bool) := (hacts seg).trans (State.usdoUpload_value hfree rfl hb hv hlen seg)
    refine ⟨fun hfits => congrArg Host.Outcome.next ((hvalue false).trans (if_neg ?_)),
      fun hlong => congrArg Host.Outcome.next ((hvalue false).trans (if_pos (.inr hlong))),
      congrArg Host.Outcome.next ((hvalue true).trans (if_pos (.inl rfl)))⟩
    simpa using hfits
  case busy => exact congrArg Host.Outcome.next ((State.usdo_acts hrun t hgoes _).trans (State.usdoUpload_busy hbusy false))
  case segments =>
    have hsegment := (State.usdo_acts hrun t hgoes (.uploadSegment node)).trans (State.usdoUploadSegment_open hx hup rfl)
    exact ⟨fun hmore => congrArg Host.Outcome.next (hsegment.trans (if_neg (Nat.not_le.2 hmore))),
      fun hlast => congrArg Host.Outcome.next (hsegment.trans (if_pos hlast))⟩
  case download =>
    intro w
    have happly := (State.usdo_acts hrun t hgoes (.download node idx sub b)).trans
      ((State.usdoDownload_free hfree hlen).trans (State.usdoApply_eq (w := w) rfl))
    refine ⟨fun c hc => ?_, fun hok => ?_, fun hstored => ?_⟩
    · exact congrArg Host.Outcome.next (happly.trans (by rw [hc]))
    · exact congrArg Host.Outcome.next (happly.trans (by rw [hok]))
    · exact congrArg Host.Outcome.next (happly.trans (by rw [hstored]))
  case begins => exact congrArg Host.Outcome.next ((State.usdo_acts hrun t hgoes _).trans (State.usdoDownloadInit_free hfree hlen))
  case collects =>
    have hsegment (last : Bool) := (State.usdo_acts hrun t hgoes (.downloadSegment node b last)).trans
      (State.usdoDownloadSegment_open hx hdown b hlen last)
    have hlast := (hsegment true).trans (if_neg (by decide))
    exact ⟨congrArg Host.Outcome.next ((hsegment false).trans (if_pos rfl)),
      fun hwhole => congrArg Host.Outcome.next (hlast.trans (if_neg (not_not_intro hwhole))),
      fun hshort => congrArg Host.Outcome.next (hlast.trans (if_pos hshort))⟩

end Sys2Proof.Machine
end

section
/-! NMT commands of the shelf bus (12 R357 to R359). -/

namespace Sys2Proof.Machine

/-- One of the five NMT commands, addressed to `node`, and what its effect is on a node that obeys. -/
inductive NmtActs (node : Nat) (t : Nat) : Instr → (State → State × Bool) → Prop
  | start : NmtActs node t (.nmtStartRemoteNode t node) (·.requestMode .serve trNmt)
  | stop : NmtActs node t (.nmtStopRemoteNode t node) (·.requestMode .dormant trNmt)
  | preOperational : NmtActs node t (.nmtEnterPreOperational t node) (·.requestMode .sweep trNmt)
  | resetNode : NmtActs node t (.nmtResetNode t node) fun s =>
      (match s.commReset.mode.phase with
       | .awaitPower _ => s.commReset
       | .resetHeld => s.commReset
       | _ => s.commReset.resetFlush trNmt, true)
  | resetCommunication : NmtActs node t (.nmtResetCommunication t node) fun s => (s.commReset, true)

/-- Each of the five commands goes through `State.nmt`. -/
theorem NmtActs.exec {node t : Nat} {i : Instr} {f : State → State × Bool} (h : NmtActs node t i f) (s : State) :
    exec i s = .next ((s.advance t).nmt node f) := by
  cases h <;> rfl

theorem NmtActs.exists_of_mem {node t : Nat} {i : Instr} (hi : i ∈ [Instr.nmtStartRemoteNode t node, .nmtStopRemoteNode t node,
    .nmtEnterPreOperational t node, .nmtResetNode t node, .nmtResetCommunication t node]) : ∃ f, NmtActs node t i f := by
  simp only [List.mem_cons, List.not_mem_nil, or_false] at hi
  obtain rfl | rfl | rfl | rfl | rfl := hi
  exacts [⟨_, .start⟩, ⟨_, .stop⟩, ⟨_, .preOperational⟩, ⟨_, .resetNode⟩, ⟨_, .resetCommunication⟩]

section

variable {s : State} {node : Nat} (hrun : s.shelf.running = true)

include hrun

theorem State.nmt_other (hall : node ≠ 0) (hother : node ≠ s.shelf.nodeId) (f : State → State × Bool) : s.nmt node f = s.canRx false := by
  have hnode : node ≠ 0 ∧ node ≠ s.shelf.nodeId := ⟨hall, hother⟩
  rw [State.nmt, hrun]
  exact if_pos hnode

variable (hmine : node = 0 ∨ node = s.shelf.nodeId)

include hmine

/-- On the way to HALT or during a flush the command is ignored and counted (12 R358). -/
theorem State.nmt_ignored (hbusy : s.mode.target = some .halt ∨ s.inFlush = true) (f : State → State × Bool) :
    s.nmt node f = (s.canRx true).bump K.nmtIgnored := by
  have hnode : ¬(node ≠ 0 ∧ node ≠ s.shelf.nodeId) := by tauto
  rw [State.nmt, hrun]
  exact (if_neg hnode).trans (if_pos hbusy)

theorem State.nmt_acts (hhalt : s.mode.target ≠ some .halt) (hflush : s.inFlush = false) (f : State → State × Bool) :
    let r := s.canRx true
    let w := ({ r with mode := { r.mode with nmtSinceWake := true } } : State).wakeLull
    s.nmt node f = if (f w).2 then (f w).1 else (f w).1.bump K.nmtIgnored := by
  have hnode : ¬(node ≠ 0 ∧ node ≠ s.shelf.nodeId) := by tauto
  have hgoes : ¬(s.mode.target = some .halt ∨ s.inFlush = true) := by simp [hhalt, hflush]
  rw [State.nmt, hrun]
  exact (if_neg hnode).trans (if_neg hgoes)

end

/-- Settles O38: an NMT command is for this node or for another, is ignored or acts, and Reset node looks at how far a warm reset
has come. After a finished flush Reset node only resets communication, and its boot-up message goes before the flush: both are
the model's choice (log 67). -/
theorem nmtCommands : Obligations.NmtCommands := by
  intro s t node hrun r w
  have hacts (hmine : node = 0 ∨ node = s.shelf.nodeId) (hhalt : s.mode.target ≠ some .halt) (hflush : s.inFlush = false) {i : Instr}
      {f : State → State × Bool} (h : NmtActs node t i f) : exec i s = .next (if (f w).2 then (f w).1 else (f w).1.bump K.nmtIgnored) :=
    (h.exec s).trans (congrArg Host.Outcome.next (State.nmt_acts (s := s.advance t) hrun hmine hhalt hflush f))
  refine ⟨fun hall hother i hi => ?other, fun hmine hbusy i hi => ?ignored, fun hmine hhalt hflush => ?acts⟩
  case other =>
    obtain ⟨f, h⟩ := NmtActs.exists_of_mem hi
    exact (h.exec s).trans (congrArg Host.Outcome.next (State.nmt_other (s := s.advance t) hrun hall hother f))
  case ignored =>
    obtain ⟨f, h⟩ := NmtActs.exists_of_mem hi
    exact (h.exec s).trans (congrArg Host.Outcome.next (State.nmt_ignored (s := s.advance t) hrun hmine hbusy f))
  case acts =>
    have hobeys {i : Instr} {f : State → State × Bool} (h : NmtActs node t i f) := hacts hmine hhalt hflush h
    refine ⟨⟨hobeys .start, hobeys .stop, hobeys .preOperational⟩, ⟨fun hawait hheld => ?flushes, fun hflushed => ?flushed⟩,
      hobeys .resetCommunication⟩
    case flushes =>
      refine (hobeys .resetNode).trans (congrArg Host.Outcome.next ?_)
      change (match w.commReset.mode.phase with
        | .awaitPower _ => w.commReset | .resetHeld => w.commReset | _ => w.commReset.resetFlush trNmt) = w.commReset.resetFlush trNmt
      split
      · exact absurd ‹_› (hawait _)
      · exact absurd ‹_› hheld
      · rfl
    case flushed =>
      refine (hobeys .resetNode).trans (congrArg Host.Outcome.next ?_)
      change (match w.commReset.mode.phase with
        | .awaitPower _ => w.commReset | .resetHeld => w.commReset | _ => w.commReset.resetFlush trNmt) = w.commReset
      obtain ⟨b, hawait⟩ | hheld := hflushed
      · rw [hawait]
      · rw [hheld]

end Sys2Proof.Machine
end

section
/-! TIME, heartbeat, EMCY, waking and the controller's error states (12 R355, R359 to R362, R364, R365). -/

namespace Sys2Proof.Machine

section TimeFrame

variable {s : State} {cobid ms days : Nat} (hrun : s.shelf.running = true) (hconsumer : bitAt (s.num K.timeCobId) 31 = true)
  (hid : cobid % 2048 = s.num K.timeCobId % 2048)

include hrun hconsumer hid

/-- A TIME frame that the node consumes (12 R362). -/
theorem execTimeFrame_consumed (t : Nat) :
    execTimeFrame t cobid ms days s = .next (
      let r := ((s.advance t).canRx true).bump K.timeFramesRx
      if r.eth.ptp.st = .locked then r
      else { r.setRtc (days % 65536 * 86400 + ms % 2 ^ 28 / 1000 + 441763200 + r.num K.taiUtcOffset) with clk := { r.clk with rtcInvalid := false } }) := by
  have hgoes : ¬(!(s.advance t).shelf.running) = true := by rw [show (s.advance t).shelf.running = true from hrun]; decide
  have hmine : (bitAt ((s.advance t).num K.timeCobId) 31 && cobid % 2048 == (s.advance t).num K.timeCobId % 2048) = true :=
    Bool.and_eq_true_iff.2 ⟨hconsumer, beq_iff_eq.2 hid⟩
  exact congrArg Host.Outcome.next ((if_neg hgoes).trans (if_pos hmine))

theorem execTimeFrame_free (hms : ms < 2 ^ 28) (hdays : days < 65536) (hfree : s.eth.ptp.st ≠ .locked) (t : Nat) :
    let r := ((s.advance t).canRx true).bump K.timeFramesRx
    execTimeFrame t cobid ms days s
      = .next { r with shelf := { r.shelf with rtcBase := days * 86400 + ms / 1000 + 441763200 + r.num K.taiUtcOffset, rtcAt := r.now },
                       clk := { r.clk with rtcInvalid := false } } := by
  refine (execTimeFrame_consumed hrun hconsumer hid t).trans (congrArg Host.Outcome.next ((if_neg hfree).trans ?_))
  rw [Nat.mod_eq_of_lt hms, Nat.mod_eq_of_lt hdays]
  rfl

/-- Under a locked PTP clock a TIME frame only counts. -/
theorem execTimeFrame_locked (hlocked : s.eth.ptp.st = .locked) (t : Nat) :
    execTimeFrame t cobid ms days s = .next (((s.advance t).canRx true).bump K.timeFramesRx) :=
  (execTimeFrame_consumed hrun hconsumer hid t).trans (congrArg Host.Outcome.next (if_pos hlocked))

end TimeFrame

section Sends

variable {s : State} {t : Nat} (hready : (s.advance t).canReady = true)

include hready

theorem execHeartbeat_due (hproduces : s.num K.producerHeartbeatTime ≠ 0)
    (hdue : s.shelf.lastHeartbeat + s.num K.producerHeartbeatTime * nsMs ≤ max s.now t) :
    let r := (s.advance t).canSend (0x700 + s.shelf.nodeId) [BitVec.ofNat 8 s.mode.mode.heartbeat]
    execHeartbeat t s = .next { r with shelf := { s.shelf with lastHeartbeat := r.now } } := by
  have hsends : ¬((s.advance t).num K.producerHeartbeatTime = 0 ∨ (s.advance t).canReady = false) := by
    rw [hready]
    exact fun h => h.elim hproduces Bool.noConfusion
  exact congrArg Host.Outcome.next ((if_pos hdue).trans (if_neg hsends))

/-- The oldest waiting EMCY frame goes EmcyInhibitMs after the last (12 R360). -/
theorem execEmcySend_due {e : Emcy} {rest : List Emcy} (hqueue : s.shelf.queue = e :: rest)
    (hdue : ∀ u, s.shelf.lastEmcy = some u → u + s.num K.emcyInhibitMs * nsMs ≤ max s.now t) :
    let r := (s.advance t).canSend (0x080 + s.shelf.nodeId) e.bytes
    execEmcySend t s = .next { r with shelf := { s.shelf with queue := rest, lastEmcy := some r.now } } := by
  have hlast : (match (s.advance t).shelf.lastEmcy with
      | some u => decide (u + (s.advance t).num K.emcyInhibitMs * nsMs ≤ (s.advance t).now) | none => true) = true := by
    split
    · exact decide_eq_true (hdue _ ‹_›)
    · rfl
  have hqueue' : (s.advance t).shelf.queue = e :: rest := hqueue
  simp only [execEmcySend, hqueue']
  exact congrArg Host.Outcome.next (if_pos (Bool.and_eq_true_iff.2 ⟨hlast, hready⟩))

end Sends

theorem Emcy.length_bytes (e : Emcy) : e.bytes.length = 20 := by
  simp [Emcy.bytes]

/-- A dominant level of 1 us or longer wakes, one shorter than 0.3 us never (12 R364). -/
theorem execCanWakeDominant_stopped {s : State} (hstopped : s.shelf.running = false) (howes : s.shelf.bootOwed = false)
    (hvstby : s.mode.vstby = true) (hporN : s.mode.porN = true) (t dur : Nat) (takes : Bool) :
    let u := (s.advance t).setSrc .wosc { st := .healthy }
    (1000 ≤ dur ∨ (300 ≤ dur ∧ takes = true) → execCanWakeDominant t dur takes s
      = .next { u with shelf := { s.shelf with running := true, woscRestarts := 0, lastTraffic := max s.now t } }) ∧
    (dur < 300 → execCanWakeDominant t dur takes s = .next (s.advance t)) := by
  have hwoken : (decide (1000 ≤ dur) || (decide (300 ≤ dur) && takes)) = true ↔ 1000 ≤ dur ∨ (300 ≤ dur ∧ takes = true) := by
    rw [Bool.or_eq_true_iff, Bool.and_eq_true_iff, decide_eq_true_iff, decide_eq_true_iff]
  refine ⟨fun hlong => congrArg Host.Outcome.next (if_pos ⟨hstopped, howes, hvstby, hporN, hwoken.2 hlong⟩),
    fun hshort => congrArg Host.Outcome.next (if_neg fun h => ?_)⟩
  obtain ⟨-, -, -, -, h⟩ := h
  have := hwoken.1 h
  omega

/-- Settles O39: each command takes the branch that its hypotheses name. WOSC becomes HEALTHY at once and without event 0x0C01 on a
wake, and a due heartbeat does not hold off the idle stop: the model's choices (log 68); a level between the two limits is a free
answer (log 93). -/
theorem shelfBus : Obligations.ShelfBus := by
  refine ⟨fun s t => ⟨?timeFree, ?timeLocked, ?heartbeat, ?emcy, Emcy.length_bytes⟩, fun s t => ⟨?wake, ?idle, ?received, ?passive, ?active⟩⟩
  case timeFree => exact fun cobid ms days hrun hconsumer hid hms hdays hfree => execTimeFrame_free hrun hconsumer hid hms hdays hfree t
  case timeLocked => exact fun cobid ms days hrun hconsumer hid hlocked => execTimeFrame_locked hrun hconsumer hid hlocked t
  case heartbeat => exact fun hproduces hready hdue => execHeartbeat_due hready hproduces hdue
  case emcy => exact fun e rest hqueue hready hdue => execEmcySend_due hready hqueue hdue
  case wake => exact fun dur takes hstopped howes hvstby hporN => execCanWakeDominant_stopped hstopped howes hvstby hporN t dur takes
  case idle =>
    exact fun hdormant hrun htransfers hqueue hdue => congrArg Host.Outcome.next (if_pos ⟨hdormant, hrun, htransfers, hqueue, hdue⟩)
  case received => exact fun hrun => ⟨congrArg Host.Outcome.next (if_pos hrun), congrArg Host.Outcome.next (if_pos hrun)⟩
  case passive =>
    intro hrun hactive
    have henters : ((s.advance t).shelf.running && !(s.advance t).shelf.errPassive) = true := by
      rw [show (s.advance t).shelf.running = true from hrun, show (s.advance t).shelf.errPassive = false from hactive]
      rfl
    exact congrArg Host.Outcome.next (if_pos henters)
  case active => exact fun hpassive => congrArg Host.Outcome.next (if_pos hpassive)

end Sys2Proof.Machine
end

section
/-! Why thermal control does not read as O34 says in every state (13 R379): the trip point is read after the cap's seconds count. -/

namespace Sys2Proof.Machine

theorem State.RecordsOnly.mode {s u : State} (h : s.RecordsOnly u) : u.mode = s.mode := by
  have hu : u = s.withRecorder u := h
  rw [hu]

/-- A trip in LULL-2, whose buffer is empty, waits for main power to fall (13 R379). -/
theorem State.thermalTrip_lull2 {s : State} (hlull : s.mode.mode = .lull2) (temp : Nat) : (s.thermalTrip temp).mode.phase = .awaitPower false := by
  have hmode : (s.event 0x0107 [(2, temp)]).mode.mode = .lull2 := (congrArg ModeSt.mode (State.event_recordsOnly s _ _).mode).trans hlull
  exact congrArg (fun u : State => u.mode.phase) (if_pos (.inr hmode))

/-- A sample at or above the trip point: it is kept, the seconds of a standing cap count, and the drive trips (13 R379). -/
theorem execThermalSample_trips {s k : State} {t : Nat} {temp : Int} (hpowered : s.mode.mode.powered = true) (hidle : s.mode.phase = .idle)
    (hcap : s.mode.cap.isSome = true) (hcool : temp < signed16 ((s.advance t).num K.thermalThrottleC) - 5)
    (hk : k = { (s.advance t).addTo K.thermalCapSeconds (max s.now t / nsSec - s.mode.sampleAt / nsSec) with
      mode := { s.mode with tempC := temp, sampleAt := max s.now t, coolSince := some (s.mode.coolSince.getD (max s.now t)) } })
    (htrip : signed16 (k.num K.thermalTripC) ≤ temp) : execThermalSample t temp s = .next (k.thermalTrip (temp % 65536).toNat) := by
  subst hk
  simp only [execThermalSample, decide_eq_true hcool, if_true]
  refine congrArg Host.Outcome.next ((if_pos hpowered).trans ?_)
  rw [if_pos (show (s.advance t).mode.cap.isSome = true from hcap)]
  refine if_pos (And.intro htrip ?_)
  rw [State.advance_mode, hidle]

/-- A capped drive in LULL-2 whose dictionary lists ThermalCapSeconds, at its default, before ThermalTripC: a list
whose keys do not rise, as the model's own updates keep them (`mapPut_above`) and as O34 does not ask. -/
def cappedUnsorted : State :=
  { State.reset with
    mode := { State.reset.mode with mode := .lull2, cap := some 100 }
    dict := { State.reset.dict with vals := [(K.thermalCapSeconds, .num 0), (K.thermalTripC, .num 5)] } }

/-- The same drive once a sample of 5 is kept and 0 s of the cap have counted: the default leaves the list, and the trip point shows. -/
def cappedCounted : State :=
  { cappedUnsorted with
    mode := { cappedUnsorted.mode with tempC := 5, sampleAt := 0, coolSince := some 0 }
    dict := { cappedUnsorted.dict with vals := [(K.thermalTripC, .num 5)] } }

theorem cappedUnsorted_trip : signed16 (cappedUnsorted.num K.thermalTripC) = 108 := by decide

theorem cappedCounted_trip : signed16 (cappedCounted.num K.thermalTripC) = 5 := by decide

/-- A sample of 5 trips, for the model reads the trip point after it has counted. -/
theorem exec_thermalSample_cappedUnsorted : exec (.thermalSample 0 5) cappedUnsorted = .next (cappedCounted.thermalTrip 5) := by
  have hvals : ((cappedUnsorted.advance 0).addTo K.thermalCapSeconds 0).dict.vals = [(K.thermalTripC, .num 5)] := by decide
  have hcool : (5 : Int) < signed16 ((cappedUnsorted.advance 0).num K.thermalThrottleC) - 5 := by decide
  exact execThermalSample_trips rfl rfl rfl hcool (congrArg (fun l => { cappedUnsorted with
    mode := { cappedUnsorted.mode with tempC := 5, sampleAt := 0, coolSince := some 0 }
    dict := { cappedUnsorted.dict with vals := l } }) hvals.symm) cappedCounted_trip.le

/-- Refutes O34: a trip point that reads 108 until the cap's seconds count, and 5 after it, lies above a sample of
5 as O34 reads it; the model compares the sample with the value read after, and trips. In a dictionary whose keys rise no count
moves the trip point. -/
theorem not_thermalAndDomains : ¬ Obligations.ThermalAndDomains := by
  rintro ⟨hthermal, -⟩
  obtain ⟨hkept, -⟩ := hthermal cappedUnsorted 0
  have hbelow : (5 : Int) < signed16 (cappedUnsorted.num K.thermalTripC) := by
    rw [cappedUnsorted_trip]
    decide
  have hidle := Host.Outcome.next.inj (exec_thermalSample_cappedUnsorted.symm.trans (hkept 5 rfl hbelow))
  have htripped : (cappedCounted.thermalTrip 5).mode.phase = .awaitPower false := State.thermalTrip_lull2 rfl 5
  rw [hidle] at htripped
  exact Phase.noConfusion htripped

end Sys2Proof.Machine
end

section
/-! Source monitoring, losses of lock and forced switches (13 R387, R388, R390, R391). -/

namespace Sys2Proof.Machine

theorem State.RecordsOnly.clk {s u : State} (h : s.RecordsOnly u) : u.clk = s.clk := by
  have hu : u = s.withRecorder u := h
  rw [hu]

theorem State.eventEmcy_clk (s : State) (code : Nat) (f : List (Nat × Nat)) (em : Nat) (p : Bool) : (s.eventEmcy code f em p).clk = s.clk := by
  rw [State.eventEmcy_frame]

theorem State.eventEmcy_mode (s : State) (code : Nat) (f : List (Nat × Nat)) (em : Nat) (p : Bool) : (s.eventEmcy code f em p).mode = s.mode := by
  rw [State.eventEmcy_frame]

section Monitor

variable {s : State} {x : Source} {count : Nat}

section Healthy

variable (h : (s.src x).st = .healthy)

include h

/-- No edge in 64 reference cycles (13 R387). -/
theorem State.monitor_healthy_gap : s.monitor x count true = s.srcTo x .dead count := by
  simp only [State.monitor, h, if_true]

theorem State.monitor_healthy_within (hin : x.within count = true) :
    s.monitor x count false = s.setSrc x { s.src x with bad := 0, good := (s.src x).good + 1, lastCount := count } := by
  simp only [State.monitor, h, hin, Bool.false_eq_true, if_false, if_true]

theorem State.monitor_healthy_outside (hout : x.within count = false) :
    s.monitor x count false = if (s.src x).bad = 1 then s.srcTo x .dead count
      else s.setSrc x { s.src x with bad := 1, good := 0, lastCount := count } := by
  simp only [State.monitor, h, hout, Bool.false_eq_true, if_false]

end Healthy

section Dead

variable (h : (s.src x).st = .dead)

include h

theorem State.monitor_dead_outside {gap : Bool} (hout : gap = true ∨ x.within count = false) :
    s.monitor x count gap = s.setSrc x { s.src x with good := 0, lastCount := count } := by
  have hfails : (gap || !x.within count) = true := by simpa using hout
  simp only [State.monitor, h, hfails, if_true]

/-- The sixteenth window in a row brings the source back (13 R387). -/
theorem State.monitor_dead_within (hin : x.within count = true) :
    s.monitor x count false = if (s.src x).good + 1 = 16 then s.srcTo x .healthy count
      else s.setSrc x { s.src x with good := (s.src x).good + 1, lastCount := count } := by
  simp only [State.monitor, h, hin, Bool.not_true, Bool.or_self, Bool.false_eq_true, if_false]

end Dead

theorem State.monitor_off (h : (s.src x).st = .off) (gap : Bool) : s.monitor x count gap = s := by
  simp only [State.monitor, h]

end Monitor

section Windows

variable (c : Nat)

/-- Five percent about 256 edges, rounded to whole edges. -/
theorem Source.within_xtal25 : Source.xtal25.within c = decide (244 ≤ c ∧ c ≤ 268) := by
  refine decide_eq_decide.2 ?_
  simp only [Source.nominal]
  omega

theorem Source.within_fso : Source.fso.within c = decide (3892 ≤ c ∧ c ≤ 4300) := by
  refine decide_eq_decide.2 ?_
  simp only [Source.nominal]
  omega

theorem Source.within_wosc : Source.wosc.within c = decide (390 ≤ c ∧ c ≤ 430) := by
  refine decide_eq_decide.2 ?_
  simp only [Source.nominal]
  omega

theorem Source.within_ethRefclk : Source.ethRefclk.within c = decide (1520 ≤ c ∧ c ≤ 1680) := by
  refine decide_eq_decide.2 ?_
  simp only [Source.nominal]
  omega

end Windows

/-- A source that enters DEAD: the count, event 0x0C01 with EMCY 0x5030, then SRC_DEAD of a measurement of it, the RTC that XTAL32K
feeds in DORMANT, and the PLLs (13 R387, R394). -/
theorem State.srcTo_dead {s : State} {x : Source} (hlive : (s.src x).st ≠ .dead) (count : Nat) {e : State}
    (he : e = (((s.setSrc x { s.src x with st := .dead, bad := 0, good := 0, edges := 0, lastCount := count }).cpcIrq 4).bump
      K.sourceDeadEvents).eventEmcy 0x0C01 [(4, x.idx), (4, (s.src x).st.code), (4, 2 + 1), (4, count)] 0x5030 false) :
    s.srcTo x .dead count =
      (let f := if e.clk.fmc.busy && fmcSrc e.clk.fmc.src == some x then (e.setFmc { e.clk.fmc with srcDead := true }).hwSet fmcStatusAt 8 else e
       (if x = .xtal32k ∧ f.mode.mode = .dormant then { f with clk := { f.clk with rtcInvalid := true } } else f).pllsFollow) := by
  subst he
  exact (if_neg hlive).trans (if_pos rfl)

/-- While no measurement runs, a source other than XTAL32K leaves the counter and the RTC alone. -/
theorem State.srcTo_dead_idle {s : State} {x : Source} (hlive : (s.src x).st ≠ .dead) (hx : x ≠ .xtal32k) (hidle : s.clk.fmc.busy = false)
    (count : Nat) {e : State}
    (he : e = (((s.setSrc x { s.src x with st := .dead, bad := 0, good := 0, edges := 0, lastCount := count }).cpcIrq 4).bump
      K.sourceDeadEvents).eventEmcy 0x0C01 [(4, x.idx), (4, (s.src x).st.code), (4, 2 + 1), (4, count)] 0x5030 false) :
    s.srcTo x .dead count = e.pllsFollow := by
  have hbusy : e.clk.fmc.busy = false := by
    rw [he, State.eventEmcy_clk]
    exact hidle
  have hmeasure : ¬(e.clk.fmc.busy && fmcSrc e.clk.fmc.src == some x) = true := by rw [hbusy, Bool.false_and]; decide
  rw [State.srcTo_dead hlive count he, if_neg hmeasure]
  exact congrArg State.pllsFollow (if_neg fun h => hx h.1)

theorem State.pllSwitch_rtcInvalid (s : State) (p : Pll) : (s.pllSwitch p).clk.rtcInvalid = s.clk.rtcInvalid := by
  have hevent (v : PllSt) (code : Nat) (f : List (Nat × Nat)) : ((s.setPll p v).event code f).clk.rtcInvalid = s.clk.rtcInvalid :=
    by
    rw [(State.event_recordsOnly (s.setPll p v) code f).clk]
    rfl
  rw [State.pllSwitch]
  split <;> split
  · rfl
  · exact hevent ..
  · rfl
  · exact hevent ..

theorem State.pllsFollow_rtcInvalid (s : State) : s.pllsFollow.clk.rtcInvalid = s.clk.rtcInvalid := by
  rw [State.pllsFollow]
  refine List.foldlRecOn (motive := fun u : State => u.clk.rtcInvalid = s.clk.rtcInvalid) _ _ rfl fun u hu p _ => ?_
  split
  · split
    · exact hu
    · exact (u.pllSwitch_rtcInvalid p).trans hu
  · exact hu

/-- In DORMANT the RTC counts XTAL32K, and is invalid without it (13 Table 13.8). -/
theorem State.srcTo_xtal32k_dead {s : State} (hdormant : s.mode.mode = .dormant) (hlive : (s.src .xtal32k).st ≠ .dead) (count : Nat) :
    (s.srcTo .xtal32k .dead count).clk.rtcInvalid = true := by
  rw [State.srcTo_dead hlive count rfl, State.pllsFollow_rtcInvalid]
  refine congrArg (fun u : State => u.clk.rtcInvalid) (if_pos ⟨rfl, ?_⟩)
  have hmode {p : Prop} [Decidable p] (e : State) (v : Fmc) : (if p then (e.setFmc v).hwSet fmcStatusAt 8 else e).mode = e.mode := by
    split <;> rfl
  rw [hmode, State.eventEmcy_mode]
  exact hdormant

section Locks

variable {s : State} {p : Pll} (t : Nat)

theorem execPllLossOfLock_locked (hlocked : (s.pll p).locked = true) {e : State}
    (he : e = (s.advance t).event 0x0C02 [(4, p.idx), (4, refCode (s.pll p).ref), (4, refCode (s.pll p).ref)]) :
    execPllLossOfLock t p s = .next (if p = .cpll then
      let f := e.setPll .cpll { s.pll p with locked := false, failed := true }
      ({ f with clk := { f.clk with onFso := [.core, .kv, .media, .welt, .sec] } } : State).resetFlush trCpll
    else e.setPll p { s.pll p with locked := false, relockSince := some e.now }) := by
  subst he
  have hgoes : ¬(!((s.advance t).pll p).locked) = true := by rw [show ((s.advance t).pll p).locked = true from hlocked]; decide
  refine congrArg Host.Outcome.next ((if_neg hgoes).trans ?_)
  cases p <;> rfl

variable {u : Nat} (hlost : (s.pll p).relockSince = some u)

include hlost

theorem execPllLock_lost : execPllLock t p s = .next ((s.advance t).setPll p { s.pll p with locked := true, relockSince := none }) :=
  congrArg Host.Outcome.next (if_pos (Option.isSome_iff_exists.2 ⟨u, hlost⟩))

/-- MPLL or FPLL not relocked within 100 us is treated as stopped (13 R391). -/
theorem execPllRelockTimeout_due (hdue : u + 100000 ≤ max s.now t) {f : State}
    (hf : f = (s.advance t).setPll p { s.pll p with relockSince := none, failed := true }) :
    execPllRelockTimeout t p s = .next (match (generalizing := false) p with | .mpll => f.forcedSwitch .dram [] | .fpll => f.forcedSwitch .media [] | _ => f) := by
  subst hf
  have hlost' : ((s.advance t).pll p).relockSince = some u := hlost
  simp only [execPllRelockTimeout, hlost']
  exact congrArg Host.Outcome.next (if_pos hdue)

end Locks

/-- Settles O35: the monitor by the source's state, entry to DEAD by what depends on the source, and the clock commands by their own
branch. -/
theorem sourcesAndPlls : Obligations.SourcesAndPlls := by
  refine ⟨fun s x count => ⟨fun hhealthy => ?healthy, fun hdead => ?dead, fun hoff => ?off, fun hlive hx hidle => ?enters, ?rtc,
    Source.within_xtal25, Source.within_fso, Source.within_wosc, Source.within_ethRefclk⟩,
    fun s t => ⟨?window, ?stops, ?noFso, ?loses, ?relocks⟩⟩
  case healthy =>
    exact ⟨State.monitor_healthy_gap hhealthy, State.monitor_healthy_within hhealthy,
      fun hout hbad => (State.monitor_healthy_outside hhealthy hout).trans (if_pos hbad),
      fun hout hgood => (State.monitor_healthy_outside hhealthy hout).trans (if_neg (by omega))⟩
  case dead =>
    exact ⟨fun gap hout => State.monitor_dead_outside hdead hout,
      fun hin hfew => (State.monitor_dead_within hdead hin).trans (if_neg (by omega)),
      fun hin hlast => (State.monitor_dead_within hdead hin).trans (if_pos (by omega))⟩
  case off => exact ⟨State.monitor_off hoff true, State.monitor_off hoff false⟩
  case enters => exact State.srcTo_dead_idle hlive hx hidle count rfl
  case rtc => exact fun hdormant hlive => State.srcTo_xtal32k_dead hdormant hlive count
  case window => exact fun x count gap => rfl
  case stops =>
    refine fun d users hfso hpowered => congrArg Host.Outcome.next (if_neg ?_)
    rintro (hdead | ⟨hoff, haon⟩)
    · exact hfso hdead
    · exact hpowered.elim (fun hon => hon hoff) haon
  case noFso => exact fun d users hdead => congrArg Host.Outcome.next (if_pos (.inl hdead))
  case loses =>
    refine fun p hlocked => ⟨fun hp => ?_, fun hp => ?_⟩
    · exact (execPllLossOfLock_locked t hlocked rfl).trans (congrArg Host.Outcome.next (if_neg hp))
    · subst hp
      exact (execPllLossOfLock_locked t hlocked rfl).trans (congrArg Host.Outcome.next (if_pos rfl))
  case relocks => exact fun p u hlost => ⟨execPllLock_lost t hlost, fun hdue => execPllRelockTimeout_due t hlost hdue rfl⟩

end Sys2Proof.Machine
end

section
/-! The power handshake and the control pins (13 R371, R376 to R378). -/

namespace Sys2Proof.Machine

section Pins

variable (s : State) {d : Nat}

/-- The glitch filter never takes a level shorter than 0.3 us (13 R377). -/
theorem State.pinTaken_short (hshort : d < 300) : s.pinTaken d = (s, false) := by
  rw [State.pinTaken, if_neg (by omega), if_pos hshort]

/-- The glitch filter takes a level of 1 us or longer (13 R377). -/
theorem State.pinTaken_long (hlong : 1000 ≤ d) : s.pinTaken d = (s, true) := if_pos hlong

variable (t : Nat)

theorem execPfailNLow_short (hshort : d < 300) : execPfailNLow t d s = .next (s.advance t) := by
  simp only [execPfailNLow, State.pinTaken_short _ hshort, Bool.not_false, if_true]

theorem execWarmRstNLow_short (hshort : d < 300) : execWarmRstNLow t d s = .next (s.advance t) := by
  simp only [execWarmRstNLow, State.pinTaken_short _ hshort, Bool.false_eq_true, if_false]

theorem execPorNLow_short (hshort : d < 300) : execPorNLow t d s = .next (s.advance t) := by
  simp only [execPorNLow, State.pinTaken_short _ hshort, Bool.false_eq_true, if_false]

end Pins

section Power

variable {s : State} {t : Nat}

/-- Main power that comes up in DORMANT starts MUSTER, toward SERVE where none was asked for (13 R371, R376). -/
theorem execPwrGoodCoreRise_dormant {b : Board} (hdormant : s.mode.mode = .dormant) (hvstby : s.mode.vstby = true) (hporN : s.mode.porN = true)
    {up : State} (hup : up = { s.advance t with
      mode := { s.mode with pwrGoodCore := true, pwrGoodIo := true, leaving := .dormant }, media := { s.media with board := b } }) :
    execPwrGoodCoreRise t b s = .next (State.musterEntry (if s.mode.pwrReq then up
      else
        let v := up.event 0x0105 [(1, 1), (1, bit s.mode.pfailN)]
        { v with mode := { v.mode with target := some .serve } }) trPower) := by
  subst hup
  exact congrArg Host.Outcome.next (if_pos ⟨hdormant, hvstby, hporN⟩)

theorem State.cutFlush_of_not_inFlush (h : s.inFlush = false) : s.cutFlush = s := by
  rw [State.cutFlush, h]
  rfl

/-- Without a flush in progress the fall of main power makes the drive DORMANT, uncontrolled where PWR_REQ is high and no flush has
run since PFAIL_N fell (13 R377, R378). -/
theorem execPwrGoodCoreFall_powered (hpowered : s.mode.mode.powered = true) (hheld : s.mode.held = none) (hflush : s.inFlush = false)
    {down : State}
    (hdown : down = ({ s.advance t with mode := { s.mode with pwrReq := false, pwrGoodCore := false, pwrGoodIo := false } } : State).enterDormant) :
    execPwrGoodCoreFall t s = .next (if (s.mode.pwrReq && !s.mode.flushedSincePfail) = true then down.event 0x0104 [(1, s.mode.mode.code)]
      else down) := by
  subst hdown
  have hcut : (s.advance t).cutFlush = s.advance t := State.cutFlush_of_not_inFlush (s := s.advance t) hflush
  simp only [execPwrGoodCoreFall, hcut]
  refine congrArg Host.Outcome.next ((if_pos hpowered).trans ?_)
  have hasks : (s.advance t).mode.held.isSome = false := by rw [State.advance_mode, hheld]; rfl
  simp only [hasks, Bool.false_eq_true, if_false]
  rfl

/-- A filtered PFAIL_N in SERVE, LULL-1 or SWEEP starts the flush (13 R377). -/
theorem execPfailNLow_flushes {d : Nat} (hlong : 1000 ≤ d) (hphase : s.mode.phase = .idle ∨ s.mode.phase = .draining)
    (hmode : s.mode.mode = .serve ∨ s.mode.mode = .lull1 ∨ s.mode.mode = .sweep) :
    execPfailNLow t d s
      = .next (({ s.advance t with mode := { s.mode with pfailN := false, flushedSincePfail := false, leaving := s.mode.mode } } : State).startFlush
          .pfail) := by
  have hmuster : s.mode.mode ≠ .muster := by
    obtain h | h | h := hmode <;> rw [h] <;> decide
  have hflushes : (s.mode.mode == .muster || s.mode.mode == .serve || s.mode.mode == .lull1 || s.mode.mode == .sweep) = true := by
    obtain h | h | h := hmode <;> rw [h] <;> rfl
  simp only [execPfailNLow, State.pinTaken_long _ hlong, Bool.not_true, Bool.false_eq_true, if_false, State.advance_mode, hflushes, hmuster,
    false_and]
  obtain h | h := hphase <;> simp only [h] <;> rfl

/-- Power that stays after the flush brings MUSTER (13 R377). -/
theorem execPostFlushReassert_released (hphase : s.mode.phase = .awaitPower true) (hgood : s.mode.pwrGoodCore = true) (hwarm : s.mode.warmRstN = true) :
    execPostFlushReassert t s
      = .next (({ s.advance t with mode := { s.mode with pfailN := true, pwrReq := true, pwrReqAt := max s.now t } } : State).warmMuster trReturn) :=
  congrArg Host.Outcome.next ((if_pos ⟨hphase, hgood⟩).trans (if_pos hwarm))

end Power

/-- Settles O31: each command takes the branch that its hypotheses name, and the glitch filter takes or drops the pin's level. PWR_REQ
deasserted at the fall of PWR_GOOD_CORE and not asserted by unasked power, and PFAIL_N low until POST_FLUSH_REASSERT, are the
model's choices (log 75). -/
theorem powerHandshake : Obligations.PowerHandshake := by
  intro s t a
  refine ⟨fun b hdormant hvstby hporN => ?rises, fun hpowered hheld hflush => ?falls, fun hdormant hreq hgood hdue => ?timeout,
    fun d hshort => ⟨execPfailNLow_short s t hshort, execWarmRstNLow_short s t hshort, execPorNLow_short s t hshort⟩,
    fun d hlong hphase hmode => execPfailNLow_flushes hlong hphase hmode,
    fun hphase hgood hwarm => execPostFlushReassert_released hphase hgood hwarm⟩
  case rises =>
    have hrises := execPwrGoodCoreRise_dormant (t := t) (b := b) hdormant hvstby hporN rfl
    refine ⟨fun hasked => hrises.trans (by rw [if_pos hasked]), fun hunasked => hrises.trans (by rw [if_neg (Bool.eq_false_iff.1 hunasked)])⟩
  case falls =>
    have hfalls := execPwrGoodCoreFall_powered (t := t) hpowered hheld hflush rfl
    have hlost : (s.mode.pwrReq && !s.mode.flushedSincePfail) = true ↔ s.mode.pwrReq = true ∧ s.mode.flushedSincePfail = false := by
      rw [Bool.and_eq_true_iff, Bool.not_eq_true']
    exact ⟨fun h => hfalls.trans (congrArg Host.Outcome.next (if_pos (hlost.2 h))),
      fun h => hfalls.trans (congrArg Host.Outcome.next (if_neg (h ∘ hlost.1)))⟩
  case timeout => exact congrArg Host.Outcome.next (if_pos ⟨hdormant, hreq, hgood, hdue⟩)

end Sys2Proof.Machine
end

section
/-! What programming the write buffer leaves alone: firmware, its flash and OTP (08 R242, R252; 09 R281). -/

namespace Sys2Proof.Machine

theorem State.RecordsOnly.fw {s u : State} (h : s.RecordsOnly u) : u.fw = s.fw := by
  have hu : u = s.withRecorder u := h
  rw [hu]

theorem State.foldl_fw {α : Type} {f : State → α → State} (hf : ∀ s x, (f s x).fw = s.fw) (l : List α) (s : State) :
    (l.foldl f s).fw = s.fw :=
  List.foldlRecOn (motive := fun u : State => u.fw = s.fw) l f rfl fun u hu x _ => (hf u x).trans hu

section Streams

variable (s : State)

@[simp] theorem State.slcFollow_fw : s.slcFollow.fw = s.fw := by
  rw [State.slcFollow]
  split <;> rfl

theorem State.openRaw_fw {s u : State} {x : Superblock} {stream ds : Nat} (h : s.openRaw stream ds = some (u, x)) : u.fw = s.fw := by
  rw [State.openRaw] at h
  split at h
  · cases h
  · obtain ⟨rfl, -⟩ := Prod.mk.inj (Option.some.inj h)
    exact State.slcFollow_fw _

@[simp] theorem State.moveOn_fw (stream : Nat) (u : UnitId) : (s.moveOn stream u).1.fw = s.fw := by
  have hleave : (s.leaveUnit stream u).fw = s.fw := rfl
  simp only [State.moveOn]
  split
  · exact hleave
  · split
    · exact (State.openRaw_fw ‹_›).trans hleave
    · exact hleave

@[simp] theorem State.afterPart_fw (stream : Nat) (u : UnitId) (off cap : Nat) : (s.afterPart stream u off cap).1.fw = s.fw := by
  rw [State.afterPart]
  split
  · rfl
  · exact s.moveOn_fw stream u

theorem State.fill_fw (fuel : Nat) (s : State) (stream : Nat) (pin : Option Nat) (len : Nat) (a : Option Nat) (us : List UnitId)
    (op : List Superblock) : (State.fill fuel s stream pin len a us op).1.fw = s.fw := by
  induction fuel generalizing s pin len a us op with
  | zero => rfl
  | succ n ih =>
    rw [State.fill]
    split
    · split
      · exact (ih ..).trans (State.openRaw_fw ‹_›)
      · split <;> exact ih ..
    · dsimp only
      split
      · exact State.afterPart_fw ..
      · exact (ih ..).trans (State.afterPart_fw ..)

end Streams

section Journal

variable (s : State)

@[simp] theorem State.logSysOpen_fw (x : Superblock) : (s.logSysOpen x).fw = s.fw := by
  rw [State.logSysOpen]
  split <;> rfl

@[simp] theorem State.journal_fw (len : Nat) (b : RecBody) : (s.journal len b).fw = s.fw := by
  have hfill := State.fill_fw (s.fillFuel len) s 1 none len none [] []
  rw [State.journal]
  generalize State.fill (s.fillFuel len) s 1 none len none [] [] = x at hfill ⊢
  exact (State.foldl_fw (fun s x => s.logSysOpen_fw x) _ _).trans hfill

@[simp] theorem State.logOpens_fw (l : List Superblock) : (s.logOpens l).fw = s.fw := by
  refine State.foldl_fw (fun s x => ?_) l s
  split
  · exact s.logSysOpen_fw x
  · exact s.journal_fw _ _

@[simp] theorem State.sbTo_fw (ds sb : Nat) (st : SbState) : (s.sbTo ds sb st).fw = s.fw := by
  rw [State.sbTo]
  split
  case h_1 x _ =>
    split
    · rfl
    · exact s.journal_fw 32 (.sbState ds sb st x.erases)
  case h_2 => rfl

@[simp] theorem State.closeFull_fw (ds sb : Nat) : (s.closeFull ds sb).fw = s.fw := by
  rw [State.closeFull]
  split
  · split
    · exact s.sbTo_fw _ _ _
    · rfl
  · rfl

@[simp] theorem State.checkWrap_fw : s.checkWrap.fw = s.fw := by
  rw [State.checkWrap]
  split
  · exact (State.event_recordsOnly _ _ _).fw
  · rfl

@[simp] theorem State.useCounter_fw (n : Nat) : (s.useCounter n).fw = s.fw := by
  have hwrap := State.checkWrap_fw { s with sec := { s.sec with counter := s.sec.counter + n } }
  simp only [State.useCounter]
  split
  · exact (State.journal_fw _ _ _).trans hwrap
  · exact hwrap

end Journal

section Units

variable (s : State)

@[simp] theorem State.rowCheck_fw (ds sb wl : Nat) : (s.rowCheck ds sb wl).fw = s.fw := by
  rw [State.rowCheck]
  split
  · rfl
  · split
    · rfl
    · split
      · dsimp only
        split <;> rfl
      · rfl

@[simp] theorem State.rowUnit_fw (u : UnitId) (pages : List Bytes) : (s.rowUnit u pages).fw = s.fw := by
  rw [State.rowUnit]
  split
  · rfl
  · exact State.rowCheck_fw _ _ _ _

@[simp] theorem State.unitDone_fw (u : UnitId) (flush : Bool) : (s.unitDone u flush).1.fw = s.fw := by
  simp only [State.unitDone, State.settleUnit, State.closeFull_fw, State.useCounter_fw, State.rowUnit_fw, State.stirred_fw]
  split
  · exact (State.logOpens_fw _ _).trans (State.moveOn_fw _ _ _)
  · rfl

theorem State.flushUnits_fw (l : List UnitId) : (s.flushUnits l).fw = s.fw := by
  refine State.foldl_fw (fun s u => ?_) l s
  split
  · exact s.unitDone_fw u true
  · rfl

theorem State.remap_fw (r : MediaRec) (new : Nat) : (s.remap r new).fw = s.fw := by
  simp only [State.remap]
  split <;> rfl

theorem State.reappend_fw (r : MediaRec) (stream : Nat) : (s.reappend r stream).fw = s.fw := by
  have hfill (pin : Option Nat) := State.fill_fw (s.fillFuel r.len) s stream pin r.len none [] []
  rw [State.reappend]
  generalize (if stream = 2 then some (addrParts r.addr).1 else none) = pin
  specialize hfill pin
  generalize State.fill (s.fillFuel r.len) s stream pin r.len none [] [] = x at hfill ⊢
  have hopens := (x.1.logOpens_fw x.2.2.2).trans hfill
  dsimp only
  split
  · exact hopens
  · exact (State.remap_fw _ _ _).trans hopens

theorem State.appendBatch_fw : s.appendBatch.fw = s.fw := by
  simp only [State.appendBatch]
  split
  · rfl
  · exact s.journal_fw (16 + 32 * (s.evs.staged.take 1024).length) (.events (s.evs.staged.take 1024))

theorem State.writeBuffer_fw (cut : Option Nat) : (s.writeBuffer cut).1.fw = s.fw := by
  have hrunning := State.foldl_fw fun s u => State.unitDone_fw s u false
  have hnative := State.foldl_fw fun s r => State.reappend_fw s r 0
  simp only [State.writeBuffer, State.flushUnits_fw, hnative, hrunning, State.appendBatch_fw]
  split <;> rfl

end Units

end Sys2Proof.Machine
end

section
/-! Resets and standby power (12 R349, R353, R359; 13 R377, R378, R386). -/

namespace Sys2Proof.Machine

section Reset

variable (s : State)

theorem State.cutFlush_fw : s.cutFlush.fw = s.fw := by
  rw [State.cutFlush]
  split
  · exact State.writeBuffer_fw _ _
  · rfl

theorem State.condOff_frame (c : Nat) : s.condOff c = { s with dict := (s.condOff c).dict, shelf := (s.condOff c).shelf } := by
  simp only [State.condOff]
  split
  · split
    · exact State.emcy_frame _ _ _ _ _
    · rfl
  · rfl

theorem State.loseMain_sessions : s.loseMain.net.sessions = [] := by
  rw [State.loseMain, State.condOff_frame]
  rfl

theorem State.loseMain_cmds : s.loseMain.kv.cmds = [] := by
  rw [State.loseMain, State.condOff_frame]
  rfl

/-- Main power's loss takes the staged image, a live activation and Lace's state, and nothing that is kept (13 R371). -/
theorem State.loseMain_fw : s.loseMain.fw = { s.fw with staged := {}, act := {}, lace := {} } := by
  rw [State.loseMain, State.condOff_frame]
  rfl

/-- What the reset of PD_AON sets anew (13 R378): Heel is as at the first rise of VSTBY. -/
theorem State.aonReset_heel (power : Bool) :
    let u := s.aonReset power
    u.mode.mode = .dormant ∧ u.mode.phase = .idle ∧ u.mode.pwrReq = false ∧ u.shelf.queue = [] ∧ u.evs.heel = [] ∧ u.dict.heel = [] ∧
      u.clk.rtcInvalid = true ∧ u.site.st = 0 := by
  simp only [State.aonReset]
  decide

theorem State.aonReset_sessions (power : Bool) : (s.aonReset power).net.sessions = [] := s.cutFlush.loseMain_sessions

theorem State.aonReset_cmds (power : Bool) : (s.aonReset power).kv.cmds = [] := s.cutFlush.loseMain_cmds

/-- Flash and OTP outlast the reset of PD_AON (13 R378). -/
theorem State.aonReset_fw (power : Bool) : (s.aonReset power).fw = { s.fw with staged := {}, act := {}, lace := {} } :=
  s.cutFlush.loseMain_fw.trans (by rw [s.cutFlush_fw])

end Reset

section Pins

variable {s : State} (t : Nat)

theorem execWarmRstNLow_long {d : Nat} (hlong : 1000 ≤ d) :
    execWarmRstNLow t d s = .next (({ s.advance t with mode := { s.mode with warmRstN := false } } : State).resetFlush trWarm) := by
  simp only [execWarmRstNLow, State.pinTaken_long _ hlong, if_true]
  rfl

theorem execPorNLow_long {d : Nat} (hlong : 1000 ≤ d) :
    let u := (s.advance t).aonReset false
    execPorNLow t d s = .next { u with mode := { u.mode with porN := false } } := by
  simp only [execPorNLow, State.pinTaken_long _ hlong, if_true]

/-- The rise releases a warm reset whose flush has ended (13 R378). -/
theorem execWarmRstNRise_held (hphase : s.mode.phase = .resetHeld) (hawake : s.mode.held ≠ some .dormant) :
    execWarmRstNRise t s = .next (({ s.advance t with mode := { s.mode with warmRstN := true } } : State).warmMuster s.mode.trig) :=
  congrArg Host.Outcome.next ((if_pos hphase).trans (if_neg hawake))

theorem execPorNRise_low (hporN : s.mode.porN = false) (hvstby : s.mode.vstby = true) :
    execPorNRise t s = .next ({ s.advance t with mode := { s.mode with porN := true } } : State).heelStart :=
  congrArg Host.Outcome.next ((if_neg (Bool.eq_false_iff.1 hporN)).trans (if_pos hvstby))

theorem execVstbyApply_absent (hvstby : s.mode.vstby = false) (hporN : s.mode.porN = true) :
    execVstbyApply t s = .next ({ s.advance t with
      mode := { s.mode with vstby := true }, dict := { s.dict with vals := s.dict.vals.filter fun x => x.1 / 256 != 0x2003 } } : State).heelStart :=
  congrArg Host.Outcome.next ((if_neg (Bool.eq_false_iff.1 hvstby)).trans (if_pos hporN))

/-- XTAL32K is stable: the CAN controller starts, with the boot-up message where it is owed (13 R386). -/
theorem execXtal32kStable_starting (hstarting : (s.src .xtal32k).st = .starting) {u v : State}
    (hv : v = ((s.advance t).srcTo .xtal32k .healthy 0).srcTo .wosc .healthy 0) (hu : u = { v with clk := { v.clk with woscTrimHeld := true } }) :
    execXtal32kStable t s
      = .next (if u.shelf.bootOwed then u.bootUp else { u with shelf := { u.shelf with running := true, lastTraffic := u.now } }) := by
  subst hu hv
  exact congrArg Host.Outcome.next (if_pos hstarting)

end Pins

/-- Settles O32: each command takes the branch that its hypotheses name, and the reset of PD_AON sets the parts that it names anew,
while flash and OTP stand through the cut flush. That it clears Heel's retention SRAM and sets RTC_INVALID is the model's choice
(log 75). -/
theorem resetsAndStandby : Obligations.ResetsAndStandby := by
  intro s t a
  refine ⟨?warm, ?rise, ?por, ?porRise, ?vstby, ?vstbyLoss, ?stable, ?reset⟩
  case warm => exact fun d hlong => execWarmRstNLow_long t hlong
  case rise => exact fun hphase hawake => execWarmRstNRise_held t hphase hawake
  case por => exact fun d hlong => execPorNLow_long t hlong
  case porRise => exact fun hporN hvstby => execPorNRise_low t hporN hvstby
  case vstby => exact fun hvstby hporN => execVstbyApply_absent t hvstby hporN
  case vstbyLoss => exact fun hvstby => congrArg Host.Outcome.next (if_pos hvstby)
  case stable =>
    intro hstarting v u
    have hstarts : exec (.xtal32kStable t) s = _ := execXtal32kStable_starting t hstarting (u := u) (v := v) rfl rfl
    clear_value u
    exact ⟨fun howed => hstarts.trans (congrArg Host.Outcome.next (if_pos howed)),
      fun hpaid => hstarts.trans (congrArg Host.Outcome.next (if_neg (Bool.eq_false_iff.1 hpaid)))⟩
  case reset =>
    intro power
    obtain ⟨hmode, hphase, hreq, hqueue, hevents, hdict, hrtc, hsite⟩ := a.aonReset_heel power
    have hfw := a.aonReset_fw power
    exact ⟨hmode, hphase, hreq, hqueue, hevents, hdict, hrtc, a.aonReset_sessions power, a.aonReset_cmds power, hsite,
      (congrArg Fw.flash hfw).trans rfl, (congrArg Fw.otp hfw).trans rfl⟩

end Sys2Proof.Machine
end
